-- ==== Sys2Proof/Word.lean ====
section
/-! DEFINITION. The word types of the machine and their plainest arithmetic (R2, R4, R5). -/

namespace Sys2Proof

/-- A byte of memory. -/
abbrev Byte := BitVec 8
/-- A scalar register value, 64 bits (R117). -/
abbrev Word := BitVec 64
/-- A vector register value, 512 bits (R117). -/
abbrev Vec := BitVec 512
/-- One instruction word, 32 bits (R86). -/
abbrev Insn := BitVec 32

/-- `a[hi:lo]` of R4 as a number. -/
def Word.field (w : Word) (hi lo : Nat) : Nat := (w.toNat >>> lo) % 2 ^ (hi + 1 - lo)

/-- The truth of bit `i`. -/
def Word.bit (w : Word) (i : Nat) : Bool := w.getLsbD i

end Sys2Proof
end

