-- ==== Sys2Proof/Syntax.lean ====
section
/-! DEFINITION. Every row of spec/opcode_table.json as one constructor of `Instr`.
The first 222 are the 32-bit instruction words of R92-R103; their arguments are the fields of the
word, named as the table names them.  The last 103 are the part's steps that have no encoding: what
the host, the firmware, a home, an engine, a network or the scheduler does; their arguments say which
message, core, quad, unit, slot or queue the step concerns. -/

namespace Sys2Proof

/-- The five-bit register field of R96. -/
abbrev Reg := BitVec 5

/-- The part of every instruction word that R92 puts above the major opcode: the switch marker
and the guard code of R93. -/
structure Head where
  /-- switch marker, bit [31] (R94) -/
  sw : Bool
  /-- guard code, bits [30:28] (R93) -/
  g : BitVec 3
  deriving DecidableEq, Repr, Inhabited

/-- One step of the part: an instruction word or an event of the operation table.
REP carries no switch marker and FMT neither marker nor guard (R94, R97), so REP's marker is a
check of WellFormed and FMT has no head. -/
inductive Instr where
  /-- NOP (R143): Does nothing. -/
  | nop (h : Head)
  /-- BRK (R143): Raises breakpoint 0x0D with tval set to the code, or halts the core when halt on breakpoint is set. -/
  | brk (h : Head) (c : BitVec 5)
  /-- TRAP (R143): Raises software trap 0x0C with tval set to the code. -/
  | trap (h : Head) (c : BitVec 5)
  /-- IRET (R144): Returns from a trap handler: restores the PC from tpc, clears tstat[16] and resumes prefix, REP and loop state. -/
  | iret (h : Head)
  /-- YIELD (R145): Puts the context last in round-robin order; it is a cancellation point. -/
  | yield (h : Head)
  /-- DONE (R146): Parks until no pending bit is set and every write is applied, then retires or cancels the task. -/
  | done (h : Head)
  /-- SETC (R143): Sets the current colour in tstat[3:1]. -/
  | setc (h : Head) (c : BitVec 5)
  /-- ADD (R132): Writes a + b into x[rd]. -/
  | add (h : Head) (d : Reg) (a : Reg) (b : Reg)
  /-- SUB (R132): Writes a − b into x[rd]. -/
  | sub (h : Head) (d : Reg) (a : Reg) (b : Reg)
  /-- AND (R132): Writes the bitwise AND into x[rd]. -/
  | and (h : Head) (d : Reg) (a : Reg) (b : Reg)
  /-- OR (R132): Writes the bitwise OR into x[rd]. -/
  | or (h : Head) (d : Reg) (a : Reg) (b : Reg)
  /-- XOR (R132): Writes the bitwise XOR into x[rd]. -/
  | xor (h : Head) (d : Reg) (a : Reg) (b : Reg)
  /-- ANDN (R132): Writes a AND NOT b into x[rd]. -/
  | andn (h : Head) (d : Reg) (a : Reg) (b : Reg)
  /-- ORN (R132): Writes a OR NOT b into x[rd]. -/
  | orn (h : Head) (d : Reg) (a : Reg) (b : Reg)
  /-- SLL (R132): Shifts a left by b[5:0]. -/
  | sll (h : Head) (d : Reg) (a : Reg) (b : Reg)
  /-- SRL (R132): Shifts a right logically by b[5:0]. -/
  | srl (h : Head) (d : Reg) (a : Reg) (b : Reg)
  /-- SRA (R132): Shifts a right arithmetically by b[5:0]. -/
  | sra (h : Head) (d : Reg) (a : Reg) (b : Reg)
  /-- ROR (R132): Rotates a right by b[5:0]. -/
  | ror (h : Head) (d : Reg) (a : Reg) (b : Reg)
  /-- SLT (R132): Writes 1 if a < b signed, else 0. -/
  | slt (h : Head) (d : Reg) (a : Reg) (b : Reg)
  /-- SLTU (R132): Writes 1 if a < b unsigned, else 0. -/
  | sltu (h : Head) (d : Reg) (a : Reg) (b : Reg)
  /-- SEQ (R132): Writes 1 if a = b, else 0. -/
  | seq (h : Head) (d : Reg) (a : Reg) (b : Reg)
  /-- SNE (R132): Writes 1 if a ≠ b, else 0. -/
  | sne (h : Head) (d : Reg) (a : Reg) (b : Reg)
  /-- MIN (R132): Writes the signed minimum. -/
  | min (h : Head) (d : Reg) (a : Reg) (b : Reg)
  /-- MAX (R132): Writes the signed maximum. -/
  | max (h : Head) (d : Reg) (a : Reg) (b : Reg)
  /-- MINU (R132): Writes the unsigned minimum. -/
  | minu (h : Head) (d : Reg) (a : Reg) (b : Reg)
  /-- MAXU (R132): Writes the unsigned maximum. -/
  | maxu (h : Head) (d : Reg) (a : Reg) (b : Reg)
  /-- SH1ADD (R132): Writes (a << 1) + b. -/
  | sh1add (h : Head) (d : Reg) (a : Reg) (b : Reg)
  /-- SH2ADD (R132): Writes (a << 2) + b. -/
  | sh2add (h : Head) (d : Reg) (a : Reg) (b : Reg)
  /-- SH3ADD (R132): Writes (a << 3) + b. -/
  | sh3add (h : Head) (d : Reg) (a : Reg) (b : Reg)
  /-- CLZ (R132): Counts the leading zeros of a. -/
  | clz (h : Head) (d : Reg) (a : Reg)
  /-- CTZ (R132): Counts the trailing zeros of a. -/
  | ctz (h : Head) (d : Reg) (a : Reg)
  /-- POPC (R132): Counts the one bits of a. -/
  | popc (h : Head) (d : Reg) (a : Reg)
  /-- SEXTB (R132): Sign-extends a[7:0]. -/
  | sextb (h : Head) (d : Reg) (a : Reg)
  /-- SEXTH (R132): Sign-extends a[15:0]. -/
  | sexth (h : Head) (d : Reg) (a : Reg)
  /-- SEXTW (R132): Sign-extends a[31:0]. -/
  | sextw (h : Head) (d : Reg) (a : Reg)
  /-- ZEXTB (R132): Zero-extends a[7:0]. -/
  | zextb (h : Head) (d : Reg) (a : Reg)
  /-- ZEXTH (R132): Zero-extends a[15:0]. -/
  | zexth (h : Head) (d : Reg) (a : Reg)
  /-- ZEXTW (R132): Zero-extends a[31:0]. -/
  | zextw (h : Head) (d : Reg) (a : Reg)
  /-- REV8 (R132): Reverses the bytes of a. -/
  | rev8 (h : Head) (d : Reg) (a : Reg)
  /-- MUL (R133): Writes the low 64 bits of the product. -/
  | mul (h : Head) (d : Reg) (a : Reg) (b : Reg)
  /-- MULH (R133): Writes the high 64 bits of the signed product. -/
  | mulh (h : Head) (d : Reg) (a : Reg) (b : Reg)
  /-- MULHU (R133): Writes the high 64 bits of the unsigned product. -/
  | mulhu (h : Head) (d : Reg) (a : Reg) (b : Reg)
  /-- MULHSU (R133): Writes the high 64 bits of the signed × unsigned product. -/
  | mulhsu (h : Head) (d : Reg) (a : Reg) (b : Reg)
  /-- DIV (R133): Writes the signed quotient rounded toward zero. -/
  | div (h : Head) (d : Reg) (a : Reg) (b : Reg)
  /-- DIVU (R133): Writes the unsigned quotient. -/
  | divu (h : Head) (d : Reg) (a : Reg) (b : Reg)
  /-- REM (R133): Writes the signed remainder. -/
  | rem (h : Head) (d : Reg) (a : Reg) (b : Reg)
  /-- REMU (R133): Writes the unsigned remainder. -/
  | remu (h : Head) (d : Reg) (a : Reg) (b : Reg)
  /-- ADDI (R134): Adds a sign-extended immediate. -/
  | addi (h : Head) (d : Reg) (a : Reg) (i : BitVec 12)
  /-- ANDI (R134): ANDs with a sign-extended immediate. -/
  | andi (h : Head) (d : Reg) (a : Reg) (i : BitVec 12)
  /-- ORI (R134): ORs with a sign-extended immediate. -/
  | ori (h : Head) (d : Reg) (a : Reg) (i : BitVec 12)
  /-- XORI (R134): XORs with a sign-extended immediate. -/
  | xori (h : Head) (d : Reg) (a : Reg) (i : BitVec 12)
  /-- SLLI (R134): Shifts left by an immediate amount. -/
  | slli (h : Head) (d : Reg) (a : Reg) (n : BitVec 6)
  /-- SRLI (R134): Shifts right logically by an immediate amount. -/
  | srli (h : Head) (d : Reg) (a : Reg) (n : BitVec 6)
  /-- SRAI (R134): Shifts right arithmetically by an immediate amount. -/
  | srai (h : Head) (d : Reg) (a : Reg) (n : BitVec 6)
  /-- RORI (R134): Rotates right by an immediate amount. -/
  | rori (h : Head) (d : Reg) (a : Reg) (n : BitVec 6)
  /-- SLTI (R134): Signed compare with an immediate. -/
  | slti (h : Head) (d : Reg) (a : Reg) (i : BitVec 12)
  /-- SLTIU (R134): Unsigned compare with an immediate. -/
  | sltiu (h : Head) (d : Reg) (a : Reg) (i : BitVec 12)
  /-- LUI (R135): Loads sext(imm17 << 15, 32). -/
  | lui (h : Head) (d : Reg) (i : BitVec 17)
  /-- LIL (R135): ORs a 17-bit immediate into x[rd]. -/
  | lil (h : Head) (d : Reg) (i : BitVec 17)
  /-- LB (R192): Loads a sign-extended byte, either from the local window or from a global home with a pending destination. -/
  | lb (h : Head) (d : Reg) (a : Reg) (i : BitVec 12)
  /-- LH (R192): Loads a sign-extended halfword. -/
  | lh (h : Head) (d : Reg) (a : Reg) (i : BitVec 12)
  /-- LW (R192): Loads a sign-extended word. -/
  | lw (h : Head) (d : Reg) (a : Reg) (i : BitVec 12)
  /-- LD (R192): Loads a doubleword. -/
  | ld (h : Head) (d : Reg) (a : Reg) (i : BitVec 12)
  /-- LBU (R192): Loads a zero-extended byte. -/
  | lbu (h : Head) (d : Reg) (a : Reg) (i : BitVec 12)
  /-- LHU (R192): Loads a zero-extended halfword. -/
  | lhu (h : Head) (d : Reg) (a : Reg) (i : BitVec 12)
  /-- LWU (R192): Loads a zero-extended word. -/
  | lwu (h : Head) (d : Reg) (a : Reg) (i : BitVec 12)
  /-- SB (R193): Stores a byte: a local write, a plain store message or a join message. -/
  | sb (h : Head) (d : Reg) (a : Reg) (i : BitVec 12)
  /-- SH (R193): Stores a halfword. -/
  | sh (h : Head) (d : Reg) (a : Reg) (i : BitVec 12)
  /-- SW (R193): Stores a word. -/
  | sw (h : Head) (d : Reg) (a : Reg) (i : BitVec 12)
  /-- SD (R193): Stores a doubleword. -/
  | sd (h : Head) (d : Reg) (a : Reg) (i : BitVec 12)
  /-- VLD (R196): Loads 64 aligned bytes into a vector register. -/
  | vld (h : Head) (d : Reg) (a : Reg) (i : BitVec 12)
  /-- VST (R196): Stores 64 aligned bytes from a vector register. -/
  | vst (h : Head) (d : Reg) (a : Reg) (i : BitVec 12)
  /-- VLDX (R198): Indexed element-wise vector load. -/
  | vldx (h : Head) (d : Reg) (a : Reg) (b : Reg) (k : BitVec 3) (w : BitVec 2)
  /-- VSTX (R198): Indexed element-wise vector store. -/
  | vstx (h : Head) (d : Reg) (a : Reg) (b : Reg) (k : BitVec 3) (w : BitVec 2)
  /-- VLDS (R198): Strided element-wise vector load. -/
  | vlds (h : Head) (d : Reg) (a : Reg) (b : Reg) (k : BitVec 3) (w : BitVec 2)
  /-- VSTS (R198): Strided element-wise vector store. -/
  | vsts (h : Head) (d : Reg) (a : Reg) (b : Reg) (k : BitVec 3) (w : BitVec 2)
  /-- GET (R201): Requests a fill-once value; the destination stays pending until the cell is filled. -/
  | get (h : Head) (d : Reg) (a : Reg) (i : BitVec 12)
  /-- THR (R204): Threshold read: waits until the cell passes a member of the tumbler set and returns that member's index. -/
  | thr (h : Head) (d : Reg) (a : Reg) (b : Reg) (n : BitVec 3)
  /-- BOLT (R211): Fences every colour, sends bolts to the homes of the blocks and parks until every home acknowledges. -/
  | bolt (h : Head) (a : Reg) (b : Reg)
  /-- CLEAR (R213): From the group leader, checks the barrier generations and then returns bolted blocks to bottom. -/
  | clear (h : Head) (a : Reg) (b : Reg)
  /-- BREL (R224): Releases a full buffer at its home. -/
  | brel (h : Head) (a : Reg)
  /-- CTYPE (R214): Reports the translation of an address in a pending register. -/
  | ctype (h : Head) (d : Reg) (a : Reg)
  /-- BDECL (R223): Redeclares a buffer's consumers and its fill cell. -/
  | bdecl (h : Head) (a : Reg) (b : Reg)
  /-- FENCE (R291): Parks until the task's messages of the masked colours are applied, then surfaces open faults. -/
  | fence (h : Head) (m : BitVec 8)
  /-- FENCE_SYS (R291): As FENCE, and also waits for host visibility. -/
  | fenceSys (h : Head) (m : BitVec 8)
  /-- BEQ (R137): Branches if equal. -/
  | beq (h : Head) (a : Reg) (b : Reg) (o : BitVec 12)
  /-- BNE (R137): Branches if not equal. -/
  | bne (h : Head) (a : Reg) (b : Reg) (o : BitVec 12)
  /-- BLT (R137): Branches if less than, signed. -/
  | blt (h : Head) (a : Reg) (b : Reg) (o : BitVec 12)
  /-- BGE (R137): Branches if greater than or equal, signed. -/
  | bge (h : Head) (a : Reg) (b : Reg) (o : BitVec 12)
  /-- BLTU (R137): Branches if less than, unsigned. -/
  | bltu (h : Head) (a : Reg) (b : Reg) (o : BitVec 12)
  /-- BGEU (R137): Branches if greater than or equal, unsigned. -/
  | bgeu (h : Head) (a : Reg) (b : Reg) (o : BitVec 12)
  /-- BRP (R138): Branches when a predicate equals the sense bit. -/
  | brp (h : Head) (p : BitVec 3) (t : BitVec 1) (o : BitVec 12)
  /-- J (R139): Jumps relative. -/
  | j (h : Head) (o : BitVec 22)
  /-- JAL (R139): Jumps relative and links in x1. -/
  | jal (h : Head) (o : BitVec 22)
  /-- JALR (R139): Jumps to a register plus an offset and links. -/
  | jalr (h : Head) (d : Reg) (a : Reg) (i : BitVec 12)
  /-- LOOP (R140): Opens a hardware loop whose count comes from a register. -/
  | loop (h : Head) (l : BitVec 1) (a : Reg) (n : BitVec 12)
  /-- LOOPI (R140): Opens a hardware loop with an immediate count. -/
  | loopi (h : Head) (l : BitVec 1) (c : BitVec 9) (n : BitVec 12)
  /-- PEQ (R136): Sets a predicate if equal. -/
  | peq (h : Head) (d : BitVec 3) (a : Reg) (b : Reg)
  /-- PNE (R136): Sets a predicate if not equal. -/
  | pne (h : Head) (d : BitVec 3) (a : Reg) (b : Reg)
  /-- PLT (R136): Sets a predicate if less than, signed. -/
  | plt (h : Head) (d : BitVec 3) (a : Reg) (b : Reg)
  /-- PGE (R136): Sets a predicate if greater than or equal, signed. -/
  | pge (h : Head) (d : BitVec 3) (a : Reg) (b : Reg)
  /-- PLTU (R136): Sets a predicate if less than, unsigned. -/
  | pltu (h : Head) (d : BitVec 3) (a : Reg) (b : Reg)
  /-- PGEU (R136): Sets a predicate if greater than or equal, unsigned. -/
  | pgeu (h : Head) (d : BitVec 3) (a : Reg) (b : Reg)
  /-- PAND (R136): ANDs two predicates. -/
  | pand (h : Head) (d : BitVec 3) (a : BitVec 3) (b : BitVec 3)
  /-- POR (R136): ORs two predicates. -/
  | por (h : Head) (d : BitVec 3) (a : BitVec 3) (b : BitVec 3)
  /-- PXOR (R136): XORs two predicates. -/
  | pxor (h : Head) (d : BitVec 3) (a : BitVec 3) (b : BitVec 3)
  /-- PNOT (R136): Inverts a predicate. -/
  | pnot (h : Head) (d : BitVec 3) (a : BitVec 3)
  /-- PMOVX (R136): Sets a predicate if x[rs1] ≠ 0. -/
  | pmovx (h : Head) (d : BitVec 3) (a : Reg)
  /-- MOVPX (R136): Copies a predicate into an x register. -/
  | movpx (h : Head) (d : Reg) (a : BitVec 3)
  /-- SPAWN (R147): Checks a local task record and pushes it at the owner end of the deque. -/
  | spawn (h : Head) (a : Reg)
  /-- SPAWNAT (R147): Checks a task record and sends it on its hint walk. -/
  | spawnat (h : Head) (a : Reg)
  /-- JOIN (R149): Parks until a CNT cell reaches a count. -/
  | join (h : Head) (a : Reg) (b : Reg)
  /-- CANCEL (R150): Sends a cancel request naming every record and task with the given exit cell. -/
  | cancel (h : Head) (a : Reg)
  /-- BAR (R300): Arrives at a barrier and waits for the release that consumes the arrival. -/
  | bar (h : Head) (a : Reg)
  /-- BARA (R300): Arrives at a barrier and records a ticket. -/
  | bara (h : Head) (a : Reg)
  /-- BARW (R300): Waits for the ticket's generation, or for the next release. -/
  | barw (h : Head) (a : Reg)
  /-- CHBIND (R312): Binds or unbinds a channel register to a port. -/
  | chbind (h : Head) (n : BitVec 2) (a : Reg) (b : Reg)
  /-- FORK (R148): Builds a task record for a branch target and pushes it on the deque. -/
  | fork (h : Head) (e : Reg) (o : BitVec 17)
  /-- HCALL (R302): Ships a hinge entry and its payload to the target unit of an address. -/
  | hcall (h : Head) (d : Reg) (a : Reg) (e : BitVec 8) (n : BitVec 3) (w : BitVec 1)
  /-- HRET (R308): Ends a hinge handler once its messages are applied, and sends the reply or end notice. -/
  | hret (h : Head) (a : Reg)
  /-- SEND (R313): Sends a 64-byte vector packet to a channel port. -/
  | send (h : Head) (a : Reg) (b : Reg)
  /-- MFS (R124): Reads a status register. -/
  | mfs (h : Head) (d : Reg) (i : BitVec 12)
  /-- MTS (R124): Writes a status register, with the special checks for xb, tvec and the loop counters. -/
  | mts (h : Head) (a : Reg) (i : BitVec 12)
  /-- REP (R130): Captures the next n arithmetic instructions and replays them with staggered registers. -/
  | rep (h : Head) (n : BitVec 4) (i : BitVec 6) (d : BitVec 2) (a : BitVec 2) (b : BitVec 2)
  /-- FMT (R97): Sets the formats, rounding and saturation of the next instruction. -/
  | fmt (a : BitVec 4) (b : BitVec 4) (d : BitVec 3) (r : BitVec 3) (t : BitVec 1) (c : BitVec 2) (x : BitVec 1)
  /-- QWR (R217): Appends a scalar word to a write queue's assembly buffer, checking and enqueuing completed commands. -/
  | qwr (h : Head) (q : BitVec 3) (a : Reg)
  /-- QRD (R217): Pops a 64-bit element from a read queue into a pending x register. -/
  | qrd (h : Head) (d : Reg) (q : BitVec 3)
  /-- QWRV (R217): Appends eight words from a vector register to a write queue. -/
  | qwrv (h : Head) (q : BitVec 3) (a : Reg)
  /-- QRDV (R217): Pops a 64-byte beat from q3 into a pending vector register. -/
  | qrdv (h : Head) (d : Reg) (q : BitVec 3)
  /-- QCNT (R217): Returns queue room or the number of waiting elements. -/
  | qcnt (h : Head) (d : Reg) (q : BitVec 3)
  /-- VADD (R180): Floating-point lane add. -/
  | vadd (h : Head) (d : Reg) (a : Reg) (b : Reg) (k : BitVec 3)
  /-- VSUB (R180): Floating-point lane subtract. -/
  | vsub (h : Head) (d : Reg) (a : Reg) (b : Reg) (k : BitVec 3)
  /-- VMUL (R180): Floating-point lane multiply. -/
  | vmul (h : Head) (d : Reg) (a : Reg) (b : Reg) (k : BitVec 3)
  /-- VFMA (R180): Fused a × b + d. -/
  | vfma (h : Head) (d : Reg) (a : Reg) (b : Reg) (k : BitVec 3)
  /-- VFMS (R180): Fused a × b − d. -/
  | vfms (h : Head) (d : Reg) (a : Reg) (b : Reg) (k : BitVec 3)
  /-- VFNMA (R180): Fused d − a × b. -/
  | vfnma (h : Head) (d : Reg) (a : Reg) (b : Reg) (k : BitVec 3)
  /-- VMIN (R181): Floating-point lane minimum. -/
  | vmin (h : Head) (d : Reg) (a : Reg) (b : Reg) (k : BitVec 3)
  /-- VMAX (R181): Floating-point lane maximum. -/
  | vmax (h : Head) (d : Reg) (a : Reg) (b : Reg) (k : BitVec 3)
  /-- VABS (R180): Clears the sign bit of each lane. -/
  | vabs (h : Head) (d : Reg) (a : Reg) (k : BitVec 3)
  /-- VNEG (R180): Inverts the sign bit of each lane. -/
  | vneg (h : Head) (d : Reg) (a : Reg) (k : BitVec 3)
  /-- VDIV (R180): Floating-point lane divide. -/
  | vdiv (h : Head) (d : Reg) (a : Reg) (b : Reg) (k : BitVec 3)
  /-- VSQRT (R169): Correctly rounded square root. -/
  | vsqrt (h : Head) (d : Reg) (a : Reg) (k : BitVec 3)
  /-- VRCP (R167): Reciprocal by the fixed algorithm. -/
  | vrcp (h : Head) (d : Reg) (a : Reg) (k : BitVec 3)
  /-- VRSQ (R168): Reciprocal square root by the fixed algorithm. -/
  | vrsq (h : Head) (d : Reg) (a : Reg) (k : BitVec 3)
  /-- VEXP2 (R170): Base-2 exponential by the fixed algorithm. -/
  | vexp2 (h : Head) (d : Reg) (a : Reg) (k : BitVec 3)
  /-- VLOG2 (R170): Base-2 logarithm by the fixed algorithm. -/
  | vlog2 (h : Head) (d : Reg) (a : Reg) (k : BitVec 3)
  /-- VIADD (R182): Integer or RNS lane add. -/
  | viadd (h : Head) (d : Reg) (a : Reg) (b : Reg) (k : BitVec 3)
  /-- VISUB (R182): Integer or RNS lane subtract. -/
  | visub (h : Head) (d : Reg) (a : Reg) (b : Reg) (k : BitVec 3)
  /-- VIMUL (R182): Integer or RNS lane multiply. -/
  | vimul (h : Head) (d : Reg) (a : Reg) (b : Reg) (k : BitVec 3)
  /-- VIMIN (R182): Signed lane minimum. -/
  | vimin (h : Head) (d : Reg) (a : Reg) (b : Reg) (k : BitVec 3)
  /-- VIMAX (R182): Signed lane maximum. -/
  | vimax (h : Head) (d : Reg) (a : Reg) (b : Reg) (k : BitVec 3)
  /-- VIMINU (R182): Unsigned lane minimum. -/
  | viminu (h : Head) (d : Reg) (a : Reg) (b : Reg) (k : BitVec 3)
  /-- VIMAXU (R182): Unsigned lane maximum. -/
  | vimaxu (h : Head) (d : Reg) (a : Reg) (b : Reg) (k : BitVec 3)
  /-- VAND (R182): Lane AND. -/
  | vand (h : Head) (d : Reg) (a : Reg) (b : Reg) (k : BitVec 3)
  /-- VOR (R182): Lane OR. -/
  | vor (h : Head) (d : Reg) (a : Reg) (b : Reg) (k : BitVec 3)
  /-- VXOR (R182): Lane XOR. -/
  | vxor (h : Head) (d : Reg) (a : Reg) (b : Reg) (k : BitVec 3)
  /-- VSLL (R182): Lane shift left. -/
  | vsll (h : Head) (d : Reg) (a : Reg) (b : Reg) (k : BitVec 3)
  /-- VSRL (R182): Lane logical shift right. -/
  | vsrl (h : Head) (d : Reg) (a : Reg) (b : Reg) (k : BitVec 3)
  /-- VSRA (R182): Lane arithmetic shift right. -/
  | vsra (h : Head) (d : Reg) (a : Reg) (b : Reg) (k : BitVec 3)
  /-- VIABS (R182): Lane integer absolute value. -/
  | viabs (h : Head) (d : Reg) (a : Reg) (k : BitVec 3)
  /-- VSADD (R182): Lane add that always saturates. -/
  | vsadd (h : Head) (d : Reg) (a : Reg) (b : Reg) (k : BitVec 3)
  /-- VDOT4 (R183): Four-way i8 dot product accumulated into i32 lanes. -/
  | vdot4 (h : Head) (d : Reg) (a : Reg) (b : Reg) (k : BitVec 3)
  /-- VCEQ (R184): Compares lanes for bitwise equality into a mask. -/
  | vceq (h : Head) (d : BitVec 3) (a : Reg) (b : Reg) (k : BitVec 3)
  /-- VCNE (R184): Compares lanes for bitwise inequality into a mask. -/
  | vcne (h : Head) (d : BitVec 3) (a : Reg) (b : Reg) (k : BitVec 3)
  /-- VCLT (R184): Signed lane less-than into a mask. -/
  | vclt (h : Head) (d : BitVec 3) (a : Reg) (b : Reg) (k : BitVec 3)
  /-- VCLE (R184): Signed lane less-or-equal into a mask. -/
  | vcle (h : Head) (d : BitVec 3) (a : Reg) (b : Reg) (k : BitVec 3)
  /-- VCLTU (R184): Unsigned lane less-than into a mask. -/
  | vcltu (h : Head) (d : BitVec 3) (a : Reg) (b : Reg) (k : BitVec 3)
  /-- VCLEU (R184): Unsigned lane less-or-equal into a mask. -/
  | vcleu (h : Head) (d : BitVec 3) (a : Reg) (b : Reg) (k : BitVec 3)
  /-- VFEQ (R184): Floating value equality into a mask. -/
  | vfeq (h : Head) (d : BitVec 3) (a : Reg) (b : Reg) (k : BitVec 3)
  /-- VFNE (R184): Floating value inequality into a mask. -/
  | vfne (h : Head) (d : BitVec 3) (a : Reg) (b : Reg) (k : BitVec 3)
  /-- VFLT (R184): Floating value less-than into a mask. -/
  | vflt (h : Head) (d : BitVec 3) (a : Reg) (b : Reg) (k : BitVec 3)
  /-- VFLE (R184): Floating value less-or-equal into a mask. -/
  | vfle (h : Head) (d : BitVec 3) (a : Reg) (b : Reg) (k : BitVec 3)
  /-- VBCAST (R185): Broadcasts a scalar into every active lane. -/
  | vbcast (h : Head) (d : Reg) (a : Reg) (k : BitVec 3)
  /-- VSEL (R185): Selects lanes by mask. -/
  | vsel (h : Head) (d : Reg) (a : Reg) (b : Reg) (k : BitVec 3)
  /-- VSHUF (R185): Shuffles lanes by index. -/
  | vshuf (h : Head) (d : Reg) (a : Reg) (b : Reg) (k : BitVec 3)
  /-- VSLDN (R185): Slides lanes down. -/
  | vsldn (h : Head) (d : Reg) (a : Reg) (b : Reg) (k : BitVec 3)
  /-- VSLUP (R185): Slides lanes up. -/
  | vslup (h : Head) (d : Reg) (a : Reg) (b : Reg) (k : BitVec 3)
  /-- VEXT (R186): Extracts one lane into a scalar register. -/
  | vext (h : Head) (d : Reg) (a : Reg) (b : Reg)
  /-- VINS (R186): Inserts a scalar into one lane. -/
  | vins (h : Head) (d : Reg) (a : Reg) (b : Reg) (k : BitVec 3)
  /-- VZIP (R185): Interleaves two registers. -/
  | vzip (h : Head) (d : Reg) (a : Reg) (b : Reg) (k : BitVec 3)
  /-- VUNZIP (R185): De-interleaves even lanes of two registers. -/
  | vunzip (h : Head) (d : Reg) (a : Reg) (b : Reg) (k : BitVec 3)
  /-- VREV (R185): Reverses the lane order. -/
  | vrev (h : Head) (d : Reg) (a : Reg) (k : BitVec 3)
  /-- VCVT (R187): Converts lanes to the target format, or quantises or dequantises one MX block. -/
  | vcvt (h : Head) (d : Reg) (a : Reg) (k : BitVec 3) (t : BitVec 4)
  /-- VRSUM (R189): Pairwise-tree floating sum of the lanes. -/
  | vrsum (h : Head) (d : Reg) (a : Reg) (k : BitVec 3)
  /-- VRMAX (R189): Maximum of the lanes. -/
  | vrmax (h : Head) (d : Reg) (a : Reg) (k : BitVec 3)
  /-- VRMIN (R189): Minimum of the lanes. -/
  | vrmin (h : Head) (d : Reg) (a : Reg) (k : BitVec 3)
  /-- VROR (R189): Bitwise OR of the lanes. -/
  | vror (h : Head) (d : Reg) (a : Reg) (k : BitVec 3)
  /-- VRAND (R189): Bitwise AND of the lanes. -/
  | vrand (h : Head) (d : Reg) (a : Reg) (k : BitVec 3)
  /-- VRISUM (R189): Pairwise-tree integer sum of the lanes. -/
  | vrisum (h : Head) (d : Reg) (a : Reg) (k : BitVec 3)
  /-- KAND (R190): ANDs two masks. -/
  | kand (h : Head) (d : BitVec 3) (a : BitVec 3) (b : BitVec 3)
  /-- KOR (R190): ORs two masks. -/
  | kor (h : Head) (d : BitVec 3) (a : BitVec 3) (b : BitVec 3)
  /-- KXOR (R190): XORs two masks. -/
  | kxor (h : Head) (d : BitVec 3) (a : BitVec 3) (b : BitVec 3)
  /-- KNOT (R190): Inverts a mask. -/
  | knot (h : Head) (d : BitVec 3) (a : BitVec 3)
  /-- KMOVX (R190): Copies a mask into an x register. -/
  | kmovx (h : Head) (d : Reg) (a : BitVec 3)
  /-- XMOVK (R190): Copies an x register into a mask. -/
  | xmovk (h : Head) (d : BitVec 3) (a : Reg)
  /-- KPOPC (R190): Counts the one bits of a mask. -/
  | kpopc (h : Head) (d : Reg) (a : BitVec 3)
  /-- KFIRST (R190): Finds the lowest set bit of a mask. -/
  | kfirst (h : Head) (d : Reg) (a : BitVec 3)
  /-- GZERO (R323): Zeroes a G-block. -/
  | gzero (h : Head) (d : Reg)
  /-- GACC (R323): Accumulates a message into the masked dimensions of a block. -/
  | gacc (h : Head) (d : Reg) (a : Reg) (k : BitVec 3)
  /-- GADD (R323): Adds two G-blocks lane by lane. -/
  | gadd (h : Head) (d : Reg) (a : Reg)
  /-- GSUB (R323): Subtracts two G-blocks lane by lane. -/
  | gsub (h : Head) (d : Reg) (a : Reg)
  /-- GSCH (R324): Eliminates the masked dimensions by Schur complement. -/
  | gsch (h : Head) (d : Reg) (a : Reg) (k : BitVec 3)
  /-- GDMP (R331): Damps a new message against the old one. -/
  | gdmp (h : Head) (d : Reg) (a : Reg) (b : Reg)
  /-- GMEAN (R325): Solves for the mean over the masked dimensions. -/
  | gmean (h : Head) (d : Reg) (a : Reg) (k : BitVec 3)
  /-- GSND (R329): Reserves the mailbox's next version and enqueues the fill of its slot. -/
  | gsnd (h : Head) (d : Reg) (a : Reg)
  /-- GRCV (R330): Delivers the mailbox's next version into a block and recycles the slot. -/
  | grcv (h : Head) (d : Reg) (a : Reg)
  /-- AKEY (R242): Requests the quad's array key and parks until it is granted. -/
  | akey (h : Head)
  /-- AREL (R242): Gives up the array key. -/
  | arel (h : Head)
  /-- MMA (R250): Checks an MMA descriptor and enqueues it at the array. -/
  | mma (h : Head) (a : Reg)
  /-- MGANG (R263): Splits a result into blocks and posts them to the gang slots of other quads. -/
  | mgang (h : Head) (a : Reg) (b : Reg)
  /-- MRES (R259): Resumes the task's held array operations. -/
  | mres (h : Head)
  /-- MZERO (R260): Discards held operations and zeroes the context's accumulator set. -/
  | mzero (h : Head)
  /-- RROW (R256): Writes the handler's row and ends the row handler. -/
  | rrow (h : Head)
  /-- RDROP (R256): Drops the row and ends the row handler. -/
  | rdrop (h : Head)
  /-- MSTAT (R261): Returns the context's array status. -/
  | mstat (h : Head) (d : Reg)
  /-- NBCFG (R278): Checks a parameter block and sends its binding to a near-bank unit. -/
  | nbcfg (h : Head) (a : Reg) (b : Reg)
  /-- NBRUN (R279): Starts a fire-and-forget run of the bound block. -/
  | nbrun (h : Head) (a : Reg)
  /-- NBGET (R279): Starts a run whose reply goes into a pending register. -/
  | nbget (h : Head) (d : Reg) (a : Reg)
  /-- NBREL (R279): Sends an unbind to a near-bank unit. -/
  | nbrel (h : Head) (a : Reg)
  /-- CPY (R225): Checks a basic copy descriptor and enqueues it at the copy engine. -/
  | cpy (h : Head) (a : Reg)
  /-- CPYX (R225): Checks an expert copy descriptor and enqueues it at the copy engine. -/
  | cpyx (h : Head) (a : Reg)
  /-- CSTAT (R237): Returns the context's copy status. -/
  | cstat (h : Head) (d : Reg)
  /-- TASK_FAILURE (R338): A task with tvec 0 or in a double trap waits for its writes, records its failure and frees its context. -/
  | taskFailure (core : Nat) (ctx : Nat)
  /-- KICK (R54): A kick doorbell write updates a mapped queue's tail or sets the pending bit of an unmapped queue. -/
  | kick (q : Nat) (tail : BitVec 16)
  /-- QTAB (R52): Registers the host's QCB table. -/
  | qtab (base : Word) (count : Nat)
  /-- QCREATE (R52): Reads and checks a QCB and makes the queue idle and kickable. -/
  | qcreate (q : Nat)
  /-- SLOTS (R52): Configures the slot count and the ageing interval. -/
  | slots (count : Nat) (ageing : Nat)
  /-- CCREATE (R52): Makes a queue a confidential context keyed by an SPDM session. -/
  | ccreate (q : Nat) (session : Word)
  /-- INFO (R52): Returns the availability-map digest and the lifetime-record pointer. -/
  | info
  /-- SAMPLE (R353): Arms one sampling pulse at a tick. -/
  | sample (tick : Word) (host : Word) (len : Nat)
  /-- REPLAY (R353): Sets record or replay mode for the queue's next LAUNCH or GANG. -/
  | replay (q : Nat) (mode : Nat) (log : Word) (len : Word)
  /-- TWIN (R353): Turns twin mode on or off for the queue's later commands. -/
  | twin (q : Nat) (on : Nat)
  /-- CHKNOW (R360): Pre-empts the running command, runs one CHKPT packet and resumes. -/
  | chknow (q : Nat) (host : Word)
  /-- MBOXLIM (R367): Limits the mailbox entries for the queue's later commands. -/
  | mboxlim (q : Nat) (limit : Nat)
  /-- BAR2_WINDOW_BASE (R51): A write to the BAR2 window base sets the base PA and space of the BAR2 window. -/
  | bar2WindowBase (v : Word)
  /-- BAR2_READ (R51): A host read through BAR2 reads physical memory directly, or all ones for reserved or confidential space. -/
  | bar2Read (off : Nat) (len : Nat)
  /-- BAR2_WRITE (R51): A host write through BAR2 writes physical memory directly, or is dropped for reserved or confidential space. -/
  | bar2Write (off : Nat) (bytes : List Byte)
  /-- REGISTER_WRITE (R50): A write to a BAR0 register with no behaviour of its own, such as the MSI-X table. -/
  | registerWrite (off : Nat) (v : Word)
  /-- FIRMWARE_START (R63): At power-on the ROM checks the patch table, trains the links, tests the tiles and sets ready. -/
  | firmwareStart (patchOk : Bool × Bool) (failed : List Nat)
  /-- LAUNCH (R64): Waits for resources, checks the tables, prepares the regions, loads the image and dispatches the root task. -/
  | launch (slot : Nat)
  /-- GANG (R73): Prepares a gang launch on this package and sends ARM or NOARM to the coordinator. -/
  | gang (slot : Nat)
  /-- COPYH (R56): Checks every page, then copies between host memory and the device. -/
  | copyh (slot : Nat)
  /-- BOLT_PACKET (R56): Checks every block, then bolts them at their homes. -/
  | boltPacket (slot : Nat)
  /-- CLEAR_PACKET (R56): Checks every block, then returns them to bottom and opens them. -/
  | clearPacket (slot : Nat)
  /-- FENCE_PACKET (R56): Completes once the queue's earlier writes are applied, or host-visible for the system kind. -/
  | fencePacket (slot : Nat)
  /-- SIGNAL (R56): Joins a value into one lattice cell. -/
  | signal (slot : Nat)
  /-- DESTROY (R61): Drains the queue, optionally cancelling the running command, then frees the slot and marks the queue destroyed. -/
  | destroy (slot : Nat)
  /-- CHKPT (R359): Streams a region's blocks over the masked Teord links to a checkpoint store. -/
  | chkpt (slot : Nat)
  /-- IB (R58): Executes the packets of an indirect buffer in host memory. -/
  | ib (slot : Nat)
  /-- PACKET_COMPLETE (R57): Joins the completion record, advances head, waits for host visibility and raises the vector. -/
  | packetComplete (slot : Nat)
  /-- AGEING_BOUNDARY (R59): At each ageing boundary, queues waiting throughout the interval gain 1 in eprio. -/
  | ageingBoundary
  /-- ENERGY_SAMPLE (R60): Every 100 µs, charges activity to mapped queues and pre-empts a queue that has exhausted its budget. -/
  | energySample (charges : List (Nat × Nat))
  /-- PERIOD_BOUNDARY (R60): At each period boundary, charged returns to zero and a held queue becomes waiting. -/
  | periodBoundary (q : Nat)
  /-- ARM (R73): An ARM or NOARM message reaches the gang coordinator. -/
  | arm (slot : Nat) (pkg : Nat) (status : BitVec 8 × Nat × List (Nat × Nat))
  /-- GANG_DECIDE (R73): At tick T − M, the coordinator decides COMMIT or ABORT and broadcasts the decision. -/
  | gangDecide (slot : Nat)
  /-- GANG_DECISION (R73): A COMMIT or ABORT message reaches a package, which relays its first copy. -/
  | gangDecision (slot : Nat) (status : BitVec 8 × Nat)
  /-- GANG_START (R73): At tick T, a package with COMMIT dispatches its root; without a decision it completes with link failure. -/
  | gangStart (slot : Nat)
  /-- TERMINATION_WAVE (R81): Every 1,024 cycles, the root collects idle flags, dirty bits and sent-minus-received sums. -/
  | terminationWave (slot : Nat)
  /-- GANG_WAVE_RESULT (R82): A package's wave result reaches package 0, which applies the two-wave rule to the gang. -/
  | gangWaveResult (slot : Nat) (pkg : Nat) (idle : Bool) (dirty : Bool) (sum : Int)
  /-- GANG_FENCE_REPORT (R294): A package's device-wide fence report reaches the gang before any record is joined. -/
  | gangFenceReport (slot : Nat) (pkg : Nat) (status : BitVec 8) (fclass : BitVec 8) (cancel : Bool)
  /-- TASK_START (R75): A free task context takes a ready spilled task or the newest deque record and sets up its registers. -/
  | taskStart (core : Nat)
  /-- TASK_RETIRE (R71): Once its writes are applied, a task retires, bumps its exit cell and frees its context. -/
  | taskRetire (core : Nat) (ctx : Nat)
  /-- STEAL_REQUEST (R78): A victim receives a steal request and gives its oldest qualifying record or refuses. -/
  | stealRequest (n : Nat)
  /-- STOLEN_RECORD (R78): A stolen record reaches the thief and starts, or is pushed onto its deque. -/
  | stolenRecord (n : Nat)
  /-- STEAL_REFUSAL (R78): A refusal reaches the thief, which schedules its next request. -/
  | stealRefusal (n : Nat)
  /-- STEAL_BACKOFF (R78): The back-off wait expires and the idle core asks the next direction. -/
  | stealBackoff (core : Nat)
  /-- SPAWNAT_WALK (R79): A SPAWNAT record reaches a tile on its path and starts there, moves on, or is enqueued or dropped at the hint. -/
  | spawnatWalk (n : Nat)
  /-- SPILL (R80): Spills the earliest-parked eligible context to a spill slot and frame place so that queued work can start. -/
  | spill (core : Nat)
  /-- CANCEL_REQUEST (R84): A cancel request reaches a deque or context, dropping queued records and flagging started tasks. -/
  | cancelRequest (n : Nat)
  /-- RESULT_ARRIVAL (R126): A load, CTYPE, NBGET or pop result arrives and clears its pending bit, possibly readying the context. -/
  | resultArrival (n : Nat)
  /-- WAKE (R206): A wake for GET, THR or JOIN reaches its waiter, its spill slot or its saved state. -/
  | wake (n : Nat)
  /-- STORE_APPLY (R194): A plain store message is applied at its home. -/
  | storeApply (n : Nat)
  /-- JOIN_APPLY (R199): A join message is applied at its home, reports faults and re-decides the cell's latches. -/
  | joinApply (n : Nat)
  /-- JOIN_COMBINE (R208): Two join messages in a router buffer merge into one. -/
  | joinCombine (a : Nat) (b : Nat)
  /-- LOAD_SERVE (R192): A load request is served at its home: plain, exact read, buffer read or fault reply. -/
  | loadServe (n : Nat)
  /-- GET_SERVE (R201): A GET is served at its home, replied to, faulted, or latched. -/
  | getServe (n : Nat)
  /-- THR_SERVE (R204): A THR or JOIN threshold is served at its home, replied to, faulted, or latched. -/
  | thrServe (n : Nat)
  /-- LATCH_RETRY (R205): Every 1,024 cycles, a latch held for want of space is retried. -/
  | latchRetry (n : Nat)
  /-- BOLT_APPLY (R211): A bolt takes effect at its home, records the generation and faults the block's latches. -/
  | boltApply (n : Nat)
  /-- BOLT_ACK (R211): A home's bolt acknowledgement reaches the bolting task. -/
  | boltAck (n : Nat)
  /-- CLEAR_CHECK (R213): A home checks that a block is bolted and that its barrier has advanced. -/
  | clearCheck (n : Nat)
  /-- CLEAR_APPLY (R213): A home writes bottom into a block, opens it and discards its generation. -/
  | clearApply (n : Nat)
  /-- FILL_WRITE (R221): A fill write is applied, dropped or held at the buffer's home, and the fill cell is joined. -/
  | fillWrite (n : Nat)
  /-- BREL_APPLY (R221): A release is counted at the buffer's home, which may drain the buffer and release held writes. -/
  | brelApply (n : Nat)
  /-- BDECL_APPLY (R223): A redeclaration of consumers and fill cell is applied at the buffer's home. -/
  | bdeclApply (n : Nat)
  /-- COPY_COMMAND_RUN (R228): The copy engine walks a command's box, reading, converting and writing elements. -/
  | copyCommandRun (core : Nat) (ctx : Nat)
  /-- COPY_COMPLETE (R237): A copy command's last write is applied, its status word is delivered, and code loads discard fetch buffers. -/
  | copyComplete (core : Nat) (ctx : Nat)
  /-- KEY_GRANT (R243): Grants the free array key to the next requester and saves or restores accumulators. -/
  | keyGrant (quad : Nat)
  /-- ARRAY_KSTEP (R259): The array reads one K-step of operands and sums it, or holds on an operand fault. -/
  | arrayKstep (quad : Nat)
  /-- ARRAY_DRAIN_ROW (R253): Drains one result row to memory, to a row handler or to q3. -/
  | arrayDrainRow (quad : Nat)
  /-- ROW_HANDLER_START (R255): The handler context starts a row handler for a drained row. -/
  | rowHandlerStart (core : Nat)
  /-- NB_BIND (R278): A binding reaches a near-bank unit and is accepted or refused. -/
  | nbBind (n : Nat)
  /-- NB_RUN (R279): A near-bank unit runs, or rejects, a RUN or GET of its bound block. -/
  | nbRun (unit : Nat)
  /-- NB_UNBIND (R279): A near-bank unit unbinds after the task's earlier commands. -/
  | nbUnbind (unit : Nat)
  /-- HINGE_CALL_ARRIVAL (R304): A hinge call reaches a mailbox and is accepted or refused. -/
  | hingeCallArrival (n : Nat)
  /-- HINGE_HANDLER_START (R306): The handler context starts an accepted hinge call's handler. -/
  | hingeHandlerStart (core : Nat)
  /-- HINGE_STATUS_ARRIVAL (R305): An ACCEPT, REFUSE, reply or end notice reaches the caller and sets its registers and hst. -/
  | hingeStatusArrival (n : Nat)
  /-- HINGE_REPLY_TIMEOUT (R310): The hinge reply timer expires, and the call is declared lost. -/
  | hingeReplyTimeout (id : Nat)
  /-- CHANNEL_PACKET_ARRIVAL (R314): A packet reaches a channel port and is placed, refused or discarded. -/
  | channelPacketArrival (n : Nat)
  /-- CHANNEL_RESEND (R313): The resend wait expires and the sending tile resends a refused packet. -/
  | channelResend (n : Nat)
  /-- REDUCTION_ROUND (R316): A reduction server reduces a full round in rank order and forwards or delivers it. -/
  | reductionRound (core : Nat)
  /-- BARRIER_RELEASE (R298): When every arrival line is asserted, the barrier releases, advancing gen and consuming arrivals. -/
  | barrierRelease (b : Nat)
  /-- BARRIER_ARRIVAL_FLIT (R299): A package's arrival flit for a gang barrier reaches package 0. -/
  | barrierArrivalFlit (pkg : Nat) (b : Nat)
  /-- BARRIER_RELEASE_FLIT (R299): A gang barrier's release flit reaches a package, which then releases locally. -/
  | barrierReleaseFlit (b : Nat)
  /-- FLIT_RECEIVE (R18): A Teord flit is received, checked and delivered, or discarded with a replay request. -/
  | flitReceive (link : Nat) (flit : List Byte)
  /-- LINK_RETRAIN (R18): Loss of lane lock, or eight failed replays, starts a link retrain. -/
  | linkRetrain (link : Nat)
  /-- LINK_FAIL_TIMEOUT (R18): A link that is not back within 10 ms is declared failed. -/
  | linkFailTimeout (link : Nat)
  /-- CLOCK_STEP (R20): The firmware changes the arithmetic clock by 100 MHz at a tick boundary. -/
  | clockStep (up : Bool)
  /-- DEBUG_HALT (R348): A debugger halts one core at instruction boundaries. -/
  | debugHalt (core : Nat)
  /-- SINGLE_STEP (R349): Issues one instruction of a halted core's context, then halts again. -/
  | singleStep (core : Nat) (ctx : Nat)
  /-- DEBUG_RESUME (R348): Resumes every context of a halted core where it stopped. -/
  | debugResume (core : Nat)
  /-- SAMPLE_PULSE (R354): At the armed tick, every core latches a sample and each die writes its record. -/
  | samplePulse
  /-- SCRUB (R358): The firmware scrubs every slice and stack once in each 24 hours. -/
  | scrub
  /-- UNCORRECTABLE_ERROR (R358): An uncorrectable error poisons its word and reports or fails as the table states. -/
  | uncorrectableError (kind : Nat) (place : Nat)
  /-- LIFETIME_RECORD_WRITE (R361): Every hour, the firmware writes the alternating copy of the lifetime record. -/
  | lifetimeRecordWrite
  /-- POWER_DOWN (R361): At an orderly power-down, the lifetime record is written. -/
  | powerDown
  /-- REPLAY_ABANDON (R356): A replay point that has held for 10,000,000 ticks abandons replay for the command. -/
  | replayAbandon (slot : Nat)
  /-- TWIN_DIGEST (R357): A bolt digest reaches the mirror home, and a mismatch reports twin divergence. -/
  | twinDigest (n : Nat)
  /-- CHKPT_BLOCK_ACK (R359): The checkpoint store acknowledges a streamed block. -/
  | chkptBlockAck (slot : Nat)
  /-- LINK_RETRAIN_COMPLETE (R18): A retraining Teord link comes back up within 10 ms and resumes carrying flits. -/
  | linkRetrainComplete (link : Nat)
  /-- WALK_COMPLETE (R41): A die walker finishes a translation walk and gives every merged requester its success or failure, filling the TLB on success. -/
  | walkComplete (n : Nat)
  /-- MAILBOX_SERVE (R329): A GSND, GRCV or GDMP request is served at the mailbox home: it reserves a version, delivers a slot, reads the header, faults, or latches. -/
  | mailboxServe (n : Nat)
  /-- MAILBOX_REPLY (R330): The home's reply to a GSND, GRCV or GDMP reaches the parked task, which then enqueues the slot fill or writes the block. -/
  | mailboxReply (n : Nat)
  /-- CHANNEL_PACKET_REPLY (R313): A placement or refusal notice for a channel packet reaches the sending tile, which either releases a parked SEND or starts the resend wait. -/
  | channelPacketReply (n : Nat)
  /-- POWER_FAILURE (R361): Supply is lost without an orderly power-down, losing lifetime counts made since the last write. -/
  | powerFailure
  deriving DecidableEq, Repr

end Sys2Proof
end

