-- ==== Sys2Proof/Machine/State.lean ====
section
/-! DEFINITION. The state of one V-2200 package as plain data, the reasons it can stop, and its state
after reset.  Every piece of state the spec names has a field; what the outside does next is the list
`turns`.  Only types and `State.reset` stand here. -/

namespace Sys2Proof.Machine

/-- Data by number: numbers strictly rising; a number without an entry has the table's default. -/
abbrev Sparse (α : Type) := List (Nat × α)

/-- Who a message, report or command belongs to (R199): package, core, context, task serial (R122),
and the slot of the command, named by the queue that is mapped to it. -/
structure TaskId where
  pkg : Nat
  core : Nat
  ctx : Nat
  serial : Nat
  slot : Nat
  deriving DecidableEq, Repr, Inhabited

/-- The issuer of a message: the task it is attributed to, and the hinge handler run that sent it
(0 when the task or one of its engines or row handlers did). -/
structure Issuer where
  task : TaskId
  via : Nat
  deriving DecidableEq, Repr, Inhabited

/-- What an access waits for at a home (R201, R204, R149, R329-R331). -/
inductive Want where
  /-- GET of `size` bytes (R201) -/
  | get (size : Nat)
  /-- THR with its tumbler set (R204) -/
  | thr (members : List Nat)
  /-- JOIN with its count (R149) -/
  | join (count : Nat)
  /-- GSND's reservation (R329) -/
  | gsnd
  /-- GRCV's delivery (R330) -/
  | grcv
  /-- GDMP's read of the header (R331) -/
  | gdmp
  deriving DecidableEq, Repr, Inhabited

/-- What a home answers. -/
inductive Answer where
  /-- a value for an x register -/
  | word (w : Word)
  /-- a value for a v register -/
  | vec (v : Vec)
  /-- one element of an element-wise vector load (R198) -/
  | lane (i : Nat) (value : Nat)
  /-- a fault found at the home (R195): cause and VA; the lane for an element -/
  | fault (cause va lane : Nat)
  /-- the parking instruction may go on -/
  | pass
  /-- GSND: the version reserved, the message's dimension, and D (R329) -/
  | version (v d depth : Nat)
  /-- GRCV: the 128 bytes of the slot (R330) -/
  | slot (bytes : List Byte)
  /-- GDMP: the mailbox's damping (R331) -/
  | damp (delta : Nat)
  deriving DecidableEq, Repr, Inhabited

/-- A register that waits for an answer: the task's of the message's issuer, or a handler's, by its
package, its core and the number of its run. -/
structure Dest where
  isV : Bool
  reg : Nat
  handler : Option (Nat × Nat × Nat) := none
  deriving DecidableEq, Repr, Inhabited

/-- A hinge call on its way, held in a mailbox or running (R302, R304). -/
structure Call where
  /-- a number of its own -/
  id : Nat
  caller : Issuer
  entry : Nat
  payload : List Word
  target : Nat
  colour : Nat
  group : Nat
  w : Bool
  rd : Nat
  /-- the package and unit that serve it (R303) -/
  pkg : Nat
  unit : Nat
  /-- the caller's grp and exitc, which the handler shows (R122) -/
  grp : Word
  exitc : Word
  tid : Word
  /-- the caller's exception enables (R172) -/
  enables : Word
  /-- the caller's x[rd], in the task or in a handler -/
  dst : Dest
  /-- a posted call that ACCEPT has completed at its caller (R305, R310) -/
  accepted : Bool := false
  deriving DecidableEq, Repr, Inhabited

/-- What comes back to a caller (R304, R305, R308, R309). -/
inductive HingeNote where
  | accept
  | refuse
  /-- reply, or end notice when W = 0 -/
  | ended (reply : Word)
  /-- the handler ended by a trap, once its messages are applied -/
  | failed (rcause : Nat)
  /-- reply lost (R310) -/
  | lost
  deriving DecidableEq, Repr, Inhabited

/-- A channel packet (R313). -/
structure Packet where
  iss : Issuer
  rank : Nat
  rfmt : Nat
  colour : Nat
  data : Vec
  route : Word
  /-- sent by a reduction server (R316) -/
  server : Bool
  tile : Nat
  port : Nat
  /-- the next wait before it is sent again, in cycles (R313) -/
  wait : Nat
  /-- its number in its sender's lane, which it keeps while it is refused (R13, R288) -/
  seq : List Nat := []
  deriving DecidableEq, Repr, Inhabited

/-- A task record (R69). -/
structure Rec where
  words : List Word
  /-- the command's hardware queue slot -/
  slot : Nat
  /-- a cancel named it in the cycle in which it was taken (R77): its task starts flagged -/
  flagged : Bool := false
  deriving DecidableEq, Repr, Inhabited

/-- A binding of a near-bank unit (R278): the block, the physical bases of W, S, V and O, who bound it. -/
structure Binding where
  block : List Word
  bases : List Nat
  /-- cell types of the pages of W, S and V, for the open-block check (R279) -/
  lattice : List Bool
  vas : List Nat
  /-- cell types and width codes of the pages (R30) -/
  cells : List (Nat × Nat) := []
  iss : Issuer
  group : Nat
  colour : Nat
  deriving DecidableEq, Repr, Inhabited

/-- A near-bank command (R278, R279, R281). -/
inductive NbOp where
  | bind (b : Binding)
  /-- RUN or GET: `reg` is the register of NBGET, 32 stands for q5, 33 for no reply -/
  | run (reg : Nat) (frm : Nat) (fseed : Word)
  | rel
  deriving DecidableEq, Repr, Inhabited

/-- Where the buffers of a BUF page's home lie (R218): first physical number, bytes, and width code. -/
structure Chain where
  base : Nat
  len : Nat
  width : Nat
  deriving DecidableEq, Repr, Inhabited

/-- A region descriptor's words 0-4 (R45). -/
structure Region where
  w0 : Word
  w1 : Word
  src : Word
  len : Word
  owner : Word
  deriving DecidableEq, Repr, Inhabited

/-- What a message does where it is going. -/
inductive Body where
  /-- a plain store to a PRIV page (R193, R194) -/
  | store (pa va : Nat) (bytes : List Byte)
  /-- a join (R199); `engine` tells an engine's image from a core's (R31) -/
  | join (pa va ty width : Nat) (data : List Byte) (engine : Bool)
  /-- a fill write (R221) -/
  | fill (pa va : Nat) (ch : Chain) (bytes : List Byte) (close : Bool)
  /-- a load (R192); `lane` is 64 for a whole register -/
  | load (pa va ty size : Nat) (ch : Chain) (signed : Bool) (dst : Dest) (lane : Nat)
  /-- GET, THR, JOIN or a mailbox request -/
  | want (pa va ty width : Nat) (w : Want) (reg : Nat)
  /-- an answer to a pending register (RESULT_ARRIVAL) -/
  | result (dst : Dest) (a : Answer)
  /-- a wake to a waiter on a latch (R206) or an answer to a parked instruction -/
  | wake (dst : Dest) (a : Answer)
  /-- the reply of a mailbox home (MAILBOX_REPLY) -/
  | mreply (a : Answer)
  /-- BOLT at a home (R211) -/
  | bolt (pa va group : Nat)
  | boltAck
  /-- CLEAR's check and effect at a home (R213) -/
  | clearCheck (pa va group ty width : Nat)
  | clearApply (pa va ty width : Nat)
  /-- the answer to a CLEAR check, a clear, a BREL or a BDECL -/
  | ack (a : Answer)
  /-- BREL and BDECL at a buffer's home (R223, R224) -/
  | brel (pa va : Nat) (ch : Chain)
  | bdecl (pa va : Nat) (ch : Chain) (w : Word)
  | hcall (c : Call)
  /-- what a mailbox or handler sends back -/
  | hnote (c : Call) (n : HingeNote)
  | packet (p : Packet)
  /-- placed (true) or refused (false), for the sending tile (R313) -/
  | packetNote (p : Packet) (placed : Bool)
  /-- a near-bank command for a unit -/
  | nb (unit : Nat) (op : NbOp)
  /-- a steal request: thief, victim, direction, and the cycle in which it was sent (R78) -/
  | steal (thief victim dir cycle : Nat)
  /-- a stolen record on its way to the thief, and the cycle in which it was given (R77) -/
  | stolen (thief : Nat) (r : Rec) (cycle : Nat)
  | refusal (thief : Nat)
  /-- a SPAWNAT record on its walk, and the tile it has reached (R79) -/
  | walk (r : Rec) (place : Nat)
  /-- a cancel request that reaches one tile (R84, R150) -/
  | cancel (exit : Nat) (slot : Nat) (core : Nat)
  /-- an imprecise report for a task of another package (R340) -/
  | report (cause : Nat) (tval : Word)
  /-- flags that a handler raised for a task of another package (R172) -/
  | flags (f : BitVec 6)
  /-- a digest of a bolted block for the mirror home, whose block starts at `pa` (R357) -/
  | digest (pa va crc : Nat)
  /-- a control flit for another package (R17, R73, R82, R294, R299): its virtual network and its words -/
  | control (vnet : Nat) (ws : List Nat)
  /-- one block of a region, written for the front end of another package (R46, R47, R372): physical number, offset in the
  region, descriptor, chain and bytes -/
  | init (pa off : Nat) (r : Region) (ch : Chain) (bytes : List Byte)
  /-- a page of a confidential context that another package's front end zeroises (R62) -/
  | wipe (pa len : Nat)
  /-- the issuer's task was cancelled: its latches at the homes of another package go (R207) -/
  | unlatch
  deriving DecidableEq, Repr, Inhabited

/-- A sender of a message: whom it is attributed to, the lane whose order it keeps (0 for none), its number in that lane
for its home and colour (R13), and the engine command it belongs to. -/
structure Sender where
  iss : Issuer
  lane : Nat
  seq : List Nat
  cmd : Nat
  deriving DecidableEq, Repr, Inhabited

/-- A message in flight.  Stores, joins, fills, calls and packets of one lane are numbered by home and colour, and a home
applies them in the order of their numbers (R13). -/
structure Msg where
  iss : Issuer
  /-- the other senders of a merged join (R208) -/
  more : List Sender
  /-- destination package and home or unit -/
  pkg : Nat
  home : Nat
  /-- colour 0-7, or 8 for none -/
  colour : Nat
  group : Nat
  /-- 0 for a core's message, else the number of the engine command it belongs to -/
  cmd : Nat
  body : Body
  /-- the sending context, engine queue or array (R13, R234, R288), 0 for none -/
  lane : Nat := 0
  /-- its number among the messages of its lane, home and colour (R13); a call has one for each home that its mailbox
  stands for, and one among the calls (R303, R304) -/
  seq : List Nat := []
  /-- the PRIV page of the access, its base VA plus one, 0 for none (R194) -/
  page : Nat := 0
  /-- the session of the confidential stack page it names (R38) -/
  key : Option Word := none
  /-- the link over which its flits have left (R17), none while they have not -/
  wired : Option Nat := none
  /-- it has come over a Teord link (R208) -/
  crossed : Bool := false
  deriving DecidableEq, Repr, Inhabited

/-- A latch (R205). -/
structure Latch where
  iss : Issuer
  pkg : Nat
  home : Nat
  pa : Nat
  va : Nat
  ty : Nat
  width : Nat
  group : Nat
  want : Want
  reg : Nat
  /-- 0 in the table, 1 in the overflow list, 2 held in the request queue -/
  place : Nat
  /-- the colour of the access, and the session of its page (R38) -/
  colour : Nat := 8
  key : Option Word := none
  deriving DecidableEq, Repr, Inhabited

/-- The state of one 4 KiB cell block at its home (R33, R211, R360). -/
structure Block where
  bolted : Bool := false
  /-- the recorded barrier and generation (R211), none when the group has no barrier -/
  gen : Option (Nat × Nat) := none
  sent : Bool := false
  deriving DecidableEq, Repr, Inhabited

/-- The two counters of a mailbox (R328). -/
structure MboxCtr where
  pv : Nat := 0
  cv : Nat := 0
  deriving DecidableEq, Repr, Inhabited

/-- One cause of a fault cell (R340). -/
structure FaultRow where
  count : Nat
  low : Word
  /-- colour bits 0-7 and bit 8 for no colour -/
  opens : BitVec 9
  deriving DecidableEq, Repr, Inhabited

/-- The failure entry of a fault cell (R338). -/
structure Failure where
  cause : Nat
  tval : Word
  pc : Nat
  double : Bool
  deriving DecidableEq, Repr, Inhabited

/-- A fault cell (R340). -/
structure FaultCell where
  rows : Sparse FaultRow := []
  failure : Option Failure := none
  deriving DecidableEq, Repr, Inhabited

/-- Elements of a vector load still to come (R198). -/
structure Gather where
  reg : Nat
  width : Nat
  left : Nat
  got : List (Nat × Nat)
  /-- faults met: lane, cause, VA -/
  bad : List (Nat × Nat × Nat)
  deriving DecidableEq, Repr, Inhabited

/-- A faulted register mark (R195): cause, VA. -/
structure FaultMark where
  cause : Nat
  va : Nat
  deriving DecidableEq, Repr, Inhabited

/-- What a context's accumulator set is (R244). -/
structure AccSet where
  live : Bool := false
  /-- the set is in the save area of the frame -/
  saved : Bool := false
  /-- the last command since MZERO: whether it drains, and its D, mv, nv (R248); none before the first -/
  last : Option (Bool × Nat × Nat × Nat) := none
  /-- MZERO came after the last command -/
  zeroed : Bool := false
  deriving DecidableEq, Repr, Inhabited

/-- Why a context does not issue (R74, R344). -/
inductive Wait where
  /-- ready -/
  | none
  /-- the switch marker of the word at an address waits for pending bits (R128) -/
  | marker (at_ : Nat)
  /-- a TLB miss on the page of an address (R43) -/
  | xlate (va : Nat)
  /-- room in a queue, port or slot: the instruction issues again (R217, R225) -/
  | room (kind : Nat) (arg : Nat)
  /-- an empty channel (R314) -/
  | chan (port : Nat)
  /-- the array key (R242) -/
  | key
  /-- a release of barrier b, which has room for no arrival (R300) -/
  | barFull (b gen : Nat)
  /-- generation tgt of barrier b (R300) -/
  | bar (b tgt : Nat)
  /-- messages of the colours of a mask; system kind (R291) -/
  | fence (mask : Nat) (sys : Bool)
  /-- acknowledgements of homes (R211, R213, R223, R224) -/
  | acks
  /-- an answer to JOIN, GSND, GRCV or GDMP -/
  | answer
  /-- DONE's first park: no pending bit (R146) -/
  | doneRegs
  /-- DONE's second park, then retirement (R146) -/
  | doneWrites
  /-- a failing task's park (R338) -/
  | failing (f : Failure)
  /-- a cancelled task's park (R84) -/
  | cancelling
  /-- HRET's park (R308) -/
  | hret (v : Word)
  /-- a hinge handler that trapped waits for its messages (R309) -/
  | hfail (rcause : Nat)
  /-- array commands complete or held (R260) -/
  | arrayIdle
  /-- a stack core waits for a word of code that lies in another package (R91) -/
  | code (va : Nat)
  deriving DecidableEq, Repr, Inhabited

/-- A command for a matrix array (R250, R264). -/
structure ArrCmd where
  id : Nat
  iss : Issuer
  core : Nat
  ctx : Nat
  group : Nat
  colour : Nat
  pre : BitVec 22
  rnd : Nat
  fseed : Word
  frm : Word
  tid : Word
  grp : Word
  exitc : Word
  desc : List Word
  /-- of a gang block: first result row and column, mv, nv, and the draining core -/
  gang : Option (Nat × Nat × Nat × Nat × Nat)
  deriving DecidableEq, Repr, Inhabited

/-- One row of a result waiting for a handler or in one (R255); `lanes` are its elements of D. -/
structure RowJob where
  quad : Nat
  row : Nat
  lanes : List (BitVec 32)
  arr : ArrCmd
  deriving DecidableEq, Repr, Inhabited

/-- What a context runs. -/
inductive Role where
  | free
  | task
  | row (j : RowJob) (run : Nat)
  | hinge (c : Call) (run : Nat)
  /-- the pinned context of a reduction server (R315) -/
  | server
  deriving DecidableEq, Repr, Inhabited

/-- One context of a core (R117, R119, R344). -/
structure Ctx where
  role : Role := .free
  /-- program counter (R86) -/
  pc : Word := 0
  /-- x0-x31 (R117) -/
  x : Vector Word 32 := Vector.replicate 32 0
  /-- v0-v31 (R117) -/
  v : Vector Vec 32 := Vector.replicate 32 0
  /-- p0-p7; bit 0 reads one (R117) -/
  p : BitVec 8 := 1
  /-- k0-k7; k0 is not stored (R117) -/
  k : Vector Word 8 := Vector.replicate 8 0
  tstat : Word := 0
  tpc : Word := 0
  tcause : Word := 0
  tval : Word := 0
  fpre : Word := 0
  lc0 : Word := 0
  lc1 : Word := 0
  fflags : Word := 0
  frm : Word := 0
  fseed : Word := 0
  tid : Word := 0
  grp : Word := 0
  exitc : Word := 0
  hst : Word := 0
  hbud : Word := 0
  chb : Word := 0
  gtol : Word := 0
  gdmp : Word := 0
  /-- the loop opened later is lc1 when true (R142) -/
  laterLc1 : Bool := false
  /-- pending marks: [31:0] x, [63:32] v (R126, R344) -/
  pending : BitVec 64 := 0
  /-- those of the pending marks that belong to THR or GET (R128) -/
  thrMarks : BitVec 64 := 0
  /-- faulted marks, in the same layout by number (R195) -/
  faulted : Sparse FaultMark := []
  gathers : List Gather := []
  /-- barrier ticket (R297): barrier, generation -/
  ticket : Option (Nat × Nat) := none
  /-- q2 prefix state (R250) -/
  q2pre : BitVec 22 := 0x600
  /-- assembly buffers of q0, q2, q4 (R216) -/
  asm0 : List Word := []
  asm2 : List Word := []
  asm4 : List Word := []
  /-- contents of q1, q3, q5, oldest first, and the places reserved in q1 and q5 (R237, R257, R281) -/
  q1 : List Word := []
  q3 : List Vec := []
  /-- beats of each row waiting in q3, oldest row first -/
  q3rows : List Nat := []
  q5 : List Word := []
  q1res : Nat := 0
  q5res : Nat := 0
  /-- pops that wait for an element: queue number and register, oldest first (R217) -/
  pops : List (Nat × Dest) := []
  faults : FaultCell := {}
  /-- flagged for cancellation (R84) -/
  flagged : Bool := false
  wait : Wait := .none
  /-- when the context parked, counted in switches (R80) -/
  parkedAt : Nat := 0
  /-- how far a parking instruction has come, and its outstanding acknowledgements -/
  phase : Nat := 0
  acks : Nat := 0
  /-- the answer of a home to a parked instruction -/
  reply : Option Answer := none
  /-- the failing blocks of a CLEAR, or VAs noted by a parking instruction -/
  notes : List Nat := []
  /-- FMT issued, consumer to come (R97) -/
  pfx : Option (BitVec 22) := none
  /-- a replay in progress; its position stands in tstat (R130) -/
  rep : Bool := false
  /-- the task record's priority and the command's slot -/
  prio : Nat := 0
  slot : Nat := 0
  serial : Nat := 0
  /-- number of commands of the copy engine not complete, its last tag and cause (R237) -/
  copyOut : Nat := 0
  ltag : Nat := 0
  lcause : Nat := 0
  aset : AccSet := {}
  /-- gang blocks of MGANG posted so far -/
  gangPosted : Nat := 0
  /-- stopped by a pre-emption (R346) -/
  stopped : Bool := false
  deriving DecidableEq, Repr, Inhabited

/-- One cached translation (R40): slot, page base, size in bytes, and the leaf's two words. -/
structure TlbEntry where
  slot : Nat
  va : Nat
  size : Nat
  w0 : Word
  w1 : Word
  deriving DecidableEq, Repr, Inhabited

/-- Who asked for a walk (R40): kind 0 a core, 1 a copy engine, 2 a quad; its number; and the context. -/
structure Asker where
  kind : Nat
  place : Nat
  ctx : Nat
  deriving DecidableEq, Repr, Inhabited

/-- A walk of a die's walker (R41): the page and everyone whose miss has joined it. -/
structure Walk where
  die : Nat
  slot : Nat
  va : Nat
  askers : List Asker
  deriving DecidableEq, Repr, Inhabited

/-- A walk that failed for an asker that has not yet used the answer: faults are never cached (R40). -/
structure WalkFail where
  asker : Asker
  slot : Nat
  va : Nat
  reason : Nat
  deriving DecidableEq, Repr, Inhabited

/-- A pointer entry in a walker's cache (R41): whose tables, the level of the table that it names, the first VA that the
table maps, and the table's address. -/
structure Pointer where
  slot : Nat
  level : Nat
  va : Nat
  table : Nat
  deriving DecidableEq, Repr, Inhabited

/-- A spilled task (R344, R345): its saved context, its frame and the context number it left. -/
structure Spilled where
  ctx : Ctx
  num : Nat
  place : Nat
  frame : List Host.Cell
  /-- the poisoned units of the frame, by offset (R345, R358) -/
  poison : List Nat := []
  /-- stamp of the wake that made it ready, none while parked -/
  ready : Option Nat
  deriving DecidableEq, Repr, Inhabited

/-- One of a core's four group slots (R67). -/
structure GroupSlot where
  id : Nat
  rank : Nat
  grank : Nat
  leader : Nat
  bars : List Nat
  deriving DecidableEq, Repr, Inhabited

/-- A channel port (R311, R314). -/
structure Port where
  /-- context, channel, ranked, nsend -/
  bound : Option (Nat × Nat × Bool × Nat) := none
  next : Nat := 0
  pkts : List Packet := []
  /-- the packets of the round that the tile's reduction server has taken from the port (R316) -/
  taken : List Packet := []
  deriving DecidableEq, Repr, Inhabited

/-- A copy command in the engine (R225-R237), or GSND's slot fill (R329). -/
structure CopyCmd where
  id : Nat
  iss : Issuer
  ctx : Nat
  group : Nat
  colour : Nat
  fseed : Word
  frm : Nat
  desc : List Word
  /-- GSND: the VA of the slot and its image -/
  image : Option (Nat × List Byte)
  /-- the next element of the box (R228) -/
  n : Nat
  /-- destinations of element n already written (mask bits) -/
  destsDone : Nat
  /-- the ONCET tile being gathered: VA, index of its first element, pieces by offset -/
  tile : Option (Nat × Nat × List (Nat × List Byte))
  /-- the value of element n, once it has been read for its first destination (R228) -/
  value : Option Nat := none
  /-- buffer bytes coalesced and not yet sent -/
  fillBuf : Option Msg
  /-- the element whose first write those bytes begin with, while nothing of it or of a later one has left (R238) -/
  first : Option Nat := none
  /-- the writes that follow those bytes, while their fill write may turn out to be the last, which closes (R232) -/
  after : List Msg := []
  /-- the walk has ended: cause (0 for none) -/
  ended : Option Nat
  deriving DecidableEq, Repr, Inhabited

/-- Something for the handler context, in order of arrival (R74). -/
inductive Arrival where
  | row (j : RowJob)
  | hinge (c : Call)
  deriving DecidableEq, Repr, Inhabited

/-- The tile record of a pre-empted command in the tile's save store (R335, R346): the cause, the contexts with the handler's,
the hardware part of the deque, and what waits for the handler. -/
structure Saved where
  cause : Nat
  ctxs : Vector Ctx 5
  deque : List Rec
  arrivals : List Arrival
  deriving DecidableEq, Repr, Inhabited

/-- A core with its tile's units, or a stack core. -/
structure CoreSt where
  ctxs : Vector Ctx 5 := Vector.replicate 5 {}
  tvec : Word := 0
  /-- the execute boundary (R87) -/
  xb : Word := 0x100000
  rtree : Word := 0
  groups : List GroupSlot := []
  /-- the command whose member the tile is -/
  slot : Option Nat := none
  /-- tasks started on this tile in the command (R122) -/
  serial : Nat := 0
  /-- hardware deque and its overflow area, newest first (R76) -/
  deque : List Rec := []
  overflow : List Rec := []
  tlb : List TlbEntry := []
  copyTlb : List TlbEntry := []
  copyQ : List CopyCmd := []
  /-- the context that the copy engine served last, and that its 64-byte message is not complete (R234) -/
  copyLast : Nat := 3
  copyKeep : Bool := false
  arrivals : List Arrival := []
  /-- calls held in the mailbox, waiting or running (R304) -/
  mailbox : List Call := []
  ports : Vector Port 4 := Vector.replicate 4 {}
  /-- packets refused by their port and waiting to be resent, with the wait in cycles (R313) -/
  resend : List (Packet × Nat) := []
  /-- pend of each barrier (R297) -/
  pend : Sparse Nat := []
  spilled : List Spilled := []
  /-- the tile record of the save store, while the command is pre-empted (R346) -/
  saved : Option Saved := none
  /-- words that an unfinished code-load copy is writing, by local address: the command, the old word, and which of its
  bytes are written (R90) -/
  loading : Sparse (Nat × Insn × BitVec 4) := []
  /-- a steal request is out; next direction; refusals in a row; back-off; direction last served (R78) -/
  stealOut : Bool := false
  stealDir : Nat := 0
  refusals : Nat := 0
  backoff : Nat := 64
  lastServed : Nat := 3
  /-- the cycle in which the deque arbiter served last, and the rank of that request (R77) -/
  arbiter : Nat × Nat := (0, 0)
  /-- termination: messages sent, messages received, and the dirty bit (R81) -/
  sent : Nat := 0
  recv : Nat := 0
  dirty : Bool := false
  /-- parks and issues counted, for the order of R74 and R80 -/
  stamps : Nat := 0
  /-- the task context that last issued, and that it has parked, yielded or ended since (R74) -/
  last : Nat := 3
  switch : Bool := true
  /-- that context gave way by YIELD (R145) -/
  yielded : Bool := false
  /-- arithmetic-clock cycles run by this core beyond the package's (R20) -/
  cyc : Word := 0
  /-- the package's cycles when the core was power-gated (R346), none while it is not -/
  gated : Option Word := none
  /-- debug module (R348, R349, R266) -/
  halted : Bool := false
  haltOnBrk : Bool := false
  completeOnStep : Bool := false
  /-- the contexts that stand at a BRK that halted the core: they continue behind it (R349) -/
  atBrk : List Nat := []
  /-- the cause that a halt is recorded with (R348) -/
  haltCause : Nat := 0
  /-- a single step that ends with the array idle is under way (R266) -/
  stepping : Bool := false
  /-- the latched sample of the sampling pulse (R354) -/
  sample : Word × Word := (0, 0)
  deriving DecidableEq, Repr, Inhabited

/-- An array operation in progress, held, or displaced by a pre-emption (R251, R258, R265). -/
structure ArrOp where
  cmd : ArrCmd
  /-- completed K-steps and drained rows -/
  steps : Nat := 0
  rows : Nat := 0
  held : Bool := false
  hcause : Nat := 0
  /-- the K-steps are done and the rows drain -/
  drainOn : Bool := false
  /-- displaced while its task held the key, which it asks for again (R265) -/
  keyed : Bool := false
  /-- rows handed to the handler context and not yet written or dropped (R255) -/
  rowsOut : Nat := 0
  /-- the address just past the last written row, and whether a fill carried close (R254) -/
  past : Nat := 0
  closed : Bool := false
  /-- accumulator (i, j) under number 64 i + j -/
  acc : Sparse (BitVec 32) := []
  deriving DecidableEq, Repr, Inhabited

/-- A quad's array (R9, R241-R265). -/
structure Quad where
  /-- the key's holder; the gang slot holds it as core 4096 -/
  holder : Option TaskId := none
  /-- position that last held the key, 0-4 (R243) -/
  lastPos : Nat := 4
  /-- requests pending, oldest first -/
  requests : List TaskId := []
  used : Nat := 0
  gangSlot : Option ArrCmd := none
  queue : List ArrCmd := []
  cur : Option ArrOp := none
  displaced : List ArrOp := []
  /-- the operation that ended last, and that of each context whose set may yet be saved (R244) -/
  last : Option ArrOp := none
  lasts : List ArrOp := []
  /-- commands saved with their contexts at a pre-emption (R265) -/
  saved : List ArrCmd := []
  /-- the live set that the array holds between operations, and whose it is -/
  acc : Sparse (BitVec 32) := []
  accOf : Option TaskId := none
  tlb : List TlbEntry := []
  deriving DecidableEq, Repr, Inhabited

/-- A near-bank unit (R278-R283). -/
structure NbUnit where
  bound : Option Binding := none
  deriving DecidableEq, Repr, Inhabited

/-- A barrier at package scope (R297-R299). -/
structure Bar where
  gen : Nat := 0
  /-- the binding: slot, group, member tiles -/
  bound : Option (Nat × Nat × List Nat) := none
  /-- packages of the gang that take part, this package's arrival flit sent, arrivals held by package 0 -/
  gangn : Nat := 1
  sent : Bool := false
  heldFrom : List Nat := []
  deriving DecidableEq, Repr, Inhabited

/-- A group of a running command (R66, R67). -/
structure Group where
  id : Nat
  /-- members in rank order, as tile numbers 32Y + X -/
  members : List Nat
  leader : Nat
  bars : List Nat
  fanout : Nat
  server : Nat
  /-- the largest X of its rectangle (R357) -/
  right : Nat := 0
  deriving DecidableEq, Repr, Inhabited

/-- How far a packet has come (R57, R64). -/
inductive CmdPhase where
  | fetched
  /-- regions on other packages are not all initialised (R47) -/
  | preparing
  /-- its work at the homes is not all applied -/
  | working
  /-- a gang waits for its decision or its tick (R73) -/
  | armed
  | running
  /-- pre-empted (R346) -/
  | preempted
  /-- quiescent: the device-wide fence (R83) -/
  | fencing
  /-- ready for its completion record -/
  | finished
  /-- its record is on its way to another package (R57, R352) -/
  | recording
  deriving DecidableEq, Repr, Inhabited

/-- The gang side of a command (R68, R73, R82, R294, R299). -/
structure Gang where
  tick : Nat
  margin : Nat
  n : Nat
  /-- ARM (status 0) and NOARM messages that reached the coordinator in time: package, status, and the member count of
  each group (R68) -/
  arms : List (Nat × Nat × List (Nat × Nat))
  decision : Option Nat
  /-- wave results that reached package 0: package, idle, dirty, sum -/
  waves : List (Nat × Bool × Bool × Int)
  /-- fence reports: package, status, fclass, cancel -/
  reports : List (Nat × Nat × Nat × Bool)
  deriving DecidableEq, Repr, Inhabited

/-- What the completion record counts, for one half in twin mode (R350, R357). -/
structure Tally where
  retired : Nat := 0
  residue : Nat := 0
  failed : Nat := 0
  /-- the failure with the least cause, then the least PC -/
  worst : Option Failure := none
  faults : FaultCell := {}
  deriving DecidableEq, Repr, Inhabited

/-- The packet a slot works on. -/
structure Cmd where
  packet : List Byte
  op : Nat
  phase : CmdPhase
  status : Nat
  /-- descriptor and page of a failed region check -/
  ftval : Word
  groups : List Group
  hinge : List Word
  regions : List Region
  code : Option (Nat × Nat)
  members : List Nat
  x3 : Word
  west : Tally
  /-- of the mirror half in twin mode -/
  east : Tally
  cancel : Bool
  twin : Bool
  /-- scheduler log: 0 none, 1 recorded, 2 replayed, 3 full or abandoned; its physical address and length (R355) -/
  rlog : Nat
  log : Nat × Nat
  tstart : Word
  energy : Nat
  /-- clean waves in a row (R82) -/
  clean : Nat
  gang : Option Gang
  /-- beats of the ring that the packet takes (R55) -/
  beats : Nat
  /-- an indirect buffer: host address of the next packet and beats left (R58) -/
  ib : Option (Nat × Nat)
  /-- blocks streamed and acknowledged (R359) -/
  sent : Nat
  acked : Nat
  link : Bool
  mboxLimit : Nat
  deriving DecidableEq, Repr, Inhabited

/-- The front end's state of a user queue (R59): it stands under the queue's number, and `hw` is the hardware queue
slot that the queue is mapped to.  A pre-empted command stays here while its queue is unmapped (R60, R347). -/
structure Slot where
  hw : Option Nat := none
  /-- the QCB as copied at mapping, 32 words (R53) -/
  qcb : List Word := []
  cmd : Option Cmd := none
  /-- the IB packet whose packets run -/
  outer : Option Cmd := none
  /-- the CHKPT packet of a CHKNOW -/
  side : Option Cmd := none
  deriving DecidableEq, Repr, Inhabited

/-- An ARM or NOARM message that waits for the coordinator's GANG packet (R73): its package, status, the gang's start tick,
the member counts of its groups (R68), and the tick of its arrival. -/
structure EarlyArm where
  pkg : Nat
  status : Nat
  start : Nat
  counts : List (Nat × Nat)
  came : Nat
  deriving DecidableEq, Repr, Inhabited

/-- What the firmware keeps of a user queue (R52-R61, R353, R367). -/
structure Queue where
  created : Bool := false
  destroyed : Bool := false
  halted : Bool := false
  pendingBit : Bool := false
  tail : Nat := 0
  waiting : Bool := false
  /-- the tick at which it became waiting (R59) -/
  since : Nat := 0
  eprio : Nat := 0
  held : Bool := false
  session : Option Word := none
  /-- replay mode, log PA and length for the next LAUNCH or GANG -/
  replay : Nat × Word × Word := (0, 0, 0)
  twin : Bool := false
  mbox : Nat := 64
  /-- the tick of its last period boundary (R60) -/
  period : Nat := 0
  /-- ARM and NOARM messages that reached the coordinator before it had its own GANG packet (R73) -/
  arms : List EarlyArm := []
  /-- a decision that came before the package had its own GANG packet (R73): status, and the gang's start tick -/
  decision : Option (Nat × Nat) := none
  deriving DecidableEq, Repr, Inhabited

/-- A Teord link (R17, R18). -/
structure Link where
  up : Bool := true
  retraining : Bool := false
  failed : Bool := false
  /-- sequence number next expected -/
  expect : Nat := 0
  /-- failed replays in a row -/
  replays : Nat := 0
  replayAsked : Bool := false
  retrains : Nat := 0
  failures : Nat := 0
  /-- the number of the next flit to send, and the flits sent and not acknowledged, oldest first (R17, R18) -/
  next : Nat := 0
  replayBuf : List (List Byte) := []
  /-- credits that the other side has returned, by vnet, and those that this side has to return (R17) -/
  credits : Sparse Nat := []
  owed : Sparse Nat := []
  /-- flits put on the link, oldest first -/
  wire : List (List Byte) := []
  deriving DecidableEq, Repr, Inhabited

/-- How far a tile's scheduler log has come (R355): the entry's number, how much of its run is used, the entry's kind and
choice, and for how many ticks the point has held a candidate of a replay (R356). -/
structure LogPos where
  pos : Nat := 0
  run : Nat := 0
  kind : Nat := 0
  choice : Nat := 0
  held : Nat := 0
  deriving DecidableEq, Repr, Inhabited

/-- A sampling pulse that is armed (R354). -/
structure SampleArm where
  tick : Nat
  host : Nat
  len : Nat
  deriving DecidableEq, Repr, Inhabited

/-- The lifetime record (R361): counters by offset, power-ons, seconds powered. -/
structure Life where
  counts : Sparse Nat := []
  powerOns : Nat := 0
  seconds : Nat := 0
  deriving DecidableEq, Repr, Inhabited

/-- One copy of the lifetime record in a nonvolatile store, with the map, the fence log and its CRC-64 (R361). -/
structure LifeCopy where
  life : Life := {}
  fenced : List Nat := []
  log : List (Nat × Nat × Nat) := []
  crc : Nat := 0
  deriving DecidableEq, Repr, Inhabited

/-- A hub (R15, R63, R361): the firmware core's memory and the patches in force, by ROM routine address; in the nonvolatile
store the patch table, and the two copies of the lifetime record, of which `latest` was written last. -/
structure Hub where
  tcm : Sparse Byte := []
  patches : List (Nat × Nat) := []
  table : List (Nat × Nat) := []
  copies : LifeCopy × LifeCopy := ({}, {})
  latest : Nat := 0
  deriving DecidableEq, Repr, Inhabited

/-- The machine's next mover.  Nothing constrains the list: it stands for every interleaving of the
part's agents (R13, R74, R85) and for every input from outside (DESIGN CHOICE, log entry 4). -/
inductive Turn where
  /-- a step of the operation table without an encoding -/
  | event (e : Instr)
  /-- core n issues one instruction of the context that R74 chooses -/
  | core (n : Nat)
  /-- context `ctx` of the halted core `core` issues one instruction and the core halts again (R349) -/
  | single (core ctx : Nat)
  /-- time passes: ticks of the package counter and cycles of every core (R19, R20) -/
  | elapse (ticks cycles : Nat)
  /-- a message reaches the package from another one -/
  | deliver (m : Msg)
  /-- message n + 1 arrives before message n, where R13 orders them not -/
  | overtake (n : Nat)
  /-- the host writes its own memory -/
  | hostWrite (addr : Nat) (bytes : List Byte)
  /-- the debugger leaves the registers and status registers of a context of a halted core as in `x`, and the core's tvec
  and xb as given (R348) -/
  | debugWrite (core ctx : Nat) (x : Ctx) (tvec xb : Word)
  /-- the debugger sets a core's debug options (R266, R349) -/
  | debugMode (core : Nat) (haltOnBrk completeOnStep : Bool)
  /-- another package has applied message n of the outbox, whose home reports these causes for it (R292, R341) -/
  | remoteApplied (n : Nat) (reports : List (Nat × Word))
  /-- the host reads the BAR0 register at an offset (R50) -/
  | registerRead (off : Nat)
  /-- the host sets the size of BAR2 to 2^n bytes (R49) -/
  | resizeBar2 (n : Nat)
  /-- message n of the outbox leaves over a link in flits (R17) -/
  | sendFlit (link n : Nat)
  /-- an idle flit (false) or a tick-alignment flit (true) leaves over a link (R17) -/
  | linkFlit (link : Nat) (tick : Bool)
  /-- the next bytes of the oldest checkpoint message of a link leave over it, on vnet 7 (R17, R18) -/
  | streamFlit (link : Nat)
  /-- the other side of a link asks for a replay behind its last flit in order (R18) -/
  | replayRequest (link last : Nat)
  /-- the board controller reads the module's power, in watts (R22, R361) -/
  | power (watts : Nat)
  /-- an access or the scrub has corrected an error: its die, its temperature band and its kind (R358, R361) -/
  | corrected (error : Nat × Nat × Nat)
  deriving DecidableEq, Repr, Inhabited

/-- The whole package. -/
structure State where
  /-- this package's number (R10) -/
  pkg : Nat
  /-- bytes of the slices and the stacks by physical number (R25) -/
  mem : List Host.Cell
  /-- the host's memory -/
  hostMem : List Host.Cell
  cores : Sparse CoreSt
  quads : Sparse Quad
  units : Sparse NbUnit
  blocks : Sparse Block
  /-- state bits of ONCE and ONCET cells: 1 FULL, 2 CONFLICT (R30) -/
  once : Sparse Nat
  mboxes : Sparse MboxCtr
  /-- poisoned units of memory (R358) -/
  poison : List Nat
  /-- 4 KiB blocks of stacks whose bytes stand in `mem` as the users of a session see them (R38), by session; every other
  block stands as the banks hold it -/
  enc : Sparse (Option Word)
  latches : List Latch
  /-- fill writes held at a full buffer, oldest first (R221) -/
  heldFills : List Msg
  /-- messages in flight, oldest first -/
  net : List Msg
  /-- messages for other packages -/
  outbox : List Msg
  /-- requests that another package has served and whose answer has not come back (R18) -/
  asked : List Msg
  /-- numbers given to the messages of a lane for a home and a colour, and those that homes have applied (R13) -/
  seqOut : Sparse Nat
  seqIn : Sparse Nat
  /-- bytes that an engine, or a stack core's fetch (R91), reads in another package: command, VA, and the answer once it
  has come -/
  fetched : List (Nat × Nat × Option Answer)
  /-- calls to other packages that have not ended, and the calls declared lost (R310) -/
  remoteCalls : List Call
  lostCalls : List Nat
  bars : Sparse Bar
  walks : List Walk
  walkFails : List WalkFail
  /-- the pointer cache of each die's walker, newest first (R41) -/
  pointers : Sparse (List Pointer)
  slots : Sparse Slot
  queues : Sparse Queue
  links : Sparse Link
  /-- payloads of data flits taken in: vnet and bytes (R17) -/
  flits : List (Nat × List Byte)
  /-- the west and the east hub (R15) -/
  hubs : Hub × Hub
  /-- the core and context whose instruction issues now -/
  cur : Nat
  curCtx : Nat
  turns : List Turn
  /-- the 1 GHz tick counter and the cycles run since power-on (R19, R20) -/
  tick : Word
  cycles : Word
  /-- arithmetic clock in units of 100 MHz (R20) -/
  clock : Nat
  /-- firmware (R50-R54, R59, R63) -/
  ready : Bool
  powered : Bool
  qtab : Option (Nat × Nat)
  slotCount : Nat
  ageing : Nat
  /-- the tick of the last ageing boundary, or of the SLOTS command (R59) -/
  ageBase : Nat
  bar2 : Word
  /-- the size of BAR2 in bytes (R49) -/
  bar2Size : Nat
  /-- what the last BAR2 read returned -/
  bar2Read : List Byte
  /-- what the last BAR0 read returned -/
  bar0Read : Word
  /-- BAR0 registers that hold what is written: the admin mailbox, the MSI-X table and the PBA (R50) -/
  bar0 : Sparse Word
  /-- status of the last admin command, and INFO's answer (R52) -/
  response : Nat
  info : Word × Word
  /-- MSI-X vectors raised, oldest first (R57) -/
  interrupts : List Nat
  sampling : List SampleArm
  /-- tiles fenced in the availability map (R362) -/
  fenced : List Nat
  fenceLog : List (Nat × Nat × Nat)
  /-- the live lifetime record (R361), and the power last read, in watts -/
  life : Life
  watts : Nat
  /-- ticks of the uncorrectable SRAM errors of a tile within 24 hours (R362) -/
  sramErrors : Sparse (List Nat)
  /-- checkpoint store of the last CHKPT (R360) -/
  lastStore : Option Nat
  /-- block messages streamed to a checkpoint store -/
  stream : List (Nat × List Byte)
  /-- how far the log of each tile has come (R355) -/
  schedLog : Sparse LogPos
  /-- the next number for an engine command, a call or a handler run; the numbers of two packages differ modulo 2^14 -/
  fresh : Nat
  /-- counter of the model's free values; nothing of the spec -/
  free : Nat
  deriving DecidableEq, Repr, Inhabited

/-- Why the machine stops. -/
inductive Fault where
  /-- a step of a package without power (R63, R361): raised by `step`; safe, for nothing runs there -/
  | noPower
  deriving DecidableEq, Repr

/-- Why the model gives no meaning. -/
inductive Refusal where
  /-- raised by `exec` for an instruction without a meaning yet; safe -/
  | notModelled (mnemonic : String)
  deriving DecidableEq, Repr

/-- The package right after reset: power is on, the firmware has not started (R63), no slot is
configured (R52), every memory is empty and every register holds its reset value (R3, R19, R70, R87,
R119) (DESIGN CHOICE, log entries 2 and 3). -/
def State.reset : State where
  pkg := 0
  mem := []
  hostMem := []
  cores := []
  quads := []
  units := []
  blocks := []
  once := []
  mboxes := []
  poison := []
  enc := []
  latches := []
  heldFills := []
  net := []
  outbox := []
  asked := []
  seqOut := []
  seqIn := []
  fetched := []
  remoteCalls := []
  lostCalls := []
  bars := []
  walks := []
  walkFails := []
  pointers := []
  slots := []
  queues := []
  links := []
  flits := []
  hubs := ({}, {})
  cur := 0
  curCtx := 0
  turns := []
  tick := 0
  cycles := 0
  clock := 33
  ready := false
  powered := true
  qtab := none
  slotCount := 0
  ageing := 1000
  ageBase := 0
  bar2 := 0
  bar2Size := 2 ^ 30
  bar2Read := []
  bar0Read := 0
  bar0 := []
  response := 0
  info := (0, 0)
  interrupts := []
  sampling := []
  fenced := []
  fenceLog := []
  life := {}
  watts := 0
  sramErrors := []
  lastStore := none
  stream := []
  schedLog := []
  fresh := 1
  free := 0

end Sys2Proof.Machine
end

