-- ==== Sys2Proof/Config.lean ====
section
/-! DEFINITION. What an implementation fixes and the values the manual leaves open.  A constant without a
body is a free value: no proof can see what it is. -/

namespace Sys2Proof.Config

/-- Device id of BAR0 (R50). -/
def deviceId : Nat := 0x2200
/-- Firmware version, which no rule gives (R50): free. -/
opaque firmwareVersion : Word
/-- Package serial of the lifetime record (R361): free. -/
opaque packageSerial : Word
/-- What a tick-alignment flit makes of the tick counter (R17, R19), whose payload no rule lays out: free
(DESIGN CHOICE, log entry 6). -/
opaque tickAlign : Nat → List Byte → Word → Word
/-- A block cipher under one key: a map of blocks of `n` bits, and its inverse. -/
structure Perm (n : Nat) where
  enc : BitVec n → BitVec n := id
  dec : BitVec n → BitVec n := id
  inv : ∀ v, dec (enc v) = v := by intro v; rfl
  deriving Inhabited
/-- AES-256 (R38): the cipher of each key, whose tables stand in no rule: free (DESIGN CHOICE, log entry 6). -/
opaque aes : BitVec 256 → Perm 128
/-- The two AES keys of a confidential context (R38), by the number of its session: agreed in an SPDM session that no rule
describes: free (DESIGN CHOICE, log entry 6). -/
opaque sessionKeys : Word → BitVec 256 × BitVec 256
/-- The payload of a tick-alignment flit, which no rule lays out (R17, R19), by the tick counter: free (DESIGN CHOICE, log
entry 99). -/
opaque tickFlit : Word → List Byte
/-- The messages of a data or barrier flit, whose packing no rule lays out (R17), by vnet and payload: free
(DESIGN CHOICE, log entry 99). -/
opaque messagesIn : Nat → List Byte → List Machine.Msg
/-- The payload bytes of a message on a link (R17): free (DESIGN CHOICE, log entry 99). -/
opaque messageBytes : Machine.Msg → List Byte
/-- The code and the arguments of the 64 bytes of an admin command, whose layout no rule gives (R50, R52): free
(DESIGN CHOICE, log entry 104). -/
opaque adminCommand : List Byte → List Nat
/-- The bytes of a response behind its first one (R52), by offset, status and INFO's answer: free (DESIGN CHOICE,
log entry 104). -/
opaque responseByte : Nat → Nat → Word × Word → Byte
/-- Which Teord links lead to a checkpoint store (R359): free (DESIGN CHOICE, log entry 6). -/
opaque linkLeadsTo : Nat → Nat → Bool
/-- Which Teord links lie on the path to another package (R303, R310): free (DESIGN CHOICE, log entry 6). -/
opaque linksTo : Nat → List Nat
/-- Which of the links to a package carries the accesses of a PRIV page, by package and page (R194): free (DESIGN CHOICE, log
entry 6). -/
opaque pageLink : Nat → Nat → Nat
/-- Where the image of the lifetime record lies in its pseudo-channel, by 4 KiB block (R361): free. -/
opaque lifeBlock : Nat
/-- Bytes 4 to 63 of the lifetime record, whose layout no rule gives (R361): version and serial with the power-on count
and the seconds powered: free. -/
opaque lifeHead : Nat → Nat → BitVec 480
/-- The 16 bytes of a fence-log entry of tile, tick and cause, whose layout no rule gives (R361): free. -/
opaque fenceEntry : Nat → Nat → Nat → BitVec 128
/-- The 32-byte header of a checkpoint message, whose layout no rule gives (R359): store id, epoch, package,
VA, bolted bit, ctype, width, group: free. -/
opaque streamHeader : List Nat → BitVec 256
/-- The checkpoint message of a block that another package holds (R359), by counter: free (DESIGN CHOICE, log entry 90). -/
opaque farStream : Nat → List Byte
/-- Whether a fetch of a word that an unfinished code-load copy has written still gives the old word (R90), by counter and
address: free. -/
opaque fetchesOld : Nat → Nat → Bool
/-- Bytes of a hub's memory map that no rule lays out, by counter: free (DESIGN CHOICE, log entry 6). -/
opaque freeWord : Nat → Word

end Sys2Proof.Config
end

