-- ==== Sys2Proof/WellFormed.lean ====
section
/-! DEFINITION. Which terms of `Instr` are instruction words: the limits that R93-R97, R103 and R104
put on the fields, each with a name of its own.  A word whose fields break one of them raises
illegal-instruction (R104); an event has no encoding and no limit. -/

namespace Sys2Proof

/-- The status register indices of R119. -/
def statusIndices : List Nat :=
  [0x000, 0x001, 0x002, 0x003, 0x004, 0x005, 0x006, 0x010, 0x011, 0x020, 0x021, 0x022, 0x030, 0x031,
   0x032, 0x033, 0x040, 0x041, 0x050, 0x051, 0x060, 0x061, 0x070, 0x071, 0x080, 0x081]

/-- What can be wrong with the fields of an instruction word. -/
inductive Malformed where
  /-- guard code 0b100 (R93) -/
  | guardNever
  /-- S = 1 in REP (R94) -/
  | markedRep
  /-- SETC with a colour of 8-31 (R143) -/
  | colour
  /-- LOOP or LOOPI with len = 0 (R95) -/
  | emptyLoop
  /-- MFS or MTS with an index absent from R119 (R104) -/
  | statusIndex
  /-- a queue field of 6 or 7 (R96) -/
  | queue
  /-- a G-block field above 26 (R96) -/
  | gBlock
  /-- HCALL with rd = 0 or rd + count above 31 (R302) -/
  | payload
  /-- a reserved code in FMT (R97) -/
  | prefixCode
  /-- rd = 0 in GET, THR, QRD, CTYPE or NBGET (R126, R214) -/
  | zeroDest
  /-- VCVT with a reserved target code (R187) -/
  | target
  deriving DecidableEq, Repr

/-- R93: the guard code 0b100 never issues. -/
def Head.check (h : Head) : Option Malformed :=
  if h.g = 4 then some .guardNever else none

/-- The check of the head, then one more. -/
def Head.andAlso (h : Head) (bad : Bool) (m : Malformed) : Option Malformed :=
  if h.g = 4 then some .guardNever else if bad then some m else none

/-- R93-R97, R103, R104: what is wrong with the fields of an instruction, if anything. -/
def Instr.check : Instr → Option Malformed
  | .nop h => h.check
  | .brk h _ => h.check
  | .trap h _ => h.check
  | .iret h => h.check
  | .yield h => h.check
  | .done h => h.check
  | .setc h c => h.andAlso (decide (8 ≤ c.toNat)) .colour
  | .add h _ _ _ => h.check
  | .sub h _ _ _ => h.check
  | .and h _ _ _ => h.check
  | .or h _ _ _ => h.check
  | .xor h _ _ _ => h.check
  | .andn h _ _ _ => h.check
  | .orn h _ _ _ => h.check
  | .sll h _ _ _ => h.check
  | .srl h _ _ _ => h.check
  | .sra h _ _ _ => h.check
  | .ror h _ _ _ => h.check
  | .slt h _ _ _ => h.check
  | .sltu h _ _ _ => h.check
  | .seq h _ _ _ => h.check
  | .sne h _ _ _ => h.check
  | .min h _ _ _ => h.check
  | .max h _ _ _ => h.check
  | .minu h _ _ _ => h.check
  | .maxu h _ _ _ => h.check
  | .sh1add h _ _ _ => h.check
  | .sh2add h _ _ _ => h.check
  | .sh3add h _ _ _ => h.check
  | .clz h _ _ => h.check
  | .ctz h _ _ => h.check
  | .popc h _ _ => h.check
  | .sextb h _ _ => h.check
  | .sexth h _ _ => h.check
  | .sextw h _ _ => h.check
  | .zextb h _ _ => h.check
  | .zexth h _ _ => h.check
  | .zextw h _ _ => h.check
  | .rev8 h _ _ => h.check
  | .mul h _ _ _ => h.check
  | .mulh h _ _ _ => h.check
  | .mulhu h _ _ _ => h.check
  | .mulhsu h _ _ _ => h.check
  | .div h _ _ _ => h.check
  | .divu h _ _ _ => h.check
  | .rem h _ _ _ => h.check
  | .remu h _ _ _ => h.check
  | .addi h _ _ _ => h.check
  | .andi h _ _ _ => h.check
  | .ori h _ _ _ => h.check
  | .xori h _ _ _ => h.check
  | .slli h _ _ _ => h.check
  | .srli h _ _ _ => h.check
  | .srai h _ _ _ => h.check
  | .rori h _ _ _ => h.check
  | .slti h _ _ _ => h.check
  | .sltiu h _ _ _ => h.check
  | .lui h _ _ => h.check
  | .lil h _ _ => h.check
  | .lb h _ _ _ => h.check
  | .lh h _ _ _ => h.check
  | .lw h _ _ _ => h.check
  | .ld h _ _ _ => h.check
  | .lbu h _ _ _ => h.check
  | .lhu h _ _ _ => h.check
  | .lwu h _ _ _ => h.check
  | .sb h _ _ _ => h.check
  | .sh h _ _ _ => h.check
  | .sw h _ _ _ => h.check
  | .sd h _ _ _ => h.check
  | .vld h _ _ _ => h.check
  | .vst h _ _ _ => h.check
  | .vldx h _ _ _ _ _ => h.check
  | .vstx h _ _ _ _ _ => h.check
  | .vlds h _ _ _ _ _ => h.check
  | .vsts h _ _ _ _ _ => h.check
  | .get h d _ _ => h.andAlso (d == 0) .zeroDest
  | .thr h d _ _ _ => h.andAlso (d == 0) .zeroDest
  | .bolt h _ _ => h.check
  | .clear h _ _ => h.check
  | .brel h _ => h.check
  | .ctype h d _ => h.andAlso (d == 0) .zeroDest
  | .bdecl h _ _ => h.check
  | .fence h _ => h.check
  | .fenceSys h _ => h.check
  | .beq h _ _ _ => h.check
  | .bne h _ _ _ => h.check
  | .blt h _ _ _ => h.check
  | .bge h _ _ _ => h.check
  | .bltu h _ _ _ => h.check
  | .bgeu h _ _ _ => h.check
  | .brp h _ _ _ => h.check
  | .j h _ => h.check
  | .jal h _ => h.check
  | .jalr h _ _ _ => h.check
  | .loop h _ _ n => h.andAlso (n == 0) .emptyLoop
  | .loopi h _ _ n => h.andAlso (n == 0) .emptyLoop
  | .peq h _ _ _ => h.check
  | .pne h _ _ _ => h.check
  | .plt h _ _ _ => h.check
  | .pge h _ _ _ => h.check
  | .pltu h _ _ _ => h.check
  | .pgeu h _ _ _ => h.check
  | .pand h _ _ _ => h.check
  | .por h _ _ _ => h.check
  | .pxor h _ _ _ => h.check
  | .pnot h _ _ => h.check
  | .pmovx h _ _ => h.check
  | .movpx h _ _ => h.check
  | .spawn h _ => h.check
  | .spawnat h _ => h.check
  | .join h _ _ => h.check
  | .cancel h _ => h.check
  | .bar h _ => h.check
  | .bara h _ => h.check
  | .barw h _ => h.check
  | .chbind h _ _ _ => h.check
  | .fork h _ _ => h.check
  | .hcall h d _ _ n _ => h.andAlso (d == 0 || decide (31 < d.toNat + n.toNat + 1)) .payload
  | .hret h _ => h.check
  | .send h _ _ => h.check
  | .mfs h _ i => h.andAlso (!statusIndices.contains i.toNat) .statusIndex
  | .mts h _ i => h.andAlso (!statusIndices.contains i.toNat) .statusIndex
  | .rep h _ _ _ _ _ => h.andAlso (h.sw) .markedRep
  | .fmt a b _ r _ c _ =>
    if 8 < a.toNat || 8 < b.toNat || r == 7 || c == 3 then some .prefixCode else none
  | .qwr h q _ => h.andAlso (decide (5 < q.toNat)) .queue
  | .qrd h d q =>
    if h.g = 4 then some .guardNever else if 5 < q.toNat then some .queue
    else if d = 0 then some .zeroDest else none
  | .qwrv h q _ => h.andAlso (decide (5 < q.toNat)) .queue
  | .qrdv h _ q => h.andAlso (decide (5 < q.toNat)) .queue
  | .qcnt h _ q => h.andAlso (decide (5 < q.toNat)) .queue
  | .vadd h _ _ _ _ => h.check
  | .vsub h _ _ _ _ => h.check
  | .vmul h _ _ _ _ => h.check
  | .vfma h _ _ _ _ => h.check
  | .vfms h _ _ _ _ => h.check
  | .vfnma h _ _ _ _ => h.check
  | .vmin h _ _ _ _ => h.check
  | .vmax h _ _ _ _ => h.check
  | .vabs h _ _ _ => h.check
  | .vneg h _ _ _ => h.check
  | .vdiv h _ _ _ _ => h.check
  | .vsqrt h _ _ _ => h.check
  | .vrcp h _ _ _ => h.check
  | .vrsq h _ _ _ => h.check
  | .vexp2 h _ _ _ => h.check
  | .vlog2 h _ _ _ => h.check
  | .viadd h _ _ _ _ => h.check
  | .visub h _ _ _ _ => h.check
  | .vimul h _ _ _ _ => h.check
  | .vimin h _ _ _ _ => h.check
  | .vimax h _ _ _ _ => h.check
  | .viminu h _ _ _ _ => h.check
  | .vimaxu h _ _ _ _ => h.check
  | .vand h _ _ _ _ => h.check
  | .vor h _ _ _ _ => h.check
  | .vxor h _ _ _ _ => h.check
  | .vsll h _ _ _ _ => h.check
  | .vsrl h _ _ _ _ => h.check
  | .vsra h _ _ _ _ => h.check
  | .viabs h _ _ _ => h.check
  | .vsadd h _ _ _ _ => h.check
  | .vdot4 h _ _ _ _ => h.check
  | .vceq h _ _ _ _ => h.check
  | .vcne h _ _ _ _ => h.check
  | .vclt h _ _ _ _ => h.check
  | .vcle h _ _ _ _ => h.check
  | .vcltu h _ _ _ _ => h.check
  | .vcleu h _ _ _ _ => h.check
  | .vfeq h _ _ _ _ => h.check
  | .vfne h _ _ _ _ => h.check
  | .vflt h _ _ _ _ => h.check
  | .vfle h _ _ _ _ => h.check
  | .vbcast h _ _ _ => h.check
  | .vsel h _ _ _ _ => h.check
  | .vshuf h _ _ _ _ => h.check
  | .vsldn h _ _ _ _ => h.check
  | .vslup h _ _ _ _ => h.check
  | .vext h _ _ _ => h.check
  | .vins h _ _ _ _ => h.check
  | .vzip h _ _ _ _ => h.check
  | .vunzip h _ _ _ _ => h.check
  | .vrev h _ _ _ => h.check
  | .vcvt h _ _ _ t => h.andAlso (decide (8 < t.toNat)) .target
  | .vrsum h _ _ _ => h.check
  | .vrmax h _ _ _ => h.check
  | .vrmin h _ _ _ => h.check
  | .vror h _ _ _ => h.check
  | .vrand h _ _ _ => h.check
  | .vrisum h _ _ _ => h.check
  | .kand h _ _ _ => h.check
  | .kor h _ _ _ => h.check
  | .kxor h _ _ _ => h.check
  | .knot h _ _ => h.check
  | .kmovx h _ _ => h.check
  | .xmovk h _ _ => h.check
  | .kpopc h _ _ => h.check
  | .kfirst h _ _ => h.check
  | .gzero h d => h.andAlso (decide (26 < d.toNat)) .gBlock
  | .gacc h d a _ => h.andAlso (decide (26 < d.toNat) || decide (26 < a.toNat)) .gBlock
  | .gadd h d a => h.andAlso (decide (26 < d.toNat) || decide (26 < a.toNat)) .gBlock
  | .gsub h d a => h.andAlso (decide (26 < d.toNat) || decide (26 < a.toNat)) .gBlock
  | .gsch h d a _ => h.andAlso (decide (26 < d.toNat) || decide (26 < a.toNat)) .gBlock
  | .gdmp h d a _ => h.andAlso (decide (26 < d.toNat) || decide (26 < a.toNat)) .gBlock
  | .gmean h d a _ => h.andAlso (decide (26 < d.toNat) || decide (26 < a.toNat)) .gBlock
  | .gsnd h d _ => h.andAlso (decide (26 < d.toNat)) .gBlock
  | .grcv h d _ => h.andAlso (decide (26 < d.toNat)) .gBlock
  | .akey h => h.check
  | .arel h => h.check
  | .mma h _ => h.check
  | .mgang h _ _ => h.check
  | .mres h => h.check
  | .mzero h => h.check
  | .rrow h => h.check
  | .rdrop h => h.check
  | .mstat h _ => h.check
  | .nbcfg h _ _ => h.check
  | .nbrun h _ => h.check
  | .nbget h d _ => h.andAlso (d == 0) .zeroDest
  | .nbrel h _ => h.check
  | .cpy h _ => h.check
  | .cpyx h _ => h.check
  | .cstat h _ => h.check
  | .taskFailure _ _ => none
  | .kick _ _ => none
  | .qtab _ _ => none
  | .qcreate _ => none
  | .slots _ _ => none
  | .ccreate _ _ => none
  | .info => none
  | .sample _ _ _ => none
  | .replay _ _ _ _ => none
  | .twin _ _ => none
  | .chknow _ _ => none
  | .mboxlim _ _ => none
  | .bar2WindowBase _ => none
  | .bar2Read _ _ => none
  | .bar2Write _ _ => none
  | .registerWrite _ _ => none
  | .firmwareStart _ _ => none
  | .launch _ => none
  | .gang _ => none
  | .copyh _ => none
  | .boltPacket _ => none
  | .clearPacket _ => none
  | .fencePacket _ => none
  | .signal _ => none
  | .destroy _ => none
  | .chkpt _ => none
  | .ib _ => none
  | .packetComplete _ => none
  | .ageingBoundary => none
  | .energySample _ => none
  | .periodBoundary _ => none
  | .arm _ _ _ => none
  | .gangDecide _ => none
  | .gangDecision _ _ => none
  | .gangStart _ => none
  | .terminationWave _ => none
  | .gangWaveResult _ _ _ _ _ => none
  | .gangFenceReport _ _ _ _ _ => none
  | .taskStart _ => none
  | .taskRetire _ _ => none
  | .stealRequest _ => none
  | .stolenRecord _ => none
  | .stealRefusal _ => none
  | .stealBackoff _ => none
  | .spawnatWalk _ => none
  | .spill _ => none
  | .cancelRequest _ => none
  | .resultArrival _ => none
  | .wake _ => none
  | .storeApply _ => none
  | .joinApply _ => none
  | .joinCombine _ _ => none
  | .loadServe _ => none
  | .getServe _ => none
  | .thrServe _ => none
  | .latchRetry _ => none
  | .boltApply _ => none
  | .boltAck _ => none
  | .clearCheck _ => none
  | .clearApply _ => none
  | .fillWrite _ => none
  | .brelApply _ => none
  | .bdeclApply _ => none
  | .copyCommandRun _ _ => none
  | .copyComplete _ _ => none
  | .keyGrant _ => none
  | .arrayKstep _ => none
  | .arrayDrainRow _ => none
  | .rowHandlerStart _ => none
  | .nbBind _ => none
  | .nbRun _ => none
  | .nbUnbind _ => none
  | .hingeCallArrival _ => none
  | .hingeHandlerStart _ => none
  | .hingeStatusArrival _ => none
  | .hingeReplyTimeout _ => none
  | .channelPacketArrival _ => none
  | .channelResend _ => none
  | .reductionRound _ => none
  | .barrierRelease _ => none
  | .barrierArrivalFlit _ _ => none
  | .barrierReleaseFlit _ => none
  | .flitReceive _ _ => none
  | .linkRetrain _ => none
  | .linkFailTimeout _ => none
  | .clockStep _ => none
  | .debugHalt _ => none
  | .singleStep _ _ => none
  | .debugResume _ => none
  | .samplePulse => none
  | .scrub => none
  | .uncorrectableError _ _ => none
  | .lifetimeRecordWrite => none
  | .powerDown => none
  | .replayAbandon _ => none
  | .twinDigest _ => none
  | .chkptBlockAck _ => none
  | .linkRetrainComplete _ => none
  | .walkComplete _ => none
  | .mailboxServe _ => none
  | .mailboxReply _ => none
  | .channelPacketReply _ => none
  | .powerFailure => none

/-- The instruction's fields are those of a legal word, or it is an event. -/
abbrev Instr.WellFormed (i : Instr) : Prop := i.check = none

/-- The row has no encoding: it is one of the table's events. -/
def Instr.isEvent : Instr → Bool
  | .nop _ => false
  | .brk _ _ => false
  | .trap _ _ => false
  | .iret _ => false
  | .yield _ => false
  | .done _ => false
  | .setc _ _ => false
  | .add _ _ _ _ => false
  | .sub _ _ _ _ => false
  | .and _ _ _ _ => false
  | .or _ _ _ _ => false
  | .xor _ _ _ _ => false
  | .andn _ _ _ _ => false
  | .orn _ _ _ _ => false
  | .sll _ _ _ _ => false
  | .srl _ _ _ _ => false
  | .sra _ _ _ _ => false
  | .ror _ _ _ _ => false
  | .slt _ _ _ _ => false
  | .sltu _ _ _ _ => false
  | .seq _ _ _ _ => false
  | .sne _ _ _ _ => false
  | .min _ _ _ _ => false
  | .max _ _ _ _ => false
  | .minu _ _ _ _ => false
  | .maxu _ _ _ _ => false
  | .sh1add _ _ _ _ => false
  | .sh2add _ _ _ _ => false
  | .sh3add _ _ _ _ => false
  | .clz _ _ _ => false
  | .ctz _ _ _ => false
  | .popc _ _ _ => false
  | .sextb _ _ _ => false
  | .sexth _ _ _ => false
  | .sextw _ _ _ => false
  | .zextb _ _ _ => false
  | .zexth _ _ _ => false
  | .zextw _ _ _ => false
  | .rev8 _ _ _ => false
  | .mul _ _ _ _ => false
  | .mulh _ _ _ _ => false
  | .mulhu _ _ _ _ => false
  | .mulhsu _ _ _ _ => false
  | .div _ _ _ _ => false
  | .divu _ _ _ _ => false
  | .rem _ _ _ _ => false
  | .remu _ _ _ _ => false
  | .addi _ _ _ _ => false
  | .andi _ _ _ _ => false
  | .ori _ _ _ _ => false
  | .xori _ _ _ _ => false
  | .slli _ _ _ _ => false
  | .srli _ _ _ _ => false
  | .srai _ _ _ _ => false
  | .rori _ _ _ _ => false
  | .slti _ _ _ _ => false
  | .sltiu _ _ _ _ => false
  | .lui _ _ _ => false
  | .lil _ _ _ => false
  | .lb _ _ _ _ => false
  | .lh _ _ _ _ => false
  | .lw _ _ _ _ => false
  | .ld _ _ _ _ => false
  | .lbu _ _ _ _ => false
  | .lhu _ _ _ _ => false
  | .lwu _ _ _ _ => false
  | .sb _ _ _ _ => false
  | .sh _ _ _ _ => false
  | .sw _ _ _ _ => false
  | .sd _ _ _ _ => false
  | .vld _ _ _ _ => false
  | .vst _ _ _ _ => false
  | .vldx _ _ _ _ _ _ => false
  | .vstx _ _ _ _ _ _ => false
  | .vlds _ _ _ _ _ _ => false
  | .vsts _ _ _ _ _ _ => false
  | .get _ _ _ _ => false
  | .thr _ _ _ _ _ => false
  | .bolt _ _ _ => false
  | .clear _ _ _ => false
  | .brel _ _ => false
  | .ctype _ _ _ => false
  | .bdecl _ _ _ => false
  | .fence _ _ => false
  | .fenceSys _ _ => false
  | .beq _ _ _ _ => false
  | .bne _ _ _ _ => false
  | .blt _ _ _ _ => false
  | .bge _ _ _ _ => false
  | .bltu _ _ _ _ => false
  | .bgeu _ _ _ _ => false
  | .brp _ _ _ _ => false
  | .j _ _ => false
  | .jal _ _ => false
  | .jalr _ _ _ _ => false
  | .loop _ _ _ _ => false
  | .loopi _ _ _ _ => false
  | .peq _ _ _ _ => false
  | .pne _ _ _ _ => false
  | .plt _ _ _ _ => false
  | .pge _ _ _ _ => false
  | .pltu _ _ _ _ => false
  | .pgeu _ _ _ _ => false
  | .pand _ _ _ _ => false
  | .por _ _ _ _ => false
  | .pxor _ _ _ _ => false
  | .pnot _ _ _ => false
  | .pmovx _ _ _ => false
  | .movpx _ _ _ => false
  | .spawn _ _ => false
  | .spawnat _ _ => false
  | .join _ _ _ => false
  | .cancel _ _ => false
  | .bar _ _ => false
  | .bara _ _ => false
  | .barw _ _ => false
  | .chbind _ _ _ _ => false
  | .fork _ _ _ => false
  | .hcall _ _ _ _ _ _ => false
  | .hret _ _ => false
  | .send _ _ _ => false
  | .mfs _ _ _ => false
  | .mts _ _ _ => false
  | .rep _ _ _ _ _ _ => false
  | .fmt _ _ _ _ _ _ _ => false
  | .qwr _ _ _ => false
  | .qrd _ _ _ => false
  | .qwrv _ _ _ => false
  | .qrdv _ _ _ => false
  | .qcnt _ _ _ => false
  | .vadd _ _ _ _ _ => false
  | .vsub _ _ _ _ _ => false
  | .vmul _ _ _ _ _ => false
  | .vfma _ _ _ _ _ => false
  | .vfms _ _ _ _ _ => false
  | .vfnma _ _ _ _ _ => false
  | .vmin _ _ _ _ _ => false
  | .vmax _ _ _ _ _ => false
  | .vabs _ _ _ _ => false
  | .vneg _ _ _ _ => false
  | .vdiv _ _ _ _ _ => false
  | .vsqrt _ _ _ _ => false
  | .vrcp _ _ _ _ => false
  | .vrsq _ _ _ _ => false
  | .vexp2 _ _ _ _ => false
  | .vlog2 _ _ _ _ => false
  | .viadd _ _ _ _ _ => false
  | .visub _ _ _ _ _ => false
  | .vimul _ _ _ _ _ => false
  | .vimin _ _ _ _ _ => false
  | .vimax _ _ _ _ _ => false
  | .viminu _ _ _ _ _ => false
  | .vimaxu _ _ _ _ _ => false
  | .vand _ _ _ _ _ => false
  | .vor _ _ _ _ _ => false
  | .vxor _ _ _ _ _ => false
  | .vsll _ _ _ _ _ => false
  | .vsrl _ _ _ _ _ => false
  | .vsra _ _ _ _ _ => false
  | .viabs _ _ _ _ => false
  | .vsadd _ _ _ _ _ => false
  | .vdot4 _ _ _ _ _ => false
  | .vceq _ _ _ _ _ => false
  | .vcne _ _ _ _ _ => false
  | .vclt _ _ _ _ _ => false
  | .vcle _ _ _ _ _ => false
  | .vcltu _ _ _ _ _ => false
  | .vcleu _ _ _ _ _ => false
  | .vfeq _ _ _ _ _ => false
  | .vfne _ _ _ _ _ => false
  | .vflt _ _ _ _ _ => false
  | .vfle _ _ _ _ _ => false
  | .vbcast _ _ _ _ => false
  | .vsel _ _ _ _ _ => false
  | .vshuf _ _ _ _ _ => false
  | .vsldn _ _ _ _ _ => false
  | .vslup _ _ _ _ _ => false
  | .vext _ _ _ _ => false
  | .vins _ _ _ _ _ => false
  | .vzip _ _ _ _ _ => false
  | .vunzip _ _ _ _ _ => false
  | .vrev _ _ _ _ => false
  | .vcvt _ _ _ _ _ => false
  | .vrsum _ _ _ _ => false
  | .vrmax _ _ _ _ => false
  | .vrmin _ _ _ _ => false
  | .vror _ _ _ _ => false
  | .vrand _ _ _ _ => false
  | .vrisum _ _ _ _ => false
  | .kand _ _ _ _ => false
  | .kor _ _ _ _ => false
  | .kxor _ _ _ _ => false
  | .knot _ _ _ => false
  | .kmovx _ _ _ => false
  | .xmovk _ _ _ => false
  | .kpopc _ _ _ => false
  | .kfirst _ _ _ => false
  | .gzero _ _ => false
  | .gacc _ _ _ _ => false
  | .gadd _ _ _ => false
  | .gsub _ _ _ => false
  | .gsch _ _ _ _ => false
  | .gdmp _ _ _ _ => false
  | .gmean _ _ _ _ => false
  | .gsnd _ _ _ => false
  | .grcv _ _ _ => false
  | .akey _ => false
  | .arel _ => false
  | .mma _ _ => false
  | .mgang _ _ _ => false
  | .mres _ => false
  | .mzero _ => false
  | .rrow _ => false
  | .rdrop _ => false
  | .mstat _ _ => false
  | .nbcfg _ _ _ => false
  | .nbrun _ _ => false
  | .nbget _ _ _ => false
  | .nbrel _ _ => false
  | .cpy _ _ => false
  | .cpyx _ _ => false
  | .cstat _ _ => false
  | .taskFailure _ _ => true
  | .kick _ _ => true
  | .qtab _ _ => true
  | .qcreate _ => true
  | .slots _ _ => true
  | .ccreate _ _ => true
  | .info => true
  | .sample _ _ _ => true
  | .replay _ _ _ _ => true
  | .twin _ _ => true
  | .chknow _ _ => true
  | .mboxlim _ _ => true
  | .bar2WindowBase _ => true
  | .bar2Read _ _ => true
  | .bar2Write _ _ => true
  | .registerWrite _ _ => true
  | .firmwareStart _ _ => true
  | .launch _ => true
  | .gang _ => true
  | .copyh _ => true
  | .boltPacket _ => true
  | .clearPacket _ => true
  | .fencePacket _ => true
  | .signal _ => true
  | .destroy _ => true
  | .chkpt _ => true
  | .ib _ => true
  | .packetComplete _ => true
  | .ageingBoundary => true
  | .energySample _ => true
  | .periodBoundary _ => true
  | .arm _ _ _ => true
  | .gangDecide _ => true
  | .gangDecision _ _ => true
  | .gangStart _ => true
  | .terminationWave _ => true
  | .gangWaveResult _ _ _ _ _ => true
  | .gangFenceReport _ _ _ _ _ => true
  | .taskStart _ => true
  | .taskRetire _ _ => true
  | .stealRequest _ => true
  | .stolenRecord _ => true
  | .stealRefusal _ => true
  | .stealBackoff _ => true
  | .spawnatWalk _ => true
  | .spill _ => true
  | .cancelRequest _ => true
  | .resultArrival _ => true
  | .wake _ => true
  | .storeApply _ => true
  | .joinApply _ => true
  | .joinCombine _ _ => true
  | .loadServe _ => true
  | .getServe _ => true
  | .thrServe _ => true
  | .latchRetry _ => true
  | .boltApply _ => true
  | .boltAck _ => true
  | .clearCheck _ => true
  | .clearApply _ => true
  | .fillWrite _ => true
  | .brelApply _ => true
  | .bdeclApply _ => true
  | .copyCommandRun _ _ => true
  | .copyComplete _ _ => true
  | .keyGrant _ => true
  | .arrayKstep _ => true
  | .arrayDrainRow _ => true
  | .rowHandlerStart _ => true
  | .nbBind _ => true
  | .nbRun _ => true
  | .nbUnbind _ => true
  | .hingeCallArrival _ => true
  | .hingeHandlerStart _ => true
  | .hingeStatusArrival _ => true
  | .hingeReplyTimeout _ => true
  | .channelPacketArrival _ => true
  | .channelResend _ => true
  | .reductionRound _ => true
  | .barrierRelease _ => true
  | .barrierArrivalFlit _ _ => true
  | .barrierReleaseFlit _ => true
  | .flitReceive _ _ => true
  | .linkRetrain _ => true
  | .linkFailTimeout _ => true
  | .clockStep _ => true
  | .debugHalt _ => true
  | .singleStep _ _ => true
  | .debugResume _ => true
  | .samplePulse => true
  | .scrub => true
  | .uncorrectableError _ _ => true
  | .lifetimeRecordWrite => true
  | .powerDown => true
  | .replayAbandon _ => true
  | .twinDigest _ => true
  | .chkptBlockAck _ => true
  | .linkRetrainComplete _ => true
  | .walkComplete _ => true
  | .mailboxServe _ => true
  | .mailboxReply _ => true
  | .channelPacketReply _ => true
  | .powerFailure => true

end Sys2Proof
end

