-- ==== Sys2Proof/Decode.lean ====
section
/-! DEFINITION. From the bits of a word to an instruction or a named refusal, total on every word
(R92-R97, R103, R104), and the encoder written from the same tables.  An event of the operation table
has no bits and no encoding. -/

namespace Sys2Proof

/-- Why a word is no instruction.  Every one of these raises illegal-instruction (R104). -/
inductive DecodeError where
  /-- MAJ = 0x3F (R103) -/
  | unknownMajor
  /-- fn or a selector field at a value with no mnemonic (R104) -/
  | noMnemonic
  /-- a field marked 0 or a zero field of the format holds nonzero bits (R104) -/
  | reservedBits
  /-- a register field outside its file (R96) -/
  | badRegister
  /-- S = 1 in FMT (R94) -/
  | markedPrefix
  /-- a field of the instruction breaks a limit of its own -/
  | malformed (m : Malformed)
  /-- fewer than four bytes, or not a whole word -/
  | short
  deriving DecidableEq, Repr

/-- What a decoding answers. -/
abbrev Decoded := Except DecodeError Instr

/-- Bits [21:0] of a word (R92). -/
abbrev Body := BitVec 22

/-- rd, bits [21:17] (R95). -/
def Body.rd (b : Body) : Reg := b.extractLsb' 17 5
/-- rs1, bits [16:12] (R95). -/
def Body.rs1 (b : Body) : Reg := b.extractLsb' 12 5
/-- rs2, bits [11:7] of formats R and V (R95). -/
def Body.rs2 (b : Body) : Reg := b.extractLsb' 7 5
/-- fn of format R (R95). -/
def Body.fn7 (b : Body) : BitVec 7 := b.extractLsb' 0 7
/-- the mask field of format V (R95). -/
def Body.k (b : Body) : BitVec 3 := b.extractLsb' 4 3
/-- fn of format V (R95). -/
def Body.fn4 (b : Body) : BitVec 4 := b.extractLsb' 0 4
/-- imm12 of formats I and M, off12 of B, len of L (R95). -/
def Body.imm12 (b : Body) : BitVec 12 := b.extractLsb' 0 12
/-- imm17 of format U, off17 of F (R95). -/
def Body.imm17 (b : Body) : BitVec 17 := b.extractLsb' 0 17

/-- A field that must be zero (R104). -/
def zero {n : Nat} (f : BitVec n) (x : Decoded) : Decoded :=
  if f = 0#n then x else .error .reservedBits

/-- A register field that names a file of eight (R96). -/
def inFile3 (r : Reg) (x : BitVec 3 → Decoded) : Decoded :=
  if r.toNat < 8 then x (r.setWidth 3) else .error .badRegister

/-- The channel number of CHBIND, 0-3 (R103). -/
def inFile2 (r : Reg) (x : BitVec 2 → Decoded) : Decoded :=
  if r.toNat < 4 then x (r.setWidth 2) else .error .badRegister

/-- The switch marker must be 0 (R94). -/
def unmarked (h : Head) (x : Decoded) : Decoded :=
  if h.sw then .error .markedPrefix else x

/-- Major 0x00, MISC (R103). -/
def decMisc (h : Head) (b : Body) : Decoded :=
  match b.fn7.toNat with
  | 0 => zero b.rd <| zero b.rs1 <| zero b.rs2 <| .ok (.nop h)
  | 1 => zero b.rd <| zero b.rs1 <| .ok (.brk h b.rs2)
  | 2 => zero b.rd <| zero b.rs1 <| .ok (.trap h b.rs2)
  | 3 => zero b.rd <| zero b.rs1 <| zero b.rs2 <| .ok (.iret h)
  | 4 => zero b.rd <| zero b.rs1 <| zero b.rs2 <| .ok (.yield h)
  | 5 => zero b.rd <| zero b.rs1 <| zero b.rs2 <| .ok (.done h)
  | 6 => zero b.rd <| zero b.rs1 <| .ok (.setc h b.rs2)
  | _ => .error .noMnemonic

/-- Major 0x01, ALU (R103). -/
def decAlu (h : Head) (b : Body) : Decoded :=
  match b.fn7.toNat with
  | 0 => .ok (.add h b.rd b.rs1 b.rs2)
  | 1 => .ok (.sub h b.rd b.rs1 b.rs2)
  | 2 => .ok (.and h b.rd b.rs1 b.rs2)
  | 3 => .ok (.or h b.rd b.rs1 b.rs2)
  | 4 => .ok (.xor h b.rd b.rs1 b.rs2)
  | 5 => .ok (.andn h b.rd b.rs1 b.rs2)
  | 6 => .ok (.orn h b.rd b.rs1 b.rs2)
  | 7 => .ok (.sll h b.rd b.rs1 b.rs2)
  | 8 => .ok (.srl h b.rd b.rs1 b.rs2)
  | 9 => .ok (.sra h b.rd b.rs1 b.rs2)
  | 10 => .ok (.ror h b.rd b.rs1 b.rs2)
  | 11 => .ok (.slt h b.rd b.rs1 b.rs2)
  | 12 => .ok (.sltu h b.rd b.rs1 b.rs2)
  | 13 => .ok (.seq h b.rd b.rs1 b.rs2)
  | 14 => .ok (.sne h b.rd b.rs1 b.rs2)
  | 15 => .ok (.min h b.rd b.rs1 b.rs2)
  | 16 => .ok (.max h b.rd b.rs1 b.rs2)
  | 17 => .ok (.minu h b.rd b.rs1 b.rs2)
  | 18 => .ok (.maxu h b.rd b.rs1 b.rs2)
  | 19 => .ok (.sh1add h b.rd b.rs1 b.rs2)
  | 20 => .ok (.sh2add h b.rd b.rs1 b.rs2)
  | 21 => .ok (.sh3add h b.rd b.rs1 b.rs2)
  | 22 => zero b.rs2 <| .ok (.clz h b.rd b.rs1)
  | 23 => zero b.rs2 <| .ok (.ctz h b.rd b.rs1)
  | 24 => zero b.rs2 <| .ok (.popc h b.rd b.rs1)
  | 25 => zero b.rs2 <| .ok (.sextb h b.rd b.rs1)
  | 26 => zero b.rs2 <| .ok (.sexth h b.rd b.rs1)
  | 27 => zero b.rs2 <| .ok (.sextw h b.rd b.rs1)
  | 28 => zero b.rs2 <| .ok (.zextb h b.rd b.rs1)
  | 29 => zero b.rs2 <| .ok (.zexth h b.rd b.rs1)
  | 30 => zero b.rs2 <| .ok (.zextw h b.rd b.rs1)
  | 31 => zero b.rs2 <| .ok (.rev8 h b.rd b.rs1)
  | _ => .error .noMnemonic

/-- Major 0x02, MULDIV (R103). -/
def decMulDiv (h : Head) (b : Body) : Decoded :=
  match b.fn7.toNat with
  | 0 => .ok (.mul h b.rd b.rs1 b.rs2)
  | 1 => .ok (.mulh h b.rd b.rs1 b.rs2)
  | 2 => .ok (.mulhu h b.rd b.rs1 b.rs2)
  | 3 => .ok (.mulhsu h b.rd b.rs1 b.rs2)
  | 4 => .ok (.div h b.rd b.rs1 b.rs2)
  | 5 => .ok (.divu h b.rd b.rs1 b.rs2)
  | 6 => .ok (.rem h b.rd b.rs1 b.rs2)
  | 7 => .ok (.remu h b.rd b.rs1 b.rs2)
  | _ => .error .noMnemonic

/-- Major 0x07, SHI (R103). -/
def decShi (h : Head) (b : Body) : Decoded :=
  match (b.imm12.extractLsb' 10 2).toNat with
  | 0 => zero (b.imm12.extractLsb' 6 4) <| .ok (.slli h b.rd b.rs1 (b.imm12.extractLsb' 0 6))
  | 1 => zero (b.imm12.extractLsb' 6 4) <| .ok (.srli h b.rd b.rs1 (b.imm12.extractLsb' 0 6))
  | 2 => zero (b.imm12.extractLsb' 6 4) <| .ok (.srai h b.rd b.rs1 (b.imm12.extractLsb' 0 6))
  | 3 => zero (b.imm12.extractLsb' 6 4) <| .ok (.rori h b.rd b.rs1 (b.imm12.extractLsb' 0 6))
  | _ => .error .noMnemonic

/-- Major 0x19, VMX (R103). -/
def decVmx (h : Head) (b : Body) : Decoded :=
  match (b.fn7.extractLsb' 0 2).toNat with
  | 0 => .ok (.vldx h b.rd b.rs1 b.rs2 (b.fn7.extractLsb' 4 3) (b.fn7.extractLsb' 2 2))
  | 1 => .ok (.vstx h b.rd b.rs1 b.rs2 (b.fn7.extractLsb' 4 3) (b.fn7.extractLsb' 2 2))
  | 2 => .ok (.vlds h b.rd b.rs1 b.rs2 (b.fn7.extractLsb' 4 3) (b.fn7.extractLsb' 2 2))
  | 3 => .ok (.vsts h b.rd b.rs1 b.rs2 (b.fn7.extractLsb' 4 3) (b.fn7.extractLsb' 2 2))
  | _ => .error .noMnemonic

/-- Major 0x1C, LATC (R103). -/
def decLatc (h : Head) (b : Body) : Decoded :=
  match b.fn7.toNat with
  | 0 => zero b.rd <| .ok (.bolt h b.rs1 b.rs2)
  | 1 => zero b.rd <| .ok (.clear h b.rs1 b.rs2)
  | 2 => zero b.rd <| zero b.rs2 <| .ok (.brel h b.rs1)
  | 3 => zero b.rs2 <| .ok (.ctype h b.rd b.rs1)
  | 4 => zero b.rd <| .ok (.bdecl h b.rs1 b.rs2)
  | _ => .error .noMnemonic

/-- Major 0x1D, FENCE (R103). -/
def decFence (h : Head) (b : Body) : Decoded :=
  match (b.imm12.extractLsb' 8 4).toNat with
  | 0 => zero b.rd <| zero b.rs1 <| .ok (.fence h (b.imm12.extractLsb' 0 8))
  | 1 => zero b.rd <| zero b.rs1 <| .ok (.fenceSys h (b.imm12.extractLsb' 0 8))
  | _ => .error .noMnemonic

/-- Major 0x2A, PRED (R103). -/
def decPred (h : Head) (b : Body) : Decoded :=
  match b.fn7.toNat with
  | 0 => inFile3 b.rd fun d' => .ok (.peq h d' b.rs1 b.rs2)
  | 1 => inFile3 b.rd fun d' => .ok (.pne h d' b.rs1 b.rs2)
  | 2 => inFile3 b.rd fun d' => .ok (.plt h d' b.rs1 b.rs2)
  | 3 => inFile3 b.rd fun d' => .ok (.pge h d' b.rs1 b.rs2)
  | 4 => inFile3 b.rd fun d' => .ok (.pltu h d' b.rs1 b.rs2)
  | 5 => inFile3 b.rd fun d' => .ok (.pgeu h d' b.rs1 b.rs2)
  | 6 => inFile3 b.rd fun d' => inFile3 b.rs1 fun a' => inFile3 b.rs2 fun b' => .ok (.pand h d' a' b')
  | 7 => inFile3 b.rd fun d' => inFile3 b.rs1 fun a' => inFile3 b.rs2 fun b' => .ok (.por h d' a' b')
  | 8 => inFile3 b.rd fun d' => inFile3 b.rs1 fun a' => inFile3 b.rs2 fun b' => .ok (.pxor h d' a' b')
  | 9 => inFile3 b.rd fun d' => inFile3 b.rs1 fun a' => zero b.rs2 <| .ok (.pnot h d' a')
  | 10 => inFile3 b.rd fun d' => zero b.rs2 <| .ok (.pmovx h d' b.rs1)
  | 11 => inFile3 b.rs1 fun a' => zero b.rs2 <| .ok (.movpx h b.rd a')
  | _ => .error .noMnemonic

/-- Major 0x2B, TASK (R103). -/
def decTask (h : Head) (b : Body) : Decoded :=
  match b.fn7.toNat with
  | 0 => zero b.rd <| zero b.rs2 <| .ok (.spawn h b.rs1)
  | 1 => zero b.rd <| zero b.rs2 <| .ok (.spawnat h b.rs1)
  | 2 => zero b.rd <| .ok (.join h b.rs1 b.rs2)
  | 3 => zero b.rd <| zero b.rs2 <| .ok (.cancel h b.rs1)
  | 4 => zero b.rd <| zero b.rs2 <| .ok (.bar h b.rs1)
  | 5 => zero b.rd <| zero b.rs2 <| .ok (.bara h b.rs1)
  | 6 => zero b.rd <| zero b.rs2 <| .ok (.barw h b.rs1)
  | 7 => inFile2 b.rd fun n' => .ok (.chbind h n' b.rs1 b.rs2)
  | _ => .error .noMnemonic

/-- Major 0x2E, HMSG (R103). -/
def decHmsg (h : Head) (b : Body) : Decoded :=
  match b.fn7.toNat with
  | 0 => zero b.rd <| zero b.rs2 <| .ok (.hret h b.rs1)
  | 1 => zero b.rd <| .ok (.send h b.rs1 b.rs2)
  | _ => .error .noMnemonic

/-- Major 0x33, QUE (R103). -/
def decQue (h : Head) (b : Body) : Decoded :=
  match b.fn7.toNat with
  | 0 => inFile3 b.rd fun q' => zero b.rs2 <| .ok (.qwr h q' b.rs1)
  | 1 => inFile3 b.rs1 fun q' => zero b.rs2 <| .ok (.qrd h b.rd q')
  | 2 => inFile3 b.rd fun q' => zero b.rs2 <| .ok (.qwrv h q' b.rs1)
  | 3 => inFile3 b.rs1 fun q' => zero b.rs2 <| .ok (.qrdv h b.rd q')
  | 4 => inFile3 b.rs1 fun q' => zero b.rs2 <| .ok (.qcnt h b.rd q')
  | _ => .error .noMnemonic

/-- Major 0x34, VFA (R103). -/
def decVfa (h : Head) (b : Body) : Decoded :=
  match b.fn4.toNat with
  | 0 => .ok (.vadd h b.rd b.rs1 b.rs2 b.k)
  | 1 => .ok (.vsub h b.rd b.rs1 b.rs2 b.k)
  | 2 => .ok (.vmul h b.rd b.rs1 b.rs2 b.k)
  | 3 => .ok (.vfma h b.rd b.rs1 b.rs2 b.k)
  | 4 => .ok (.vfms h b.rd b.rs1 b.rs2 b.k)
  | 5 => .ok (.vfnma h b.rd b.rs1 b.rs2 b.k)
  | 6 => .ok (.vmin h b.rd b.rs1 b.rs2 b.k)
  | 7 => .ok (.vmax h b.rd b.rs1 b.rs2 b.k)
  | 8 => zero b.rs2 <| .ok (.vabs h b.rd b.rs1 b.k)
  | 9 => zero b.rs2 <| .ok (.vneg h b.rd b.rs1 b.k)
  | 10 => .ok (.vdiv h b.rd b.rs1 b.rs2 b.k)
  | 11 => zero b.rs2 <| .ok (.vsqrt h b.rd b.rs1 b.k)
  | 12 => zero b.rs2 <| .ok (.vrcp h b.rd b.rs1 b.k)
  | 13 => zero b.rs2 <| .ok (.vrsq h b.rd b.rs1 b.k)
  | 14 => zero b.rs2 <| .ok (.vexp2 h b.rd b.rs1 b.k)
  | 15 => zero b.rs2 <| .ok (.vlog2 h b.rd b.rs1 b.k)
  | _ => .error .noMnemonic

/-- Major 0x35, VIA (R103). -/
def decVia (h : Head) (b : Body) : Decoded :=
  match b.fn4.toNat with
  | 0 => .ok (.viadd h b.rd b.rs1 b.rs2 b.k)
  | 1 => .ok (.visub h b.rd b.rs1 b.rs2 b.k)
  | 2 => .ok (.vimul h b.rd b.rs1 b.rs2 b.k)
  | 3 => .ok (.vimin h b.rd b.rs1 b.rs2 b.k)
  | 4 => .ok (.vimax h b.rd b.rs1 b.rs2 b.k)
  | 5 => .ok (.viminu h b.rd b.rs1 b.rs2 b.k)
  | 6 => .ok (.vimaxu h b.rd b.rs1 b.rs2 b.k)
  | 7 => .ok (.vand h b.rd b.rs1 b.rs2 b.k)
  | 8 => .ok (.vor h b.rd b.rs1 b.rs2 b.k)
  | 9 => .ok (.vxor h b.rd b.rs1 b.rs2 b.k)
  | 10 => .ok (.vsll h b.rd b.rs1 b.rs2 b.k)
  | 11 => .ok (.vsrl h b.rd b.rs1 b.rs2 b.k)
  | 12 => .ok (.vsra h b.rd b.rs1 b.rs2 b.k)
  | 13 => zero b.rs2 <| .ok (.viabs h b.rd b.rs1 b.k)
  | 14 => .ok (.vsadd h b.rd b.rs1 b.rs2 b.k)
  | 15 => .ok (.vdot4 h b.rd b.rs1 b.rs2 b.k)
  | _ => .error .noMnemonic

/-- Major 0x36, VCMP (R103). -/
def decVcmp (h : Head) (b : Body) : Decoded :=
  match b.fn4.toNat with
  | 0 => inFile3 b.rd fun d' => .ok (.vceq h d' b.rs1 b.rs2 b.k)
  | 1 => inFile3 b.rd fun d' => .ok (.vcne h d' b.rs1 b.rs2 b.k)
  | 2 => inFile3 b.rd fun d' => .ok (.vclt h d' b.rs1 b.rs2 b.k)
  | 3 => inFile3 b.rd fun d' => .ok (.vcle h d' b.rs1 b.rs2 b.k)
  | 4 => inFile3 b.rd fun d' => .ok (.vcltu h d' b.rs1 b.rs2 b.k)
  | 5 => inFile3 b.rd fun d' => .ok (.vcleu h d' b.rs1 b.rs2 b.k)
  | 6 => inFile3 b.rd fun d' => .ok (.vfeq h d' b.rs1 b.rs2 b.k)
  | 7 => inFile3 b.rd fun d' => .ok (.vfne h d' b.rs1 b.rs2 b.k)
  | 8 => inFile3 b.rd fun d' => .ok (.vflt h d' b.rs1 b.rs2 b.k)
  | 9 => inFile3 b.rd fun d' => .ok (.vfle h d' b.rs1 b.rs2 b.k)
  | _ => .error .noMnemonic

/-- Major 0x37, VPERM (R103). -/
def decVperm (h : Head) (b : Body) : Decoded :=
  match b.fn4.toNat with
  | 0 => zero b.rs2 <| .ok (.vbcast h b.rd b.rs1 b.k)
  | 1 => .ok (.vsel h b.rd b.rs1 b.rs2 b.k)
  | 2 => .ok (.vshuf h b.rd b.rs1 b.rs2 b.k)
  | 3 => .ok (.vsldn h b.rd b.rs1 b.rs2 b.k)
  | 4 => .ok (.vslup h b.rd b.rs1 b.rs2 b.k)
  | 5 => zero b.k <| .ok (.vext h b.rd b.rs1 b.rs2)
  | 6 => .ok (.vins h b.rd b.rs1 b.rs2 b.k)
  | 7 => .ok (.vzip h b.rd b.rs1 b.rs2 b.k)
  | 8 => .ok (.vunzip h b.rd b.rs1 b.rs2 b.k)
  | 9 => zero b.rs2 <| .ok (.vrev h b.rd b.rs1 b.k)
  | _ => .error .noMnemonic

/-- Major 0x39, VRED (R103). -/
def decVred (h : Head) (b : Body) : Decoded :=
  match b.fn4.toNat with
  | 0 => zero b.rs2 <| .ok (.vrsum h b.rd b.rs1 b.k)
  | 1 => zero b.rs2 <| .ok (.vrmax h b.rd b.rs1 b.k)
  | 2 => zero b.rs2 <| .ok (.vrmin h b.rd b.rs1 b.k)
  | 3 => zero b.rs2 <| .ok (.vror h b.rd b.rs1 b.k)
  | 4 => zero b.rs2 <| .ok (.vrand h b.rd b.rs1 b.k)
  | 5 => zero b.rs2 <| .ok (.vrisum h b.rd b.rs1 b.k)
  | _ => .error .noMnemonic

/-- Major 0x3A, KOP (R103). -/
def decKop (h : Head) (b : Body) : Decoded :=
  match b.fn4.toNat with
  | 0 => inFile3 b.rd fun d' => inFile3 b.rs1 fun a' => inFile3 b.rs2 fun b' => zero b.k <| .ok (.kand h d' a' b')
  | 1 => inFile3 b.rd fun d' => inFile3 b.rs1 fun a' => inFile3 b.rs2 fun b' => zero b.k <| .ok (.kor h d' a' b')
  | 2 => inFile3 b.rd fun d' => inFile3 b.rs1 fun a' => inFile3 b.rs2 fun b' => zero b.k <| .ok (.kxor h d' a' b')
  | 3 => inFile3 b.rd fun d' => inFile3 b.rs1 fun a' => zero b.rs2 <| zero b.k <| .ok (.knot h d' a')
  | 4 => inFile3 b.rs1 fun a' => zero b.rs2 <| zero b.k <| .ok (.kmovx h b.rd a')
  | 5 => inFile3 b.rd fun d' => zero b.rs2 <| zero b.k <| .ok (.xmovk h d' b.rs1)
  | 6 => inFile3 b.rs1 fun a' => zero b.rs2 <| zero b.k <| .ok (.kpopc h b.rd a')
  | 7 => inFile3 b.rs1 fun a' => zero b.rs2 <| zero b.k <| .ok (.kfirst h b.rd a')
  | _ => .error .noMnemonic

/-- Major 0x3B, GBP (R103). -/
def decGbp (h : Head) (b : Body) : Decoded :=
  match b.fn4.toNat with
  | 0 => zero b.rs1 <| zero b.rs2 <| zero b.k <| .ok (.gzero h b.rd)
  | 1 => zero b.rs2 <| .ok (.gacc h b.rd b.rs1 b.k)
  | 2 => zero b.rs2 <| zero b.k <| .ok (.gadd h b.rd b.rs1)
  | 3 => zero b.rs2 <| zero b.k <| .ok (.gsub h b.rd b.rs1)
  | 4 => zero b.rs2 <| .ok (.gsch h b.rd b.rs1 b.k)
  | 5 => zero b.k <| .ok (.gdmp h b.rd b.rs1 b.rs2)
  | 6 => zero b.rs2 <| .ok (.gmean h b.rd b.rs1 b.k)
  | 7 => zero b.rs2 <| zero b.k <| .ok (.gsnd h b.rd b.rs1)
  | 8 => zero b.rs2 <| zero b.k <| .ok (.grcv h b.rd b.rs1)
  | _ => .error .noMnemonic

/-- Major 0x3C, MTX (R103). -/
def decMtx (h : Head) (b : Body) : Decoded :=
  match b.fn7.toNat with
  | 0 => zero b.rd <| zero b.rs1 <| zero b.rs2 <| .ok (.akey h)
  | 1 => zero b.rd <| zero b.rs1 <| zero b.rs2 <| .ok (.arel h)
  | 2 => zero b.rd <| zero b.rs2 <| .ok (.mma h b.rs1)
  | 3 => zero b.rd <| .ok (.mgang h b.rs1 b.rs2)
  | 4 => zero b.rd <| zero b.rs1 <| zero b.rs2 <| .ok (.mres h)
  | 5 => zero b.rd <| zero b.rs1 <| zero b.rs2 <| .ok (.mzero h)
  | 6 => zero b.rd <| zero b.rs1 <| zero b.rs2 <| .ok (.rrow h)
  | 7 => zero b.rd <| zero b.rs1 <| zero b.rs2 <| .ok (.rdrop h)
  | 8 => zero b.rs1 <| zero b.rs2 <| .ok (.mstat h b.rd)
  | _ => .error .noMnemonic

/-- Major 0x3D, NB (R103). -/
def decNb (h : Head) (b : Body) : Decoded :=
  match b.fn7.toNat with
  | 0 => zero b.rd <| .ok (.nbcfg h b.rs1 b.rs2)
  | 1 => zero b.rd <| zero b.rs2 <| .ok (.nbrun h b.rs1)
  | 2 => zero b.rs2 <| .ok (.nbget h b.rd b.rs1)
  | 3 => zero b.rd <| zero b.rs2 <| .ok (.nbrel h b.rs1)
  | _ => .error .noMnemonic

/-- Major 0x3E, CPY (R103). -/
def decCpy (h : Head) (b : Body) : Decoded :=
  match b.fn7.toNat with
  | 0 => zero b.rd <| zero b.rs2 <| .ok (.cpy h b.rs1)
  | 1 => zero b.rd <| zero b.rs2 <| .ok (.cpyx h b.rs1)
  | 2 => zero b.rs1 <| zero b.rs2 <| .ok (.cstat h b.rd)
  | _ => .error .noMnemonic

/-- The instruction of a major opcode and a body, before the limits of its fields (R103). -/
def decodeMajor (maj : BitVec 6) (h : Head) (b : Body) : Decoded :=
  match maj.toNat with
  | 0x00 => decMisc h b
  | 0x01 => decAlu h b
  | 0x02 => decMulDiv h b
  | 0x03 => .ok (.addi h b.rd b.rs1 b.imm12)
  | 0x04 => .ok (.andi h b.rd b.rs1 b.imm12)
  | 0x05 => .ok (.ori h b.rd b.rs1 b.imm12)
  | 0x06 => .ok (.xori h b.rd b.rs1 b.imm12)
  | 0x07 => decShi h b
  | 0x08 => .ok (.slti h b.rd b.rs1 b.imm12)
  | 0x09 => .ok (.sltiu h b.rd b.rs1 b.imm12)
  | 0x0A => .ok (.lui h b.rd b.imm17)
  | 0x0B => .ok (.lil h b.rd b.imm17)
  | 0x0C => .ok (.lb h b.rd b.rs1 b.imm12)
  | 0x0D => .ok (.lh h b.rd b.rs1 b.imm12)
  | 0x0E => .ok (.lw h b.rd b.rs1 b.imm12)
  | 0x0F => .ok (.ld h b.rd b.rs1 b.imm12)
  | 0x10 => .ok (.lbu h b.rd b.rs1 b.imm12)
  | 0x11 => .ok (.lhu h b.rd b.rs1 b.imm12)
  | 0x12 => .ok (.lwu h b.rd b.rs1 b.imm12)
  | 0x13 => .ok (.sb h b.rd b.rs1 b.imm12)
  | 0x14 => .ok (.sh h b.rd b.rs1 b.imm12)
  | 0x15 => .ok (.sw h b.rd b.rs1 b.imm12)
  | 0x16 => .ok (.sd h b.rd b.rs1 b.imm12)
  | 0x17 => .ok (.vld h b.rd b.rs1 b.imm12)
  | 0x18 => .ok (.vst h b.rd b.rs1 b.imm12)
  | 0x19 => decVmx h b
  | 0x1A => .ok (.get h b.rd b.rs1 b.imm12)
  | 0x1B => zero (b.fn7.extractLsb' 3 4) <| .ok (.thr h b.rd b.rs1 b.rs2 (b.fn7.extractLsb' 0 3))
  | 0x1C => decLatc h b
  | 0x1D => decFence h b
  | 0x1E => .ok (.beq h b.rd b.rs1 b.imm12)
  | 0x1F => .ok (.bne h b.rd b.rs1 b.imm12)
  | 0x20 => .ok (.blt h b.rd b.rs1 b.imm12)
  | 0x21 => .ok (.bge h b.rd b.rs1 b.imm12)
  | 0x22 => .ok (.bltu h b.rd b.rs1 b.imm12)
  | 0x23 => .ok (.bgeu h b.rd b.rs1 b.imm12)
  | 0x24 => inFile3 b.rd fun p' => zero (b.rs1.extractLsb' 1 4) <| .ok (.brp h p' (b.rs1.extractLsb' 0 1) b.imm12)
  | 0x25 => .ok (.j h b)
  | 0x26 => .ok (.jal h b)
  | 0x27 => .ok (.jalr h b.rd b.rs1 b.imm12)
  | 0x28 => zero (b.extractLsb' 12 4) <| .ok (.loop h (b.extractLsb' 21 1) (b.extractLsb' 16 5) b.imm12)
  | 0x29 => .ok (.loopi h (b.extractLsb' 21 1) (b.extractLsb' 12 9) b.imm12)
  | 0x2A => decPred h b
  | 0x2B => decTask h b
  | 0x2C => .ok (.fork h b.rd b.imm17)
  | 0x2D => .ok (.hcall h b.rd b.rs1 (b.imm12.extractLsb' 4 8) (b.imm12.extractLsb' 1 3) (b.imm12.extractLsb' 0 1))
  | 0x2E => decHmsg h b
  | 0x2F => zero b.rs1 <| .ok (.mfs h b.rd b.imm12)
  | 0x30 => zero b.rd <| .ok (.mts h b.rs1 b.imm12)
  | 0x31 => zero (b.extractLsb' 0 6) <| .ok (.rep h (b.extractLsb' 18 4) (b.extractLsb' 12 6) (b.extractLsb' 10 2) (b.extractLsb' 8 2) (b.extractLsb' 6 2))
  | 0x32 => zero (b.extractLsb' 0 4) <| zero h.g <| unmarked h <| .ok (.fmt (b.extractLsb' 18 4) (b.extractLsb' 14 4) (b.extractLsb' 11 3) (b.extractLsb' 8 3) (b.extractLsb' 7 1) (b.extractLsb' 5 2) (b.extractLsb' 4 1))
  | 0x33 => decQue h b
  | 0x34 => decVfa h b
  | 0x35 => decVia h b
  | 0x36 => decVcmp h b
  | 0x37 => decVperm h b
  | 0x38 => zero b.rs2 <| .ok (.vcvt h b.rd b.rs1 b.k b.fn4)
  | 0x39 => decVred h b
  | 0x3A => decKop h b
  | 0x3B => decGbp h b
  | 0x3C => decMtx h b
  | 0x3D => decNb h b
  | 0x3E => decCpy h b
  | _ => .error .unknownMajor

/-- An instruction whose fields keep their limits, or what is wrong with it (R104). -/
def checked (x : Decoded) : Decoded :=
  match x with
  | .error e => .error e
  | .ok i => match i.check with
    | none => .ok i
    | some m => .error (.malformed m)

/-- The head of a word (R92). -/
def Insn.head (w : Insn) : Head := { sw := w.getLsbD 31, g := w.extractLsb' 28 3 }

/-- R92, R104: the instruction of a word. -/
def decodeWord (w : Insn) : Decoded :=
  checked (decodeMajor (w.extractLsb' 22 6) (Insn.head w) (w.extractLsb' 0 22))

/-- R86: an instruction is one little-endian word; the instruction and the bytes after it. -/
def decodeBytes : List Byte → Except DecodeError (Instr × List Byte)
  | b0 :: b1 :: b2 :: b3 :: rest =>
    match decodeWord (b3 ++ b2 ++ b1 ++ b0) with
    | .ok i => .ok (i, rest)
    | .error e => .error e
  | _ => .error .short

/-- The four bytes of a word as memory holds them (R86). -/
def wordBytes (w : Insn) : List Byte :=
  [w.extractLsb' 0 8, w.extractLsb' 8 8, w.extractLsb' 16 8, w.extractLsb' 24 8]

/-- The instruction that the decoder reads from `nbits` bits of a word, the bits above them zero. -/
def decodeTableWord (nbits w : Nat) : Option Instr :=
  if nbits = 0 ∨ 32 < nbits then none
  else match decodeBytes (wordBytes (BitVec.ofNat 32 (w % 2 ^ nbits))) with
    | .ok (i, _) => some i
    | .error _ => none

/-! The encoder. -/

/-- The head of a word without guard or marker. -/
def Head.plain : Head := { sw := false, g := 0 }
/-- R92. -/
def word (h : Head) (maj : BitVec 6) (b : Body) : Insn := BitVec.ofBool h.sw ++ h.g ++ maj ++ b
/-- Format R (R95). -/
def bodyR (d a b : Reg) (f : BitVec 7) : Body := d ++ a ++ b ++ f
/-- Formats I, M and B (R95). -/
def bodyI (d a : Reg) (i : BitVec 12) : Body := d ++ a ++ i
/-- Formats U and F (R95). -/
def bodyU (d : Reg) (i : BitVec 17) : Body := d ++ i
/-- Format V (R95). -/
def bodyV (d a b : Reg) (k : BitVec 3) (f : BitVec 4) : Body := d ++ a ++ b ++ k ++ f
/-- Format L of LOOP (R95). -/
def bodyLoop (l : BitVec 1) (a : Reg) (n : BitVec 12) : Body := l ++ a ++ 0#4 ++ n
/-- Format L of LOOPI (R95). -/
def bodyLoopi (l : BitVec 1) (c : BitVec 9) (n : BitVec 12) : Body := l ++ c ++ n
/-- Format P (R95). -/
def bodyRep (n : BitVec 4) (i : BitVec 6) (d a b : BitVec 2) : Body := n ++ i ++ d ++ a ++ b ++ 0#6
/-- The FMT prefix (R95, R97). -/
def bodyFmt (a b : BitVec 4) (d r : BitVec 3) (t : BitVec 1) (c : BitVec 2) (x : BitVec 1) : Body :=
  a ++ b ++ d ++ r ++ t ++ c ++ x ++ 0#4

/-- R92-R97, R103: the word of an instruction; an event has none. -/
def encode : Instr → Option Insn
  | .nop h => some (word h 0x00 (bodyR 0 0 0 0))
  | .brk h c => some (word h 0x00 (bodyR 0 0 c 1))
  | .trap h c => some (word h 0x00 (bodyR 0 0 c 2))
  | .iret h => some (word h 0x00 (bodyR 0 0 0 3))
  | .yield h => some (word h 0x00 (bodyR 0 0 0 4))
  | .done h => some (word h 0x00 (bodyR 0 0 0 5))
  | .setc h c => some (word h 0x00 (bodyR 0 0 c 6))
  | .add h d a b => some (word h 0x01 (bodyR d a b 0))
  | .sub h d a b => some (word h 0x01 (bodyR d a b 1))
  | .and h d a b => some (word h 0x01 (bodyR d a b 2))
  | .or h d a b => some (word h 0x01 (bodyR d a b 3))
  | .xor h d a b => some (word h 0x01 (bodyR d a b 4))
  | .andn h d a b => some (word h 0x01 (bodyR d a b 5))
  | .orn h d a b => some (word h 0x01 (bodyR d a b 6))
  | .sll h d a b => some (word h 0x01 (bodyR d a b 7))
  | .srl h d a b => some (word h 0x01 (bodyR d a b 8))
  | .sra h d a b => some (word h 0x01 (bodyR d a b 9))
  | .ror h d a b => some (word h 0x01 (bodyR d a b 10))
  | .slt h d a b => some (word h 0x01 (bodyR d a b 11))
  | .sltu h d a b => some (word h 0x01 (bodyR d a b 12))
  | .seq h d a b => some (word h 0x01 (bodyR d a b 13))
  | .sne h d a b => some (word h 0x01 (bodyR d a b 14))
  | .min h d a b => some (word h 0x01 (bodyR d a b 15))
  | .max h d a b => some (word h 0x01 (bodyR d a b 16))
  | .minu h d a b => some (word h 0x01 (bodyR d a b 17))
  | .maxu h d a b => some (word h 0x01 (bodyR d a b 18))
  | .sh1add h d a b => some (word h 0x01 (bodyR d a b 19))
  | .sh2add h d a b => some (word h 0x01 (bodyR d a b 20))
  | .sh3add h d a b => some (word h 0x01 (bodyR d a b 21))
  | .clz h d a => some (word h 0x01 (bodyR d a 0 22))
  | .ctz h d a => some (word h 0x01 (bodyR d a 0 23))
  | .popc h d a => some (word h 0x01 (bodyR d a 0 24))
  | .sextb h d a => some (word h 0x01 (bodyR d a 0 25))
  | .sexth h d a => some (word h 0x01 (bodyR d a 0 26))
  | .sextw h d a => some (word h 0x01 (bodyR d a 0 27))
  | .zextb h d a => some (word h 0x01 (bodyR d a 0 28))
  | .zexth h d a => some (word h 0x01 (bodyR d a 0 29))
  | .zextw h d a => some (word h 0x01 (bodyR d a 0 30))
  | .rev8 h d a => some (word h 0x01 (bodyR d a 0 31))
  | .mul h d a b => some (word h 0x02 (bodyR d a b 0))
  | .mulh h d a b => some (word h 0x02 (bodyR d a b 1))
  | .mulhu h d a b => some (word h 0x02 (bodyR d a b 2))
  | .mulhsu h d a b => some (word h 0x02 (bodyR d a b 3))
  | .div h d a b => some (word h 0x02 (bodyR d a b 4))
  | .divu h d a b => some (word h 0x02 (bodyR d a b 5))
  | .rem h d a b => some (word h 0x02 (bodyR d a b 6))
  | .remu h d a b => some (word h 0x02 (bodyR d a b 7))
  | .addi h d a i => some (word h 0x03 (bodyI d a i))
  | .andi h d a i => some (word h 0x04 (bodyI d a i))
  | .ori h d a i => some (word h 0x05 (bodyI d a i))
  | .xori h d a i => some (word h 0x06 (bodyI d a i))
  | .slli h d a n => some (word h 0x07 (bodyI d a (0#2 ++ 0#4 ++ n)))
  | .srli h d a n => some (word h 0x07 (bodyI d a (1#2 ++ 0#4 ++ n)))
  | .srai h d a n => some (word h 0x07 (bodyI d a (2#2 ++ 0#4 ++ n)))
  | .rori h d a n => some (word h 0x07 (bodyI d a (3#2 ++ 0#4 ++ n)))
  | .slti h d a i => some (word h 0x08 (bodyI d a i))
  | .sltiu h d a i => some (word h 0x09 (bodyI d a i))
  | .lui h d i => some (word h 0x0A (bodyU d i))
  | .lil h d i => some (word h 0x0B (bodyU d i))
  | .lb h d a i => some (word h 0x0C (bodyI d a i))
  | .lh h d a i => some (word h 0x0D (bodyI d a i))
  | .lw h d a i => some (word h 0x0E (bodyI d a i))
  | .ld h d a i => some (word h 0x0F (bodyI d a i))
  | .lbu h d a i => some (word h 0x10 (bodyI d a i))
  | .lhu h d a i => some (word h 0x11 (bodyI d a i))
  | .lwu h d a i => some (word h 0x12 (bodyI d a i))
  | .sb h d a i => some (word h 0x13 (bodyI d a i))
  | .sh h d a i => some (word h 0x14 (bodyI d a i))
  | .sw h d a i => some (word h 0x15 (bodyI d a i))
  | .sd h d a i => some (word h 0x16 (bodyI d a i))
  | .vld h d a i => some (word h 0x17 (bodyI d a i))
  | .vst h d a i => some (word h 0x18 (bodyI d a i))
  | .vldx h d a b k w => some (word h 0x19 (bodyR d a b (k ++ w ++ 0#2)))
  | .vstx h d a b k w => some (word h 0x19 (bodyR d a b (k ++ w ++ 1#2)))
  | .vlds h d a b k w => some (word h 0x19 (bodyR d a b (k ++ w ++ 2#2)))
  | .vsts h d a b k w => some (word h 0x19 (bodyR d a b (k ++ w ++ 3#2)))
  | .get h d a i => some (word h 0x1A (bodyI d a i))
  | .thr h d a b n => some (word h 0x1B (bodyR d a b (0#4 ++ n)))
  | .bolt h a b => some (word h 0x1C (bodyR 0 a b 0))
  | .clear h a b => some (word h 0x1C (bodyR 0 a b 1))
  | .brel h a => some (word h 0x1C (bodyR 0 a 0 2))
  | .ctype h d a => some (word h 0x1C (bodyR d a 0 3))
  | .bdecl h a b => some (word h 0x1C (bodyR 0 a b 4))
  | .fence h m => some (word h 0x1D (bodyI 0 0 (0#4 ++ m)))
  | .fenceSys h m => some (word h 0x1D (bodyI 0 0 (1#4 ++ m)))
  | .beq h a b o => some (word h 0x1E (bodyI a b o))
  | .bne h a b o => some (word h 0x1F (bodyI a b o))
  | .blt h a b o => some (word h 0x20 (bodyI a b o))
  | .bge h a b o => some (word h 0x21 (bodyI a b o))
  | .bltu h a b o => some (word h 0x22 (bodyI a b o))
  | .bgeu h a b o => some (word h 0x23 (bodyI a b o))
  | .brp h p t o => some (word h 0x24 (bodyI (p.setWidth 5) (0#4 ++ t) o))
  | .j h o => some (word h 0x25 o)
  | .jal h o => some (word h 0x26 o)
  | .jalr h d a i => some (word h 0x27 (bodyI d a i))
  | .loop h l a n => some (word h 0x28 (bodyLoop l a n))
  | .loopi h l c n => some (word h 0x29 (bodyLoopi l c n))
  | .peq h d a b => some (word h 0x2A (bodyR (d.setWidth 5) a b 0))
  | .pne h d a b => some (word h 0x2A (bodyR (d.setWidth 5) a b 1))
  | .plt h d a b => some (word h 0x2A (bodyR (d.setWidth 5) a b 2))
  | .pge h d a b => some (word h 0x2A (bodyR (d.setWidth 5) a b 3))
  | .pltu h d a b => some (word h 0x2A (bodyR (d.setWidth 5) a b 4))
  | .pgeu h d a b => some (word h 0x2A (bodyR (d.setWidth 5) a b 5))
  | .pand h d a b => some (word h 0x2A (bodyR (d.setWidth 5) (a.setWidth 5) (b.setWidth 5) 6))
  | .por h d a b => some (word h 0x2A (bodyR (d.setWidth 5) (a.setWidth 5) (b.setWidth 5) 7))
  | .pxor h d a b => some (word h 0x2A (bodyR (d.setWidth 5) (a.setWidth 5) (b.setWidth 5) 8))
  | .pnot h d a => some (word h 0x2A (bodyR (d.setWidth 5) (a.setWidth 5) 0 9))
  | .pmovx h d a => some (word h 0x2A (bodyR (d.setWidth 5) a 0 10))
  | .movpx h d a => some (word h 0x2A (bodyR d (a.setWidth 5) 0 11))
  | .spawn h a => some (word h 0x2B (bodyR 0 a 0 0))
  | .spawnat h a => some (word h 0x2B (bodyR 0 a 0 1))
  | .join h a b => some (word h 0x2B (bodyR 0 a b 2))
  | .cancel h a => some (word h 0x2B (bodyR 0 a 0 3))
  | .bar h a => some (word h 0x2B (bodyR 0 a 0 4))
  | .bara h a => some (word h 0x2B (bodyR 0 a 0 5))
  | .barw h a => some (word h 0x2B (bodyR 0 a 0 6))
  | .chbind h n a b => some (word h 0x2B (bodyR (n.setWidth 5) a b 7))
  | .fork h e o => some (word h 0x2C (bodyU e o))
  | .hcall h d a e n w => some (word h 0x2D (bodyI d a (e ++ n ++ w)))
  | .hret h a => some (word h 0x2E (bodyR 0 a 0 0))
  | .send h a b => some (word h 0x2E (bodyR 0 a b 1))
  | .mfs h d i => some (word h 0x2F (bodyI d 0 i))
  | .mts h a i => some (word h 0x30 (bodyI 0 a i))
  | .rep h n i d a b => some (word h 0x31 (bodyRep n i d a b))
  | .fmt a b d r t c x => some (word Head.plain 0x32 (bodyFmt a b d r t c x))
  | .qwr h q a => some (word h 0x33 (bodyR (q.setWidth 5) a 0 0))
  | .qrd h d q => some (word h 0x33 (bodyR d (q.setWidth 5) 0 1))
  | .qwrv h q a => some (word h 0x33 (bodyR (q.setWidth 5) a 0 2))
  | .qrdv h d q => some (word h 0x33 (bodyR d (q.setWidth 5) 0 3))
  | .qcnt h d q => some (word h 0x33 (bodyR d (q.setWidth 5) 0 4))
  | .vadd h d a b k => some (word h 0x34 (bodyV d a b k 0))
  | .vsub h d a b k => some (word h 0x34 (bodyV d a b k 1))
  | .vmul h d a b k => some (word h 0x34 (bodyV d a b k 2))
  | .vfma h d a b k => some (word h 0x34 (bodyV d a b k 3))
  | .vfms h d a b k => some (word h 0x34 (bodyV d a b k 4))
  | .vfnma h d a b k => some (word h 0x34 (bodyV d a b k 5))
  | .vmin h d a b k => some (word h 0x34 (bodyV d a b k 6))
  | .vmax h d a b k => some (word h 0x34 (bodyV d a b k 7))
  | .vabs h d a k => some (word h 0x34 (bodyV d a 0 k 8))
  | .vneg h d a k => some (word h 0x34 (bodyV d a 0 k 9))
  | .vdiv h d a b k => some (word h 0x34 (bodyV d a b k 10))
  | .vsqrt h d a k => some (word h 0x34 (bodyV d a 0 k 11))
  | .vrcp h d a k => some (word h 0x34 (bodyV d a 0 k 12))
  | .vrsq h d a k => some (word h 0x34 (bodyV d a 0 k 13))
  | .vexp2 h d a k => some (word h 0x34 (bodyV d a 0 k 14))
  | .vlog2 h d a k => some (word h 0x34 (bodyV d a 0 k 15))
  | .viadd h d a b k => some (word h 0x35 (bodyV d a b k 0))
  | .visub h d a b k => some (word h 0x35 (bodyV d a b k 1))
  | .vimul h d a b k => some (word h 0x35 (bodyV d a b k 2))
  | .vimin h d a b k => some (word h 0x35 (bodyV d a b k 3))
  | .vimax h d a b k => some (word h 0x35 (bodyV d a b k 4))
  | .viminu h d a b k => some (word h 0x35 (bodyV d a b k 5))
  | .vimaxu h d a b k => some (word h 0x35 (bodyV d a b k 6))
  | .vand h d a b k => some (word h 0x35 (bodyV d a b k 7))
  | .vor h d a b k => some (word h 0x35 (bodyV d a b k 8))
  | .vxor h d a b k => some (word h 0x35 (bodyV d a b k 9))
  | .vsll h d a b k => some (word h 0x35 (bodyV d a b k 10))
  | .vsrl h d a b k => some (word h 0x35 (bodyV d a b k 11))
  | .vsra h d a b k => some (word h 0x35 (bodyV d a b k 12))
  | .viabs h d a k => some (word h 0x35 (bodyV d a 0 k 13))
  | .vsadd h d a b k => some (word h 0x35 (bodyV d a b k 14))
  | .vdot4 h d a b k => some (word h 0x35 (bodyV d a b k 15))
  | .vceq h d a b k => some (word h 0x36 (bodyV (d.setWidth 5) a b k 0))
  | .vcne h d a b k => some (word h 0x36 (bodyV (d.setWidth 5) a b k 1))
  | .vclt h d a b k => some (word h 0x36 (bodyV (d.setWidth 5) a b k 2))
  | .vcle h d a b k => some (word h 0x36 (bodyV (d.setWidth 5) a b k 3))
  | .vcltu h d a b k => some (word h 0x36 (bodyV (d.setWidth 5) a b k 4))
  | .vcleu h d a b k => some (word h 0x36 (bodyV (d.setWidth 5) a b k 5))
  | .vfeq h d a b k => some (word h 0x36 (bodyV (d.setWidth 5) a b k 6))
  | .vfne h d a b k => some (word h 0x36 (bodyV (d.setWidth 5) a b k 7))
  | .vflt h d a b k => some (word h 0x36 (bodyV (d.setWidth 5) a b k 8))
  | .vfle h d a b k => some (word h 0x36 (bodyV (d.setWidth 5) a b k 9))
  | .vbcast h d a k => some (word h 0x37 (bodyV d a 0 k 0))
  | .vsel h d a b k => some (word h 0x37 (bodyV d a b k 1))
  | .vshuf h d a b k => some (word h 0x37 (bodyV d a b k 2))
  | .vsldn h d a b k => some (word h 0x37 (bodyV d a b k 3))
  | .vslup h d a b k => some (word h 0x37 (bodyV d a b k 4))
  | .vext h d a b => some (word h 0x37 (bodyV d a b 0 5))
  | .vins h d a b k => some (word h 0x37 (bodyV d a b k 6))
  | .vzip h d a b k => some (word h 0x37 (bodyV d a b k 7))
  | .vunzip h d a b k => some (word h 0x37 (bodyV d a b k 8))
  | .vrev h d a k => some (word h 0x37 (bodyV d a 0 k 9))
  | .vcvt h d a k t => some (word h 0x38 (bodyV d a 0 k t))
  | .vrsum h d a k => some (word h 0x39 (bodyV d a 0 k 0))
  | .vrmax h d a k => some (word h 0x39 (bodyV d a 0 k 1))
  | .vrmin h d a k => some (word h 0x39 (bodyV d a 0 k 2))
  | .vror h d a k => some (word h 0x39 (bodyV d a 0 k 3))
  | .vrand h d a k => some (word h 0x39 (bodyV d a 0 k 4))
  | .vrisum h d a k => some (word h 0x39 (bodyV d a 0 k 5))
  | .kand h d a b => some (word h 0x3A (bodyV (d.setWidth 5) (a.setWidth 5) (b.setWidth 5) 0 0))
  | .kor h d a b => some (word h 0x3A (bodyV (d.setWidth 5) (a.setWidth 5) (b.setWidth 5) 0 1))
  | .kxor h d a b => some (word h 0x3A (bodyV (d.setWidth 5) (a.setWidth 5) (b.setWidth 5) 0 2))
  | .knot h d a => some (word h 0x3A (bodyV (d.setWidth 5) (a.setWidth 5) 0 0 3))
  | .kmovx h d a => some (word h 0x3A (bodyV d (a.setWidth 5) 0 0 4))
  | .xmovk h d a => some (word h 0x3A (bodyV (d.setWidth 5) a 0 0 5))
  | .kpopc h d a => some (word h 0x3A (bodyV d (a.setWidth 5) 0 0 6))
  | .kfirst h d a => some (word h 0x3A (bodyV d (a.setWidth 5) 0 0 7))
  | .gzero h d => some (word h 0x3B (bodyV d 0 0 0 0))
  | .gacc h d a k => some (word h 0x3B (bodyV d a 0 k 1))
  | .gadd h d a => some (word h 0x3B (bodyV d a 0 0 2))
  | .gsub h d a => some (word h 0x3B (bodyV d a 0 0 3))
  | .gsch h d a k => some (word h 0x3B (bodyV d a 0 k 4))
  | .gdmp h d a b => some (word h 0x3B (bodyV d a b 0 5))
  | .gmean h d a k => some (word h 0x3B (bodyV d a 0 k 6))
  | .gsnd h d a => some (word h 0x3B (bodyV d a 0 0 7))
  | .grcv h d a => some (word h 0x3B (bodyV d a 0 0 8))
  | .akey h => some (word h 0x3C (bodyR 0 0 0 0))
  | .arel h => some (word h 0x3C (bodyR 0 0 0 1))
  | .mma h a => some (word h 0x3C (bodyR 0 a 0 2))
  | .mgang h a b => some (word h 0x3C (bodyR 0 a b 3))
  | .mres h => some (word h 0x3C (bodyR 0 0 0 4))
  | .mzero h => some (word h 0x3C (bodyR 0 0 0 5))
  | .rrow h => some (word h 0x3C (bodyR 0 0 0 6))
  | .rdrop h => some (word h 0x3C (bodyR 0 0 0 7))
  | .mstat h d => some (word h 0x3C (bodyR d 0 0 8))
  | .nbcfg h a b => some (word h 0x3D (bodyR 0 a b 0))
  | .nbrun h a => some (word h 0x3D (bodyR 0 a 0 1))
  | .nbget h d a => some (word h 0x3D (bodyR d a 0 2))
  | .nbrel h a => some (word h 0x3D (bodyR 0 a 0 3))
  | .cpy h a => some (word h 0x3E (bodyR 0 a 0 0))
  | .cpyx h a => some (word h 0x3E (bodyR 0 a 0 1))
  | .cstat h d => some (word h 0x3E (bodyR d 0 0 2))
  | .taskFailure _ _ => none
  | .kick _ _ => none
  | .qtab _ _ => none
  | .qcreate _ => none
  | .slots _ _ => none
  | .ccreate _ _ => none
  | .info => none
  | .sample _ _ _ => none
  | .replay _ _ _ _ => none
  | .twin _ _ => none
  | .chknow _ _ => none
  | .mboxlim _ _ => none
  | .bar2WindowBase _ => none
  | .bar2Read _ _ => none
  | .bar2Write _ _ => none
  | .registerWrite _ _ => none
  | .firmwareStart _ _ => none
  | .launch _ => none
  | .gang _ => none
  | .copyh _ => none
  | .boltPacket _ => none
  | .clearPacket _ => none
  | .fencePacket _ => none
  | .signal _ => none
  | .destroy _ => none
  | .chkpt _ => none
  | .ib _ => none
  | .packetComplete _ => none
  | .ageingBoundary => none
  | .energySample _ => none
  | .periodBoundary _ => none
  | .arm _ _ _ => none
  | .gangDecide _ => none
  | .gangDecision _ _ => none
  | .gangStart _ => none
  | .terminationWave _ => none
  | .gangWaveResult _ _ _ _ _ => none
  | .gangFenceReport _ _ _ _ _ => none
  | .taskStart _ => none
  | .taskRetire _ _ => none
  | .stealRequest _ => none
  | .stolenRecord _ => none
  | .stealRefusal _ => none
  | .stealBackoff _ => none
  | .spawnatWalk _ => none
  | .spill _ => none
  | .cancelRequest _ => none
  | .resultArrival _ => none
  | .wake _ => none
  | .storeApply _ => none
  | .joinApply _ => none
  | .joinCombine _ _ => none
  | .loadServe _ => none
  | .getServe _ => none
  | .thrServe _ => none
  | .latchRetry _ => none
  | .boltApply _ => none
  | .boltAck _ => none
  | .clearCheck _ => none
  | .clearApply _ => none
  | .fillWrite _ => none
  | .brelApply _ => none
  | .bdeclApply _ => none
  | .copyCommandRun _ _ => none
  | .copyComplete _ _ => none
  | .keyGrant _ => none
  | .arrayKstep _ => none
  | .arrayDrainRow _ => none
  | .rowHandlerStart _ => none
  | .nbBind _ => none
  | .nbRun _ => none
  | .nbUnbind _ => none
  | .hingeCallArrival _ => none
  | .hingeHandlerStart _ => none
  | .hingeStatusArrival _ => none
  | .hingeReplyTimeout _ => none
  | .channelPacketArrival _ => none
  | .channelResend _ => none
  | .reductionRound _ => none
  | .barrierRelease _ => none
  | .barrierArrivalFlit _ _ => none
  | .barrierReleaseFlit _ => none
  | .flitReceive _ _ => none
  | .linkRetrain _ => none
  | .linkFailTimeout _ => none
  | .clockStep _ => none
  | .debugHalt _ => none
  | .singleStep _ _ => none
  | .debugResume _ => none
  | .samplePulse => none
  | .scrub => none
  | .uncorrectableError _ _ => none
  | .lifetimeRecordWrite => none
  | .powerDown => none
  | .replayAbandon _ => none
  | .twinDigest _ => none
  | .chkptBlockAck _ => none
  | .linkRetrainComplete _ => none
  | .walkComplete _ => none
  | .mailboxServe _ => none
  | .mailboxReply _ => none
  | .channelPacketReply _ => none
  | .powerFailure => none

/-- The word of an instruction, zero for an event (R104: tval of illegal-instruction). -/
def Instr.wordOf (i : Instr) : Insn := (encode i).getD 0

end Sys2Proof
end

