-- ==== Sys2Proof/Machine/Base.lean ====
section
/-! DEFINITION. Tables by number, bytes, memory, polynomials, coordinates and the ways to a core, a context,
a quad and a slot. -/

namespace Sys2Proof.Machine

/-- The answer of an instruction or of a step. -/
abbrev Out := Host.Outcome State Fault Refusal

/-! Tables by number. -/

/-- The entry of number `k`, or the default. -/
def look {α : Type} (d : α) : Sparse α → Nat → α
  | [], _ => d
  | (j, a) :: r, k => if j = k then a else if k < j then d else look d r k

/-- The table with entry `k` set. -/
def setAt {α : Type} : Sparse α → Nat → α → Sparse α
  | [], k, a => [(k, a)]
  | (j, b) :: r, k, a =>
    if j = k then (k, a) :: r
    else if k < j then (k, a) :: (j, b) :: r
    else (j, b) :: setAt r k a

/-- The table without entry `k`. -/
def dropAt {α : Type} : Sparse α → Nat → Sparse α
  | [], _ => []
  | (j, b) :: r, k => if j = k then r else if k < j then (j, b) :: r else (j, b) :: dropAt r k

/-- The table with entry `k` set, an entry at the default left out. -/
def put {α : Type} [DecidableEq α] (d : α) (m : Sparse α) (k : Nat) (a : α) : Sparse α :=
  if a = d then dropAt m k else setAt m k a

/-- Numbers strictly rising from a bound, no entry at the default. -/
def wfFrom {α : Type} [DecidableEq α] (d : α) (lo : Nat) : Sparse α → Bool
  | [] => true
  | (j, a) :: r => decide (lo ≤ j) && decide (a ≠ d) && wfFrom d (j + 1) r

/-- Element `i` of a list replaced. -/
def replaceAt {α : Type} (l : List α) (i : Nat) (a : α) : List α := l.set i a

/-- The list without element `i`. -/
def removeAt {α : Type} (l : List α) (i : Nat) : List α := l.eraseIdx i

/-! Bytes. -/

/-- The number of little-endian bytes (R2). -/
def bytesNat : List Byte → Nat
  | [] => 0
  | b :: r => b.toNat + 256 * bytesNat r

/-- `n` little-endian bytes of a number (R2). -/
def natBytes : Nat → Nat → List Byte
  | 0, _ => []
  | n + 1, v => BitVec.ofNat 8 v :: natBytes n (v / 256)

/-- What an unlisted byte of memory reads as (DESIGN CHOICE, log entry 3). -/
def emptyByte : Byte := 0

/-- One byte of a memory. -/
def readByte (m : List Host.Cell) (a : Nat) : Byte := look emptyByte m a

/-- One byte written. -/
def writeByte (m : List Host.Cell) (a : Nat) (b : Byte) : List Host.Cell := put emptyByte m a b

/-- `n` bytes from `a` upward. -/
def readBytes (m : List Host.Cell) (a : Nat) : Nat → List Byte
  | 0 => []
  | n + 1 => readByte m a :: readBytes m (a + 1) n

/-- Bytes written from `a` upward. -/
def writeBytes (m : List Host.Cell) (a : Nat) : List Byte → List Host.Cell
  | [] => m
  | b :: r => writeBytes (writeByte m a b) (a + 1) r

/-- The little-endian number of `n` bytes. -/
def readNat (m : List Host.Cell) (a n : Nat) : Nat := bytesNat (readBytes m a n)

/-- The canonical form of a memory. -/
def Memory.wf (m : List Host.Cell) : Bool := wfFrom emptyByte 0 m

/-- A list cut into pieces of `n`; `fuel` bounds the pieces. -/
def chunks {α : Type} (n : Nat) : Nat → List α → List (List α)
  | 0, _ => []
  | _ + 1, [] => []
  | fuel + 1, l => l.take n :: chunks n fuel (l.drop n)

/-- The 64-bit words of bytes. -/
def bytesWords (bs : List Byte) : List Word :=
  (chunks 8 bs.length bs).map fun c => BitVec.ofNat 64 (bytesNat c)

/-- The bytes of words. -/
def wordsBytes (ws : List Word) : List Byte := ws.flatMap fun w => natBytes 8 w.toNat

/-- Word `i` of a list, zero beyond it. -/
def wordAt (ws : List Word) (i : Nat) : Word := ws.getD i 0

/-- A 512-bit register from its bytes. -/
def bytesVec (bs : List Byte) : Vec := BitVec.ofNat 512 (bytesNat bs)

/-- The 64 bytes of a 512-bit register. -/
def vecBytes (v : Vec) : List Byte := natBytes 64 v.toNat

/-! Polynomials (R17, R55, R357). -/

/-- One bit of a most-significant-first CRC of `w` bits. -/
def crcBit (w poly : Nat) (c : Nat) : Nat :=
  if c.testBit (w - 1) then (c * 2 % 2 ^ w) ^^^ poly else c * 2 % 2 ^ w

/-- One byte of it. -/
def crcByte (w poly : Nat) (c : Nat) (b : Byte) : Nat :=
  let s := c ^^^ (b.toNat * 2 ^ (w - 8))
  crcBit w poly (crcBit w poly (crcBit w poly (crcBit w poly
    (crcBit w poly (crcBit w poly (crcBit w poly (crcBit w poly s)))))))

/-- CRC-16 of a packet: polynomial 0x1021, initial 0xFFFF, no reflection, no final XOR (R55). -/
def crc16 (bs : List Byte) : Nat := bs.foldl (crcByte 16 0x1021) 0xFFFF

/-- CRC-64 with the ECMA-182 polynomial (R17, R357); no rule gives its initial value, its reflection or a final XOR: the
model takes initial 0 and neither of the others (DESIGN CHOICE, log entry 78). -/
def crc64 (bs : List Byte) : Nat := bs.foldl (crcByte 64 0x42F0E1EBA9EA3693) 0

/-! The cipher of confidential pages (R38). -/

/-- The address of a 4 KiB block, by its physical number, among the PAs of its package: that of a slice, or of a stack in the
interleaved decoding, for a confidential page is not compute-capable (R25, R38). -/
def blockPa (b : Nat) : Nat :=
  let pa := b * 4096
  if pa < 2 ^ 40 then pa
  else
    let o := pa - 2 ^ 40
    o / 2 ^ 36 * 2 ^ 36 + o % 2 ^ 31 / 4096 * 2 ^ 17 + o / 2 ^ 31 % 32 * 4096

/-- The tweak of a 4 KiB block (R38): the 128 KiB-aligned PA of its page, with the block's index in it as the low part. -/
def xtsTweak (pkg b : Nat) : BitVec 128 :=
  let a := pkg * 2 ^ 39 + blockPa b
  BitVec.ofNat 128 (a / 2 ^ 17 * 2 ^ 17 + a / 4096 % 32)

/-- XTS's step from one 16-byte unit of a data unit to the next: a multiplication by x modulo x^128 + x^7 + x^2 + x + 1. -/
def xtsNext (t : BitVec 128) : BitVec 128 := if t.getLsbD 127 then (t <<< 1) ^^^ 0x87 else t <<< 1

/-- The mask of 16-byte unit `i` of a data unit, from the mask of its first. -/
def xtsMask (t : BitVec 128) : Nat → BitVec 128
  | 0 => t
  | i + 1 => xtsNext (xtsMask t i)

/-- A number of `n` units of 128 bits, unit `i` first, with `f` applied to each. -/
def mapUnits (f : Nat → BitVec 128 → BitVec 128) : Nat → Nat → Nat → Nat
  | 0, _, _ => 0
  | n + 1, i, v => (f i (BitVec.ofNat 128 v)).toNat + 2 ^ 128 * mapUnits f n (i + 1) (v / 2 ^ 128)

/-- The mask of a session's data unit: its tweak under the second key. -/
def xtsFirst (pkg : Nat) (k : Word) (b : Nat) : BitVec 128 := (Config.aes (Config.sessionKeys k).2).enc (xtsTweak pkg b)

/-- AES-256-XTS of the 4 KiB block `b` under the key of session `k` (R38) (DESIGN CHOICE, log entry 6). -/
def cipher (pkg : Nat) (k : Word) (b : Nat) (v : BitVec 32768) : BitVec 32768 :=
  let p := Config.aes (Config.sessionKeys k).1
  let m := xtsMask (xtsFirst pkg k b)
  BitVec.ofNat 32768 (mapUnits (fun i x => p.enc (x ^^^ m i) ^^^ m i) 256 0 v.toNat)

/-- Its inverse. -/
def decipher (pkg : Nat) (k : Word) (b : Nat) (v : BitVec 32768) : BitVec 32768 :=
  let p := Config.aes (Config.sessionKeys k).1
  let m := xtsMask (xtsFirst pkg k b)
  BitVec.ofNat 32768 (mapUnits (fun i x => p.dec (x ^^^ m i) ^^^ m i) 256 0 v.toNat)

/-! Coordinates (R6, R10, R11). -/

/-- A tile's packed word (R6). -/
def tileWord (t : Nat) : Nat := (t % 32) * 2048 + (t / 32) * 32

/-- The tile of a packed word whose low bits are zero (R6). -/
def wordTile (w : Nat) : Nat := (w / 2048 % 32) + 32 * (w / 32 % 64)

/-- X and Y of a tile. -/
def tileX (t : Nat) : Nat := t % 32
def tileY (t : Nat) : Nat := t / 32

/-- The quad of a tile (R9). -/
def quadOf (t : Nat) : Nat := (tileX t / 2) + 16 * (tileY t / 2)

/-- The number of a core within its quad (R241). -/
def quadPos (t : Nat) : Nat := tileX t % 2 + 2 * (tileY t % 2)

/-- The tile of a quad at a position. -/
def quadTile (q pos : Nat) : Nat := (2 * (q % 16) + pos % 2) + 32 * (2 * (q / 16) + pos / 2)

/-- The stack of a tile's die (R11). -/
def dieStack (t : Nat) : Nat := tileX t / 8 + 4 * (tileY t / 16 / 2)

/-- The die of a tile (R8). -/
def tileDie (t : Nat) : Nat := tileX t / 8 + 4 * (tileY t / 16)

/-- The die that drives a pseudo-channel of a stack (R11). -/
def stackDie (stack pch : Nat) : Nat := stack % 4 + 4 * (2 * (stack / 4) + pch / 16)

/-- The die whose walker serves a core (R40): a tile's own; a stack core's, that which drives its pseudo-channels
(DEDUCED, log entry 72). -/
def coreDie (n : Nat) : Nat := if n < 2048 then tileDie n else stackDie ((n - 2048) / 16) (2 * ((n - 2048) % 16))

/-! Cores and contexts. -/

/-- A core (R8). -/
def State.core (s : State) (n : Nat) : CoreSt := look {} s.cores n
/-- The state with a core replaced. -/
def State.setCore (s : State) (n : Nat) (c : CoreSt) : State := { s with cores := setAt s.cores n c }
/-- A quad's array. -/
def State.quad (s : State) (q : Nat) : Quad := look {} s.quads q
/-- The state with a quad replaced. -/
def State.setQuad (s : State) (q : Nat) (a : Quad) : State := { s with quads := setAt s.quads q a }
/-- A context of a core. -/
def CoreSt.ctx (c : CoreSt) (i : Nat) : Ctx := c.ctxs[i]?.getD {}
/-- The core with a context replaced. -/
def CoreSt.setCtx (c : CoreSt) (i : Nat) (x : Ctx) : CoreSt := { c with ctxs := c.ctxs.setIfInBounds i x }
/-- Context `i` of core `n`. -/
def State.ctxOf (s : State) (n i : Nat) : Ctx := (s.core n).ctx i
/-- The state with context `i` of core `n` replaced. -/
def State.setCtxOf (s : State) (n i : Nat) (x : Ctx) : State := s.setCore n ((s.core n).setCtx i x)
/-- The context that issues. -/
def State.ctx (s : State) : Ctx := s.ctxOf s.cur s.curCtx
/-- The state with the issuing context replaced. -/
def State.setCtx (s : State) (x : Ctx) : State := s.setCtxOf s.cur s.curCtx x
/-- The core that issues. -/
def State.me (s : State) : CoreSt := s.core s.cur
/-- The state with the issuing core replaced. -/
def State.setMe (s : State) (c : CoreSt) : State := s.setCore s.cur c

/-- A hardware queue slot. -/
def State.slot (s : State) (n : Nat) : Slot := look {} s.slots n
/-- The state with a slot replaced. -/
def State.setSlot (s : State) (n : Nat) (x : Slot) : State := { s with slots := setAt s.slots n x }

end Sys2Proof.Machine
end

