-- ==== Sys2Proof/Machine/Walk.lean ====
section
/-! DEFINITION. Physical addresses (R25), poison (R358), page tables and their walk (R34-R36). -/

namespace Sys2Proof.Machine

/-! Fields of a leaf (R35). -/

/-- The physical address of a leaf's page. -/
def TlbEntry.addr (e : TlbEntry) : Nat := Word.field e.w0 51 8 * 256
def TlbEntry.sizeCode (e : TlbEntry) : Nat := Word.field e.w0 7 6
def TlbEntry.space (e : TlbEntry) : Nat := Word.field e.w0 4 3
def TlbEntry.conf (e : TlbEntry) : Bool := e.w0.getLsbD 1
def TlbEntry.group (e : TlbEntry) : Nat := Word.field e.w1 63 56
def TlbEntry.ctype (e : TlbEntry) : Nat := Word.field e.w1 55 52
def TlbEntry.width (e : TlbEntry) : Nat := Word.field e.w1 51 50
def TlbEntry.rdall (e : TlbEntry) : Bool := e.w1.getLsbD 49
def TlbEntry.owner (e : TlbEntry) : Nat := Word.field e.w1 15 0

/-- The physical number of a 39-bit offset in a space (R25): a byte of a slice, or a byte of a stack,
where both stack decodings give one number; none where the offset decodes to nothing. -/
def physOf (space o : Nat) : Option Nat :=
  match space with
  | 0 => some (2 ^ 40 + o / 2 ^ 36 % 8 * 2 ^ 36 + o / 2 ^ 12 % 32 * 2 ^ 31 + (o / 2 ^ 17 % 2 ^ 19 * 2 ^ 12 + o % 2 ^ 12))
  | 1 => some (2 ^ 40 + o / 2 ^ 36 % 8 * 2 ^ 36 + o / 2 ^ 31 % 32 * 2 ^ 31 + o % 2 ^ 31)
  | 2 =>
    if o / 2 ^ 33 ≠ 0 ∨ o / 2 ^ 21 % 2 = 0 then none
    else some ((o / 2 ^ 22 % 32 + 32 * (o / 2 ^ 27 % 64)) * 2 ^ 22 + o % 2 ^ 22)
  | _ => none

/-- The unit of memory that one error mark covers: 8 bytes of a slice, 32 of a stack (R358). -/
def poisonUnit (pa : Nat) : Nat := if pa < 2 ^ 40 then pa / 8 * 8 else pa / 32 * 32

/-- Some byte of `n` from `pa` is poisoned (R358). -/
def State.poisoned (s : State) (pa n : Nat) : Bool :=
  s.poison.any fun u => decide (u < pa + n) && decide (pa < u + (if u < 2 ^ 40 then 8 else 32))

/-! Page tables (R34-R36). -/

/-- The widths a cell type admits (R28). -/
def widthAllowed (ty width : Nat) : Bool :=
  match ty with
  | 0 | 0xC => width == 0
  | 4 => width == 1 || width == 2
  | 6 => width == 2 || width == 3
  | 9 | 0xA => width == 3
  | _ => true

/-- The bytes that a leaf at a level maps: levels 2, 3 and 4. -/
def leafBytes (level : Nat) : Nat :=
  if level = 2 then 2 ^ 30 else if level = 3 then 2 ^ 21 else 2 ^ 17

/-- What is wrong with a present entry at a level, by reason and in the order of R36. -/
def entryFault (level pkg : Nat) (confSlot : Bool) (w0 w1 : Word) : Option Nat :=
  let e : TlbEntry := { slot := 0, va := 0, size := 0, w0 := w0, w1 := w1 }
  let leaf := w0.getLsbD 5
  let o := e.addr % 2 ^ 39
  if Word.field w0 63 52 ≠ 0 ∨ w0.getLsbD 2 then some 4
  else if leaf then
    if Word.field w1 48 16 ≠ 0 then some 4
    else if level = 1 then some 4
    else if e.addr % leafBytes level ≠ 0 then some 4
    else if e.sizeCode ≠ 4 - level then some 4
    else if e.space = 3 then some 4
    else if e.space = 2 ∧ (e.sizeCode = 2 ∨ (physOf 2 o).isNone) then some 4
    else if e.space = 1 ∧ (e.sizeCode ≠ 1 ∨ e.conf) then some 4
    else if e.conf ∧ !confSlot then some 4
    else if 0xD ≤ e.ctype then some 3
    else if !widthAllowed e.ctype e.width then some 4
    else if e.ctype ≠ 0 ∧ e.owner ≠ 0 then some 4
    else if e.owner % 32 ≠ 0 then some 4
    else none
  else if level = 4 then some 4
  else if e.addr % (if level = 3 then 256 else 8192) ≠ 0 then some 4
  else if e.sizeCode ≠ 0 ∨ e.space ≠ 0 ∨ e.conf ∨ w1 ≠ 0 then some 4
  else if e.addr / 2 ^ 39 ≠ pkg then some 4
  else none

/-- The walk from a table at `table` down the levels that are left (R34): the leaf, or a reason of R44. -/
def State.walkFrom (s : State) (slot : Nat) (conf : Bool) (va : Nat) : List Nat → Nat → Except Nat TlbEntry
  | [], _ => .error 4
  | level :: rest, table =>
    let index := if level = 4 then va / 2 ^ 17 % 16 else va / 2 ^ (48 - 9 * level) % 512
    match physOf 0 (table % 2 ^ 39 + 16 * index) with
    | none => .error 4
    | some pa =>
      let w0 : Word := BitVec.ofNat 64 (readNat s.mem pa 8)
      let w1 : Word := BitVec.ofNat 64 (readNat s.mem (pa + 8) 8)
      if s.poisoned pa 16 then .error 6
      else if !w0.getLsbD 0 then .error 1
      else match entryFault level s.pkg conf w0 w1 with
        | some r => .error r
        | none =>
          let e : TlbEntry := { slot := slot, va := va / leafBytes level * leafBytes level, size := leafBytes level, w0 := w0, w1 := w1 }
          if w0.getLsbD 5 then .ok e
          else s.walkFrom slot conf va rest e.addr

/-- The command of a slot is in twin mode and the tile lies in the east half (R357). -/
def State.inMirror (s : State) (slot tile : Nat) : Bool :=
  decide (16 ≤ tileX tile) && decide (tile < 2048) && (match (s.slot slot).cmd with
    | some c => c.twin
    | none => false)

/-- The root table of a slot (R34) and whether its queue is confidential (R53). -/
def State.rootOf (s : State) (slot : Nat) : Nat × Bool :=
  let q := (s.slot slot).qcb
  (Word.field (wordAt q 2) 51 0, (wordAt q 5).getLsbD 63)

/-- A whole walk for a slot (R34); a root in another package is malformed. -/
def State.walk (s : State) (slot va : Nat) : Except Nat TlbEntry :=
  let r := s.rootOf slot
  if 2 ^ 48 ≤ va ∨ va < 0x100000000000 then .error 2
  else if r.1 / 2 ^ 39 ≠ s.pkg then .error 4
  else s.walkFrom slot r.2 va [1, 2, 3, 4] r.1

/-! A die's walker (R41). -/

/-- The bytes that a table at a level maps. -/
def tableBytes (level : Nat) : Nat := 2 ^ (57 - 9 * level)

/-- The pointers that a walk goes through, below a table, at the levels that are left. -/
def State.pointersFrom (s : State) (slot va : Nat) : List Nat → Nat → List Pointer
  | [], _ => []
  | level :: rest, table =>
    let index := if level = 4 then va / 2 ^ 17 % 16 else va / 2 ^ (48 - 9 * level) % 512
    match physOf 0 (table % 2 ^ 39 + 16 * index) with
    | none => []
    | some pa =>
      let w0 : Word := BitVec.ofNat 64 (readNat s.mem pa 8)
      let w1 : Word := BitVec.ofNat 64 (readNat s.mem (pa + 8) 8)
      let e : TlbEntry := { slot := slot, va := va, size := 0, w0 := w0, w1 := w1 }
      if w0.getLsbD 0 && !w0.getLsbD 5 && !s.poisoned pa 16 && (entryFault level s.pkg false w0 w1).isNone then
        let b := tableBytes (level + 1)
        s.pointersFrom slot va rest e.addr ++ [{ slot := slot, level := level + 1, va := va / b * b, table := e.addr }]
      else []

/-- The cached pointer of a die that is nearest the leaf of an address. -/
def State.cached (s : State) (die slot va : Nat) : Option Pointer :=
  (look [] s.pointers die).foldl (fun (best : Option Pointer) p =>
    if p.slot == slot && p.va == va / tableBytes p.level * tableBytes p.level && (best.map (·.level)).getD 0 < p.level
    then some p else best) none

/-- The levels of the tables from one on. -/
def levelsFrom (level : Nat) : List Nat := [1, 2, 3, 4].filter fun l => decide (level ≤ l)

/-- A walk of a die's walker (R41): from the cached pointer nearest the leaf, or from the root. -/
def State.walkBy (s : State) (die slot va : Nat) : Except Nat TlbEntry :=
  match s.cached die slot va with
  | some p => s.walkFrom slot (s.rootOf slot).2 va (levelsFrom p.level) p.table
  | none => s.walk slot va

/-- The pointers that such a walk has read enter the die's cache of 512 (R41). -/
def State.cachePointers (s : State) (die slot va : Nat) : State :=
  let read := match s.cached die slot va with
    | some p => s.pointersFrom slot va (levelsFrom p.level) p.table
    | none => if (s.rootOf slot).1 / 2 ^ 39 = s.pkg then s.pointersFrom slot va [1, 2, 3, 4] (s.rootOf slot).1 else []
  let new := read.filter fun p => !(look [] s.pointers die).contains p
  if new.isEmpty then s else { s with pointers := setAt s.pointers die ((new ++ look [] s.pointers die).take 512) }

end Sys2Proof.Machine
end

