-- ==== Sys2Proof/Machine/Ops.lean ====
section
/-! DEFINITION. The named operations over the state: tables by number, memory, contexts and registers,
fault cells, messages, taking an exception and returning from one, parking, and the frame of checks
around an instruction's own effect (R105). -/

namespace Sys2Proof.Machine

/-! Registers (R117). -/

/-- x[r]; x0 reads zero. -/
def Ctx.rx (c : Ctx) (r : Reg) : Word := if r = 0 then 0 else c.x[r.toNat]'(r.isLt)
/-- x[r] := w; a write to x0 is discarded; a write clears a faulted mark, that of x0 only in a handler (R126, R195). -/
def Ctx.wx (c : Ctx) (r : Reg) (w : Word) : Ctx :=
  if r = 0 then if c.tstat.getLsbD 16 then { c with faulted := dropAt c.faulted 0 } else c
  else { c with x := c.x.set r.toNat w r.isLt, faulted := dropAt c.faulted r.toNat }
/-- v[r]. -/
def Ctx.rv (c : Ctx) (r : Reg) : Vec := c.v[r.toNat]'(r.isLt)
/-- v[r] := w; a write clears a faulted mark. -/
def Ctx.wv (c : Ctx) (r : Reg) (w : Vec) : Ctx :=
  { c with v := c.v.set r.toNat w r.isLt, faulted := dropAt c.faulted (32 + r.toNat) }
/-- p[n]; p0 reads one. -/
def Ctx.rp (c : Ctx) (n : BitVec 3) : Bool := if n = 0 then true else c.p.getLsbD n.toNat
/-- p[n] := b; a write to p0 is discarded. -/
def Ctx.wp (c : Ctx) (n : BitVec 3) (b : Bool) : Ctx :=
  if n = 0 then c
  else { c with p := (c.p &&& ~~~(1#8 <<< n.toNat)) ||| ((BitVec.ofBool b).setWidth 8 <<< n.toNat) }
/-- k[n] as a source; k0 means all lanes. -/
def Ctx.rk (c : Ctx) (n : BitVec 3) : Word :=
  if n = 0 then BitVec.allOnes 64 else c.k[n.toNat]'(n.isLt)
/-- k[n] := w; a write to k0 is discarded. -/
def Ctx.wk (c : Ctx) (n : BitVec 3) (w : Word) : Ctx :=
  if n = 0 then c else { c with k := c.k.set n.toNat w n.isLt }

/-- The register field `i` places on, for G-blocks and payloads. -/
def regPlus (r : Reg) (i : Nat) : Reg := BitVec.ofNat 5 (r.toNat + i)

/-! Fields of the status register (R120). -/

/-- A word with bits [hi:lo] replaced. -/
def Word.putField (w : Word) (hi lo : Nat) (v : Nat) : Word :=
  let m : Word := BitVec.ofNat 64 ((2 ^ (hi + 1 - lo) - 1) * 2 ^ lo)
  (w &&& ~~~m) ||| (BitVec.ofNat 64 (v * 2 ^ lo) &&& m)

/-- tstat[16]: a trap handler runs (R120). -/
def Ctx.inh (c : Ctx) : Bool := c.tstat.getLsbD 16
/-- tstat[3:1]: the current colour. -/
def Ctx.colour (c : Ctx) : Nat := Word.field c.tstat 3 1
/-- tstat[4]. -/
def Ctx.inrep (c : Ctx) : Bool := c.tstat.getLsbD 4
/-- tstat[9:5]. -/
def Ctx.rslot (c : Ctx) : Nat := Word.field c.tstat 9 5
/-- tstat[15:10]. -/
def Ctx.riter (c : Ctx) : Nat := Word.field c.tstat 15 10
/-- grp[7:0]: the running task's group (R122). -/
def Ctx.group (c : Ctx) : Nat := Word.field c.grp 7 0

/-- Loop counter fields (R141). -/
def lcAct (w : Word) : Bool := w.getLsbD 63
def lcLen (w : Word) : Nat := Word.field w 62 51
def lcStart (w : Word) : Nat := Word.field w 50 33 * 4
def lcCount (w : Word) : Nat := Word.field w 31 0
/-- A loop counter from its fields. -/
def lcMake (act : Bool) (len start count : Nat) : Word :=
  BitVec.ofNat 64 (act.toNat * 2 ^ 63 + len % 4096 * 2 ^ 51 + start / 4 % 2 ^ 18 * 2 ^ 33 + count % 2 ^ 32)
/-- The address of a loop's last body word (R142). -/
def lcLast (w : Word) : Nat := lcStart w + 4 * (lcLen w - 1)

/-- A loop counter. -/
def Ctx.lc (c : Ctx) (n : Nat) : Word := if n = 0 then c.lc0 else c.lc1
/-- A loop counter written. -/
def Ctx.setLc (c : Ctx) (n : Nat) (w : Word) : Ctx :=
  if n = 0 then { c with lc0 := w } else { c with lc1 := w }
/-- A loop counter is suspended by a trap (R142). -/
def Ctx.suspended (c : Ctx) (n : Nat) : Bool := c.tstat.getLsbD (17 + n)
/-- A loop takes part in end-of-body processing, transfers and nesting (R142). -/
def Ctx.live (c : Ctx) (n : Nat) : Bool := lcAct (c.lc n) && !c.suspended n

/-! Lifetime counters (R361). -/

/-- One more in the 64-bit saturating counter at an offset. -/
def State.bump (s : State) (off : Nat) : State :=
  { s with life := { s.life with counts := setAt s.life.counts off (min (look 0 s.life.counts off + 1) (2 ^ 64 - 1)) } }

/-! Fault cells (R340). -/

/-- A report joined into a fault cell. -/
def FaultCell.add (f : FaultCell) (cause colour : Nat) (tval : Word) : FaultCell :=
  let r := look { count := 0, low := BitVec.allOnes 64, opens := 0 } f.rows cause
  let r' : FaultRow :=
    { count := min (r.count + 1) (2 ^ 32 - 1)
      low := if tval.toNat < r.low.toNat then tval else r.low
      opens := r.opens ||| (1#9 <<< colour) }
  { f with rows := setAt f.rows cause r' }

/-- Two fault cells together (R342, R350). -/
def FaultCell.merge (f g : FaultCell) : FaultCell :=
  let one := fun (m : Sparse FaultRow) (p : Nat × FaultRow) =>
    let r := look { count := 0, low := BitVec.allOnes 64, opens := 0 } m p.1
    let r' : FaultRow :=
      { count := min (r.count + p.2.count) (2 ^ 32 - 1)
        low := if p.2.low.toNat < r.low.toNat then p.2.low else r.low
        opens := r.opens ||| p.2.opens }
    setAt m p.1 r'
  { f with rows := g.rows.foldl one f.rows }

/-- The context runs task `t`. -/
def Ctx.runs (c : Ctx) (t : TaskId) : Bool :=
  decide (c.role = .task) && c.serial == t.serial && c.slot == t.slot

/-- The saved state of a spilled task. -/
def CoreSt.spilledAt (c : CoreSt) (t : TaskId) : Option Nat :=
  c.spilled.findIdx? fun p => p.num == t.ctx && p.ctx.serial == t.serial && p.ctx.slot == t.slot

/-- A context as the tile record of a pre-empted command holds it (R346). -/
def CoreSt.savedCtx (c : CoreSt) (i : Nat) : Option Ctx := c.saved.bind fun v => v.ctxs[i]?

/-- The core with a context of its tile record replaced. -/
def CoreSt.setSaved (c : CoreSt) (i : Nat) (x : Ctx) : CoreSt :=
  { c with saved := c.saved.map fun v => { v with ctxs := v.ctxs.setIfInBounds i x } }

/-- Task `t` as the tile record holds it. -/
def CoreSt.savedTask (c : CoreSt) (t : TaskId) : Option Ctx := (c.savedCtx t.ctx).filter fun x => x.runs t

/-- A change of the state of task `t`, wherever it is held: its context, its tile record or its spill slot; `none` when it
has ended (R121, R340, R344, R347). -/
def State.onTask (s : State) (t : TaskId) (f : Ctx → Ctx) : Option State :=
  let c := s.core t.core
  if t.pkg ≠ s.pkg then none
  else if (c.ctx t.ctx).runs t then some (s.setCtxOf t.core t.ctx (f (c.ctx t.ctx)))
  else match c.savedTask t with
    | some x => some (s.setCore t.core (c.setSaved t.ctx (f x)))
    | none =>
      match c.spilledAt t with
      | none => none
      | some i =>
        match c.spilled[i]? with
        | none => none
        | some p => some (s.setCore t.core { c with spilled := replaceAt c.spilled i { p with ctx := f p.ctx } })

/-- The state of task `t`, wherever it is held. -/
def State.taskCtx (s : State) (t : TaskId) : Option Ctx :=
  let c := s.core t.core
  if t.pkg ≠ s.pkg then none
  else if (c.ctx t.ctx).runs t then some (c.ctx t.ctx)
  else match c.savedTask t with
    | some x => some x
    | none => (c.spilledAt t).bind fun i => (c.spilled[i]?).map (·.ctx)

/-- The context of a core runs handler run `run`. -/
def Ctx.isRun (c : Ctx) (run : Nat) : Bool :=
  match c.role with
  | .row _ r | .hinge _ r => r == run
  | _ => false

/-- A change of handler run `run` of a core, in its context or in its tile record (R346). -/
def State.onRun (s : State) (core run : Nat) (f : Ctx → Ctx) : State :=
  let c := s.core core
  if (c.ctx 4).isRun run then s.setCtxOf core 4 (f (c.ctx 4))
  else match (c.savedCtx 4).filter fun x => x.isRun run with
    | some x => s.setCore core (c.setSaved 4 (f x))
    | none => s

/-- A change of the command of a slot. -/
def State.onCmd (s : State) (n : Nat) (f : Cmd → Cmd) : State :=
  match (s.slot n).cmd with
  | none => s
  | some c => s.setSlot n { s.slot n with cmd := some (f c) }

/-- A change of what a slot's completion record counts, for the half that a core lies in. -/
def State.onTally (s : State) (slot core : Nat) (f : Tally → Tally) : State :=
  let east := s.inMirror slot core
  s.onCmd slot fun c => if east then { c with east := f c.east } else { c with west := f c.west }

/-- The record of a queue's packet is on its way to another package; what its join meets there is counted in the lifetime
record (R352). -/
def State.recording (s : State) (q : Nat) : Bool :=
  [(s.slot q).cmd, (s.slot q).outer, (s.slot q).side].any fun c => (c.map (·.phase)) == some CmdPhase.recording

/-- The front end as an issuer: the packet of a slot (R350). -/
def frontEnd (pkg slot : Nat) : Issuer :=
  { task := { pkg := pkg, core := 8192, ctx := 0, serial := 0, slot := slot }, via := 0 }

/-- A report to one issuer: its fault cell, or the completion record of a task that has ended (R340);
a task of another package is told by a message. -/
def State.report (s : State) (i : Issuer) (cause colour : Nat) (tval : Word) : State :=
  let s := s.bump (0x0A90 + 8 * cause)
  let note : Msg :=
    { iss := i, more := [], pkg := i.task.pkg, home := i.task.core, colour := colour, group := 0, cmd := 0,
      body := .report cause tval }
  if i.task.pkg ≠ s.pkg then { s with outbox := s.outbox ++ [note] }
  else match s.onTask i.task fun c => { c with faults := c.faults.add cause colour tval } with
    | some s => s
    | none =>
      if i.task.core = 8192 ∧ s.recording i.task.slot then s.bump 0xCF8
      else s.onTally i.task.slot i.task.core fun y => { y with faults := y.faults.add cause colour tval }

/-- A report to every issuer of a message (R199, R209). -/
def State.reportAll (s : State) (m : Msg) (cause : Nat) (tval : Word) : State :=
  m.more.foldl (fun s i => s.report i.iss cause m.colour tval) (s.report m.iss cause m.colour tval)

/-- Local byte `a` of a core as a physical number: its slice, or the handler frame of a stack core
(R27, R284). -/
def localPa (core a : Nat) : Nat := core * 2 ^ 22 + a

/-! What a parked context is for others (R80, R81, R128, R344). -/

/-- The park reason of R344: 0 ready, 1 pending, 2 threshold, 3 channel, 4 key wait, 5 barrier, 6 queue, 7 fence,
8 translation, 15 stopped at an instruction boundary. -/
def Ctx.parkReason (c : Ctx) : Nat :=
  match c.wait with
  | .none => if c.stopped then 15 else 0
  | .marker _ | .doneRegs => if c.pending &&& ~~~c.thrMarks = 0 then 2 else 1
  | .answer => 2
  | .chan _ => 3
  | .key => 4
  | .bar .. | .barFull .. => 5
  | .room .. | .arrayIdle => 6
  | .xlate _ | .code _ => 8
  | _ => 7

/-- A park on a latch, JOIN, a channel, a key wait or a barrier: it may be spilled (R80), and it lets its tile be
idle (R81). -/
def Ctx.parkedIdle (c : Ctx) : Bool :=
  match c.wait with
  | .none => false
  | _ => decide (2 ≤ c.parkReason) && decide (c.parkReason ≤ 5)

/-- The context record (R344), 2,560 bytes. -/
def Ctx.record (c : Ctx) : List Byte :=
  let marks := c.faulted.foldl (fun m f => m ||| (1#64 <<< f.1)) (0#64)
  let st := if c.pfx.isSome then c.tstat ||| 1 else c.tstat
  let fp := match c.pfx with
    | some b => b.setWidth 64
    | none => c.fpre
  let ticket : Word := match c.ticket with
    | some (b, g) => BitVec.ofNat 64 (g % 2 ^ 32 * 2 ^ 8 + 2 ^ 7 + b % 2 ^ 7)
    | none => 0
  wordsBytes [BitVec.ofNat 64 (c.flagged.toNat * 2 ^ 32 + c.parkReason * 2 ^ 24) ||| (c.pc &&& 0x3FFFFC)] ++
  wordsBytes (c.x.toList.drop 1) ++ c.v.toList.flatMap vecBytes ++
  wordsBytes [c.pending, marks, c.p.setWidth 64 ||| 1] ++ wordsBytes (c.k.toList.drop 1) ++
  wordsBytes [st, c.tpc, c.tcause, c.tval, fp, c.lc0, c.lc1, c.fflags, c.frm, c.fseed, c.tid, c.grp, c.exitc,
    c.hst, c.chb, c.gtol, c.gdmp, ticket, c.q2pre.setWidth 64, 0, 0, 0]

/-- The address of a spill slot in the context spill area (R27, R344). -/
def spillSlot (place : Nat) : Nat := 0x1A0000 + 2560 * place

/-- The context record of a spilled task: ready once its wake has come (R80, R344). -/
def Spilled.record (p : Spilled) : List Byte := (if p.ready.isSome then { p.ctx with wait := .none } else p.ctx).record

/-- The spill slots of a core hold the records of its spilled tasks (R344). -/
def State.syncSpill (s : State) (core : Nat) : State :=
  { s with mem := (s.core core).spilled.foldl (fun m p => writeBytes m (localPa core (spillSlot p.place)) p.record) s.mem }

/-- Flags ORed into a task's fflags wherever it is (R121); a task of another package is told by a message. -/
def State.orFlags (s : State) (i : Issuer) (flags : BitVec 6) : State :=
  if i.task.pkg ≠ s.pkg then
    if flags = 0 then s
    else { s with outbox := s.outbox ++
      [{ iss := i, more := [], pkg := i.task.pkg, home := i.task.core, colour := 8, group := 0, cmd := 0,
         body := .flags flags }] }
  else match s.onTask i.task fun c => { c with fflags := c.fflags ||| flags.setWidth 64 } with
    | some s => s.syncSpill i.task.core
    | none => s

/-! Messages. -/

/-- Who the issuing context's messages belong to: the task, or the task or caller on whose behalf a
handler runs (R122, R255, R306). -/
def State.issuer (s : State) : Issuer :=
  let c := s.ctx
  match c.role with
  | .row j _ => j.arr.iss
  | .hinge k run => { task := k.caller.task, via := run }
  | _ => { task := { pkg := s.pkg, core := s.cur, ctx := s.curCtx, serial := c.serial, slot := c.slot }, via := 0 }

/-- The tile that counts for the owner test of a PRIV page (R39). -/
def State.ownTile (s : State) : Nat :=
  match s.ctx.role with
  | .row j _ => j.arr.core
  | .hinge k _ => k.caller.task.core
  | _ => s.cur

/-- The messages that termination counts (R81). -/
def Body.counted : Body → Bool
  | .join .. | .wake .. | .mreply .. | .hcall .. | .hnote .. | .packet .. | .packetNote .. | .stolen ..
  | .walk .. => true
  | _ => false

/-- The member tile of the command whose counters count an issuer's messages on this package: its own, or for an issuer of
another package the command's first (R81) (DEDUCED, log entry 26). -/
def State.counterOf (s : State) (i : Issuer) : Option Nat :=
  if i.task.pkg = s.pkg then some i.task.core else (s.slot i.task.slot).cmd.bind fun c => c.members.head?

/-- A message of an issuer counts as sent by this package (R81). -/
def State.countSent (s : State) (i : Issuer) : State :=
  match s.counterOf i with
  | some n => s.setCore n { s.core n with sent := (s.core n).sent + 1 }
  | none => s

/-- A message of an issuer counts as received by this package (R81). -/
def State.received (s : State) (i : Issuer) : State :=
  match s.counterOf i with
  | some n => s.setCore n { s.core n with recv := (s.core n).recv + 1 }
  | none => s

/-- A message counts as received for each of its issuers (R209). -/
def State.receivedAll (s : State) (m : Msg) : State :=
  if m.body.counted then m.more.foldl (fun s i => s.received i.iss) (s.received m.iss) else s

/-- The lane of a core's context, whose messages keep their order (R13, R288). -/
def laneNumber (pkg core ctx kind : Nat) : Nat := 1 + ((pkg * 2 ^ 14 + core) * 8 + ctx) * 2 ^ 13 + kind

/-- The lane of the issuing context (R13): its own, whoever its messages are attributed to. -/
def State.lane (s : State) : Nat := laneNumber s.pkg s.cur s.curCtx 0

/-- Kinds of message that carry a sequence number (R13). -/
def Body.sequenced : Body → Bool
  | .store .. | .join .. | .fill .. | .hcall .. | .packet .. => true
  | _ => false

/-- A message is numbered in its lane. -/
def Msg.numbered (m : Msg) : Bool := m.body.sequenced && m.lane != 0

/-- The unit that handles hinge calls to a home (R303): the tile, or a stack core. -/
def unitOf (home : Nat) : Nat :=
  if home < 4096 then home else 2048 + 16 * ((home - 4096) / 32) + (home - 4096) % 32 / 2

/-- Where the numbers of a lane for a package, a home and a colour are counted. -/
def seqKey (lane pkg home colour : Nat) : Nat := ((lane * 2 ^ 13 + pkg) * 2 ^ 14 + home) * 16 + colour

/-- The homes that rule 4 takes a mailbox for (R303): its tile, or both pseudo-channels of its stack core. -/
def mailboxHomes (unit : Nat) : List Nat :=
  if 2048 ≤ unit ∧ unit < 4096 then
    let h := 4096 + 32 * ((unit - 2048) / 16) + 2 * ((unit - 2048) % 16)
    [h, h + 1]
  else [unit]

/-- The counters in which a message of a lane has a number (R13): its home and colour; a call is also one of the calls to
its mailbox, whatever their colours (R304), under 15. -/
def Msg.keys (m : Msg) (lane : Nat) : List Nat :=
  match m.body with
  | .hcall _ => (mailboxHomes m.home).map (fun h => seqKey lane m.pkg h m.colour) ++ [seqKey lane m.pkg m.home 15]
  | _ => [seqKey lane m.pkg m.home m.colour]

/-- A message with its numbers (R13). -/
def State.stamp (s : State) (m : Msg) : Msg :=
  if m.numbered then { m with seq := (m.keys m.lane).map (look 0 s.seqOut) } else m

/-- One more in each of the counters that are listed. -/
def countKeys (t : Sparse Nat) (ks : List Nat) : Sparse Nat := ks.foldl (fun t k => setAt t k (look 0 t k + 1)) t

/-- The numbers of a message given out. -/
def State.numberOut (s : State) (m : Msg) : State :=
  if m.numbered then { s with seqOut := countKeys s.seqOut (m.keys m.lane) } else s

/-- A message belongs to engine command `id`, merged or not. -/
def Msg.isOf (m : Msg) (id : Nat) : Bool := m.cmd == id || m.more.any fun x => x.cmd == id

/-- Every sender of a message (R209). -/
def Msg.senders (m : Msg) : List Sender := { iss := m.iss, lane := m.lane, seq := m.seq, cmd := m.cmd } :: m.more

/-- The counts of a home once it has applied a message for its senders, one after the other; none where one of them is not
next in its lane. -/
def Msg.countIn (m : Msg) : List Sender → Sparse Nat → Option (Sparse Nat)
  | [], t => some t
  | x :: r, t =>
    if x.lane = 0 then m.countIn r t
    else if x.seq = (m.keys x.lane).map (look 0 t) then m.countIn r (countKeys t (m.keys x.lane)) else none

/-- A home has applied every earlier message of the lanes of a message, with its home and colour (R13); a merged join stands in
a lane under as many numbers as it has senders of that lane (R208, R209). -/
def State.inTurn (s : State) (m : Msg) : Bool := !m.body.sequenced || (m.countIn m.senders s.seqIn).isSome

/-- The numbers of a message applied. -/
def State.numberIn (s : State) (m : Msg) : State :=
  if m.body.sequenced then { s with seqIn := (m.countIn m.senders s.seqIn).getD s.seqIn } else s

/-- A message leaves: for a home of this package into `net`, else into the outbox. -/
def State.send (s : State) (m : Msg) : State :=
  let k := s.stamp m
  let t := (if m.body.counted then s.countSent m.iss else s).numberOut m
  if m.pkg = s.pkg then { t with net := t.net ++ [k] } else { t with outbox := t.outbox ++ [k] }

/-- A message leaves again under the number that it has (R313). -/
def State.sendAgain (s : State) (m : Msg) : State :=
  if m.pkg = s.pkg then { s with net := s.net ++ [m] } else { s with outbox := s.outbox ++ [m] }

/-! The scheduler log (R355, R356). -/

/-- Where a tile's entry `pos` stands in a log of `len` bytes at PA `base`, while its part has room; the log's first
64 bytes hold the digest of the availability map. -/
def logEntry (base len tile pos : Nat) : Option Nat :=
  let index := 64 * tileX tile + tileY tile
  let part := len / 2048
  let off := (if index = 0 then 64 else 0) + 8 * pos
  if off + 8 ≤ part then physOf 0 ((base + index * part + off) % 2 ^ 39) else none

/-- The log of a slot's command, when it records or replays its choices: mode, address and length. -/
def State.logOf (s : State) (slot : Nat) : Option (Nat × Nat × Nat) :=
  (s.slot slot).cmd.bind fun c => if c.rlog = 1 ∨ c.rlog = 2 then some (c.rlog, c.log) else none

/-- The slot of the command whose member a tile is. -/
def State.slotOf (s : State) (tile : Nat) : Nat := ((s.core tile).slot).getD 65536

/-- The tile in whose part a home's choices stand (R355): the home; for a pseudo-channel, which has no part, a tile of the
die that drives it; for a stack core, that of its first pseudo-channel (DESIGN CHOICE, log entry 68). -/
def logTile (home : Nat) : Nat :=
  if home < 2048 then home
  else
    let p := if home < 4096 then 32 * ((home - 2048) / 16) + 2 * ((home - 2048) % 16) else home - 4096
    let die := stackDie (p / 32) (p % 32)
    32 * (16 * (die / 4) + p % 16 / 8) + 8 * (die % 4) + p % 8

/-- Where the log of a slot's command stands at a tile. -/
def logKey (slot tile : Nat) : Nat := slot * 2 ^ 12 + tile

/-- An entry: kind, run length less one, choice. -/
def logWord (kind run choice : Nat) : Word := BitVec.ofNat 64 (kind % 16 * 2 ^ 60 + (run - 1) % 2 ^ 16 * 2 ^ 44 + choice % 2 ^ 44)

/-- The choice that a replay expects next at a tile (R356): its kind, its choice and its run; none when the log says
nothing more. -/
def State.logNext (s : State) (slot tile : Nat) : Option (Nat × Nat × Nat) :=
  match s.logOf slot with
  | some (2, base, len) =>
    (logEntry base len tile (look {} s.schedLog (logKey slot tile)).pos).bind fun a =>
      let w : Word := BitVec.ofNat 64 (readNat s.mem a 8)
      if Word.field w 63 60 = 0 then none else some (Word.field w 63 60, Word.field w 43 0, Word.field w 59 44 + 1)
  | _ => none

/-- A scheduling point may take a choice: always, but in replay, where it must be the logged one (R356). -/
def State.mayChoose (s : State) (slot tile kind choice : Nat) : Bool :=
  match s.logNext slot tile with
  | some (k, c, _) => k == kind && c == choice
  | none => true

/-- A scheduling point has taken a choice: it is logged (R355), or the replay goes on to the next one. -/
def State.chose (s : State) (slot tile kind choice : Nat) : State :=
  let key := logKey slot tile
  let l := look {} s.schedLog key
  match s.logOf slot with
  | some (1, base, len) =>
    if l.kind = 16 then s
    else if l.run ≠ 0 ∧ l.run < 65536 ∧ l.kind = kind ∧ l.choice = choice then
      match logEntry base len tile (l.pos - 1) with
      | some a => { s with
          mem := writeBytes s.mem a (natBytes 8 (logWord kind (l.run + 1) choice).toNat)
          schedLog := setAt s.schedLog key { l with run := l.run + 1 } }
      | none => s
    else match logEntry base len tile l.pos with
      | some a => { s with
          mem := writeBytes s.mem a (natBytes 8 (logWord kind 1 choice).toNat)
          schedLog := setAt s.schedLog key { pos := l.pos + 1, run := 1, kind := kind, choice := choice } }
      | none => { s with schedLog := setAt s.schedLog key { l with kind := 16 } }
  | _ =>
    match s.logNext slot tile with
    | some (_, _, n) => { s with
        schedLog := setAt s.schedLog key (if l.run + 1 < n then { l with run := l.run + 1, held := 0 } else { l with pos := l.pos + 1, run := 0, held := 0 }) }
    | none => s

/-- A message that takes its place in a home's serial order (R355, kind 6); a near-bank run has one for all that it reads
there (DESIGN CHOICE, log entry 68). -/
def Body.atHome : Body → Bool
  | .store .. | .join .. | .fill .. | .load .. | .want .. | .bolt .. | .clearCheck .. | .clearApply .. | .brel ..
  | .bdecl .. | .nb _ (.run ..) => true
  | _ => false

/-- The choice of a home that a message's place stands for: source tile and context. -/
def Msg.place (m : Msg) : Nat := tileWord m.iss.task.core * 4 + m.iss.task.ctx % 4

/-- The home of a byte by its physical number (R25): a tile, or 4096 + 32 × stack + pseudo-channel. -/
def homeOf (pa : Nat) : Nat := if pa < 2 ^ 40 then pa / 2 ^ 22 else 4096 + (pa - 2 ^ 40) / 2 ^ 31

/-- A core's access of a PRIV page, whose accesses by one context keep their order (R194). -/
def Msg.plain (m : Msg) : Bool :=
  m.cmd == 0 && m.page != 0 && (match m.body with
    | .store .. => true
    | .load _ _ ty .. => ty == 0
    | _ => false)

/-- Two messages share a lane; a merged message stands in every lane of its senders (R209). -/
def shareLane (e m : Msg) : Bool := e.senders.any fun x => x.lane != 0 && m.senders.any fun y => y.lane == x.lane

/-- An earlier message `e` must be applied before `m`, whatever their numbers: one context's accesses of a PRIV page (R194),
its loads of a buffer before its BREL (R224), its commands to one near-bank unit, its packets to one port (R313), and the
outputs of a near-bank run before its reply (R282, R283) (DEDUCED, log entry 9). -/
def mustWait (e m : Msg) : Bool :=
  (shareLane e m &&
    ((e.plain && m.plain && e.page == m.page) ||
      (match e.body, m.body with
        | .load _ _ _ _ c .., .brel _ _ d => c == d
        | .nb u _, .nb v _ => u == v
        | .packet p, .packet q => p.tile == q.tile && p.port == q.port && e.pkg == m.pkg
        | _, _ => false))) ||
  (match e.body, m.body with
    | .store .., .result .. | .store .., .wake .. => e.cmd != 0 && e.cmd == m.cmd
    | _, _ => false)

/-- Two messages stand in one numbered order (R13): they share a lane, a home and a colour, or a mailbox. -/
def sameOrder (e m : Msg) : Bool :=
  e.body.sequenced && m.body.sequenced && e.senders.any fun x => x.lane != 0 && m.senders.any fun y =>
    y.lane == x.lane && (e.keys x.lane).any fun k => (m.keys x.lane).contains k

/-- Message `n` may be applied now: it is the next in its lanes, and no earlier message must come first. -/
def State.eligible (s : State) (n : Nat) (m : Msg) : Bool := s.inTurn m && (s.net.take n).all fun e => !mustWait e m

/-- A replay lets a home take a message next (R356). -/
def State.mayServe (s : State) (m : Msg) : Bool :=
  !m.body.atHome || s.mayChoose m.iss.task.slot (logTile m.home) 6 m.place

/-- Message `n`, when it may be applied. -/
def State.due (s : State) (n : Nat) : Option Msg :=
  match s.net[n]? with
  | none => none
  | some m => if s.eligible n m && s.mayServe m then some m else none

/-! The cipher of confidential stack pages (R38). -/

/-- The 4 KiB block of a stack as it stands in memory turned from one view into another: the banks' view (none), or that of
the users of a session. -/
def reveal (pkg : Nat) (from_ dst : Option Word) (block : Nat) (v : BitVec 32768) : BitVec 32768 :=
  let raw := match from_ with
    | some k => cipher pkg k block v
    | none => v
  match dst with
  | some k => decipher pkg k block raw
  | none => raw

/-- The block of a stack byte brought into the view of a session, or of the banks (R38). -/
def State.seen (s : State) (key : Option Word) (pa : Nat) : State :=
  let b := pa / 4096
  let old := look none s.enc b
  if pa < 2 ^ 40 ∨ old = key then s
  else { s with
    mem := writeBytes s.mem (b * 4096) (natBytes 4096 (reveal s.pkg old key b (BitVec.ofNat 32768 (readNat s.mem (b * 4096) 4096))).toNat)
    enc := put none s.enc b key }

/-- Every block of the stacks as the banks hold it (R38). -/
def State.banks (s : State) : State := s.enc.foldl (fun s e => s.seen none (e.1 * 4096)) s

/-- The block that a message reads or writes is seen as its page says. -/
def State.seenBy (s : State) (m : Msg) : State :=
  match m.body with
  | .store pa .. | .join pa .. | .fill pa .. | .load pa .. | .want pa .. | .bolt pa .. | .clearCheck pa .. | .clearApply pa ..
  | .brel pa .. | .bdecl pa .. | .digest pa .. => s.seen m.key pa
  | _ => s

/-- Message `n` has been taken from the network: it has its place in the home's order, and counts as received, a call only
when its handler ends (R308) and a packet when it is placed; a fill write takes its number once it is decided (R221). -/
def State.take (s : State) (n : Nat) (m : Msg) : State :=
  let s := if m.body.atHome then s.chose m.iss.task.slot (logTile m.home) 6 m.place else s
  let s := { s with net := removeAt s.net n }
  match m.body with
  | .packet _ => s
  | .hcall _ => s.numberIn m
  | .fill .. => s.seenBy m
  | _ => ((s.numberIn m).receivedAll m).seenBy m

/-- A message that a home sends on behalf of the issuer of another one: it stands in no lane. -/
def Msg.toward (m : Msg) (pkg home : Nat) (b : Body) : Msg :=
  { m with pkg := pkg, home := home, more := [], body := b, lane := 0, seq := [], page := 0, wired := none, crossed := false }

/-- An answer on its way to a task. -/
def State.answer (s : State) (m : Msg) (b : Body) : State := s.send (m.toward m.iss.task.pkg m.iss.task.core b)

/-! What is outstanding (R291, R292). -/

/-- Messages that FENCE and DONE count. -/
def Body.fenced : Body → Bool
  | .store .. | .join .. | .fill .. | .hcall .. | .packet .. | .nb .. => true
  | .hnote _ .refuse | .packetNote _ false => true
  | _ => false

/-- A colour lies in a mask; bit 8 stands for no colour. -/
def inMask (mask colour : Nat) : Bool := mask.testBit colour

/-- Some issuer of a message satisfies `p`. -/
def Msg.any (m : Msg) (p : Issuer → Bool) : Bool := p m.iss || m.more.any fun x => p x.iss

/-- A core holds a call of the issuer that has not ended: in its mailbox. -/
def CoreSt.owes (c : CoreSt) (p : Issuer → Bool) (mask : Nat) : Bool :=
  (c.mailbox.any fun k => p k.caller && inMask mask k.colour) ||
  (c.resend.any fun k => p k.1.iss && inMask mask k.1.colour) ||
  (c.copyQ.any fun k => p k.iss && inMask mask k.colour)

/-- A command delivers its rows to q3 (R257). -/
def ArrCmd.pops (k : ArrCmd) : Bool := (k.desc.getD 0 0).getLsbD 19

/-- A command counts under its colour; one whose rows are no writes (R257) counts under none. -/
def ArrCmd.owes (k : ArrCmd) (p : Issuer → Bool) (mask : Nat) : Bool := p k.iss && inMask mask (if k.pops then 8 else k.colour)

/-- An operation's work that is not held counts (R259). -/
def ArrOp.owes (o : ArrOp) (p : Issuer → Bool) (mask : Nat) : Bool := o.cmd.owes p mask && !o.held

/-- A command waits behind a held operation of its own task, in the array or displaced (R259, R260). -/
def Quad.behind (q : Quad) (k : ArrCmd) : Bool :=
  (q.cur.any fun o => o.held && o.cmd.iss == k.iss) ||
  (k.gang.isNone && q.displaced.any fun o => o.held && o.cmd.iss == k.iss && o.cmd.gang.isNone)

/-- An array holds work of the issuer that is not held. -/
def Quad.owes (q : Quad) (p : Issuer → Bool) (mask : Nat) : Bool :=
  ((q.queue ++ q.saved).any fun k => k.owes p mask && !q.behind k) || (q.cur.any fun o => o.owes p mask) ||
  (q.displaced.any fun o => o.owes p mask) || (q.gangSlot.any fun k => k.owes p mask)

/-- Something of the issuer with a colour of the mask is not applied (R292). -/
def State.owes (s : State) (p : Issuer → Bool) (mask : Nat) : Bool :=
  (s.net.any fun m => m.body.fenced && m.any p && inMask mask m.colour) ||
  (s.outbox.any fun m => m.body.fenced && m.any p && inMask mask m.colour) ||
  (s.heldFills.any fun m => m.any p && inMask mask m.colour) ||
  (s.remoteCalls.any fun c => p c.caller && inMask mask c.colour) ||
  (s.cores.any fun c => c.2.owes p mask) ||
  (s.quads.any fun q => q.2.owes p mask)

/-- The messages of one task, its engines and its row handlers. -/
def ofTask (t : TaskId) (i : Issuer) : Bool := i.task == t && i.via == 0
/-- The messages of one hinge handler run. -/
def ofRun (run : Nat) (i : Issuer) : Bool := i.via == run

/-! Parking and scheduling (R74, R80, R128). -/

/-- A context is occupied. -/
def Ctx.busy (c : Ctx) : Bool := !decide (c.role = .free)

/-- A park that is no cancellation point: the task is ending already. -/
def Wait.ending : Wait → Bool
  | .failing _ | .cancelling => true
  | _ => false

/-- A GSND has its reservation: it is no cancellation point until its fill is enqueued, for a cancelled producer leaves no
reservation behind (R329) (DEDUCED, log entry 27). -/
def Ctx.reserved (c : Ctx) : Bool :=
  match c.reply with
  | some (.version ..) => true
  | _ => false

/-- Parks the issuing context; a flagged task ends there with CANCELLED (R84). -/
def State.park (s : State) (w : Wait) : State :=
  let c := s.me
  let x := s.ctx
  let w := if x.flagged && decide (x.role = .task) && !w.ending && !x.reserved then .cancelling else w
  (s.setMe { c with stamps := c.stamps + 1, switch := c.switch || decide (s.curCtx < 4) }).setCtx
    { x with wait := w, parkedAt := c.stamps }

/-- The copy engine queue of a tile has room (R216). -/
def CoreSt.copyRoom (c : CoreSt) : Bool := decide (c.copyQ.length < 32)

/-- Places of a tile's q4 in use (R281): its near-bank commands not yet taken by a unit. -/
def State.nbUsedPlaces (s : State) (n : Nat) : Nat :=
  (s.net.filter fun m => match m.body with
    | .nb _ (.bind _) => false
    | .nb .. => m.iss.task.core == n
    | _ => false).length

/-- The tile's q4 has room (R281). -/
def State.nbRoom (s : State) (n : Nat) : Bool := decide (s.nbUsedPlaces n < 16)

/-- The quad's array queue has room (R250). -/
def Quad.room (q : Quad) : Bool := decide (q.queue.length + (if q.cur.isSome then 1 else 0) < 8)

/-- The package that a packet of this package's sender goes to (R313). -/
def State.packetPkg (s : State) (p : Packet) : Nat := if p.route.getLsbD 45 then Word.field p.route 44 32 else s.pkg

/-- A packet of this context is on its way to that port (R313). -/
def State.packetOut (s : State) (i : Issuer) (pkg tile port : Nat) : Bool :=
  let one := fun (p : Packet) => p.iss == i && s.packetPkg p == pkg && p.tile == tile && p.port == port && !p.server
  (s.net.any fun m => match m.body with
    | .packet p | .packetNote p _ => one p
    | _ => false) ||
  (s.outbox.any fun m => match m.body with
    | .packet p => one p
    | _ => false) ||
  (s.cores.any fun c => c.2.resend.any fun k => one k.1)

/-- A packet that the binding of a port may release now (R314). -/
def Port.ready (p : Port) : Bool :=
  match p.bound with
  | some (_, _, true, _) => p.pkts.any fun k => k.rank == p.next
  | _ => !p.pkts.isEmpty

/-- The array commands of a context are complete or held (R260). -/
def State.arraySettled (s : State) (t : TaskId) : Bool :=
  s.quads.all fun q => !q.2.owes (ofTask t) 0x1FF

/-- The generation of a barrier (R297). -/
def State.bar (s : State) (b : Nat) : Bar := look {} s.bars b

/-- A generation has been reached (R300). -/
def genReached (gen tgt : Nat) : Bool := decide ((gen + 2 ^ 32 - tgt % 2 ^ 32) % 2 ^ 32 < 2 ^ 31)

/-- The reduction server of a tile has taken a whole round (R316). -/
def CoreSt.roundReady (c : CoreSt) : Bool :=
  c.rtree.getLsbD 63 && (c.ports[3]?.getD ({} : Port)).taken.length == Word.field c.rtree 20 16 + 1

/-- The packets that complete the round of a tile's reduction server stand at its port, be they not taken yet (R316). -/
def CoreSt.roundThere (c : CoreSt) : Bool :=
  let p := c.ports[3]?.getD ({} : Port)
  c.rtree.getLsbD 63 && (List.range (Word.field c.rtree 20 16 + 1 - p.taken.length)).all fun i => p.pkts.any fun k => k.rank == p.next + i

/-- A walk that a context waits for is still running (R41). -/
def State.walking (s : State) (n slot va : Nat) : Bool :=
  s.walks.any fun w => w.slot == slot && w.va == va && w.askers.any fun a => a.kind == 0 && a.place == n

/-- The number under which core `n` reads code of another package (R91). -/
def codeCmd (n : Nat) : Nat := 2 ^ 14 * (n + 1)

/-- What another package has answered to core `n` for the word of code at an address: none while nothing is asked, then
none within it while nothing has come. -/
def State.farCode (s : State) (n va : Nat) : Option (Option Answer) :=
  (s.fetched.find? fun f => f.1 == codeCmd n && f.2.1 == va).map (·.2.2)

/-- The task of a context's state that stands under number `i` of core `n`. -/
def State.idOf (s : State) (n i : Nat) (c : Ctx) : TaskId :=
  { pkg := s.pkg, core := n, ctx := i, serial := c.serial, slot := c.slot }

/-- Task `t` holds the key of its core's quad (R242). -/
def State.hasKey (s : State) (t : TaskId) : Bool := decide ((s.quad (quadOf t.core)).holder = some t)

/-- What a context's state waits for has come (R74, R128); `n` and `i` say where it stands or belongs. -/
def State.overFor (s : State) (n i : Nat) (c : Ctx) : Bool :=
  let t := s.idOf n i c
  match c.wait with
  | .none => true
  | .marker _ => c.pending == 0
  | .xlate va => !s.walking n c.slot va
  | .room 0 _ => (s.core n).copyRoom
  | .room 1 _ => decide (c.q1.length + c.q1res < 16)
  | .room 2 _ => (s.quad (quadOf n)).room
  | .room 3 arg => !s.packetOut { task := t, via := 0 } (arg / 2 ^ 15) (arg / 4 % 8192) (arg % 4)
  | .room 4 _ => s.nbRoom n
  | .room 5 _ => decide (c.q5.length + c.q5res < 16)
  | .room 6 q => (s.quad q).gangSlot.isNone
  | .room _ q => !s.walks.any fun w => w.askers.any fun a => a.kind == 2 && a.place == q
  | .chan p => ((s.core n).ports[p]?.getD {}).ready
  | .key => s.hasKey t
  | .barFull b g => decide ((s.bar b).gen ≠ g)
  | .bar b g => genReached (s.bar b).gen g
  | .fence m _ => !s.owes (ofTask t) m
  | .acks => c.acks == 0
  | .answer => c.reply.isSome
  | .doneRegs => c.pending == 0
  | .doneWrites | .failing _ | .cancelling => false
  | .hret _ => c.pending == 0 && (match c.role with
    | .hinge _ run => !s.owes (ofRun run) 0x1FF
    | _ => true)
  | .hfail _ => match c.role with
    | .hinge _ run => !s.owes (ofRun run) 0x1FF
    | _ => true
  | .arrayIdle => s.arraySettled t
  | .code va => s.farCode n va != some none

/-- A task context of a tile is idle (R81). -/
def Ctx.idleTask (c : Ctx) : Bool :=
  match c.role with
  | .free | .server => true
  | _ => c.parkedIdle

/-- A halted core defers its handlers, but during a step that ends with the array idle (R266, R348). -/
def State.defers (s : State) (n : Nat) : Bool :=
  let c := s.core n
  let q := s.quad (quadOf n)
  c.halted && !(c.stepping && (q.cur.isSome || !q.queue.isEmpty))

/-- A tile asserts idle (R81); a halted one never does (R348), nor one whose contexts stand in its tile record (R346).  A
task whose GET, THR or JOIN request has not reached its home is not yet parked on a latch, and a near-bank command that has
not reached its unit is unfinished (DEDUCED, log entry 26). -/
def State.tileIdle (s : State) (n : Nat) : Bool :=
  let c := s.core n
  let mine := fun (i : Issuer) => i.task.core == n
  !c.halted && c.saved.isNone && c.deque.isEmpty && c.overflow.isEmpty && !c.roundThere &&
  ([0, 1, 2, 3].all fun i => (c.ctx i).idleTask && (!(c.ctx i).busy || !s.overFor n i (c.ctx i) || decide ((c.ctx i).role = .server))) &&
  (c.spilled.all fun p => p.ready.isNone) && !(c.ctx 4).busy && c.arrivals.isEmpty && c.copyQ.isEmpty && c.resend.isEmpty &&
  (s.quads.all fun q => !q.2.owes mine 0x1FF) &&
  (s.net.all fun m => match m.body with
    | .nb .. | .want .. => !mine m.iss
    | _ => true) &&
  (s.outbox.all fun m => match m.body with
    | .want .. => !mine m.iss
    | _ => true)

/-- A tile that has left idle sets its dirty bit (R81). -/
def State.leftIdle (old : State) (n : Nat) (s : State) : State :=
  if old.tileIdle n && !s.tileIdle n then s.setCore n { s.core n with dirty := true } else s

/-- Context `i` of core `n` waits for nothing more. -/
def State.waitOver (s : State) (n i : Nat) : Bool := s.overFor n i (s.ctxOf n i)

/-- The context can issue now; a halted core lets its handler end (R348), and stays at a breakpoint (R349). -/
def State.ctxReady (s : State) (n i : Nat) : Bool :=
  let c := s.ctxOf n i
  (match c.role with
    | .free | .server => false
    | _ => true) && !c.stopped && (!(s.core n).halted || i == 4) && !(s.core n).atBrk.contains i && s.waitOver n i

/-- Among ready task contexts the highest prio issues; ties go round-robin after the context that last
issued (R74); one that has yielded issues only when no other is ready (R145). -/
def State.bestTask (s : State) (n : Nat) (yielder : Option Nat) : Option Nat :=
  let l := (s.core n).last
  let order := [(l + 1) % 4, (l + 2) % 4, (l + 3) % 4, l % 4]
  let best := (order.filter fun i => s.ctxReady n i && decide (some i ≠ yielder)).foldl (fun best i =>
    match best with
    | none => some i
    | some j => if (s.ctxOf n j).prio < (s.ctxOf n i).prio then some i else some j) none
  match best, yielder with
  | none, some i => if s.ctxReady n i then some i else none
  | _, _ => best

/-- The context of core `n` that issues next: the handler context first, then the task context that issues
until it parks, then the choice among the ready ones (R74). -/
def State.choose (s : State) (n : Nat) : Option Nat :=
  let c := s.core n
  if s.ctxReady n 4 then some 4
  else if !c.switch && s.ctxReady n c.last then some c.last
  else s.bestTask n (if c.yielded then some c.last else none)

/-- Context `i` of core `n` becomes the one that issues. -/
def State.select (s : State) (n i : Nat) : State :=
  let c := s.core n
  let s := { s with cur := n, curCtx := i }
  if i < 4 then s.setCore n { c with last := i, switch := false, yielded := false } else s

/-- The command of a slot is pre-empted (R265, R346). -/
def State.preempted (s : State) (slot : Nat) : Bool :=
  match (s.slot slot).cmd with
  | some c => decide (c.phase = .preempted)
  | none => false

/-! Code (R86, R90, R91). -/

/-- A core is a stack core (R284). -/
def stackCore (core : Nat) : Bool := decide (2048 ≤ core)

/-- The byte of a command's code region that holds local address `a` (R65, R91): its VA, its page's leaf, its package and
its physical number. -/
def State.codeAt (s : State) (slot a : Nat) : Option (Nat × Nat × Nat) :=
  match (s.slot slot).cmd.bind (·.code) with
  | none => none
  | some (base, len) =>
    if 0x100000 ≤ a ∨ len ≤ a then none
    else match s.walk slot (base + a) with
      | .error _ => none
      | .ok e =>
        let p := e.addr + (base + a - e.va)
        (physOf e.space (p % 2 ^ 39)).map fun pa => (base + a, p / 2 ^ 39, pa)

/-- The physical number of the word that the issuing context fetches at `a`, where it lies in this package (R86, R91). -/
def State.fetchPa (s : State) (a : Nat) : Option Nat :=
  if stackCore s.cur then
    match s.codeAt s.ctx.slot a with
    | some (_, k, pa) => if k = s.pkg then some pa else none
    | none => none
  else some (localPa s.cur a)

/-- The word that the issuing core has got from another package for its address `a` (R91). -/
def State.farWord (s : State) (a : Nat) : Option Answer :=
  match s.codeAt s.ctx.slot a with
  | some (va, _, _) => (s.farCode s.cur va).bind id
  | none => none

/-- The word at local address `a` as the issuing context fetches it; a NOP where there is none.  A word that a code load
still writes is the old one until all of it is written, then the old or the new one (R90) (DESIGN CHOICE, log entry 79). -/
def State.insn (s : State) (a : Nat) : Insn :=
  match s.fetchPa a with
  | none => match s.farWord a with
    | some (.word w) => w.setWidth 32
    | _ => 0
  | some pa => match s.me.loading.find? fun e => e.1 == a && !stackCore s.cur with
    | some (_, _, old, written) =>
      if written = 0xF#4 ∧ !Config.fetchesOld s.free a then BitVec.ofNat 32 (readNat s.mem pa 4) else old
    | none => BitVec.ofNat 32 (readNat s.mem pa 4)

/-- A word is an FMT prefix: its major opcode is 0x32 (R97). -/
def isFmtWord (w : Insn) : Bool := w.extractLsb' 22 6 == 0x32#6

/-- The address behind `n` captured instructions that start at `a`; an FMT and its consumer count as one
(R129). -/
def State.captureEnd (s : State) : Nat → Nat → Nat
  | 0, a => a
  | n + 1, a => s.captureEnd n (if isFmtWord (s.insn a) then a + 8 else a + 4)

/-- The address of the word that issues: at the PC, or of the captured word of the replay that stands there (R130). -/
def State.instrPc (s : State) : Nat :=
  let c := s.ctx
  if c.rep then s.captureEnd c.rslot (c.pc.toNat + 4) + (if c.pfx.isSome then 4 else 0) else c.pc.toNat

/-! Taking an exception (R336-R339) and returning from one (R337). -/

/-- The flags that a handler raised. -/
def Ctx.ownFlags (c : Ctx) : BitVec 6 := c.fflags.setWidth 6

/-- A row handler has ended: the context is free, the row counts as drained (R256), and its flags go to the
task (R172). -/
def State.endRow (s : State) (j : RowJob) : State :=
  let s := s.orFlags j.arr.iss s.ctx.ownFlags
  let q := s.quad j.quad
  let one := fun (o : ArrOp) =>
    if o.cmd.id = j.arr.id then { o with rowsOut := o.rowsOut - 1, rows := o.rows + 1 } else o
  (s.setQuad j.quad { q with cur := q.cur.map one, displaced := q.displaced.map one }).setCtx {}

/-- The package and the core that a call's notes go to: those of the context that called (R305). -/
def Call.back (k : Call) : Nat × Nat :=
  match k.dst.handler with
  | some (p, n, _) => (p, n)
  | none => (k.caller.task.pkg, k.caller.task.core)

/-- A note from a unit to the caller. -/
def State.noteTo (s : State) (k : Call) (n : HingeNote) : State :=
  s.send { iss := k.caller, more := [], pkg := k.back.1, home := k.back.2, colour := k.colour, group := k.group, cmd := 0,
           body := .hnote k n }

/-- A call has ended at unit `u` (R308, R309): it counts as received, and its mailbox entry is free; a failure of a posted
call is joined into its caller's fault cell, everything else goes back as a note. -/
def State.endCall (s : State) (u : Nat) (k : Call) (n : HingeNote) : State :=
  let s := s.received k.caller
  let c := s.core u
  let s := s.setCore u { c with mailbox := c.mailbox.filter (·.id != k.id) }
  match n, k.w || k.back.1 != s.pkg with
  | .failed rc, false => s.report k.caller 0x23 k.colour (BitVec.ofNat 64 (rc * 2 ^ 56 + k.target % 2 ^ 48))
  | _, _ => s.noteTo k n

/-- A hinge handler has ended: the context is free, and the flags go to the caller (R172). -/
def State.endHinge (s : State) (k : Call) (n : HingeNote) : State :=
  let s := s.orFlags k.caller s.ctx.ownFlags
  let s := { s with fetched := s.fetched.filter fun f => f.1 != codeCmd s.cur }
  (s.setCtx {}).endCall s.cur k n

/-- The first result row of a command's block (R264). -/
def ArrCmd.row0 (a : ArrCmd) : Nat := match a.gang with
  | some (r, _, _, _, _) => r
  | none => 0
/-- The first result column of a command's block. -/
def ArrCmd.col0 (a : ArrCmd) : Nat := match a.gang with
  | some (_, c, _, _, _) => c
  | none => 0

/-- Trap entry of a task context through tvec (R336) (DEDUCED, log entry 14). -/
def Ctx.enter (c : Ctx) (tvec : Word) (cause : Nat) (tval resume : Word) : Ctx :=
  let pfx := if c.rep then none else c.pfx
  let st := Word.putField c.tstat 0 0 pfx.isSome.toNat
  let st := Word.putField st 16 16 1
  let st := Word.putField st 17 17 (lcAct c.lc0).toNat
  let st := Word.putField st 18 18 (lcAct c.lc1).toNat
  { c with
    tpc := resume &&& 0x3FFFFC
    tcause := BitVec.ofNat 64 cause
    tval := tval
    tstat := st
    fpre := match pfx with
      | some b => b.setWidth 64
      | none => c.fpre
    pfx := none
    rep := false
    wait := .none
    phase := 0
    acks := 0
    reply := none
    notes := []
    pc := tvec }

/-- IRET (R144, R337): the PC, the prefix and the replay resume, suspended loops run on (DEDUCED, log entry 13). -/
def Ctx.iret (c : Ctx) : Ctx :=
  let st := Word.putField c.tstat 16 16 0
  let st := Word.putField st 18 17 0
  { c with
    pc := c.tpc
    pfx := if c.tstat.getLsbD 0 then some (c.fpre.setWidth 22) else none
    rep := c.tstat.getLsbD 4
    tstat := Word.putField st 0 0 0 }

/-- A precise cause in the issuing context (R336, R338, R339, R309): into the handler at tvec with the resume address
`resume`, or the end of the task by its failure, whose entry names the instruction at `pc`, or the end of the handler. -/
def State.trapAt (s : State) (cause : Nat) (tval resume : Word) (pc : Nat) : State :=
  let c := s.ctx
  let s := s.bump (0x0A90 + 8 * cause)
  match c.role with
  | .row j _ =>
    let word : Nat := cause * 2 ^ 52 + 0xF * 2 ^ 48 + (j.arr.row0 + j.row) % 2 ^ 16
    (s.endRow j).report j.arr.iss 0x26 j.arr.colour (BitVec.ofNat 64 word)
  | .hinge _ _ => s.setCtx { c with wait := .hfail cause, pfx := none, rep := false }
  | _ =>
    if c.inh || s.me.tvec == 0 then
      s.setCtx { c with
        wait := .failing { cause := cause, tval := tval, pc := pc, double := c.inh }
        pfx := none, rep := false }
    else s.setCtx (c.enter s.me.tvec cause tval resume)

/-- A precise cause at the instruction that issues, before it takes effect (R337). -/
def State.trap (s : State) (cause : Nat) (tval : Word) : State := s.trapAt cause tval s.ctx.pc s.instrPc

/-! The frame of an instruction (R105). -/

/-- Where an instruction may run: in a REP capture (R129), after an FMT (R98), in a row handler and in a
hinge handler; a trap handler's and a handler's own instructions say so themselves. -/
structure Cls where
  rep : Bool
  fmt : Bool
  row : Bool
  hinge : Bool
  task : Bool := true
  deriving DecidableEq, Repr

/-- What an instruction does once its checks have passed. -/
inductive Eff where
  /-- it completes; the PC advances -/
  | done (s : State)
  /-- it completes with a taken transfer (R139, R142) -/
  | jump (t : Word) (s : State)
  /-- a loop with count 0 skips its body (R140, R142) -/
  | skip (t : Word) (s : State)
  /-- it parks and issues again when its wait is over -/
  | stay (w : Wait) (s : State)
  /-- a precise cause; the state holds what stands -/
  | trap (cause : Nat) (tval : Word) (s : State)
  /-- the context has left the instruction: IRET, or the end of a task or handler -/
  | left (s : State)

/-- A guard's outcome, read at issue (R93). -/
def Ctx.guard (c : Ctx) (g : BitVec 3) : Bool :=
  if g = 0 then true
  else if g.getLsbD 2 then !c.rp (g.setWidth 2 |>.setWidth 3) else c.rp g

/-- A faulted mark's tval (R195). -/
def FaultMark.tval (f : FaultMark) (n : Nat) : Word :=
  BitVec.ofNat 64 ((if 32 ≤ n then 1 else 0) * 2 ^ 61 + n % 32 * 2 ^ 56 + f.va % 2 ^ 48)

/-- The first pending or faulted register among those an instruction names, in their order: an x register
by its number, a v register by 32 + its number (R127, R195). -/
def Ctx.badUse (c : Ctx) : List Nat → Option (Nat × Word)
  | [] => none
  | n :: r =>
    if n = 0 then c.badUse r
    else match c.inh, c.faulted.find? (·.1 == n) with
      | false, some (_, f) => some (f.cause, f.tval n)
      | _, _ => if c.pending.getLsbD n then some (0x02, BitVec.ofNat 64 n) else c.badUse r

/-- x register `r` as a use. -/
def ux (r : Reg) : Nat := r.toNat
/-- v register `r` as a use. -/
def uv (r : Reg) : Nat := 32 + r.toNat
/-- The six registers of a G-block (R320). -/
def ug (r : Reg) : List Nat := (List.range 6).map fun i => 32 + r.toNat + i

/-- A channel register bound by CHBIND (R312). -/
def Ctx.bound (c : Ctx) (v : Nat) : Bool :=
  decide (28 ≤ v) && decide (v < 32) && c.chb.getLsbD (8 * (v - 28) + 7)

/-- A handler's budget is used up (R255, R306). -/
def Ctx.spent (c : Ctx) : Bool :=
  match c.role with
  | .row .. | .hinge .. => c.hbud == 0
  | _ => false

/-- One instruction counted against the budget. -/
def Ctx.charge (c : Ctx) : Ctx :=
  match c.role with
  | .row .. | .hinge .. => { c with hbud := c.hbud - 1 }
  | _ => c

/-- The count taken back for an instruction that parks and issues again. -/
def Ctx.uncharge (c : Ctx) : Ctx :=
  match c.role with
  | .row .. | .hinge .. => { c with hbud := c.hbud + 1 }
  | _ => c

/-- Legality in the current state, step 3 of R105, by the class of the instruction. -/
def Ctx.legal (c : Ctx) (k : Cls) : Bool :=
  (!c.rep || k.rep) &&
  (match c.role with
    | .row .. => k.row
    | .hinge .. => k.hinge
    | _ => k.task)

/-- What the checks of R105 before the effect say. -/
inductive Pre where
  | go
  /-- the guard fails -/
  | off
  | trap (cause : Nat) (tval : Word)
  deriving DecidableEq, Repr

/-- Steps 2 to 4 of R105 and R127: prefix pairing, legality, guard, pending and faulted registers. -/
def Ctx.pre (c : Ctx) (k : Cls) (i : Instr) (h : Head) (legal : Bool) (uses : List Nat) : Pre :=
  if c.pfx.isSome && !k.fmt then .trap 0x01 (i.wordOf.setWidth 64)
  else if !(c.legal k && legal) then .trap 0x01 (i.wordOf.setWidth 64)
  else if !c.guard h.g then .off
  else match c.badUse uses with
    | some (cause, tval) => .trap cause tval
    | none => .go

/-- COUNT less one, modulo 2^32 (R142). -/
def lcLess (w : Word) : Nat := (2 ^ 32 - 1 + lcCount w) % 2 ^ 32

/-- One loop's end-of-body step (R142): the context and whether the loop ended. -/
def Ctx.bodyStep (c : Ctx) (n : Nat) : Ctx × Bool :=
  let w := c.lc n
  let count := lcLess w
  if count = 0 then
    ({ c.setLc n (lcMake false (lcLen w) (lcStart w) 0) with pc := BitVec.ofNat 64 (lcStart w + 4 * lcLen w) }, true)
  else ({ c.setLc n (lcMake true (lcLen w) (lcStart w) count) with pc := BitVec.ofNat 64 (lcStart w) }, false)

/-- End-of-body processing when the word at `a` completes without a taken transfer; the loop opened later
comes first (R142). -/
def Ctx.bodyEnd (c : Ctx) (a : Nat) : Ctx :=
  let ends := fun n => c.live n && lcLast (c.lc n) == a
  let first := if c.laterLc1 then 1 else 0
  let second := 1 - first
  if ends first then
    let r := c.bodyStep first
    if r.2 && ends second then (r.1.bodyStep second).1 else r.1
  else if ends second then (c.bodyStep second).1
  else c

/-- A taken transfer ends every live loop whose body does not contain the target (R142). -/
def Ctx.cut (c : Ctx) (t : Nat) : Ctx :=
  let one := fun (c : Ctx) n =>
    let w := c.lc n
    if c.live n && !(decide (lcStart w ≤ t) && decide (t < lcStart w + 4 * lcLen w))
    then c.setLc n (w &&& 0x7FFFFFFFFFFFFFFF) else c
  one (one c 0) 1

/-- The first faulted register of a context. -/
def Ctx.firstFault (c : Ctx) : Option (Nat × FaultMark) := c.faulted.head?

/-- The resume address of a fault that is delivered at the park of the marked word at `a` (R195, R337): the word behind it;
within a replay that goes on, the REP (R131) (DEDUCED, log entry 15). -/
def Ctx.behind (c : Ctx) (a : Nat) : Word := if c.rep then c.pc else BitVec.ofNat 64 (a + 4)

/-- Deferred delivery at the park of the marked word at `a` (R195): the trap of the first faulted register, if there is one. -/
def State.delivered (s : State) (a : Nat) : Option State :=
  let c := s.ctx
  match c.inh, c.firstFault with
  | false, some (n, f) => some (s.trapAt f.cause (f.tval n) (c.behind a) a)
  | _, _ => none

/-- The switch marker of the word at `a` (R128): it parks while a pending bit is set, and else continues; a fault found at a
home is delivered at the end of its park (R195). -/
def State.marker (s : State) (a : Nat) : State := if s.ctx.pending ≠ 0 then s.park (.marker a) else s

/-- The fields of the REP word at the PC: n and iterations (R130). -/
def State.repFields (s : State) : Nat × Nat :=
  let w := s.insn s.ctx.pc.toNat
  ((w.extractLsb' 18 4).toNat + 1, (w.extractLsb' 12 6).toNat + 1)

/-- The replay is over: the PC behind the last captured word, whose loops end their body (R130). -/
def Ctx.repDone (c : Ctx) (last : Nat) : Ctx :=
  { c with rep := false, tstat := Word.putField c.tstat 4 4 0, pc := BitVec.ofNat 64 last }.bodyEnd (last - 4)

/-- The replay goes on at another position (R130). -/
def Ctx.repAt (c : Ctx) (slot iter : Nat) : Ctx :=
  { c with tstat := Word.putField (Word.putField c.tstat 9 5 slot) 15 10 iter }

/-- One execution of a replay has completed (R130). -/
def State.repNext (s : State) : State :=
  let c := s.ctx
  let f := s.repFields
  let slot := c.rslot + 1
  let full := decide (f.1 ≤ slot)
  let iter := if full then c.riter + 1 else c.riter
  s.setCtx (if full && decide (f.2 ≤ iter) then c.repDone (s.captureEnd f.1 (c.pc.toNat + 4))
    else c.repAt (if full then 0 else slot) iter)

/-- The context behind the word at its PC: the prefix is used, and what a parking instruction kept is gone. -/
def Ctx.nextWord (c : Ctx) : Ctx :=
  { c with pc := c.pc + 4, pfx := none, wait := .none, phase := 0, acks := 0, reply := none, notes := [] }

/-- The instruction has completed without a transfer: its prefix is used, the PC advances or the replay
goes on, loops end their body, and the marker acts. -/
def State.complete (s : State) (h : Head) : State :=
  let c := s.ctx
  let a := s.instrPc
  let s := if c.rep then (s.setCtx { c with pfx := none, wait := .none }).repNext
    else s.setCtx (c.nextWord.bodyEnd c.pc.toNat)
  if h.sw then s.marker a else s

/-- The failures noted for a requester are used up. -/
def State.forget (s : State) (kind place ctx : Nat) : State :=
  { s with walkFails := s.walkFails.filter fun f => f.asker != { kind := kind, place := place, ctx := ctx } }

/-- The issuing context has used the failed walks it waited for. -/
def State.settle (s : State) : State := s.forget 0 s.cur s.curCtx

/-- The effect of an instruction brought to its end. -/
def Eff.finish (e : Eff) (h : Head) : State :=
  match e with
  | .done s => s.settle.complete h
  | .jump t s =>
    let s := s.settle
    let c := s.ctx
    let s := s.setCtx { c.cut t.toNat with pc := t, wait := .none }
    if h.sw then s.marker c.pc.toNat else s
  | .skip t s =>
    let s := s.settle
    let c := s.ctx
    let s := s.setCtx ({ c with pc := t, wait := .none }.bodyEnd (t.toNat - 4))
    if h.sw then s.marker c.pc.toNat else s
  | .stay w s => (s.setCtx s.ctx.uncharge).park w
  | .trap cause tval s => s.settle.trap cause tval
  | .left s => s

/-- An instruction runs: the checks of R105 in their order, then its effect.  `uses` lists the registers it
reads and writes in the order of R127; `legal` is what its own page adds to step 3
(DEDUCED, log entries 12 and 21). -/
def State.run (s : State) (k : Cls) (i : Instr) (h : Head) (legal : Bool) (uses : List Nat)
    (act : State → Eff) : State :=
  let c := s.ctx
  if c.spent then s.trap 0x11 (BitVec.ofNat 64 s.instrPc)
  else
    let s := s.setCtx c.charge
    match c.pre k i h legal uses with
    | .trap cause tval =>
      if c.pfx.isSome && !k.fmt then (s.setCtx { s.ctx with pfx := none }).trapAt cause tval c.pc s.instrPc
      else s.trap cause tval
    | .off => s.complete h
    | .go => (act s).finish h

/-- Register `reg` of the issuing context as the destination of an answer. -/
def State.dest (s : State) (isV : Bool) (reg : Nat) : Dest :=
  match s.ctx.role with
  | .row _ run | .hinge _ run => { isV := isV, reg := reg, handler := some (s.pkg, s.cur, run) }
  | _ => { isV := isV, reg := reg }

/-- A marked register becomes pending (R126); a fault of an earlier load into x0 stays to be delivered (R195). -/
def Ctx.setPending (c : Ctx) (n : Nat) : Ctx :=
  { c with
    pending := c.pending ||| (1#64 <<< n), thrMarks := c.thrMarks &&& ~~~(1#64 <<< n)
    faulted := if n = 0 ∧ c.inh = false then c.faulted else dropAt c.faulted n }
/-- A register becomes pending on THR or GET, whose park has reason threshold (R128). -/
def Ctx.setPendingThr (c : Ctx) (n : Nat) : Ctx :=
  let c := c.setPending n
  { c with thrMarks := c.thrMarks ||| (1#64 <<< n) }
/-- A pending mark clears. -/
def Ctx.clearPending (c : Ctx) (n : Nat) : Ctx := { c with pending := c.pending &&& ~~~(1#64 <<< n) }

/-- The classes of the tables of R151, R178, R215, R239, R269, R285, R293, R318 and R321. -/
def clsArith : Cls := { rep := true, fmt := false, row := true, hinge := true }
def clsPlain : Cls := { rep := false, fmt := false, row := true, hinge := true }
/-- Allowed in a row handler and outside the hinge subset (R307). -/
def clsMisc : Cls := { clsPlain with hinge := false }
def clsTaskOnly : Cls := { rep := false, fmt := false, row := false, hinge := false }

end Sys2Proof.Machine
end

