-- ==== Sys2Proof/Machine/Paging.lean ====
section
/-! DEFINITION. Addresses: the local window's rights (R27), cached
translations (R40-R43), groups (R39) and the checks of R43 that a core's access passes at issue. -/

namespace Sys2Proof.Machine

/-- A cached translation (R40). -/
def findTlb (l : List TlbEntry) (slot va : Nat) : Option TlbEntry :=
  l.find? fun e => e.slot == slot && decide (e.va ≤ va) && decide (va < e.va + e.size)

/-- A translation that a requester of kind `kind` at `place` has (R40, R41). -/
inductive Looked where
  | hit (e : TlbEntry)
  | miss
  | bad (reason : Nat)
  deriving DecidableEq, Repr

/-- The TLB of a requester (R40). -/
def State.tlbOf (s : State) (kind place : Nat) : List TlbEntry :=
  if kind = 0 then (s.core place).tlb else if kind = 1 then (s.core place).copyTlb else (s.quad place).tlb

/-- The part of an address that names its walk. -/
def pageOf (va : Nat) : Nat := va / 2 ^ 17 * 2 ^ 17

/-- Looks a global address up: a hit, a miss, or the failure of a walk that has completed. -/
def State.lookup (s : State) (kind place ctx slot va : Nat) : Looked :=
  if 2 ^ 48 ≤ va ∨ va < 0x100000000000 then .bad 2
  else match findTlb (s.tlbOf kind place) slot va with
    | some e => .hit e
    | none =>
      match s.walkFails.find? fun f => f.asker == { kind := kind, place := place, ctx := ctx } && f.slot == slot &&
          f.va == pageOf va with
      | some f => .bad f.reason
      | none => .miss

/-- The die whose walker serves a requester (R40). -/
def Asker.die (a : Asker) : Nat := if a.kind = 2 then tileDie (quadTile a.place 0) else coreDie a.place

/-- A miss goes to the requester's walker; one to a page whose walk is in progress joins it (R41) (DEDUCED, log entry 72). -/
def State.ask (s : State) (a : Asker) (slot va : Nat) : State :=
  match s.walks.find? fun w => w.die == a.die && w.slot == slot && w.va == pageOf va with
  | none => { s with walks := s.walks ++ [{ die := a.die, slot := slot, va := pageOf va, askers := [a] }] }
  | some w =>
    if w.askers.contains a then s
    else { s with walks := s.walks.map fun k => if k = w then { w with askers := w.askers ++ [a] } else k }

/-! A core's access (R43). -/

/-- How an access uses the rights of R39. -/
inductive AKind where
  /-- limited to the page's group -/
  | own
  /-- rdall opens it to any group -/
  | anyGroup
  deriving DecidableEq, Repr

/-- Where an access goes: the entry, the address, and the byte's package, number and home. -/
structure Spot where
  e : TlbEntry
  va : Nat
  pkg : Nat
  pa : Nat
  home : Nat
  deriving DecidableEq, Repr

/-- The byte of an entry's page at an address. -/
def TlbEntry.spot (e : TlbEntry) (va : Nat) : Option Spot :=
  let p := e.addr + (va - e.va)
  match physOf e.space (p % 2 ^ 39) with
  | none => none
  | some k => some { e := e, va := va, pkg := p / 2 ^ 39, pa := k, home := homeOf k }

/-- Where the buffers of a spot's home lie (R218): its 4 KiB block on an interleaved page, else its page. -/
def Spot.chain (p : Spot) : Chain :=
  if p.e.space = 0 then { base := p.pa / 4096 * 4096, len := 4096, width := p.e.width }
  else { base := p.pa - (p.va - p.e.va), len := p.e.size, width := p.e.width }

/-- The outcome of a check. -/
inductive Chk where
  | ok (p : Spot)
  | miss (va : Nat)
  | trap (cause : Nat) (tval : Word)
  deriving DecidableEq, Repr

/-- tval of a failed translation (R44). -/
def xlatTval (reason va : Nat) : Word := BitVec.ofNat 64 (reason * 2 ^ 48 + va % 2 ^ 48)

/-- A cell type is lattice memory (R28). -/
def isLattice (ty : Nat) : Bool := decide (1 ≤ ty) && decide (ty ≤ 0xA)

/-- An access of group and tile to a page is allowed (R39). -/
def TlbEntry.allows (e : TlbEntry) (group tile : Nat) (k : AKind) : Bool :=
  if e.ctype = 0 then e.owner == tileWord tile
  else e.group == group || (e.rdall && isLattice e.ctype && decide (k = .anyGroup))

/-- The mirror of a physical number: tile (X + 16, Y) and stack s + 2 (R357). -/
def mirrorPa (pa : Nat) : Nat := if pa < 2 ^ 40 then pa + 16 * 2 ^ 22 else pa + 2 * 2 ^ 36

/-- A spot as the mirror of a twin-mode command reaches it (R357). -/
def Spot.mirror (p : Spot) (on : Bool) : Spot :=
  if on then { p with pa := mirrorPa p.pa, home := homeOf (mirrorPa p.pa) } else p

/-- The group that an access carries and its tile for the owner test, which the mirror half takes from its
twin (R39, R357). -/
def State.twinTile (s : State) (slot tile : Nat) : Nat := if s.inMirror slot tile then tile - 16 else tile

/-- Steps 2 and 3 of R43 for an access whose page is known. -/
def State.checkPage (s : State) (slot group tile va : Nat) (align : TlbEntry → Nat) (k : AKind) (e : TlbEntry) : Chk :=
  if va % align e ≠ 0 then .trap 0x04 (BitVec.ofNat 64 va)
  else if !e.allows group (s.twinTile slot tile) k then .trap 0x0F (BitVec.ofNat 64 va)
  else match e.spot va with
    | none => .trap 0x05 (xlatTval 4 va)
    | some p => .ok (p.mirror (s.inMirror slot tile))

/-- Steps 1 to 3 of R43 in the global window, for a requester. -/
def State.checkFor (s : State) (kind place ctx slot group tile : Nat) (va : Nat) (align : TlbEntry → Nat) (k : AKind) : Chk :=
  match s.lookup kind place ctx slot va with
  | .miss => .miss va
  | .bad r => .trap 0x05 (xlatTval r va)
  | .hit e => s.checkPage slot group tile va align k e

/-- The same checks by a walk of the tables, for a home or the front end. -/
def State.checkWalk (s : State) (slot group tile va : Nat) (align : TlbEntry → Nat) (k : AKind) : Chk :=
  match s.walk slot va with
  | .error r => .trap 0x05 (xlatTval r va)
  | .ok e => s.checkPage slot group tile va align k e

/-- Steps 1 to 3 of R43 for the issuing context. -/
def State.check (s : State) (va : Nat) (align : TlbEntry → Nat) (k : AKind) : Chk :=
  s.checkFor 0 s.cur s.curCtx s.ctx.slot s.ctx.group s.ownTile va align k

/-- An address lies in the local window (R24). -/
def isLocal (a : Nat) : Bool := decide (a < 0x400000)

/-- The context may use only a handler frame in the local window (R215, R284). -/
def State.frameOnly (s : State) : Bool :=
  match s.ctx.role with
  | .hinge .. => true
  | _ => false

/-- R27: the rights of one local byte. -/
def localRight (xb ctx : Nat) (frameOnly store : Bool) (a : Nat) : Bool :=
  if frameOnly then decide (0x180000 ≤ a) && decide (a < 0x188000)
  else if a < 0x100000 then !store || decide (xb ≤ a)
  else if a < 0x180000 then decide ((a - 0x100000) / 0x20000 = ctx)
  else if a < 0x188000 then decide (ctx = 4)
  else false

/-- R27: the issuing context may access `n` local bytes from `a`. -/
def State.localOk (s : State) (a n : Nat) (store : Bool) : Bool :=
  isLocal (a + n - 1) && localRight s.me.xb.toNat s.curCtx s.frameOnly store a &&
  localRight s.me.xb.toNat s.curCtx s.frameOnly store (a + n - 1)

/-- Cause 0x05 with reason 0x5, access kind (R27, R33). -/
def kindTrap (va : Nat) : Nat × Word := (0x05, xlatTval 5 va)

/-- The size of a cell in bytes: a scalar's width, KSET's 8-byte words, a whole ONCET tile (R28). -/
def cellBytes (ty width : Nat) : Nat :=
  match ty with
  | 8 => if width = 0 then 64 else if width = 1 then 128 else if width = 2 then 1024 else 4096
  | 0xA => 64
  | 0xC => 1
  | _ => 2 ^ width

/-- The layout of a KSET image (R31): count and overflow, keys ascending, the rest zero. -/
def ksetOk (ws : List Word) : Bool :=
  let w0 := wordAt ws 0
  let n := Word.field w0 2 0
  let keys := (ws.drop 1).take n
  let rising := ((keys.zip (keys.drop 1)).all fun p => decide (p.1.toNat < p.2.toNat))
  if w0.getLsbD 63 then w0 == 0x8000000000000000 && (ws.drop 1).all (· == 0)
  else Word.field w0 62 3 == 0 && rising && (ws.drop (1 + n)).all (· == 0)

/-- Step 4 of R43 for a store of `n` bytes (R31, R32, R193): the trap, if any. -/
def TlbEntry.storeTrap (e : TlbEntry) (va n : Nat) (data : List Byte) (hinge : Bool) : Option (Nat × Word) :=
  match e.ctype with
  | 0 => none
  | 0xC => some (kindTrap va)
  | 0xB => if hinge then some (kindTrap va) else some (0x10, BitVec.ofNat 64 va)
  | 8 => if n = 64 ∧ e.width = 0 then none else some (0x08, BitVec.ofNat 64 va)
  | 0xA =>
    if n = 8 then none
    else if n ≠ 64 then some (0x08, BitVec.ofNat 64 va)
    else if ksetOk (bytesWords data) then none else some (0x0B, BitVec.ofNat 64 va)
  | _ => if n = 2 ^ e.width then none else some (0x08, BitVec.ofNat 64 va)

/-- Step 4 of R43 for a load (R33, R215). -/
def TlbEntry.loadTrap (e : TlbEntry) (va : Nat) (hinge : Bool) : Option (Nat × Word) :=
  if e.ctype = 0xC ∨ (hinge ∧ e.ctype = 0xB) then some (kindTrap va) else none

/-- The issuing context runs a hinge handler. -/
def State.inHinge (s : State) : Bool := s.frameOnly

/-- The fill of a TLB (R40): the newest entry first, the oldest dropped beyond the capacity
(DEDUCED, log entry 72). -/
def fillTlb (cap : Nat) (l : List TlbEntry) (e : TlbEntry) : List TlbEntry := (e :: l).take cap

/-- A successful walk enters its requester's TLB; a requester that has asked twice has one entry. -/
def State.fill (s : State) (a : Asker) (e : TlbEntry) : State :=
  let c := s.core a.place
  let q := s.quad a.place
  if (s.tlbOf a.kind a.place).contains e then s
  else if a.kind = 0 then s.setCore a.place { c with tlb := fillTlb 64 c.tlb e }
  else if a.kind = 1 then s.setCore a.place { c with copyTlb := fillTlb 32 c.copyTlb e }
  else s.setQuad a.place { q with tlb := fillTlb 128 q.tlb e }

/-- The session under whose key a page of a slot's context is encrypted: that of a confidential stack page (R38). -/
def State.keyOf (s : State) (slot : Nat) (e : TlbEntry) : Option Word :=
  if e.conf && e.space != 2 then (look {} s.queues slot).session else none

/-- The page whose accesses keep one context's order: a PRIV page, its base plus one (R194). -/
def TlbEntry.privPage (e : TlbEntry) : Nat := if e.ctype = 0 then e.va + 1 else 0

/-- A message of the issuing context to a spot: its colour, group and lane (R13, R286, R287). -/
def State.msgTo (s : State) (p : Spot) (b : Body) : Msg :=
  { iss := s.issuer, more := [], pkg := p.pkg, home := p.home, colour := s.ctx.colour,
    group := s.ctx.group, cmd := 0, body := b, lane := s.lane, page := p.e.privPage, key := s.keyOf s.ctx.slot p.e }

/-- A miss parks the context with reason translation (R43). -/
def State.miss (s : State) (va : Nat) : Eff := .stay (.xlate (pageOf va)) (s.ask { kind := 0, place := s.cur, ctx := s.curCtx } s.ctx.slot va)

/-- The effect that a check allows. -/
def State.withSpot (s : State) (c : Chk) (f : Spot → Eff) : Eff :=
  match c with
  | .ok p => f p
  | .miss va => s.miss va
  | .trap cause tval => .trap cause tval s

end Sys2Proof.Machine
end

