-- ==== Sys2Proof/Machine/Operands.lean ====
section
/-! DEFINITION. Operand forms: immediates (R95), effective addresses, targets of transfers (R89), and the
issue of instructions of one shape. -/

namespace Sys2Proof.Machine

/-- A signed 12-bit immediate (R95, R134). -/
def simm (i : BitVec 12) : Word := i.signExtend 64

/-- The address of a load or store (R192): base plus signed byte offset, modulo 2^64. -/
def Ctx.ea (c : Ctx) (a : Reg) (i : BitVec 12) : Word := c.rx a + simm i

/-- The address of VLD and VST (R103): the offset counts 64 bytes. -/
def Ctx.eaV (c : Ctx) (a : Reg) (i : BitVec 12) : Word := c.rx a + simm i * 64

/-- A relative target (R95): the instruction's own address plus the offset in words. -/
def Ctx.rel {n : Nat} (c : Ctx) (o : BitVec n) : Word := c.pc + o.signExtend 64 * 4

/-- A target lies in the local window (R89). -/
def inWindow (t : Word) : Bool := decide (t.toNat ≤ 0x3FFFFF)

/-- A taken relative transfer with what is written before it (R89, R139). -/
def State.goto (s : State) (t : Word) (f : Ctx → Ctx) : Eff :=
  if inWindow t then .jump t (s.setCtx (f s.ctx)) else .trap 0x03 t s

/-- The issue of an instruction of the arithmetic class that writes x[d] from x[a] and x[b]. -/
def State.alu3 (s : State) (i : Instr) (h : Head) (d a b : Reg) (f : Word → Word → Word) : Out :=
  .next (s.run clsArith i h true [ux a, ux b, ux d] fun s =>
    .done (s.setCtx (s.ctx.wx d (f (s.ctx.rx a) (s.ctx.rx b)))))

/-- The issue of an instruction of the arithmetic class that writes x[d] from x[a]. -/
def State.alu2 (s : State) (i : Instr) (h : Head) (d a : Reg) (f : Word → Word) : Out :=
  .next (s.run clsArith i h true [ux a, ux d] fun s => .done (s.setCtx (s.ctx.wx d (f (s.ctx.rx a)))))

/-- The issue of a predicate instruction (R136). -/
def State.pred (s : State) (i : Instr) (h : Head) (d : BitVec 3) (uses : List Nat) (f : Ctx → Bool) : Out :=
  .next (s.run clsPlain i h true uses fun s => .done (s.setCtx (s.ctx.wp d (f s.ctx))))

/-- The issue of a conditional branch (R137, R138). -/
def State.branch (s : State) (i : Instr) (h : Head) (uses : List Nat) (o : BitVec 12) (f : Ctx → Bool) : Out :=
  .next (s.run clsPlain i h true uses fun s =>
    if f s.ctx then s.goto (s.ctx.rel o) id else .done s)

/-! Channel registers as sources (R118, R179, R314). -/

/-- The port that a bound channel register reads. -/
def Ctx.portOf (c : Ctx) (v : Nat) : Nat := Word.field c.chb (8 * (v - 28) + 1) (8 * (v - 28))

/-- The packet that a port releases next (R314). -/
def Port.head (p : Port) : Option Packet :=
  match p.bound with
  | some (_, _, true, _) => p.pkts.find? fun k => k.rank == p.next
  | _ => p.pkts.head?

/-- The port behind a pop: a ranked one advances its rank (R314). -/
def Port.pop (p : Port) : Port :=
  match p.bound with
  | some (_, _, true, n) =>
    { p with
      pkts := p.pkts.eraseP fun k => k.rank == p.next
      next := if p.next + 1 < n then p.next + 1 else 0 }
  | _ => { p with pkts := p.pkts.tail }

/-- Port `p` of a core. -/
def CoreSt.port (c : CoreSt) (p : Nat) : Port := c.ports[p]?.getD {}
/-- The core with a port replaced. -/
def CoreSt.setPort (c : CoreSt) (p : Nat) (q : Port) : CoreSt := { c with ports := c.ports.setIfInBounds p q }

/-- The ports that an instruction pops: those of the bound channels among its sources, each once. -/
def Ctx.channelPorts (c : Ctx) (srcs : List Reg) : List Nat :=
  ((srcs.filter fun r => c.bound r.toNat).map fun r => c.portOf r.toNat).eraseDups

/-- A bound channel as a destination, or as a source in a capture, is illegal (R118, R129). -/
def Ctx.channelsLegal (c : Ctx) (dsts srcs : List Reg) : Bool :=
  !(dsts.any fun r => c.bound r.toNat) && !(c.rep && srcs.any fun r => c.bound r.toNat)

/-- v[r] as a source: the packet at the head of a bound channel, or the register. -/
def State.sourceV (s : State) (r : Reg) : Vec :=
  let c := s.ctx
  if c.bound r.toNat then
    match (s.me.port (c.portOf r.toNat)).head with
    | some k => k.data
    | none => 0
  else c.rv r

/-- The named channels popped. -/
def State.popPorts (s : State) (ps : List Nat) : State :=
  ps.foldl (fun s p => s.setMe (s.me.setPort p (s.me.port p).pop)) s

/-- An effect that has completed also pops its channels; one that traps or parks pops nothing (R179). -/
def Eff.popping (e : Eff) (ps : List Nat) : Eff :=
  match e with
  | .done s => .done (s.popPorts ps)
  | .jump t s => .jump t (s.popPorts ps)
  | .skip t s => .skip t (s.popPorts ps)
  | .left s => .left (s.popPorts ps)
  | e => e

/-- An instruction that reads vector registers: it issues when every bound channel that it names holds a
packet, and pops each once (R179). -/
def State.reading (s : State) (srcs : List Reg) (f : (Reg → Vec) → Eff) : Eff :=
  let ps := s.ctx.channelPorts srcs
  match ps.find? fun p => !(s.me.port p).ready with
  | some p => .stay (.chan p) s
  | none => (f s.sourceV).popping ps

end Sys2Proof.Machine
end

