-- ==== Sys2Proof/Machine/Flags.lean ====
section
/-! DEFINITION. The sticky flags of fflags (R121, R171) and arithmetic exceptions (R172). -/

namespace Sys2Proof.Machine

/-- A set of flags, in the order of fflags[5:0]. -/
abbrev FlagSet := BitVec 6

/-- invalid -/
def flagNv : FlagSet := 0x01
/-- divide by zero -/
def flagDz : FlagSet := 0x02
/-- overflow -/
def flagOf : FlagSet := 0x04
/-- underflow -/
def flagUf : FlagSet := 0x08
/-- inexact -/
def flagNx : FlagSet := 0x10
/-- saturated -/
def flagSat : FlagSet := 0x20

/-- A flag when a condition holds. -/
def FlagSet.on (b : Bool) (f : FlagSet) : FlagSet := if b then f else 0

/-- The trap enables, fflags[13:8]. -/
def Ctx.enables (c : Ctx) : FlagSet := c.fflags.extractLsb' 8 6

/-- Flags set; they are sticky (R121). -/
def Ctx.setFlags (c : Ctx) (f : FlagSet) : Ctx := { c with fflags := c.fflags ||| f.setWidth 64 }

/-- An operation of the core that raises flags `f` (R172): with an enabled one among them it writes nothing
and traps, else the flags are set and `k` writes the result. -/
def State.withFlags (s : State) (f : FlagSet) (k : Ctx → Ctx) : Eff :=
  if f &&& s.ctx.enables ≠ 0 then .trap 0x12 (f.setWidth 64) s
  else .done (s.setCtx (k (s.ctx.setFlags f)))

end Sys2Proof.Machine
end

