-- ==== Sys2Proof/Machine/Cells.lean ====
section
/-! DEFINITION. What a home does with its memory: poison (R358), joins (R28-R31, R199), the state of cell
blocks (R33, R211), thresholds (R201-R204), mailboxes (R326-R331) and latches (R205-R207). -/

namespace Sys2Proof.Machine

/-! Poison (R358). -/

/-- The size of the poisoned unit at `u`. -/
def poisonSize (u : Nat) : Nat := if u < 2 ^ 40 then 8 else 32

/-- Unit `u` lies wholly within `n` bytes from `pa`. -/
def covers (pa n u : Nat) : Bool := decide (pa ≤ u) && decide (u + poisonSize u ≤ pa + n)

/-- Bytes written: a whole unit written loses its poison. -/
def State.poke (s : State) (pa : Nat) (bs : List Byte) : State :=
  { s with
    mem := writeBytes s.mem pa bs
    poison := s.poison.filter fun u => !covers pa bs.length u }

/-- A write of `n` bytes from `pa` meets a poisoned unit that it does not cover. -/
def State.partPoison (s : State) (pa n : Nat) : Bool :=
  s.poison.any fun u => decide (u < pa + n) && decide (pa < u + poisonSize u) && !covers pa n u

/-! Joins (R28-R31). -/

/-- The order key of FMAX (R29). -/
def fmaxKey (w b : Nat) : Nat := if b.testBit (w - 1) then 2 ^ w - 1 - b else b ^^^ 2 ^ (w - 1)

/-- The order key of SMAX. -/
def smaxKey (w b : Nat) : Nat := b ^^^ 2 ^ (w - 1)

/-- The join of a scalar type over cells of `w` bits (R28). -/
def joinScalar (ty w old v : Nat) : Nat :=
  match ty with
  | 1 | 9 => max old v
  | 2 => if smaxKey w old < smaxKey w v then v else old
  | 3 => min old v
  | 4 => if fmaxKey w old < fmaxKey w v then v else old
  | 5 => old ||| v
  | 6 => min (old + v) (2 ^ w - 1)
  | _ => old

/-- The bottom of a type over cells of `w` bits (R28). -/
def bottomScalar (ty w : Nat) : Nat :=
  match ty with
  | 2 => 2 ^ (w - 1)
  | 3 | 4 => 2 ^ w - 1
  | _ => 0

/-- The overflowed set (R31). -/
def ksetTop : List Word := 0x8000000000000000 :: List.replicate 7 0

/-- The keys of a set's image. -/
def ksetKeys (ws : List Word) : List Nat := ((ws.drop 1).take (Word.field (wordAt ws 0) 2 0)).map (·.toNat)

/-- A key put into an ascending list without repeats. -/
def insertKey (k : Nat) : List Nat → List Nat
  | [] => [k]
  | j :: r => if k < j then k :: j :: r else if k = j then j :: r else j :: insertKey k r

/-- The image of a set of at most 7 keys. -/
def ksetImage (ks : List Nat) : List Word :=
  BitVec.ofNat 64 ks.length :: (ks.map (BitVec.ofNat 64 ·)) ++ List.replicate (7 - ks.length) 0

/-- Set union with an image (R31): the cell's words and whether set overflow is reported. -/
def joinKset (old image : List Word) : List Word × Bool :=
  if !ksetOk image then (ksetTop, true)
  else if (wordAt old 0).getLsbD 63 || (wordAt image 0).getLsbD 63 then (ksetTop, false)
  else
    let u := (ksetKeys image).foldl (fun l k => insertKey k l) (ksetKeys old)
    if 7 < u.length then (ksetTop, true) else (ksetImage u, false)

/-- The first byte of the cell that holds physical byte `pa`. -/
def cellBase (ty width pa : Nat) : Nat := pa / cellBytes ty width * cellBytes ty width

/-- The state bits of a ONCE cell or an ONCET tile (R30): 0 EMPTY, 1 FULL, 2 CONFLICT. -/
def State.onceAt (s : State) (cell : Nat) : Nat := look 0 s.once cell

/-- `n` bytes from `pa` on a page of a cell type: those of an EMPTY cell read zero (R30). -/
def State.readCells (s : State) (pa ty width n : Nat) : List Byte :=
  if ty = 7 ∨ ty = 8 then
    (List.range n).map fun i => if s.onceAt (cellBase ty width (pa + i)) = 0 then 0 else readByte s.mem (pa + i)
  else readBytes s.mem pa n

/-- The VA of the cell that an access names. -/
def cellVa (ty width va : Nat) : Nat := va / cellBytes ty width * cellBytes ty width

/-- A fill of a ONCE cell or an ONCET tile (R30). -/
def State.fillOnce (s : State) (cell : Nat) (data : List Byte) : State × Option Nat :=
  let n := data.length
  if s.onceAt cell = 0 then ({ s.poke cell data with once := put 0 s.once cell 1 }, none)
  else if s.onceAt cell = 1 && readBytes s.mem cell n == data then (s, none)
  else ({ s.poke cell (List.replicate n 0xFF) with once := put 0 s.once cell 2 }, some 0x21)

/-- The join of data into the cell at `pa` (R199), with the cause that it reports. -/
def State.joinCell (s : State) (pa ty width : Nat) (data : List Byte) : State × Option Nat :=
  let n := cellBytes ty width
  let cell := cellBase ty width pa
  if s.poisoned cell n then (s, some 0x28)
  else match ty with
    | 7 | 8 => s.fillOnce cell data
    | 0xA =>
      let image := if data.length = 8 then ksetImage [bytesNat data] else bytesWords data
      let r := joinKset (bytesWords (readBytes s.mem cell 64)) image
      (s.poke cell (wordsBytes r.1), if r.2 then some 0x22 else none)
    | _ => (s.poke cell (natBytes n (joinScalar ty (8 * n) (readNat s.mem cell n) (bytesNat data))), none)

/-! Cell blocks. -/

/-- The state of the 4 KiB block that holds a byte. -/
def State.block (s : State) (pa : Nat) : Block := look {} s.blocks (pa / 4096)
/-- The state with that block replaced. -/
def State.setBlock (s : State) (pa : Nat) (b : Block) : State := { s with blocks := put {} s.blocks (pa / 4096) b }

/-- The bytes of a block at bottom (R46, R213). -/
def bottomBlock (ty width : Nat) : List Byte :=
  let n := cellBytes ty width
  (List.replicate (4096 / n) (natBytes n (if isLattice ty && ty ≠ 0xA && ty ≠ 8 then bottomScalar ty (8 * n) else 0))).flatten

/-- The block of a byte at bottom: its ONCE states and mailbox counters return to zero, the block opens and
its generation is discarded (R213, R328, R360). -/
def State.clearBlock (s : State) (pa ty width : Nat) : State :=
  let k := pa / 4096
  let s := s.poke (k * 4096) (bottomBlock ty width)
  { s with
    once := s.once.filter fun e => e.1 / 4096 != k
    mboxes := s.mboxes.filter fun e => e.1 / 4096 != k
    blocks := dropAt s.blocks k }

/-! Thresholds and mailboxes. -/

/-- A cell's value passes a member (R203). -/
def passes (ty w value t : Nat) : Bool :=
  match ty with
  | 2 => decide (smaxKey w t ≤ smaxKey w value)
  | 3 => decide (value ≤ t)
  | 4 => decide (fmaxKey w t ≤ fmaxKey w value)
  | 5 => value &&& t == t
  | _ => decide (t ≤ value)

/-- The cell at `cell` passes member `t` (R203). -/
def State.cellPasses (s : State) (ty width cell t : Nat) : Bool :=
  let n := cellBytes ty width
  match ty with
  | 7 => s.onceAt cell == 1 && readNat s.mem cell n == t
  | 0xA =>
    let ws := bytesWords (readBytes s.mem cell 64)
    (wordAt ws 0).getLsbD 63 || (ksetKeys ws).contains t
  | _ => passes ty (8 * n) (readNat s.mem cell n) t

/-- A mailbox's header (R326). -/
structure MboxHead where
  depth : Nat
  damp : Nat
  dim : Nat
  deriving DecidableEq, Repr

/-- The header at `h`, when it is well formed (R326). -/
def State.mboxHead (s : State) (h : Nat) : Option MboxHead :=
  let ws := bytesWords (readBytes s.mem h 128)
  let w := wordAt ws 0
  let lgd := Word.field w 17 16
  let dim := Word.field w 2 0
  let depth := 2 ^ lgd
  if s.onceAt h = 1 ∧ Word.field w 63 60 = 0xC ∧ Word.field w 59 18 = 0 ∧ lgd ≠ 0 ∧ Word.field w 7 3 = 0 ∧
      1 ≤ dim ∧ dim ≤ 6 ∧ (ws.drop 1).all (· == 0) ∧ h % 4096 + 128 * (1 + depth) ≤ 4096
  then some { depth := depth, damp := Word.field w 15 8, dim := dim }
  else none

/-- GSND's reservation at the home (R328, R329). -/
def State.reserve (s : State) (l : Latch) (m : MboxHead) : State × Option Answer :=
  let k := look {} s.mboxes l.pa
  if (s.block l.pa).bolted then (s, some (.fault 0x09 l.va 0))
  else if (k.pv + 2 ^ 32 - k.cv) % 2 ^ 32 < m.depth then
    ({ s with mboxes := put {} s.mboxes l.pa { k with pv := (k.pv + 1) % 2 ^ 32 } }, some (.version k.pv m.dim m.depth))
  else (s, none)

/-- GRCV's delivery at the home (R328, R330); a poisoned slot is delivered as zeros, with a report (R335, R358)
(DEDUCED, log entry 20). -/
def State.deliverSlot (s : State) (l : Latch) (m : MboxHead) : State × Option Answer :=
  let k := look {} s.mboxes l.pa
  let off := 128 * (1 + k.cv % m.depth)
  let w : Word := BitVec.ofNat 64 (readNat s.mem (l.pa + off) 8)
  if (s.block l.pa).bolted then (s, some (.fault 0x09 l.va 0))
  else if s.onceAt (l.pa + off) = 2 then (s, some (.fault 0x13 (l.va + off) 0))
  else if s.onceAt (l.pa + off) = 0 then (s, none)
  else if s.poisoned (l.pa + off) 128 then
    let s := (s.poke (l.pa + off) (List.replicate 128 0)).report l.iss 0x28 l.colour (BitVec.ofNat 64 (l.va + off))
    ({ s with
        once := put 0 s.once (l.pa + off) 0
        mboxes := put {} s.mboxes l.pa { k with cv := (k.cv + 1) % 2 ^ 32 } }, some (.slot (List.replicate 128 0)))
  else if Word.field w 63 32 ≠ k.cv ∨ Word.field w 2 0 ≠ m.dim then (s, some (.fault 0x0B (l.va + off) 0))
  else
    let bytes := readBytes s.mem (l.pa + off) 128
    let s := s.poke (l.pa + off) (List.replicate 128 0)
    ({ s with
        once := put 0 s.once (l.pa + off) 0
        mboxes := put {} s.mboxes l.pa { k with cv := (k.cv + 1) % 2 ^ 32 } }, some (.slot bytes))

/-- What a home decides about a request at its place in the serial order: an answer, or none while it waits
(R149, R201, R204, R329-R331).  A poisoned cell passes nothing (R358). -/
def State.decideAt (s : State) (l : Latch) : State × Option Answer :=
  let cell := cellBase l.ty l.width l.pa
  let bolted := (s.block l.pa).bolted
  let waits : Option Answer := if bolted then some (.fault 0x09 l.va 0) else none
  let bad := s.poisoned cell (cellBytes l.ty l.width)
  if bad then (s, waits) else
  match l.want with
  | .get size =>
    if s.onceAt cell = 2 then (s, some (.fault 0x13 l.va 0))
    else if s.onceAt cell = 1 then (s, some (.word (BitVec.ofNat 64 (readNat s.mem l.pa size))))
    else (s, waits)
  | .thr ts =>
    if l.ty = 7 ∧ s.onceAt cell = 2 then (s, some (.fault 0x13 l.va 0))
    else match ts.findIdx? fun t => s.cellPasses l.ty l.width cell t with
      | some i => (s, some (.word (BitVec.ofNat 64 i)))
      | none => (s, waits)
  | .join c =>
    if s.cellPasses l.ty l.width cell c then (s, some .pass)
    else (s, waits)
  | .gsnd =>
    match s.mboxHead l.pa with
    | none => (s, some (.fault 0x0B l.va 0))
    | some m => s.reserve l m
  | .grcv =>
    match s.mboxHead l.pa with
    | none => (s, some (.fault 0x0B l.va 0))
    | some m => s.deliverSlot l m
  | .gdmp =>
    match s.mboxHead l.pa with
    | none => (s, some (.fault 0x0B l.va 0))
    | some m => (s, some (.damp m.damp))

/-! Latches (R205, R206). -/

/-- A request of a mailbox instruction. -/
def Want.mailbox : Want → Bool
  | .gsnd | .grcv | .gdmp => true
  | _ => false

/-- The answer to a request on its way to the waiter. -/
def State.wakeWaiter (s : State) (l : Latch) (a : Answer) : State :=
  s.send { iss := l.iss, more := [], pkg := l.iss.task.pkg, home := l.iss.task.core, colour := 8, group := l.group, cmd := 0,
           body := if l.want.mailbox then .mreply a else .wake { isV := false, reg := l.reg } a }

/-- Places of a home's latch table and of its overflow list (R205). -/
def latchRoom (home : Nat) : Nat × Nat := if home < 4096 then (512, 2048) else (128, 32768)

/-- Latches of a home at a place. -/
def State.latchCount (s : State) (home place : Nat) : Nat :=
  (s.latches.filter fun l => l.home == home && l.place == place).length

/-- The place that a new latch of a home finds: the table, the overflow list, or the request queue. -/
def State.latchPlace (s : State) (home : Nat) : Nat :=
  if s.latchCount home 0 < (latchRoom home).1 then 0
  else if s.latchCount home 1 < (latchRoom home).2 then 1
  else 2

/-- A latch made (R205); one that finds no place reports spill exhausted once. -/
def State.addLatch (s : State) (l : Latch) : State :=
  let place := s.latchPlace l.home
  let s := { s with latches := s.latches ++ [{ l with place := place }] }
  let s := if place = 1 then s.bump 0xCA8 else s
  if place = 2 then (s.bump 0xC98).report l.iss 0x29 8 (BitVec.ofNat 64 (cellVa l.ty l.width l.va)) else s

/-- The oldest overflow entry of a home moves into a free table entry (R205). -/
def promote (home : Nat) : List Latch → List Latch
  | [] => []
  | l :: r => if l.home = home ∧ l.place = 1 then { l with place := 0 } :: r else l :: promote home r

/-- Overflow entries return to the table while it has room; `n` bounds how many. -/
def State.refill (s : State) (home : Nat) : Nat → State
  | 0 => s
  | n + 1 =>
    if s.latchCount home 0 < (latchRoom home).1 ∧ s.latchCount home 1 ≠ 0
    then State.refill { s with latches := promote home s.latches } home n
    else s

/-- The listed latches decided in turn: those that `p` names and that are no longer open go out as wakes. -/
def State.decideAll (s : State) (p : Latch → Bool) : List Latch → State × List Latch
  | [] => (s, [])
  | l :: r =>
    if p l && l.place ≠ 2 then
      match s.decideAt l with
      | (s, some a) => (s.wakeWaiter l a).decideAll p r
      | (s, none) =>
        let q := s.decideAll p r
        (q.1, l :: q.2)
    else
      let q := s.decideAll p r
      (q.1, l :: q.2)

/-- The latches that `p` names decided again, then the reservations of the same block (R206, R330). -/
def State.redecide (s : State) (pa : Nat) (p : Latch → Bool) : State :=
  let a := s.decideAll p s.latches
  let s := { a.1 with latches := a.2 }
  let b := s.decideAll (fun l => decide (l.want = .gsnd) && l.pa / 4096 == pa / 4096) s.latches
  let s := { b.1 with latches := b.2 }
  s.refill (homeOf pa) s.latches.length

/-- The latches that a join into the cell at `cell` concerns: those on the cell, and those of mailboxes in
its block. -/
def Latch.touches (l : Latch) (cell : Nat) : Bool :=
  if l.want.mailbox then l.pa / 4096 == cell / 4096 else cellBase l.ty l.width l.pa == cell

/-- A request served at its home: answered, or latched. -/
def State.serve (s : State) (l : Latch) : State :=
  match s.decideAt l with
  | (s, some a) =>
    let s := s.wakeWaiter l a
    if decide (l.want = .grcv) then s.redecide l.pa fun _ => false else s
  | (s, none) => s.addLatch l

end Sys2Proof.Machine
end

