-- ==== Sys2Proof/Machine/Memory.lean ====
section
/-! DEFINITION. The instructions of private and lattice memory: loads and stores (R191-R198), GET (R201), THR
(R202-R204), BOLT, CLEAR and CTYPE (R210-R214), and FENCE (R291-R293). -/

namespace Sys2Proof.Machine

/-! One access (R43, steps 1 to 4). -/

/-- What the checks of one access say. -/
inductive Acc where
  /-- in the local window -/
  | here
  | there (p : Spot)
  | miss (va : Nat)
  | trap (cause : Nat) (tval : Word)
  deriving DecidableEq, Repr

/-- The checks of an access of `n` bytes; a store comes with its data. -/
def State.access (s : State) (va n : Nat) (data : Option (List Byte)) : Acc :=
  if isLocal va then
    if !s.localOk va n data.isSome then .trap 0x05 (xlatTval 5 va)
    else if va % n ≠ 0 then .trap 0x04 (BitVec.ofNat 64 va)
    else .here
  else match s.check va (fun _ => n) (if data.isSome then .own else .anyGroup) with
    | .miss v => .miss v
    | .trap cause tval => .trap cause tval
    | .ok p =>
      match (match data with
        | some d => p.e.storeTrap va n d s.inHinge
        | none => p.e.loadTrap va s.inHinge) with
      | some t => .trap t.1 t.2
      | none => .there p

/-- Local bytes read for a core: poisoned ones read zero and report 0x28 (R335). -/
def State.readHere (s : State) (va n : Nat) : State × List Byte :=
  let pa := localPa s.cur va
  if s.poisoned pa n then (s.report s.issuer 0x28 s.ctx.colour (BitVec.ofNat 64 va), List.replicate n 0)
  else (s, readBytes s.mem pa n)

/-- Local bytes written by a core; poison that stays is reported (R358). -/
def State.writeHere (s : State) (va : Nat) (bs : List Byte) : State :=
  let pa := localPa s.cur va
  let bad := s.partPoison pa bs.length
  let s := s.poke pa bs
  if bad then s.report s.issuer 0x28 s.ctx.colour (BitVec.ofNat 64 va) else s

/-- The message of a store to a PRIV or a lattice page (R193). -/
def State.storeMsg (s : State) (p : Spot) (bs : List Byte) : Msg :=
  s.msgTo p (if p.e.ctype = 0 then .store p.pa p.va bs
    else .join p.pa p.va p.e.ctype p.e.width bs false)

/-- The effect of an access of `n` bytes that has passed its checks, by where it goes. -/
def State.accessing (s : State) (va n : Nat) (data : Option (List Byte)) (here : Eff) (there : Spot → Eff) : Eff :=
  match s.access va n data with
  | .here => here
  | .there p => there p
  | .miss v => s.miss v
  | .trap cause tval => .trap cause tval s

/-- A loaded value of `n` bytes extended to 64 bits (R191). -/
def extended (signed : Bool) (n v : Nat) : Word :=
  if signed && v.testBit (8 * n - 1) then BitVec.ofNat 64 (v + (2 ^ 64 - 2 ^ (8 * n))) else BitVec.ofNat 64 v

/-- A scalar load (R192). -/
def State.load (s : State) (d : Reg) (a : Word) (n : Nat) (signed : Bool) : Eff :=
  let va := a.toNat
  s.accessing va n none
    (let r := s.readHere va n
     .done (r.1.setCtx (r.1.ctx.wx d (extended signed n (bytesNat r.2)))))
    fun p => .done ((s.setCtx (s.ctx.setPending d.toNat)).send
      (s.msgTo p (.load p.pa va p.e.ctype n p.chain signed (s.dest false d.toNat) 64)))

/-- A store of bytes (R193). -/
def State.store (s : State) (a : Word) (bs : List Byte) : Eff :=
  s.accessing a.toNat bs.length (some bs) (.done (s.writeHere a.toNat bs)) fun p => .done (s.send (s.storeMsg p bs))

/-- The issue of a scalar load. -/
def State.loads (s : State) (i : Instr) (h : Head) (d a : Reg) (o : BitVec 12) (n : Nat) (signed : Bool) : Out :=
  .next (s.run clsPlain i h true [ux a, ux d] fun s => s.load d (s.ctx.ea a o) n signed)

/-- The issue of a scalar store: the base counts as rs1 (R127). -/
def State.stores (s : State) (i : Instr) (h : Head) (d a : Reg) (o : BitVec 12) (n : Nat) : Out :=
  .next (s.run clsPlain i h true [ux a, ux d] fun s =>
    s.store (s.ctx.ea a o) (natBytes n (s.ctx.rx d).toNat))

/-- LB (R192). -/
def execLb (h : Head) (d a : Reg) (i : BitVec 12) (s : State) : Out := s.loads (.lb h d a i) h d a i 1 true
/-- LH (R192). -/
def execLh (h : Head) (d a : Reg) (i : BitVec 12) (s : State) : Out := s.loads (.lh h d a i) h d a i 2 true
/-- LW (R192). -/
def execLw (h : Head) (d a : Reg) (i : BitVec 12) (s : State) : Out := s.loads (.lw h d a i) h d a i 4 true
/-- LD (R192). -/
def execLd (h : Head) (d a : Reg) (i : BitVec 12) (s : State) : Out := s.loads (.ld h d a i) h d a i 8 false
/-- LBU (R192). -/
def execLbu (h : Head) (d a : Reg) (i : BitVec 12) (s : State) : Out := s.loads (.lbu h d a i) h d a i 1 false
/-- LHU (R192). -/
def execLhu (h : Head) (d a : Reg) (i : BitVec 12) (s : State) : Out := s.loads (.lhu h d a i) h d a i 2 false
/-- LWU (R192). -/
def execLwu (h : Head) (d a : Reg) (i : BitVec 12) (s : State) : Out := s.loads (.lwu h d a i) h d a i 4 false
/-- SB (R193). -/
def execSb (h : Head) (d a : Reg) (i : BitVec 12) (s : State) : Out := s.stores (.sb h d a i) h d a i 1
/-- SH (R193). -/
def execSh (h : Head) (d a : Reg) (i : BitVec 12) (s : State) : Out := s.stores (.sh h d a i) h d a i 2
/-- SW (R193). -/
def execSw (h : Head) (d a : Reg) (i : BitVec 12) (s : State) : Out := s.stores (.sw h d a i) h d a i 4
/-- SD (R193). -/
def execSd (h : Head) (d a : Reg) (i : BitVec 12) (s : State) : Out := s.stores (.sd h d a i) h d a i 8

/-! Vector loads and stores (R196-R198). -/

/-- VLD (R196). -/
def State.loadV (s : State) (d : Reg) (a : Word) : Eff :=
  let va := a.toNat
  s.accessing va 64 none
    (let r := s.readHere va 64
     .done (r.1.setCtx (r.1.ctx.wv d (bytesVec r.2))))
    fun p => .done ((s.setCtx (s.ctx.setPending (32 + d.toNat))).send
      (s.msgTo p (.load p.pa va p.e.ctype 64 p.chain false (s.dest true d.toNat) 64)))

/-- VLD (R196). -/
def execVld (h : Head) (d a : Reg) (i : BitVec 12) (s : State) : Out :=
  .next (s.run clsMisc (.vld h d a i) h (s.ctx.channelsLegal [d] []) [ux a, uv d] fun s =>
    s.loadV d (s.ctx.eaV a i))

/-- VST (R196). -/
def execVst (h : Head) (d a : Reg) (i : BitVec 12) (s : State) : Out :=
  .next (s.run clsMisc (.vst h d a i) h (s.ctx.channelsLegal [] [d]) [ux a, uv d] fun s =>
    s.reading [d] fun r => s.store (s.ctx.eaV a i) (vecBytes (r d)))

/-- Element `i` of `w` bits. -/
def elemAt (v : Vec) (w i : Nat) : Nat := v.toNat / 2 ^ (w * i) % 2 ^ w

/-- The vector with element `i` of `w` bits replaced. -/
def putElem (v : Vec) (w i e : Nat) : Vec :=
  let m : Vec := BitVec.ofNat 512 ((2 ^ w - 1) * 2 ^ (w * i))
  (v &&& ~~~m) ||| (BitVec.ofNat 512 (e * 2 ^ (w * i)) &&& m)

/-- One active lane of a VMX instruction: its number, its address and, for a store, its bytes. -/
structure Lane where
  i : Nat
  va : Nat
  data : Option (List Byte)
  deriving DecidableEq, Repr

/-- The active lanes of a VMX instruction of elements of `w` bits (R197). -/
def activeLanes (w : Nat) (m : Word) (addr : Nat → Word) (data : Option Vec) : List Lane :=
  ((List.range (512 / w)).filter fun i => m.getLsbD i).map fun i =>
    { i := i, va := (addr i).toNat, data := data.map fun v => natBytes (w / 8) (elemAt v w i) }

/-- The checks of every lane in ascending order (R198): where each goes, or the first that does not pass. -/
def State.checkLanes (s : State) (n : Nat) : List Lane → Except Acc (List (Lane × Option Spot))
  | [] => .ok []
  | l :: r =>
    match s.access l.va n l.data with
    | .here => (s.checkLanes n r).map ((l, none) :: ·)
    | .there p => (s.checkLanes n r).map ((l, some p) :: ·)
    | a => .error a

/-- The effect of lanes that have passed their checks. -/
def State.withLanes (s : State) (n : Nat) (ls : List Lane) (f : List (Lane × Option Spot) → Eff) : Eff :=
  match s.checkLanes n ls with
  | .ok l => f l
  | .error (.miss v) => s.miss v
  | .error (.trap cause tval) => .trap cause tval s
  | .error _ => .done s

/-- Elements put into a vector. -/
def putElems (v : Vec) (w : Nat) (es : List (Nat × Nat)) : Vec := es.foldl (fun v e => putElem v w e.1 e.2) v

/-- One lane read, or sent for: the state and the values found in the local window. -/
def State.gatherLane (n : Nat) (d : Reg) (r : State × List (Nat × Nat)) (l : Lane × Option Spot) :
    State × List (Nat × Nat) :=
  match l.2 with
  | none =>
    let q := r.1.readHere l.1.va n
    (q.1, r.2 ++ [(l.1.i, bytesNat q.2)])
  | some p =>
    (r.1.send (r.1.msgTo p (.load p.pa l.1.va p.e.ctype n p.chain false (r.1.dest true d.toNat) l.1.i)), r.2)

/-- An element-wise load (R198). -/
def State.gather (s : State) (w : Nat) (d : Reg) (ls : List Lane) : Eff :=
  s.withLanes (w / 8) ls fun l =>
    let r := l.foldl (State.gatherLane (w / 8) d) (s, [])
    let left := (l.filter fun e => e.2.isSome).length
    let c := r.1.ctx
    if left = 0 then .done (if l.isEmpty then s else r.1.setCtx (c.wv d (putElems (c.rv d) w r.2)))
    else .done (r.1.setCtx { c.setPending (32 + d.toNat) with
      gathers := c.gathers ++ [{ reg := d.toNat, width := w, left := left, got := r.2, bad := [] }] })

/-- One lane written, or its store sent. -/
def State.scatterLane (s : State) (l : Lane × Option Spot) : State :=
  match l.2 with
  | none => s.writeHere l.1.va (l.1.data.getD [])
  | some p => s.send (s.storeMsg p (l.1.data.getD []))

/-- An element-wise store, in ascending lane order (R198). -/
def State.scatter (s : State) (w : Nat) (ls : List Lane) : Eff :=
  s.withLanes (w / 8) ls fun l => .done (l.foldl State.scatterLane s)

/-- The element width in bits of a width code. -/
def codeBits (w : BitVec 2) : Nat := 8 * 2 ^ w.toNat

/-- The address of an indexed element (R197). -/
def indexAddr (base : Word) (x : Vec) (w i : Nat) : Word := base + BitVec.ofNat 64 (elemAt x w i * (w / 8))

/-- The address of a strided element (R197). -/
def strideAddr (base stride : Word) (i : Nat) : Word := base + BitVec.ofNat 64 i * stride

/-- VLDX (R198). -/
def execVldx (h : Head) (d a b : Reg) (k : BitVec 3) (w : BitVec 2) (s : State) : Out :=
  .next (s.run clsMisc (.vldx h d a b k w) h (s.ctx.channelsLegal [d] [b]) [ux a, uv b, uv d] fun s =>
    s.reading [b] fun r =>
      s.gather (codeBits w) d (activeLanes (codeBits w) (s.ctx.rk k) (indexAddr (s.ctx.rx a) (r b) (codeBits w)) none))

/-- VSTX (R198). -/
def execVstx (h : Head) (d a b : Reg) (k : BitVec 3) (w : BitVec 2) (s : State) : Out :=
  .next (s.run clsMisc (.vstx h d a b k w) h (s.ctx.channelsLegal [] [b, d]) [ux a, uv b, uv d] fun s =>
    s.reading [b, d] fun r =>
      s.scatter (codeBits w) (activeLanes (codeBits w) (s.ctx.rk k) (indexAddr (s.ctx.rx a) (r b) (codeBits w))
        (some (r d))))

/-- VLDS (R198). -/
def execVlds (h : Head) (d a b : Reg) (k : BitVec 3) (w : BitVec 2) (s : State) : Out :=
  .next (s.run clsMisc (.vlds h d a b k w) h (s.ctx.channelsLegal [d] []) [ux a, ux b, uv d] fun s =>
    s.gather (codeBits w) d
      (activeLanes (codeBits w) (s.ctx.rk k) (strideAddr (s.ctx.rx a) (s.ctx.rx b)) none))

/-- VSTS (R198). -/
def execVsts (h : Head) (d a b : Reg) (k : BitVec 3) (w : BitVec 2) (s : State) : Out :=
  .next (s.run clsMisc (.vsts h d a b k w) h (s.ctx.channelsLegal [] [d]) [ux a, ux b, uv d] fun s =>
    s.reading [d] fun r =>
      s.scatter (codeBits w) (activeLanes (codeBits w) (s.ctx.rk k) (strideAddr (s.ctx.rx a) (s.ctx.rx b))
        (some (r d))))

/-! GET and THR. -/

/-- A format fault at an address (R43, R201-R204). -/
def State.formatTrap (s : State) (a : Word) : Eff := .trap 0x0B a s

/-- A request of the issuing context to a home. -/
def State.request (s : State) (p : Spot) (w : Want) (reg : Nat) : State :=
  s.send (s.msgTo p (.want p.pa p.va p.e.ctype p.e.width w reg))

/-- The alignment that GET asks for (R201). -/
def TlbEntry.getAlign (e : TlbEntry) : Nat := if e.ctype = 7 then 2 ^ e.width else if e.ctype = 8 then 8 else 1

/-- GET (R201). -/
def execGet (h : Head) (d a : Reg) (i : BitVec 12) (s : State) : Out :=
  .next (s.run clsTaskOnly (.get h d a i) h (decide (d ≠ 0)) [ux a, ux d] fun s =>
    let va := s.ctx.ea a i
    if isLocal va.toNat then s.formatTrap va
    else s.withSpot (s.check va.toNat TlbEntry.getAlign .anyGroup) fun p =>
      if p.e.ctype ≠ 7 ∧ p.e.ctype ≠ 8 then s.formatTrap va
      else .done ((s.setCtx (s.ctx.setPendingThr d.toNat)).request p (.get p.e.getAlign) d.toNat))

/-- A threshold read names cells of this type (R203). -/
def thresholdType (ty : Nat) : Bool := isLattice ty && ty ≠ 8

/-- The width of a cell's threshold in bytes, which is also its alignment (R202, R204). -/
def TlbEntry.thrBytes (e : TlbEntry) : Nat :=
  if !thresholdType e.ctype then 1 else if e.ctype = 0xA then 8 else 2 ^ e.width

/-- The later member of the first equal pair. -/
def laterEqual : List Nat → Option Nat
  | [] => none
  | t :: r => if r.contains t then some t else laterEqual r

/-- The tumbler set's own check (R204): the member that is at fault. -/
def badMember (ty : Nat) (ts : List Nat) : Option Nat := if ty = 7 then laterEqual ts else ts[1]?

/-- THR (R204). -/
def execThr (h : Head) (d a b : Reg) (n : BitVec 3) (s : State) : Out :=
  .next (s.run clsTaskOnly (.thr h d a b n) h (decide (d ≠ 0)) [ux a, uv b, ux d] fun s =>
    s.reading [b] fun r =>
      let va := s.ctx.rx a
      if isLocal va.toNat then s.formatTrap va
      else s.withSpot (s.check va.toNat TlbEntry.thrBytes .anyGroup) fun p =>
        if !thresholdType p.e.ctype then s.formatTrap va
        else
          let ts := (List.range (n.toNat + 1)).map fun i => elemAt (r b) (8 * p.e.thrBytes) i
          match badMember p.e.ctype ts with
          | some t => .trap 0x07 (BitVec.ofNat 64 t) s
          | none => .done ((s.setCtx (s.ctx.setPendingThr d.toNat)).request p (.thr ts) d.toNat))

/-! BOLT and CLEAR (R210-R213). -/

/-- The spot of an address by the page tables, for an access whose checks have passed. -/
def State.spotOf (s : State) (slot va : Nat) : Option Spot :=
  match s.walk slot va with
  | .ok e => (e.spot va).map fun p => p.mirror (s.inMirror slot s.cur)
  | .error _ => none

/-- The spots of `n` blocks from `a`. -/
def State.blockSpots (s : State) (a n : Nat) : List Spot :=
  (List.range n).filterMap fun i => s.spotOf s.ctx.slot (a + 4096 * i)

/-- A context parks and keeps how far it has come. -/
def State.parkAt (s : State) (phase : Nat) (w : Wait) : Eff := .stay w (s.setCtx { s.ctx with phase := phase })

/-- The checks of one block (R210). -/
def State.checkBlock (s : State) (va : Nat) : Acc :=
  if isLocal va then .trap 0x0B (BitVec.ofNat 64 va)
  else match s.check va (fun _ => 1) .own with
    | .miss v => .miss v
    | .trap cause tval => .trap cause tval
    | .ok p => if isLattice p.e.ctype then .there p else .trap 0x0B (BitVec.ofNat 64 va)

/-- Blocks from number `i` on checked in ascending order: the first that does not pass, with its number. -/
def State.checkBlocks (s : State) (a : Nat) : Nat → Nat → Option (Nat × Acc)
  | 0, _ => none
  | n + 1, i =>
    match s.checkBlock (a + 4096 * i) with
    | .there _ => s.checkBlocks a n (i + 1)
    | x => some (i, x)

/-- BOLT's and CLEAR's checks (R210), and what follows once all `n` blocks have passed; the phase counts
blocks checked, and beyond `n` the steps that follow. -/
def State.onBlocks (s : State) (a count : Word) (f : Nat → Eff) : Eff :=
  let n := count.toNat
  let ph := s.ctx.phase
  if a.toNat % 4096 ≠ 0 then .trap 0x04 a s
  else if n = 0 ∨ 65536 < n then .trap 0x0B count s
  else match s.checkBlocks a.toNat (n - ph) ph with
    | some (i, .miss v) => (s.ask { kind := 0, place := s.cur, ctx := s.curCtx } s.ctx.slot v).parkAt i (.xlate (pageOf v))
    | some (_, .trap cause tval) => .trap cause tval s
    | _ => f (ph - n)

/-- A message to the home of every spot, each to be acknowledged. -/
def State.sendEach (s : State) (ps : List Spot) (b : Spot → Body) : State :=
  let s := ps.foldl (fun s p => s.send (s.msgTo p (b p))) s
  s.setCtx { s.ctx with acks := ps.length, notes := [] }

/-- The task of the issuing context. -/
def State.myTask (s : State) : TaskId := s.issuer.task

/-- BOLT (R211). -/
def execBolt (h : Head) (a b : Reg) (s : State) : Out :=
  .next (s.run clsTaskOnly (.bolt h a b) h true [ux a, ux b] fun s =>
    let base := s.ctx.rx a
    let n := (s.ctx.rx b).toNat
    s.onBlocks base (s.ctx.rx b) fun step =>
      if step = 0 then
        if s.owes (ofTask s.myTask) 0xFF then s.parkAt n (.fence 0xFF false)
        else
          let ps := s.blockSpots base.toNat n
          (s.sendEach ps fun p => .bolt p.pa p.va p.e.group).parkAt (n + 1) .acks
      else .done s)

/-- The leader on this package of a group, as the tile knows it (R67, R213). -/
def State.isLeader (s : State) (g : Nat) : Bool := s.me.groups.any fun k => k.id == g && k.leader == s.cur

/-- The least of a list of numbers. -/
def least : List Nat → Option Nat
  | [] => none
  | x :: r => some (r.foldl min x)

/-- CLEAR (R213). -/
def execClear (h : Head) (a b : Reg) (s : State) : Out :=
  .next (s.run clsTaskOnly (.clear h a b) h true [ux a, ux b] fun s =>
    let base := s.ctx.rx a
    let n := (s.ctx.rx b).toNat
    s.onBlocks base (s.ctx.rx b) fun step =>
      let ps := s.blockSpots base.toNat n
      if step = 0 then
        if !s.isLeader s.ctx.group then .trap 0x0F base s
        else (s.sendEach ps fun p => .clearCheck p.pa p.va p.e.group p.e.ctype p.e.width).parkAt (n + 1) .acks
      else if step = 1 then
        match least s.ctx.notes with
        | some va => .trap 0x0B (BitVec.ofNat 64 va) s
        | none => (s.sendEach ps fun p => .clearApply p.pa p.va p.e.ctype p.e.width).parkAt (n + 2) .acks
      else .done s)

/-! CTYPE (R214). -/

/-- CTYPE's answer for a translation. -/
def TlbEntry.report (e : TlbEntry) : Word :=
  BitVec.ofNat 64 (e.group * 2 ^ 40 + e.owner * 2 ^ 24 + e.conf.toNat * 2 ^ 13 + e.rdall.toNat * 2 ^ 12 +
    e.sizeCode * 2 ^ 10 + e.space * 2 ^ 8 + e.width * 2 ^ 6 + e.ctype)

/-- CTYPE's answer for no translation. -/
def failReport (reason : Nat) : Word := BitVec.ofNat 64 (2 ^ 63 + reason * 2 ^ 48)

/-- CTYPE's answer for an address: a TLB hit, or what the walk finds. -/
def State.typeReport (s : State) (va : Nat) : Word :=
  if isLocal va then 0x4000000000000000
  else match s.lookup 0 s.cur s.curCtx s.ctx.slot va with
    | .hit e => e.report
    | .bad r => failReport r
    | .miss =>
      match s.walk s.ctx.slot va with
      | .ok e => e.report
      | .error r => failReport r

/-- A message of the issuing context to itself that brings register `reg` its value. -/
def State.selfResult (s : State) (d : Dest) (a : Answer) : Msg :=
  { iss := s.issuer, more := [], pkg := s.pkg, home := s.cur, colour := 8, group := s.ctx.group, cmd := 0, body := .result d a }

/-- CTYPE (R214). -/
def execCtype (h : Head) (d a : Reg) (s : State) : Out :=
  .next (s.run clsPlain (.ctype h d a) h (decide (d ≠ 0)) [ux a, ux d] fun s =>
    .done ((s.setCtx (s.ctx.setPending d.toNat)).send
      (s.selfResult (s.dest false d.toNat) (.word (s.typeReport (s.ctx.rx a).toNat)))))

/-! Surfacing (R342) and FENCE (R291). -/

/-- Causes with an open report in a mask (R342). -/
def FaultCell.openIn (f : FaultCell) (m : Nat) : List (Nat × FaultRow) :=
  f.rows.filter fun r => r.2.opens &&& BitVec.ofNat 9 m ≠ 0

/-- Open reports of a mask closed. -/
def FaultCell.close (f : FaultCell) (m : Nat) : FaultCell :=
  { f with rows := f.rows.map fun r => (r.1, { r.2 with opens := r.2.opens &&& ~~~(BitVec.ofNat 9 m) }) }

/-- Surfacing with colour mask `m` (R342): the reports that surface are closed; what is raised, if anything. -/
def State.surface (s : State) (m : Nat) : State × Option (Nat × Word) :=
  let c := s.ctx
  let m := m % 256 + 256
  if c.inh then (s, none)
  else match c.faults.openIn m with
    | [] => (s, none)
    | (cause, row) :: _ =>
      (s.setCtx { c with faults := c.faults.close m }, if s.me.tvec = 0 then none else some (cause, row.low))

/-- FENCE's effect (R291): the wait for the colours of a mask, then surfacing; the trap's resume address is
the FENCE + 4 (R337), so the FENCE has completed when it is raised. -/
def State.fencing (s : State) (h : Head) (m : Nat) (sys : Bool) : Eff :=
  if m = 0 then .done s
  else if s.owes (ofTask s.myTask) m then .stay (.fence m sys) s
  else
    let r := s.surface m
    let a := s.instrPc
    match r.2 with
    | none => .done r.1
    | some (cause, tval) => .left ((r.1.settle.complete { h with sw := false }).trapAt cause tval (BitVec.ofNat 64 (a + 4)) a)

/-- FENCE (R291). -/
def execFence (h : Head) (m : BitVec 8) (s : State) : Out :=
  .next (s.run clsTaskOnly (.fence h m) h true [] fun s => s.fencing h m.toNat false)

/-- FENCE_SYS also waits for host visibility, which every applied write has here. -/
def execFenceSys (h : Head) (m : BitVec 8) (s : State) : Out :=
  .next (s.run clsTaskOnly (.fenceSys h m) h true [] fun s => s.fencing h m.toNat true)

end Sys2Proof.Machine
end

