-- ==== Sys2Proof/Machine/Buffers.lean ====
section
/-! DEFINITION. Buffers at their homes (R218-R224): headers and chains, fill writes, fill cells, releases and
redeclarations. -/

namespace Sys2Proof.Machine

/-- A buffer header (R219). -/
structure BufHead where
  st : Nat
  rel : Nat
  cons : Nat
  wp : Nat
  size : Nat
  fcell : Nat
  gen : Nat
  deriving DecidableEq, Repr

/-- The header at `h` as its bits stand. -/
def State.bufBits (s : State) (h : Nat) : BufHead :=
  let w0 : Word := BitVec.ofNat 64 (readNat s.mem h 8)
  { st := Word.field w0 63 61, rel := Word.field w0 47 40, cons := Word.field w0 39 32, wp := Word.field w0 31 0
    size := readNat s.mem (h + 8) 4
    fcell := readNat s.mem (h + 16) 6
    gen := readNat s.mem (h + 24) 8 }

/-- The header at `h` breaks the rules of R218, within a home that ends at `stop`. -/
def State.bufBad (s : State) (h stop width : Nat) : Bool :=
  let b := s.bufBits h
  decide (3 < b.st) || readNat s.mem (h + 6) 2 % 2 ^ 13 != 0 || readNat s.mem (h + 12) 4 != 0 ||
    readNat s.mem (h + 22) 2 != 0 || readNat s.mem (h + 32) 32 != 0 ||
    b.size % 2 ^ width != 0 || b.size % 64 != 0 || decide (stop < h + 64 + b.size)

/-- Header `h` written back with its wp, rel, cons, state, fcell and gen (R219). -/
def State.putBuf (s : State) (h : Nat) (b : BufHead) : State :=
  let w0 := b.st * 2 ^ 61 + b.rel % 256 * 2 ^ 40 + b.cons % 256 * 2 ^ 32 + b.wp % 2 ^ 32
  let bytes := natBytes 8 w0 ++ natBytes 8 b.size ++ natBytes 8 (b.fcell % 2 ^ 48) ++ natBytes 8 b.gen
  { s with mem := writeBytes s.mem h bytes }

/-- The buffer of a chain that holds byte `pa`: the header's place; none for a byte in no buffer, or at or
beyond a malformed header (R218). -/
def State.bufFrom (s : State) (ch : Chain) (pa : Nat) : Nat → Nat → Option Nat
  | 0, _ => none
  | n + 1, h =>
    let stop := ch.base + ch.len
    if stop < h + 64 ∨ s.bufBad h stop ch.width ∨ (s.bufBits h).size = 0 then none
    else
      let next := h + 64 + (s.bufBits h).size
      if pa < next then some h else s.bufFrom ch pa n next

/-- The header of the buffer that holds byte `pa` of a chain. -/
def State.bufOf (s : State) (ch : Chain) (pa : Nat) : Option Nat :=
  if pa < ch.base then none else s.bufFrom ch pa (ch.len / 64) ch.base

/-- A load of `n` bytes at `pa` is answered (R192, R221). -/
def State.bufReads (s : State) (ch : Chain) (pa n : Nat) : Bool :=
  match s.bufOf ch pa with
  | none => false
  | some h =>
    let b := s.bufBits h
    if pa < h + 64 then decide (pa + n ≤ h + 64)
    else (b.st == 1 || b.st == 2) && decide (pa + n ≤ h + 64 + b.wp)

/-- A buffer whose releases are complete and that has no load left to answer is empty again (R221)
(DEDUCED, log entry 41). -/
def BufHead.drained (b : BufHead) : BufHead :=
  if b.st = 3 then { b with st := 0, wp := 0, rel := 0, gen := (b.gen + 1) % 2 ^ 64 } else b

/-- The join of a fill cell that follows a fill write (R220): checked, then sent for the write's issuer. -/
def State.joinFillCell (s : State) (m : Msg) (fcell value : Nat) : State :=
  let tval : Word := BitVec.ofNat 64 fcell
  if fcell = 0 then s
  else if isLocal fcell then s.report m.iss 0x25 m.colour (xlatTval 5 fcell)
  else match s.checkWalk m.iss.task.slot m.group m.iss.task.core fcell (fun _ => 1) .own with
    | .ok p =>
      if p.e.ctype ≠ 1 ∨ p.e.width ≠ 3 then s.report m.iss 0x08 m.colour tval
      else if fcell % 8 ≠ 0 then s.report m.iss 0x04 m.colour tval
      else s.send { m.toward p.pkg p.home (.join p.pa fcell 1 3 (natBytes 8 value) false) with key := s.keyOf m.iss.task.slot p.e }
    | .trap 0x05 t => s.report m.iss 0x25 m.colour t
    | .trap cause t => s.report m.iss cause m.colour t
    | .miss _ => s

/-- A fill write decided at its home (R221): applied, dropped with 0x10, or held; a held one has not taken its place in its
lane's order (R13, R288). -/
def State.decideFill (s : State) (m : Msg) (pa va : Nat) (ch : Chain) (bytes : List Byte) (close : Bool) : State :=
  let n := bytes.length
  let drop := (s.numberIn m).report m.iss 0x10 m.colour (BitVec.ofNat 64 va)
  match s.bufOf ch pa with
  | none => drop
  | some h =>
    if pa < h + 64 then drop
    else
      let b := (s.bufBits h).drained
      let o := pa - (h + 64)
      if b.st = 2 then { s with heldFills := s.heldFills ++ [m] }
      else if o ≠ (if b.st = 0 then 0 else b.wp) ∨ b.size < o + n then drop
      else
        let full := decide (o + n = b.size) || close
        let bad := s.partPoison pa n
        let s := ((s.numberIn m).poke pa bytes).putBuf h { b with st := if full then 2 else 1, wp := o + n, rel := if b.st = 0 then 0 else b.rel }
        let s := if bad then s.report m.iss 0x28 m.colour (BitVec.ofNat 64 va) else s
        s.joinFillCell m b.fcell
          ((if full then (b.gen + 1) * b.size else b.gen * b.size + o + n) % 2 ^ 64)

/-- The buffer that a fill write aims at. -/
def State.fillTarget (s : State) (m : Msg) : Option Nat :=
  match m.body with
  | .fill pa _ ch _ _ => s.bufOf ch pa
  | _ => none

/-- A held fill write decided again. -/
def State.retryFill (s : State) (m : Msg) : State :=
  match m.body with
  | .fill pa va ch bytes close => s.decideFill m pa va ch bytes close
  | _ => s

/-- The writes held at buffer `h`, released in arrival order (R221). -/
def State.releaseFills (s : State) (h : Nat) : State :=
  let here := s.heldFills.filter fun m => s.fillTarget m == some h
  let rest := s.heldFills.filter fun m => s.fillTarget m != some h
  here.foldl State.retryFill { s with heldFills := rest }

/-- FILL_WRITE (R221): a write behind others that are held at its buffer is held too. -/
def execFillWrite (n : Nat) (s : State) : Out :=
  match s.due n with
  | none => .next s
  | some m =>
    match m.body with
    | .fill pa va ch bytes close => .next ((s.take n m).decideFill m pa va ch bytes close)
    | _ => .next s

/-! Acknowledgements to parked instructions. -/

/-- A parked instruction has one acknowledgement more; a fault stays with it. -/
def Ctx.acked (c : Ctx) (a : Answer) : Ctx :=
  match a with
  | .fault _ va _ => { c with acks := c.acks - 1, notes := c.notes ++ [va], reply := some a }
  | _ => { c with acks := c.acks - 1 }

/-- An acknowledgement reaches its task. -/
def State.ackHere (s : State) (t : TaskId) (a : Answer) : State := (s.onTask t fun c => c.acked a).getD s

/-- A home acknowledges a message: its task learns of it, in another package by a message. -/
def State.acknowledge (s : State) (m : Msg) (a : Answer) : State :=
  if m.iss.task.pkg = s.pkg then s.ackHere m.iss.task a
  else { s with outbox := s.outbox ++ [m.toward m.iss.task.pkg m.iss.task.core (.ack a)] }

/-- Header `pa` heads a buffer of its chain. -/
def State.isBuf (s : State) (ch : Chain) (pa : Nat) : Bool := s.bufOf ch pa == some pa

/-- BREL_APPLY (R221, R224). -/
def execBrelApply (n : Nat) (s : State) : Out :=
  match s.due n with
  | none => .next s
  | some m =>
    match m.body with
    | .brel pa va ch =>
      let s := s.take n m
      let b := s.bufBits pa
      if !s.isBuf ch pa || b.st ≠ 2 || decide (b.cons < b.rel + 1) then .next (s.acknowledge m (.fault 0x10 va 0))
      else if b.rel + 1 < b.cons then .next ((s.putBuf pa { b with rel := b.rel + 1 }).acknowledge m .pass)
      else .next (((s.putBuf pa (BufHead.drained { b with st := 3, rel := b.cons })).releaseFills pa).acknowledge m .pass)
    | _ => .next s

/-- BDECL_APPLY (R223). -/
def execBdeclApply (n : Nat) (s : State) : Out :=
  match s.due n with
  | none => .next s
  | some m =>
    match m.body with
    | .bdecl pa va ch w =>
      let s := s.take n m
      let b := s.bufBits pa
      if !s.isBuf ch pa || b.st ≠ 0 || b.rel ≠ 0 then .next (s.acknowledge m (.fault 0x10 va 0))
      else .next ((s.putBuf pa { b with cons := Word.field w 7 0, fcell := Word.field w 63 16 }).acknowledge m .pass)
    | _ => .next s

/-! BREL and BDECL (R223, R224). -/

/-- The checks of a buffer header's address, then the request to its home and the park for its answer. -/
def State.onHeader (s : State) (h : Word) (check : State → Option (Nat × Word)) (b : Spot → Body) : Eff :=
  if s.ctx.phase = 1 then
    match s.ctx.reply with
    | some (.fault cause va _) => .trap cause (BitVec.ofNat 64 va) s
    | _ => .done s
  else if h.toNat % 64 ≠ 0 then .trap 0x04 h s
  else if isLocal h.toNat then .trap 0x0B h s
  else s.withSpot (s.check h.toNat (fun _ => 64) .own) fun p =>
    if p.e.ctype ≠ 0xB then .trap 0x0B h s
    else match check s with
      | some t => .trap t.1 t.2 s
      | none => (s.sendEach [p] b).parkAt 1 .acks

/-- BREL (R224). -/
def execBrel (h : Head) (a : Reg) (s : State) : Out :=
  .next (s.run clsTaskOnly (.brel h a) h true [ux a] fun s =>
    s.onHeader (s.ctx.rx a) (fun _ => none) fun p => .brel p.pa p.va p.chain)

/-- BDECL (R223). -/
def execBdecl (h : Head) (a b : Reg) (s : State) : Out :=
  .next (s.run clsTaskOnly (.bdecl h a b) h true [ux a, ux b] fun s =>
    s.onHeader (s.ctx.rx a)
      (fun s =>
        let w := s.ctx.rx b
        if Word.field w 7 0 = 0 ∨ Word.field w 15 8 ≠ 0 then some (0x0B, w) else none)
      fun p => .bdecl p.pa p.va p.chain (s.ctx.rx b))

end Sys2Proof.Machine
end

