-- ==== Sys2Proof/Machine/Homes.lean ====
section
/-! DEFINITION. What happens at homes and on the way back: stores, joins and their combining, loads, GET, THR
and JOIN requests, latches, bolts, clears, mailbox requests, answers, and the walks of translation. -/

namespace Sys2Proof.Machine

/-! Answers at the waiter (R126, R195, R206). -/

/-- A value reaches an x register and clears its pending mark; one for x0 is discarded, whatever faults x0 has (R126, R195). -/
def Ctx.landX (c : Ctx) (reg : Nat) (w : Word) : Ctx :=
  if reg = 0 then c.clearPending 0 else (c.wx (BitVec.ofNat 5 reg) w).clearPending reg

/-- A register is marked faulted: its pending mark clears and it holds zero (R195). -/
def Ctx.landFault (c : Ctx) (isV : Bool) (reg cause va : Nat) : Ctx :=
  let n := if isV then 32 + reg else reg
  let c := if isV then c.wv (BitVec.ofNat 5 reg) 0 else c.wx (BitVec.ofNat 5 reg) 0
  let c := c.clearPending n
  { c with faulted := setAt c.faulted n { cause := cause, va := va } }

/-- The lowest lane among faults: its cause and VA. -/
def lowestLane : List (Nat × Nat × Nat) → Option (Nat × Nat × Nat)
  | [] => none
  | f :: r =>
    match lowestLane r with
    | none => some f
    | some g => if g.1 < f.1 then some g else some f

/-- An element-wise load with one answer more; with the last one its register is written (R198)
(DEDUCED, log entry 18). -/
def Ctx.landGather (c : Ctx) (g : Gather) : Ctx :=
  if g.left ≠ 0 then { c with gathers := g :: c.gathers.filter (·.reg != g.reg) }
  else
    let c := { c with gathers := c.gathers.filter (·.reg != g.reg) }
    let r : Reg := BitVec.ofNat 5 g.reg
    match lowestLane g.bad with
    | some (_, cause, va) => c.landFault true g.reg cause va
    | none => (c.wv r (putElems (c.rv r) g.width g.got)).clearPending (32 + g.reg)

/-- An answer for an element of a vector register. -/
def Ctx.landLane (c : Ctx) (reg : Nat) (f : Gather → Gather) : Ctx :=
  match c.gathers.find? fun g => g.reg == reg with
  | none => c
  | some g => c.landGather { f g with left := g.left - 1 }

/-- An answer reaches its register; a fault of a whole register has lane 64. -/
def Ctx.land (c : Ctx) (d : Dest) (a : Answer) : Ctx :=
  match a with
  | .word w => c.landX d.reg w
  | .vec v => (c.wv (BitVec.ofNat 5 d.reg) v).clearPending (32 + d.reg)
  | .lane i e => c.landLane d.reg fun g => { g with got := g.got ++ [(i, e)] }
  | .fault cause va lane =>
    if lane < 64 then c.landLane d.reg fun g => { g with bad := g.bad ++ [(lane, cause, va)] }
    else c.landFault d.isV d.reg cause va
  | _ => c

/-- Spilled tasks of a core whose park is over become ready spilled contexts (R80, R206). -/
def State.stir (s : State) (core : Nat) : State :=
  let c := s.core core
  if c.spilled.isEmpty then s
  else State.syncSpill (s.setCore core { c with
    stamps := c.stamps + 1
    spilled := c.spilled.map fun p =>
      if p.ready.isNone && s.overFor core p.num p.ctx then { p with ready := some c.stamps } else p }) core

/-- A change of a task by an answer, wherever it is held; a task that has ended takes none (R207). -/
def State.wakeTask (s : State) (t : TaskId) (f : Ctx → Ctx) : State :=
  match s.onTask t f with
  | some u => s.leftIdle t.core (u.stir t.core)
  | none => s

/-- Another load into x0 of the same context has not been answered. -/
def State.moreX0 (s : State) (m : Msg) (d : Dest) : Bool :=
  !d.isV && d.reg == 0 && (s.net ++ s.outbox ++ s.asked).any fun k => k.iss == m.iss && (match k.body with
    | .load _ _ _ _ _ _ e _ | .result e _ => e == d
    | _ => false)

/-- An answer at the waiter; the mark of x0 stays pending while another load into it is out, for it stands for each of them
(R126) (DEDUCED, log entry 88). -/
def State.landed (s : State) (m : Msg) (d : Dest) (a : Answer) (c : Ctx) : Ctx :=
  let c := c.land d a
  if s.moreX0 m d then { c with pending := c.pending ||| 1 } else c

/-- An answer reaches its register (R126). -/
def State.land (s : State) (m : Msg) (d : Dest) (a : Answer) : State :=
  match d.handler with
  | some (_, core, run) => s.onRun core run (s.landed m d a)
  | none => s.wakeTask m.iss.task (s.landed m d a)

/-- The answer to a load on its way. -/
def State.replyTo (s : State) (m : Msg) (d : Dest) (a : Answer) : State :=
  match d.handler with
  | some (pkg, core, _) => s.send (m.toward pkg core (.result d a))
  | none => s.answer m (.result d a)

/-- An element reaches a delivery queue of 64-bit elements: the oldest waiting pop takes it, else it waits in
the queue (R217). -/
def Ctx.deliverWord (c : Ctx) (q : Nat) (w : Word) : Ctx × Option Dest :=
  match c.pops.find? fun p => p.1 == q with
  | some p => ({ c with pops := c.pops.erase p }, some p.2)
  | none => (if q = 1 then { c with q1 := c.q1 ++ [w] } else { c with q5 := c.q5 ++ [w] }, none)

/-- A 64-bit element delivered to a task's queue. -/
def State.deliverWord (s : State) (i : Issuer) (q : Nat) (w : Word) : State :=
  let t := i.task
  match s.taskCtx t with
  | none => s
  | some x =>
    let r := x.deliverWord q w
    let s := (s.onTask t fun _ => r.1).getD s
    match r.2 with
    | none => s
    | some d =>
      s.send { iss := i, more := [], pkg := s.pkg, home := t.core, colour := 8, group := 0, cmd := 0, body := .result d (.word w) }

/-- The reply of a near-bank run that a q4 command started: register 32 stands for q5 (R281). -/
def State.landQ5 (s : State) (i : Issuer) (a : Answer) : State :=
  match a with
  | .word w => ((s.onTask i.task fun c => { c with q5res := c.q5res - 1 }).getD s).deliverWord i 5 w
  | _ => s

/-- The destination is an engine's read, which names a VA. -/
def Dest.engine (d : Dest) : Bool := decide (64 ≤ d.reg)

/-- The answer to an engine's read in another package. -/
def State.landEngine (s : State) (cmd va : Nat) (a : Answer) : State :=
  { s with fetched := s.fetched.map fun f => if f.1 = cmd ∧ f.2.1 = va then (cmd, va, some a) else f }

/-- RESULT_ARRIVAL (R126). -/
def execResultArrival (n : Nat) (s : State) : Out :=
  match s.due n with
  | none => .next s
  | some m =>
    match m.body with
    | .result d a =>
      let s := s.take n m
      .next (if d.engine then s.landEngine m.cmd d.reg a
        else if d.reg = 32 then s.landQ5 m.iss a
        else s.land m d a)
    | _ => .next s

/-- The answer to a parked instruction. -/
def Ctx.replied (c : Ctx) (a : Answer) : Ctx := { c with reply := some a }

/-- WAKE (R206): to a pending register, or to a parked JOIN, which has no register. -/
def execWake (n : Nat) (s : State) : Out :=
  match s.due n with
  | none => .next s
  | some m =>
    match m.body with
    | .wake d a =>
      .next ((s.take n m).wakeTask m.iss.task fun c =>
        if d.reg = 32 then c.replied a
        else match a with
          | .fault cause va _ => c.landFault false d.reg cause va
          | _ => c.land d a)
    | _ => .next s

/-- MAILBOX_REPLY (R329-R331). -/
def execMailboxReply (n : Nat) (s : State) : Out :=
  match s.due n with
  | none => .next s
  | some m =>
    match m.body with
    | .mreply a => .next ((s.take n m).wakeTask m.iss.task fun c => c.replied a)
    | _ => .next s

/-! Stores and joins. -/

/-- STORE_APPLY (R194). -/
def execStoreApply (n : Nat) (s : State) : Out :=
  match s.due n with
  | none => .next s
  | some m =>
    match m.body with
    | .store pa va bytes =>
      let s := s.take n m
      let bad := s.partPoison pa bytes.length
      let s := s.poke pa bytes
      .next (if bad then s.reportAll m 0x28 (BitVec.ofNat 64 va) else s)
    | _ => .next s

/-- A join message at its home (R199). -/
def State.applyJoin (s : State) (m : Msg) (pa va ty width : Nat) (data : List Byte) : State :=
  let tval : Word := BitVec.ofNat 64 (cellVa ty width va)
  if (s.block pa).bolted then s.reportAll m 0x20 tval
  else
    let r := s.joinCell pa ty width data
    let s := match r.2 with
      | some cause => r.1.reportAll m cause tval
      | none => r.1
    s.redecide pa fun l => l.touches (cellBase ty width pa)

/-- The merged data of two joins of a type, where the type and the data allow it (R208). -/
def mergedData (ty : Nat) (a b : List Byte) : Option (List Byte) :=
  let n := a.length
  let one := fun (d : List Byte) => if n = 8 then ksetImage [bytesNat d] else bytesWords d
  match ty with
  | 7 => if a = b then some a else none
  | 8 => none
  | 0xA =>
    let x := one a
    let y := one b
    let u := (ksetKeys y).foldl (fun l k => insertKey k l) (ksetKeys x)
    if !ksetOk x || !ksetOk y || (wordAt x 0).getLsbD 63 || (wordAt y 0).getLsbD 63 || decide (7 < u.length) then none
    else some (wordsBytes (ksetImage u))
  | _ => some (natBytes n (joinScalar ty (8 * n) (bytesNat a) (bytesNat b)))

/-- The senders of each lane stand under consecutive numbers, so that a home applies them as one message (R13, R209). -/
def chained : List Sender → Bool
  | [] => true
  | x :: r => (match r.find? fun y => x.lane != 0 && y.lane == x.lane with
    | some y => y.seq == x.seq.map (· + 1)
    | none => true) && chained r

/-- Two join messages merged, the older one first, where R208 allows it: not with one that has come over a Teord link;
`between` are those that stand between them (DEDUCED, log entry 39). -/
def mergeJoins (a b : Msg) (between : List Msg) : Option Msg :=
  match a.body, b.body with
  | .join pa va ty width x e, .join pb _ tb _ y _ =>
    let base := cellBase ty width pa
    let issuers := a.more ++ b.senders
    let far := a.crossed || b.crossed
    let blocked := between.any fun m =>
      sameOrder m b || (m.body.sequenced && m.colour == b.colour && m.home == b.home && (b.senders.any fun i => m.any (· == i.iss)))
    if ty ≠ tb ∨ base ≠ cellBase ty width pb ∨ x.length ≠ y.length ∨ a.colour ≠ b.colour ∨ a.group ≠ b.group ∨
        a.key ≠ b.key ∨ 3 < issuers.length ∨ far ∨ blocked ∨ !chained (a.senders ++ b.senders) then none
    else match mergedData ty x y with
      | none => none
      | some d =>
        let at0 := ty == 0xA && d.length ≠ x.length
        some { a with
          more := issuers
          body := .join (if at0 then base else pa) (if at0 then cellVa ty width va else va) ty width d e }
  | _, _ => none

/-- The merged message of messages `a` and `b` of the network, `a` the older. -/
def State.merged (s : State) (a b : Nat) : Option Msg :=
  if b ≤ a then none
  else match s.net[a]?, s.net[b]? with
    | some x, some y => mergeJoins x y ((s.net.take b).drop (a + 1))
    | _, _ => none

/-- JOIN_COMBINE (R208): messages `a` and `b` of the network, `a` the older; a replay in which they passed each other goes
on to its next choice (R356). -/
def execJoinCombine (a b : Nat) (s : State) : Out :=
  match s.merged a b with
  | none => .next s
  | some m =>
    let slot := m.iss.task.slot
    let tile := logTile m.home
    if s.mayChoose slot tile 5 1 then .next (({ s with net := removeAt (replaceAt s.net a m) b } : State).chose slot tile 5 1)
    else if s.mayChoose slot tile 5 0 then .next (s.chose slot tile 5 0)
    else .next s

/-- The younger messages that message `n` has not merged with are recorded, one entry for each pair (R355). -/
def State.unmerged (s : State) (n : Nat) (m : Msg) : State :=
  match s.logOf m.iss.task.slot with
  | some (1, _) => ((List.range s.net.length).filter fun b => (s.merged n b).isSome).foldl
      (fun s _ => s.chose m.iss.task.slot (logTile m.home) 5 0) s
  | _ => s

/-- JOIN_APPLY (R199). -/
def execJoinApply (n : Nat) (s : State) : Out :=
  match s.due n with
  | none => .next s
  | some m =>
    match m.body with
    | .join pa va ty width data _ => .next (((s.unmerged n m).take n m).applyJoin m pa va ty width data)
    | _ => .next s

/-! Loads. -/

/-- What a home answers to a load (R192), a code load's of a CODE page among them (R236): the bytes, or the fault that it
finds. -/
def State.loadAt (s : State) (pa ty size : Nat) (ch : Chain) : Except Nat (List Byte) :=
  let bytes := readBytes s.mem pa size
  if ty = 0 ∨ ty = 0xC then .ok bytes
  else if ty = 0xB then if s.bufReads ch pa size then .ok bytes else .error 0x10
  else if (s.block pa).bolted then .ok (s.readCells pa ty ch.width size)
  else .error 0x06

/-- Bytes as an answer for a register or for one of its elements. -/
def loadAnswer (size : Nat) (signed : Bool) (d : Dest) (lane : Nat) (bytes : List Byte) : Answer :=
  if lane < 64 then .lane lane (bytesNat bytes)
  else if d.isV then .vec (bytesVec bytes)
  else .word (extended signed size (bytesNat bytes))

/-- LOAD_SERVE (R192); poisoned bytes read zero and report 0x28 (R335). -/
def execLoadServe (n : Nat) (s : State) : Out :=
  match s.due n with
  | none => .next s
  | some m =>
    match m.body with
    | .load pa va ty size ch signed d lane =>
      let s := s.take n m
      match s.loadAt pa ty size ch with
      | .error cause => .next (s.replyTo m d (.fault cause va lane))
      | .ok bytes =>
        if d.engine && s.poisoned pa size then .next (s.replyTo m d (.fault 0x28 va 64))
        else if s.poisoned pa size then
          .next ((s.report m.iss 0x28 m.colour (BitVec.ofNat 64 va)).replyTo m d
            (loadAnswer size signed d lane (List.replicate size 0)))
        else .next (s.replyTo m d (loadAnswer size signed d lane bytes))
    | _ => .next s

/-! GET, THR, JOIN and mailbox requests. -/

/-- A request as a latch (R205). -/
def Msg.latch (m : Msg) (pkg pa va ty width : Nat) (w : Want) (reg : Nat) : Latch :=
  { iss := m.iss, pkg := pkg, home := m.home, pa := pa, va := va, ty := ty, width := width, group := m.group, want := w,
    reg := reg, place := 0, colour := m.colour, key := m.key }

/-- The issuing task of a request waits for no answer any more: it has ended or is ending by a cancel (R84, R207, R329). -/
def State.wantDead (s : State) (i : Issuer) : Bool :=
  i.task.pkg == s.pkg && (match s.taskCtx i.task with
    | none => true
    | some c => decide (c.wait = .cancelling))

/-- A request served at its home; a poisoned cell is reported (R358). -/
def State.serveWant (s : State) (n : Nat) (p : Want → Bool) : State :=
  match s.due n with
  | none => s
  | some m =>
    match m.body with
    | .want pa va ty width w reg =>
      if p w then
        let s := s.take n m
        if s.wantDead m.iss then s else
        let s := if s.poisoned (cellBase ty width pa) (cellBytes ty width)
          then s.report m.iss 0x28 m.colour (BitVec.ofNat 64 va) else s
        s.serve (m.latch s.pkg pa va ty width w reg)
      else s
    | _ => s

/-- GET_SERVE (R201). -/
def execGetServe (n : Nat) (s : State) : Out :=
  .next (s.serveWant n fun w => match w with
    | .get _ => true
    | _ => false)

/-- THR_SERVE (R149, R204). -/
def execThrServe (n : Nat) (s : State) : Out :=
  .next (s.serveWant n fun w => match w with
    | .thr _ | .join _ => true
    | _ => false)

/-- MAILBOX_SERVE (R329-R331). -/
def execMailboxServe (n : Nat) (s : State) : Out := .next (s.serveWant n Want.mailbox)

/-- LATCH_RETRY (R205): a request held for want of space is decided, and latched when there is room; what a delivery
changes is decided as when a request is served. -/
def execLatchRetry (n : Nat) (s : State) : Out :=
  match s.latches[n]? with
  | none => .next s
  | some l =>
    if l.place ≠ 2 then .next s
    else
      let s := s.seen l.key l.pa
      match s.decideAt l with
      | (t, some a) =>
        let t := ({ t with latches := removeAt t.latches n } : State).wakeWaiter l a
        .next (if decide (l.want = .grcv) then t.redecide l.pa fun _ => false else t)
      | (_, none) =>
        let place := s.latchPlace l.home
        if place = 2 then .next s
        else
          let s := if place = 1 then s.bump 0xCA8 else s
          .next { s with latches := removeAt s.latches n ++ [{ l with place := place }] }

/-! Bolts and clears. -/

/-- The first valid barrier bound to a group of a slot's command (R66, R211). -/
def State.groupBarrier (s : State) (slot group : Nat) : Option Nat :=
  match (s.slot slot).cmd with
  | none => none
  | some c => (c.groups.find? fun g => g.id == group).bind fun g => g.bars.head?

/-- The generation that a bolt records (R211). -/
def State.boltGen (s : State) (slot group : Nat) : Option (Nat × Nat) :=
  (s.groupBarrier slot group).map fun b => (b, (s.bar b).gen)

/-- The state bits of a block's ONCE cells, from bit 0 in cell order, as bytes (R357). -/
def State.onceBits (s : State) (base ty width : Nat) : List Byte :=
  if ty = 7 ∨ ty = 8 then
    let n := cellBytes ty width
    let bits := (List.range (4096 / n)).foldr (fun i acc => acc * 4 + s.onceAt (base + i * n)) 0
    natBytes ((4096 / n * 2 + 7) / 8) bits
  else []

/-- The digest of a block (R357). -/
def State.digest (s : State) (base ty width : Nat) : Nat :=
  crc64 (s.readCells base ty width 4096 ++ s.onceBits base ty width)

/-- The block of `pa` bolted at its home (R211): its latches are decided for the last time (R207). -/
def State.boltBlock (s : State) (pa slot group : Nat) : State :=
  if (s.block pa).bolted then s
  else
    let s := s.setBlock pa { bolted := true, gen := s.boltGen slot group, sent := false }
    s.redecide pa fun l => l.pa / 4096 == pa / 4096

/-- The mirror of a block of a twin-mode command's half: the other half's block (R357). -/
def otherHalf (pa : Nat) : Nat :=
  if pa < 2 ^ 40 then if tileX (pa / 2 ^ 22) < 16 then pa + 16 * 2 ^ 22 else pa - 16 * 2 ^ 22
  else if (pa - 2 ^ 40) / 2 ^ 36 % 4 < 2 then pa + 2 * 2 ^ 36 else pa - 2 * 2 ^ 36

/-- The digest of a bolted block sent to the mirror home in twin mode (R357). -/
def State.sendDigest (s : State) (m : Msg) (pa va : Nat) : State :=
  let twin := match (s.slot m.iss.task.slot).cmd with
    | some c => c.twin
    | none => false
  match twin, s.spotOf m.iss.task.slot va with
  | true, some p =>
    let other := otherHalf (pa / 4096 * 4096)
    s.send (m.toward m.pkg (homeOf other) (.digest other va (s.digest (pa / 4096 * 4096) p.e.ctype p.e.width)))
  | _, _ => s

/-- BOLT_APPLY (R211). -/
def execBoltApply (n : Nat) (s : State) : Out :=
  match s.due n with
  | none => .next s
  | some m =>
    match m.body with
    | .bolt pa va group =>
      let s := s.take n m
      let fresh := !(s.block pa).bolted
      let s := s.boltBlock pa m.iss.task.slot group
      let s := if fresh then s.sendDigest m pa va else s
      .next (s.answer m .boltAck)
    | _ => .next s

/-- BOLT_ACK (R211). -/
def execBoltAck (n : Nat) (s : State) : Out :=
  match s.due n with
  | none => .next s
  | some m =>
    match m.body with
    | .boltAck => .next ((s.take n m).ackHere m.iss.task .pass)
    | _ => .next s

/-- TWIN_DIGEST (R357): compared once the mirror block is bolted too. -/
def execTwinDigest (n : Nat) (s : State) : Out :=
  match s.due n with
  | none => .next s
  | some m =>
    match m.body with
    | .digest pa va crc =>
      if !(s.block pa).bolted then .next s
      else
        let s := s.take n m
        match s.spotOf m.iss.task.slot va with
        | some p =>
          if s.digest pa p.e.ctype p.e.width = crc then .next s
          else .next (s.report m.iss 0x2A 8 (BitVec.ofNat 64 va))
        | none => .next s
    | _ => .next s

/-- CLEAR_CHECK (R213). -/
def execClearCheck (n : Nat) (s : State) : Out :=
  match s.due n with
  | none => .next s
  | some m =>
    match m.body with
    | .clearCheck pa va _ _ _ =>
      let s := s.take n m
      let b := s.block pa
      let ok := match b.gen with
        | some (k, g) => b.bolted && (s.bar k).gen != g
        | none => false
      .next (s.acknowledge m (if ok then .pass else .fault 0x0B va 0))
    | _ => .next s

/-- CLEAR_APPLY (R213). -/
def execClearApply (n : Nat) (s : State) : Out :=
  match s.due n with
  | none => .next s
  | some m =>
    match m.body with
    | .clearApply pa _ ty width => .next (((s.take n m).clearBlock pa ty width).acknowledge m .pass)
    | _ => .next s

/-! Walks (R41). -/

/-- A requester still waits for a walk: a core's context that is parked on it, or an engine. -/
def State.awaits (s : State) (w : Walk) (a : Asker) : Bool :=
  let one := fun (c : Ctx) => c.slot == w.slot && decide (c.wait = .xlate w.va)
  a.kind != 0 || one (s.ctxOf a.place a.ctx) || ((s.core a.place).savedCtx a.ctx).any one

/-- A walk is one of the 64 that its die's walker runs (R41). -/
def State.walkRuns (s : State) (n : Nat) (w : Walk) : Bool :=
  decide (((s.walks.take n).filter fun k => k.die == w.die).length < 64)

/-- Walk `n` ends: success fills the TLB of every requester, and a failure reaches every one that waits for it (R41). -/
def State.endWalk (s : State) (n : Nat) (w : Walk) : State :=
  let r := s.walkBy w.die w.slot w.va
  let s := ({ s with walks := removeAt s.walks n } : State).cachePointers w.die w.slot w.va
  match r with
  | .ok e => w.askers.foldl (fun s a => s.fill a e) s
  | .error r => { s with walkFails := s.walkFails ++ (w.askers.filter (s.awaits w)).map fun a => { asker := a, slot := w.slot, va := w.va, reason := r } }

/-- WALK_COMPLETE (R41). -/
def execWalkComplete (n : Nat) (s : State) : Out :=
  match s.walks[n]? with
  | none => .next s
  | some w => if s.walkRuns n w then .next (s.endWalk n w) else .next s

end Sys2Proof.Machine
end

