-- ==== Sys2Proof/Machine/Numbers.lean ====
section
/-! DEFINITION. Number formats and arithmetic (R152-R171): exact values, the one rounding that every unit
shares, residues, block scales and the fixed algorithms. -/

namespace Sys2Proof.Machine

/-! Values (R153). -/

/-- An exact value: NaN, an infinity, or (−1)^neg × m × 2^e.  A zero keeps its sign. -/
inductive FVal where
  | nan
  | inf (neg : Bool)
  | fin (neg : Bool) (m : Nat) (e : Int)
  deriving DecidableEq, Repr, Inhabited

/-- A floating-point format (R152): width, precision with the hidden bit, exponent of the smallest normal and
of the largest finite, the largest finite significand, and whether it has infinities. -/
structure FFmt where
  w : Nat
  p : Nat
  emin : Int
  emax : Int
  top : Nat
  hasInf : Bool
  deriving DecidableEq, Repr

def fmtF32 : FFmt := { w := 32, p := 24, emin := -126, emax := 127, top := 0xFFFFFF, hasInf := true }
def fmtBf16 : FFmt := { w := 16, p := 8, emin := -126, emax := 127, top := 0xFF, hasInf := true }
def fmtF16 : FFmt := { w := 16, p := 11, emin := -14, emax := 15, top := 0x7FF, hasInf := true }
def fmtE4m3 : FFmt := { w := 8, p := 4, emin := -6, emax := 8, top := 14, hasInf := false }
def fmtE5m2 : FFmt := { w := 8, p := 3, emin := -14, emax := 15, top := 7, hasInf := true }
def fmtE2m1 : FFmt := { w := 4, p := 2, emin := 0, emax := 2, top := 3, hasInf := false }

/-- The floating-point format of a code (R100); codes 6-8 are integers and residues. -/
def floatFmt (code : Nat) : Option FFmt :=
  match code with
  | 0 => some fmtF32
  | 1 => some fmtBf16
  | 2 => some fmtF16
  | 3 => some fmtE4m3
  | 4 => some fmtE5m2
  | 5 => some fmtE2m1
  | _ => none

/-- The element width of a format code in bits (R100). -/
def fmtWidth (code : Nat) : Nat :=
  match code with
  | 0 | 7 => 32
  | 1 | 2 | 8 => 16
  | 5 => 4
  | _ => 8

/-- The value of an encoding (R153). -/
def FFmt.decode (f : FFmt) (n : Nat) : FVal :=
  let neg := n.testBit (f.w - 1)
  let ex := n / 2 ^ (f.p - 1) % 2 ^ (f.w - f.p)
  let fr := n % 2 ^ (f.p - 1)
  let ones := 2 ^ (f.w - f.p) - 1
  if ex = 0 then .fin neg fr (f.emin - (f.p - 1))
  else if ex = ones ∧ f.hasInf then (if fr = 0 then .inf neg else .nan)
  else if ex = ones ∧ f.p = 4 ∧ fr = 7 then .nan
  else .fin neg (2 ^ (f.p - 1) + fr) (f.emin + (ex - 1 : Nat) - (f.p - 1))

/-- The canonical NaN (R154); E2M1 has none, and its place is zero. -/
def FFmt.canonical (f : FFmt) : Nat :=
  if f.w = 4 then 0
  else if f.p = 4 then 0x7F
  else (2 ^ (f.w - f.p) - 1) * 2 ^ (f.p - 1) + 2 ^ (f.p - 2)

/-- The sign bit of an encoding. -/
def FFmt.signBit (f : FFmt) (neg : Bool) : Nat := if neg then 2 ^ (f.w - 1) else 0

/-- An infinity; only of a format that has them. -/
def FFmt.infinity (f : FFmt) (neg : Bool) : Nat :=
  f.signBit neg + (2 ^ (f.w - f.p) - 1) * 2 ^ (f.p - 1)

/-- A finite encoding of r × 2^q, where q is the place of the last bit and r ≤ 2^p. -/
def FFmt.encode (f : FFmt) (neg : Bool) (r : Nat) (q : Int) : Nat :=
  let (r, q) := if r = 2 ^ f.p then (2 ^ (f.p - 1), q + 1) else (r, q)
  if r < 2 ^ (f.p - 1) then f.signBit neg + r
  else f.signBit neg + (q + (f.p - 1) - f.emin + 1).toNat * 2 ^ (f.p - 1) + (r - 2 ^ (f.p - 1))

/-- The largest finite value. -/
def FFmt.largest (f : FFmt) (neg : Bool) : Nat := f.encode neg f.top (f.emax - (f.p - 1))

/-! Rounding (R160, R161). -/

/-- Rounding modes (R101). -/
inductive RMode where
  | rne | rtz | rdn | rup | rna | sr
  deriving DecidableEq, Repr, Inhabited

/-- The mode of a code 0-5. -/
def rmode (code : Nat) : RMode :=
  match code with
  | 0 => .rne
  | 1 => .rtz
  | 2 => .rdn
  | 3 => .rup
  | 4 => .rna
  | _ => .sr

/-- A mode with the seed and index of keyed stochastic rounding. -/
structure Rnd where
  mode : RMode
  seed : Word := 0
  idx : Nat := 0
  deriving DecidableEq, Repr, Inhabited

/-- Nearest, ties to even: the mode of every intermediate step. -/
def rneMode : Rnd := { mode := .rne }

/-- The mixing function of R161. -/
def mix (seed : Word) (idx : Nat) : Word :=
  let z := seed ^^^ (BitVec.ofNat 64 idx * 0x9E3779B97F4A7C15)
  let z := (z ^^^ (z >>> 30)) * 0xBF58476D1CE4E5B9
  let z := (z ^^^ (z >>> 27)) * 0x94D049BB133111EB
  z ^^^ (z >>> 31)

/-- Whether the magnitude t + rem / 2^k moves up to t + 1, for 0 < rem < 2^k. -/
def Rnd.up (r : Rnd) (neg : Bool) (t rem k : Nat) : Bool :=
  match r.mode with
  | .rne => decide (2 ^ k < 2 * rem) || (decide (2 * rem = 2 ^ k) && t % 2 == 1)
  | .rna => decide (2 ^ k ≤ 2 * rem)
  | .rtz => false
  | .rdn => neg
  | .rup => !neg
  | .sr => decide ((mix r.seed r.idx).toNat / 2 ^ 32 < 2 ^ 32 * rem / 2 ^ k)

/-- m × 2^e as a multiple of 2^q: the multiple, whether it differs, and whether it went away from zero. -/
def Rnd.multiple (r : Rnd) (neg : Bool) (m : Nat) (e q : Int) : Nat × Bool × Bool :=
  if q ≤ e then (m * 2 ^ (e - q).toNat, false, false)
  else
    let k := (q - e).toNat
    let t := m / 2 ^ k
    let rem := m % 2 ^ k
    if rem = 0 then (t, false, false)
    else if r.up neg t rem k then (t + 1, true, true) else (t, true, false)

/-- The place of the last bit of a value with its leading bit at m × 2^e. -/
def FFmt.place (f : FFmt) (m : Nat) (e : Int) : Int := max (e + m.log2) f.emin - (f.p - 1)

/-- What R160 step 3 and R162 deliver for a finite value that is too large (DEDUCED, log entry 23). -/
def FFmt.overflow (f : FFmt) (r : Rnd) (sat neg up : Bool) : Nat × FlagSet :=
  if sat then (f.largest neg, flagSat ||| flagNx)
  else
    let away : Bool := match r.mode with
      | .rne | .rna => true
      | .sr => up
      | .rup => !neg
      | .rdn => neg
      | .rtz => false
    (if !away then f.largest neg else if f.hasInf then f.infinity neg else f.canonical, flagOf ||| flagNx)

/-- A value rounded to a format (R160, R162): the encoding and the flags. -/
def FFmt.round (f : FFmt) (r : Rnd) (sat : Bool) (x : FVal) : Nat × FlagSet :=
  match x with
  | .nan => (f.canonical, 0)
  | .inf neg =>
    if f.hasInf then (f.infinity neg, 0)
    else if sat then (f.largest neg, flagSat)
    else (f.canonical, flagNv)
  | .fin neg m e =>
    if m = 0 then (f.signBit neg, 0)
    else
      let q := f.place m e
      let t := r.multiple neg m e q
      let qm := f.emax - (f.p - 1)
      if qm < q ∨ (q = qm ∧ f.top < t.1) then f.overflow r sat neg t.2.2
      else
        let tiny := t.2.1 && decide (t.1 ≠ 0) && decide (t.1 < 2 ^ (f.p - 1))
        (f.encode neg t.1 q, FlagSet.on t.2.1 flagNx ||| FlagSet.on tiny flagUf)

/-! Exact arithmetic. -/

def FVal.neg : FVal → FVal
  | .nan => .nan
  | .inf s => .inf (!s)
  | .fin s m e => .fin (!s) m e

def FVal.isNan : FVal → Bool
  | .nan => true
  | _ => false

/-- The value scaled by a power of two. -/
def FVal.scale (x : FVal) (k : Int) : FVal :=
  match x with
  | .fin s m e => .fin s m (e + k)
  | _ => x

/-- A signed significand at a place. -/
def signed (neg : Bool) (m : Nat) : Int := if neg then -(m : Int) else m

/-- The exact sum; an exact zero of opposite signs is +0, or −0 when `rdn` (R160). -/
def FVal.add (rdn : Bool) (a b : FVal) : FVal × FlagSet :=
  match a, b with
  | .nan, _ | _, .nan => (.nan, 0)
  | .inf s, .inf t => if s = t then (.inf s, 0) else (.nan, flagNv)
  | .inf s, _ => (.inf s, 0)
  | _, .inf t => (.inf t, 0)
  | .fin s m e, .fin t n g =>
    let q := min e g
    let v := signed s (m * 2 ^ (e - q).toNat) + signed t (n * 2 ^ (g - q).toNat)
    if v = 0 then (if s = t then .fin s 0 0 else .fin rdn 0 0, 0)
    else (.fin (decide (v < 0)) v.natAbs q, 0)

/-- The exact product; 0 × ∞ is invalid, and first (R180). -/
def FVal.mul (a b : FVal) : FVal × FlagSet :=
  match a, b with
  | .nan, _ | _, .nan => (.nan, 0)
  | .inf s, .inf t => (.inf (s ^^ t), 0)
  | .inf s, .fin t m _ => if m = 0 then (.nan, flagNv) else (.inf (s ^^ t), 0)
  | .fin s m _, .inf t => if m = 0 then (.nan, flagNv) else (.inf (s ^^ t), 0)
  | .fin s m e, .fin t n g => (.fin (s ^^ t) (m * n) (e + g), 0)

/-- The exact a × b + c. -/
def FVal.fma (rdn : Bool) (a b c : FVal) : FVal × FlagSet :=
  let p := a.mul b
  let r := p.1.add rdn c
  (r.1, p.2 ||| r.2)

/-- A quotient with enough bits for every rounding; the last bit is sticky. -/
def stickyDiv (m n : Nat) : Nat × Int :=
  let k := 128 + n.log2
  let q := m * 2 ^ k / n
  (2 * q + (if m * 2 ^ k % n = 0 then 0 else 1), -(k : Int) - 1)

/-- a / b (R180). -/
def FVal.div (a b : FVal) : FVal × FlagSet :=
  match a, b with
  | .nan, _ | _, .nan => (.nan, 0)
  | .inf _, .inf _ => (.nan, flagNv)
  | .inf s, .fin t _ _ => (.inf (s ^^ t), 0)
  | .fin s _ _, .inf t => (.fin (s ^^ t) 0 0, 0)
  | .fin s m e, .fin t n g =>
    if n = 0 then (if m = 0 then (.nan, flagNv) else (.inf (s ^^ t), flagDz))
    else if m = 0 then (.fin (s ^^ t) 0 0, 0)
    else
      let q := stickyDiv m n
      (.fin (s ^^ t) q.1 (q.2 + e - g), 0)

/-- The integer square root, bit by bit from bit `k - 1` down. -/
def isqrtFrom (n : Nat) : Nat → Nat → Nat
  | 0, r => r
  | k + 1, r => isqrtFrom n k (if (r + 2 ^ k) * (r + 2 ^ k) ≤ n then r + 2 ^ k else r)

/-- √x, with a sticky last bit (R169). -/
def FVal.sqrt (x : FVal) : FVal × FlagSet :=
  match x with
  | .nan => (.nan, 0)
  | .inf false => (.inf false, 0)
  | .inf true => (.nan, flagNv)
  | .fin s m e =>
    if m = 0 then (.fin s 0 0, 0)
    else if s then (.nan, flagNv)
    else
      let n := m * 2 ^ (if e % 2 = 0 then 192 else 193)
      let g := if e % 2 = 0 then e else e - 1
      let r := isqrtFrom n (n.log2 / 2 + 1) 0
      (.fin false (2 * r + (if r * r = n then 0 else 1)) (g / 2 - 96 - 1), 0)

/-- a < b by value; −0 counts as less than +0 when `zeros` (R181, R184).  False for NaN. -/
def FVal.lt (zeros : Bool) (a b : FVal) : Bool :=
  match a, b with
  | .nan, _ | _, .nan => false
  | .inf s, .inf t => s && !t
  | .inf s, _ => s
  | _, .inf t => !t
  | .fin s m e, .fin t n g =>
    let q := min e g
    let x := signed s (m * 2 ^ (e - q).toNat)
    let y := signed t (n * 2 ^ (g - q).toNat)
    decide (x < y) || (zeros && decide (x = 0) && decide (y = 0) && s && !t)

/-- a = b by value; −0 equals +0; false for NaN (R184). -/
def FVal.eqv (a b : FVal) : Bool := !a.isNan && !b.isNan && !a.lt false b && !b.lt false a

/-! Integers and residues (R157-R159, R162). -/

/-- The two's-complement value of `w` bits. -/
def toSigned (w n : Nat) : Int := if n < 2 ^ (w - 1) then n else (n : Int) - 2 ^ w

/-- An integer modulo 2^w. -/
def wrapInt (w : Nat) (v : Int) : Nat := (v % (2 ^ w : Int)).toNat

/-- An integer limited to the signed range of `w` bits. -/
def clampInt (w : Nat) (v : Int) : Int := max (-(2 ^ (w - 1) : Int)) (min v (2 ^ (w - 1) - 1))

/-- Clamped with the sat flag when that changes it, or wrapped (R182). -/
def satInt (w : Nat) (sat : Bool) (v : Int) : Nat × FlagSet :=
  if sat then (wrapInt w (clampInt w v), FlagSet.on (decide (clampInt w v ≠ v)) flagSat)
  else (wrapInt w v, 0)

/-- An integer as a value. -/
def FVal.ofInt (v : Int) : FVal := .fin (decide (v < 0)) v.natAbs 0

/-- A value rounded to an integer, and whether that is inexact; none for NaN and infinities. -/
def FVal.toInt (r : Rnd) (x : FVal) : Option (Int × Bool) :=
  match x with
  | .fin s m e =>
    let t := r.multiple s m e 0
    some (signed s t.1, t.2.1)
  | _ => none

/-- Conversion to a two's-complement integer of `w` bits (R162). -/
def FVal.toFixed (w : Nat) (r : Rnd) (sat : Bool) (x : FVal) : Nat × FlagSet :=
  match x.toInt r with
  | some (n, nx) =>
    if clampInt w n = n then (wrapInt w n, FlagSet.on nx flagNx)
    else if sat then (wrapInt w (clampInt w n), flagSat)
    else (2 ^ (w - 1), flagNv)
  | none =>
    match x with
    | .inf neg =>
      if sat then (wrapInt w (if neg then -(2 ^ (w - 1) : Int) else 2 ^ (w - 1) - 1), flagSat)
      else (2 ^ (w - 1), flagNv)
    | _ => (if sat then 0 else 2 ^ (w - 1), flagNv)

/-- The residues of an rns16 element, read reduced (R158). -/
def rnsParts (n : Nat) : Nat × Nat × Nat := (n % 32 % 31, n / 32 % 32, n / 1024 % 64 % 33)
/-- An rns16 element of three residues. -/
def rnsPack (p : Nat × Nat × Nat) : Nat := p.1 + p.2.1 * 32 + p.2.2 * 1024
/-- The residues of an integer. -/
def rnsOfInt (v : Int) : Nat := rnsPack ((v % 31).toNat, (v % 32).toNat, (v % 33).toNat)
/-- Centred CRT (R159). -/
def rnsToInt (n : Nat) : Int :=
  let p := rnsParts n
  let s := (p.1 * 16896 + p.2.1 * 31713 + p.2.2 * 16864) % 32736
  if 16368 ≤ s then (s : Int) - 32736 else s
/-- An operation on each channel. -/
def rnsOp (f : Int → Int → Int) (a b : Nat) : Nat :=
  let p := rnsParts a
  let q := rnsParts b
  rnsPack ((f p.1 q.1 % 31).toNat, (f p.2.1 q.2.1 % 32).toNat, (f p.2.2 q.2.2 % 33).toNat)

/-! Conversions (R162). -/

/-- What an element of a format code holds. -/
inductive Elem where
  | flt (x : FVal)
  | int (v : Int)
  deriving DecidableEq, Repr

/-- The element of an encoding. -/
def decodeElem (code n : Nat) : Elem :=
  match floatFmt code with
  | some f => .flt (f.decode n)
  | none => if code = 8 then .int (rnsToInt n) else .int (toSigned (fmtWidth code) n)

/-- The exact value of an element. -/
def Elem.value : Elem → FVal
  | .flt x => x
  | .int v => FVal.ofInt v

/-- Conversion of an element of format `a` to format `b` (R159, R162).  No rule says whether a floating-point source that rounds
inexactly on its way to rns16 raises inexact: the model raises it (DESIGN CHOICE, log entry 93). -/
def convertElem (a b : Nat) (r : Rnd) (sat : Bool) (n : Nat) : Nat × FlagSet :=
  match decodeElem a n, floatFmt b with
  | e, some f => f.round r sat e.value
  | .int v, none =>
    if b = 8 then (rnsOfInt v, 0)
    else if a = b then (n, 0)
    else satInt (fmtWidth b) sat v
  | .flt x, none =>
    if b = 8 then
      match x.toInt r with
      | some (v, nx) => (rnsOfInt v, FlagSet.on nx flagNx)
      | none => (0, flagNv)
    else x.toFixed (fmtWidth b) r sat

/-! Block scales (R155, R156). -/

/-- The value of an element of an MX block with a scale byte (R155). -/
def mxValue (code scale n : Nat) : FVal :=
  if scale = 255 then .nan
  else
    let k : Int := (scale : Int) - 127
    match floatFmt code with
    | some f => (f.decode n).scale k
    | none => (FVal.ofInt (toSigned 8 n)).scale (k - 6)

/-- emax of R156. -/
def mxEmax (code : Nat) : Int :=
  match code with
  | 5 => 2
  | 3 => 8
  | 4 => 15
  | _ => 0

/-- The larger of two magnitudes, as significand and place. -/
def maxMagnitude (a : Nat × Int) (x : FVal) : Nat × Int :=
  match x with
  | .fin _ m e => if (FVal.fin false a.1 a.2).lt false (.fin false m e) then (m, e) else a
  | _ => a

/-- One element of a quantised block: its bits under a scale exponent (R156). -/
def mxElement (code : Nat) (r : Rnd) (k : Int) (x : FVal) : Nat × FlagSet :=
  let y := x.scale (-k)
  match floatFmt code with
  | some f => f.round r true y
  | none =>
    match (y.scale 6).toInt r with
    | some (v, nx) =>
      let b := max (-127) (min v 127)
      (wrapInt 8 b, FlagSet.on nx flagNx ||| FlagSet.on (decide (b ≠ v)) flagSat)
    | none => (0, 0)

/-- A block quantised: scale byte, elements, flags (R156); element `i` rounds with index `idx + i`. -/
def mxQuantise (code : Nat) (r : Rnd) (xs : List FVal) : Nat × List Nat × FlagSet :=
  let isInf := fun x : FVal => match x with
    | .inf _ => true
    | _ => false
  if xs.any fun x => x.isNan || isInf x then
    (255, xs.map fun _ => 0, FlagSet.on (xs.any isInf) flagNv)
  else
    let big := xs.foldl maxMagnitude (0, 0)
    let scale : Nat :=
      if big.1 = 0 then 0
      else (max (-127) (min ((big.1.log2 : Int) + big.2 - mxEmax code) 127) + 127).toNat
    let es := (xs.zip (List.range xs.length)).map fun p =>
      mxElement code { r with idx := r.idx + p.2 } ((scale : Int) - 127) p.1
    (scale, es.map (·.1), es.foldl (fun f e => f ||| e.2) 0)

/-! The fixed algorithms (R166-R170). -/

/-- A value rounded to f32 by RNE, and whether that was inexact. -/
def rneF32 (x : FVal × FlagSet) : FVal × FlagSet :=
  let t := fmtF32.round rneMode false x.1
  (fmtF32.decode t.1, t.2 &&& flagNx)

/-- An f32 constant. -/
def constF32 (n : Nat) : FVal := fmtF32.decode n

/-- fma(a, b, c) of R166. -/
def fmaF32 (a b c : FVal) : FVal × FlagSet := rneF32 (FVal.fma false a b c)

/-- |x| = m × 2^e with 1 ≤ m < 2. -/
def normalise (m : Nat) (e : Int) : FVal × Int :=
  (.fin false m (-(m.log2 : Int)), e + m.log2)

/-- One step of VRCP. -/
def rcpStep (m : FVal) (s : FVal × FlagSet) : FVal × FlagSet :=
  let h := fmaF32 m.neg s.1 (.fin false 1 0)
  let y := fmaF32 s.1 h.1 s.1
  (y.1, s.2 ||| h.2 ||| y.2)

/-- VRCP before its last rounding (R167). -/
def FVal.rcp (x : FVal) : FVal × FlagSet :=
  match x with
  | .nan => (.nan, 0)
  | .inf s => (.fin s 0 0, 0)
  | .fin s m e =>
    if m = 0 then (.inf s, flagDz)
    else
      let n := normalise m e
      let y0 := (FVal.fma false (.fin true 1 (-1)) n.1 (.fin false 3 (-1))).1
      let y := rcpStep n.1 (rcpStep n.1 (rcpStep n.1 (rcpStep n.1 (y0, 0))))
      let r := y.1.scale (-n.2)
      (if s then r.neg else r, y.2)

/-- One step of VRSQ. -/
def rsqStep (m : FVal) (s : FVal × FlagSet) : FVal × FlagSet :=
  let t := rneF32 (s.1.mul s.1)
  let h := fmaF32 (m.neg.scale (-1)) t.1 (.fin false 3 (-1))
  let y := rneF32 (s.1.mul h.1)
  (y.1, s.2 ||| t.2 ||| h.2 ||| y.2)

/-- VRSQ before its last rounding (R168). -/
def FVal.rsq (x : FVal) : FVal × FlagSet :=
  match x with
  | .nan => (.nan, 0)
  | .inf false => (.fin false 0 0, 0)
  | .inf true => (.nan, flagNv)
  | .fin s m e =>
    if m = 0 then (.inf s, flagDz)
    else if s then (.nan, flagNv)
    else
      let n := normalise m e
      let a := if n.2 % 2 = 0 then n else (n.1.scale 1, n.2 - 1)
      let y0 := rneF32 (FVal.fma false (.fin true 1 (-2)) a.1 (.fin false 3 (-1)))
      let y := rsqStep a.1 (rsqStep a.1 (rsqStep a.1 (rsqStep a.1 (rsqStep a.1 (rsqStep a.1 y0)))))
      (y.1.scale (-(a.2 / 2)), y.2)

/-- One step of a polynomial: p := fma(p, f, c). -/
def hornerStep (f : FVal) (p : FVal × FlagSet) (c : Nat) : FVal × FlagSet :=
  let r := fmaF32 p.1 f (constF32 c)
  (r.1, p.2 ||| r.2)

/-- c6 down to c0 of R170. -/
def exp2Coefficients : List Nat :=
  [0x39218489, 0x3AAEC3FF, 0x3C1D955B, 0x3D635847, 0x3E75FDF0, 0x3F317218, 0x3F800000]

/-- VEXP2 before its last rounding (R170). -/
def FVal.exp2 (x : FVal) : FVal × FlagSet :=
  match x with
  | .nan => (.nan, 0)
  | .inf s => (if s then .fin false 0 0 else .inf false, 0)
  | .fin .. =>
    let x := if x.lt false (.fin true 160 0) then FVal.fin true 160 0
      else if (FVal.fin false 128 0).lt false x then FVal.fin false 128 0 else x
    match x.toInt rneMode with
    | none => (.nan, 0)
    | some (n, _) =>
      let f := (x.add false (FVal.ofInt (-n))).1
      let p := exp2Coefficients.foldl (hornerStep f) (constF32 0x377FE5FE, 0)
      (p.1.scale n, p.2)

/-- d4 down to d0 of R170. -/
def log2Coefficients : List Nat := [0x3EA4258A, 0x3ED30BB1, 0x3F13BB63, 0x3F76384F, 0x4038AA3B]

/-- VLOG2 before its last rounding (R170). -/
def FVal.log2 (x : FVal) : FVal × FlagSet :=
  match x with
  | .nan => (.nan, 0)
  | .inf s => if s then (.nan, flagNv) else (.inf false, 0)
  | .fin neg m e =>
    if m = 0 then (.inf true, flagDz)
    else if neg then (.nan, flagNv)
    else
      let n := normalise m e
      let big := (constF32 0x3FB504F3).lt false n.1
      let a := if big then (n.1.scale (-1), n.2 + 1) else n
      let t := (a.1.add false (.fin true 1 0)).1
      let u := rneF32 (t.add false (.fin false 1 1))
      let s := rneF32 (t.div u.1)
      let w := rneF32 (s.1.mul s.1)
      let p := log2Coefficients.foldl (hornerStep w.1) (constF32 0x3E864D42, 0)
      let sp := rneF32 (s.1.mul p.1)
      ((FVal.ofInt a.2).add false sp.1 |>.1, u.2 ||| s.2 ||| w.2 ||| p.2 ||| sp.2)

end Sys2Proof.Machine
end

