-- ==== Sys2Proof/Machine/Copy.lean ====
section
/-! DEFINITION. The copy engine (R225-R238): descriptors, CPY, CPYX and CSTAT, the walk of a box, and
completion. -/

namespace Sys2Proof.Machine

/-! Descriptors (R226-R232). -/

/-- Word `i` of a descriptor. -/
def CopyCmd.w (c : CopyCmd) (i : Nat) : Word := wordAt c.desc i

/-- The kind of a descriptor: 1 CPY, 2 CPYX. -/
def copyKind (ws : List Word) : Nat := Word.field (wordAt ws 0) 63 60
/-- The words of a descriptor by its kind. -/
def copyWords (kind : Nat) : Nat := if kind = 1 then 16 else 32
/-- The first pair of a descriptor by its kind (R227). -/
def copyPairs (kind : Nat) : Nat := if kind = 1 then 3 else 4

/-- Fields of word 0 (R226). -/
def copyDims (ws : List Word) : Nat := Word.field (wordAt ws 0) 55 52
def copyFill (ws : List Word) : Nat := Word.field (wordAt ws 0) 49 48
def copySwz (ws : List Word) : Nat := Word.field (wordAt ws 0) 47 46
def copyStat (ws : List Word) : Bool := (wordAt ws 0).getLsbD 45
def copyClose (ws : List Word) : Bool := (wordAt ws 0).getLsbD 44
def copyRed (ws : List Word) : Bool := (wordAt ws 0).getLsbD 43
def copyCvt (ws : List Word) : Bool := (wordAt ws 0).getLsbD 42
def copyCode (ws : List Word) : Bool := (wordAt ws 0).getLsbD 41
def copySfmt (ws : List Word) : Nat := Word.field (wordAt ws 0) 40 37
def copyDfmt (ws : List Word) : Nat := Word.field (wordAt ws 0) 36 33
def copyRnd (ws : List Word) : Nat := Word.field (wordAt ws 0) 32 30
def copySat (ws : List Word) : Bool := (wordAt ws 0).getLsbD 29
def copyTag (ws : List Word) : Nat := Word.field (wordAt ws 0) 27 16
def copyMask (ws : List Word) : Nat := Word.field (wordAt ws 0) 15 0

/-- Pair words A and B of dimension `d` (R227). -/
def pairA (ws : List Word) (d : Nat) : Word := wordAt ws (copyPairs (copyKind ws) + 2 * d)
def pairB (ws : List Word) (d : Nat) : Word := wordAt ws (copyPairs (copyKind ws) + 2 * d + 1)
def pairCount (ws : List Word) (d : Nat) : Nat := Word.field (pairB ws d) 63 44

/-- A format that conversion takes (R229). -/
def copyFormat (f : Nat) : Bool := decide (f ≤ 4) || (decide (6 ≤ f) && decide (f ≤ 8))

/-- The checks of the dimensions (R227). -/
def copyPairsOk (ws : List Word) (kind : Nat) : Bool :=
  let n := copyDims ws
  decide (1 ≤ n) && decide (n ≤ if kind = 1 then 5 else 14) &&
  ((List.range n).all fun d => pairCount ws d != 0 && (kind == 2 || Word.field (pairB ws d) 43 0 == 0)) &&
  ((List.range ((if kind = 1 then 5 else 14) - n)).all fun d => pairA ws (n + d) == 0 && pairB ws (n + d) == 0)

/-- The checks of an expert descriptor's conversion, fill, multicast and code load (R229, R231, R236). -/
def copyExpertOk (ws : List Word) : Bool :=
  let cvt := copyCvt ws
  let fill := copyFill ws
  let mask := copyMask ws
  (if cvt then copyFormat (copySfmt ws) && copyFormat (copyDfmt ws) && copyRnd ws != 7 && Word.field (wordAt ws 0) 51 50 == 0
    else copySfmt ws == 0 && copyDfmt ws == 0 && copyRnd ws == 0 && !copySat ws) &&
  (fill != 2 || (cvt && decide (copyDfmt ws ≤ 4))) && (fill == 3 || wordAt ws 3 == 0) &&
  !(copyClose ws && mask != 0) && !(mask != 0 && Word.field (wordAt ws 2) 63 48 == 0) &&
  (!copyCode ws || (!cvt && !copyRed ws && fill == 0 && copySwz ws == 0 && mask == 0 &&
    decide (Word.field (wordAt ws 2) 47 0 < 0x100000)))

/-- A descriptor passes the checks of R226 to R232. -/
def copyOk (ws : List Word) : Bool :=
  let w0 := wordAt ws 0
  let kind := copyKind ws
  (kind == 1 || kind == 2) && !w0.getLsbD 28 && (w0.getLsbD 59 || Word.field w0 58 56 == 0) &&
  Word.field (wordAt ws 1) 63 48 == 0 && copyPairsOk ws kind &&
  (if kind = 1 then
    copyFill ws == 0 && copySwz ws == 0 && !copyRed ws && Word.field w0 42 29 == 0 && copyMask ws == 0 &&
    Word.field (wordAt ws 2) 63 48 == 0 && ((ws.drop 13).all (· == 0))
  else copyExpertOk ws)

/-! Enqueuing (R225, R217). -/

/-- What happens to a command that the issuing context hands to its engine. -/
inductive Handed where
  /-- taken -/
  | taken (s : State)
  /-- it must wait -/
  | wait (w : Wait) (s : State)
  | bad (cause : Nat) (tval : Word)

/-- A checked descriptor enqueued at the tile's copy engine; `word` is the instruction's (R225). -/
def State.enqueueCopy (s : State) (ws : List Word) (word : Word) : Handed :=
  let c := s.ctx
  let frm := Word.field c.frm 2 0
  if copyCvt ws ∧ copyRnd ws = 6 ∧ 6 ≤ frm then .bad 0x0B c.frm
  else if copyCode ws ∧ !c.inh then .bad 0x01 word
  else if copyStat ws ∧ 16 ≤ c.q1.length + c.q1res then .wait (.room 1 0) s
  else if !s.me.copyRoom then .wait (.room 0 0) s
  else
    let w0 := wordAt ws 0
    let cmd : CopyCmd :=
      { id := s.fresh, iss := s.issuer, ctx := s.curCtx, group := c.group
        colour := if w0.getLsbD 59 then Word.field w0 58 56 else c.colour
        fseed := c.fseed, frm := frm, desc := ws, image := none, n := 0, destsDone := 0, tile := none
        fillBuf := none, ended := none }
    let s := { s with fresh := s.fresh + 16384 }
    let s := s.setMe { s.me with copyQ := s.me.copyQ ++ [cmd] }
    .taken (s.setCtx { c with copyOut := c.copyOut + 1, q1res := c.q1res + (copyStat ws).toNat })

/-- The captured descriptor of an instruction that has parked, or the one it reads now (R225). -/
def State.captured (s : State) (a n : Nat) : List Word :=
  if s.ctx.phase = 1 then s.ctx.notes.map (BitVec.ofNat 64 ·)
  else bytesWords (readBytes s.mem (localPa s.cur a) n)

/-- The descriptor kept by an instruction that parks. -/
def State.keep (s : State) (ws : List Word) : State := s.setCtx { s.ctx with phase := 1, notes := ws.map (·.toNat) }

/-- CPY and CPYX: `kind` and `n` bytes (R225). -/
def State.copying (s : State) (a word : Word) (kind n : Nat) : Eff :=
  let va := a.toNat
  let ws := s.captured va n
  if va % n ≠ 0 then .trap 0x04 a s
  else if !(isLocal va && s.localOk va n false) then .trap 0x05 (0x0005000000000000 ||| a) s
  else if copyKind ws ≠ kind ∨ !copyOk ws then .trap 0x0B a s
  else
    let t := if s.ctx.phase = 0 ∧ s.poisoned (localPa s.cur va) n
      then s.report s.issuer 0x28 s.ctx.colour a else s
    match t.enqueueCopy ws word with
    | .taken s => .done s
    | .wait w s => .stay w (s.keep ws)
    | .bad cause tval => .trap cause tval s

/-- CPY (R225). -/
def execCpy (h : Head) (a : Reg) (s : State) : Out :=
  .next (s.run clsTaskOnly (.cpy h a) h true [ux a] fun s =>
    s.copying (s.ctx.rx a) ((Instr.cpy h a).wordOf.setWidth 64) 1 128)

/-- CPYX (R225). -/
def execCpyx (h : Head) (a : Reg) (s : State) : Out :=
  .next (s.run clsTaskOnly (.cpyx h a) h true [ux a] fun s =>
    s.copying (s.ctx.rx a) ((Instr.cpyx h a).wordOf.setWidth 64) 2 256)

/-- CSTAT's result (R237). -/
def Ctx.copyStatus (c : Ctx) : Word :=
  BitVec.ofNat 64 (c.copyOut % 2 ^ 16 * 2 ^ 48 + c.q1.length % 256 * 2 ^ 32 + c.ltag % 2 ^ 12 * 2 ^ 20 + c.lcause % 256 * 2 ^ 12)

/-- CSTAT (R237). -/
def execCstat (h : Head) (d : Reg) (s : State) : Out :=
  .next (s.run clsMisc (.cstat h d) h true [ux d] fun s => .done (s.setCtx (s.ctx.wx d s.ctx.copyStatus)))

/-! The box (R228). -/

/-- The index vector of linear element `n`, dimension 0 first. -/
def boxIndex : List Nat → Nat → List Nat
  | [], _ => []
  | k :: r, n => n % k :: boxIndex r (n / k)

/-- The elements of a box. -/
def boxSize (ws : List Word) : Nat := ((List.range (copyDims ws)).map (pairCount ws)).foldl (· * ·) 1

/-- The signed field of `w` bits. -/
def sfield (x : Nat) (w : Nat) : Int := toSigned w x

/-- An address modulo 2^64. -/
def wrapVa (a : Int) : Nat := wrapInt 64 a

/-- Source address, destination address and whether the element lies within its bounds (R228). -/
def copyElement (ws : List Word) (n : Nat) : Nat × Nat × Bool :=
  let dims := List.range (copyDims ws)
  let ix := boxIndex (dims.map (pairCount ws)) n
  let one := fun (a : Int × Int × Bool) (p : Nat × Nat) =>
    let c := sfield (Word.field (pairB ws p.1) 43 22) 22 + p.2
    let bound := Word.field (pairB ws p.1) 21 0
    (a.1 + c * sfield (Word.field (pairA ws p.1) 63 32) 32, a.2.1 + p.2 * sfield (Word.field (pairA ws p.1) 31 0) 32,
      a.2.2 && !(bound != 0 && (decide (c < 0) || decide ((bound : Int) ≤ c))))
  let r := (dims.zip ix).foldl one ((Word.field (wordAt ws 1) 47 0 : Int), (Word.field (wordAt ws 2) 47 0 : Int), true)
  (wrapVa r.1, wrapVa r.2.1, r.2.2)

/-- Source and destination element widths in bytes. -/
def copySrcBytes (ws : List Word) : Nat :=
  if copyCvt ws then fmtWidth (copySfmt ws) / 8 else 2 ^ Word.field (wordAt ws 0) 51 50
def copyDstBytes (ws : List Word) : Nat :=
  if copyCvt ws then fmtWidth (copyDfmt ws) / 8 else 2 ^ Word.field (wordAt ws 0) 51 50

/-- The destinations that the multicast mask selects, ascending (R231). -/
def copyTargets (ws : List Word) : List Nat :=
  if copyMask ws = 0 then [0] else (List.range 16).filter fun j => (copyMask ws).testBit j

/-- The destination of element address `t` for multicast index `j`, before swizzling. -/
def copyDest (ws : List Word) (t j : Nat) : Nat :=
  wrapVa ((t : Int) + j * sfield (Word.field (wordAt ws 2) 63 48) 16 * 2 ^ 17)

/-- The bank swizzle of an address (R230). -/
def swizzle (b va : Nat) : Nat := va ^^^ (va / 2 ^ 9 % 2 ^ b * 2 ^ 6)

/-! One access of an engine. -/

/-- What an engine's access gives: it goes on, waits for a walk or another package, or stops. -/
inductive Got (α : Type) where
  | ok (a : α)
  | wait (s : State)
  | stop (cause : Nat) (tval : Word)

/-- Who reads and writes for a command: the requester of translations, its place, and whose rights count. -/
structure Agent where
  kind : Nat
  place : Nat
  core : Nat
  ctx : Nat
  group : Nat
  cmd : Nat
  iss : Issuer
  colour : Nat
  lane : Nat
  deriving DecidableEq, Repr

/-- Who waits for an engine's translations: a copy command's context, or a quad. -/
def Agent.asker (a : Agent) : Asker := { kind := a.kind, place := a.place, ctx := if a.kind = 1 then a.ctx else 0 }

/-- A message of an engine to a spot. -/
def State.engineMsg (s : State) (a : Agent) (p : Spot) (b : Body) : Msg :=
  { iss := a.iss, more := [], pkg := p.pkg, home := p.home, colour := a.colour, group := a.group, cmd := a.cmd, body := b
    lane := a.lane, key := s.keyOf a.iss.task.slot p.e }

/-- An engine's failed check: a translation failure is 0x25, anything else what a core would raise (R235). -/
def engineCause (cause : Nat) : Nat := if cause = 0x05 then 0x25 else cause

/-- A spot that an engine reaches, by R43 steps 1 to 3. -/
def State.engineSpot (s : State) (a : Agent) (va : Nat) (n : Nat) (k : AKind) : Got Spot :=
  let slot := a.iss.task.slot
  match s.checkFor a.kind a.place a.asker.ctx slot a.group a.core va (fun _ => n) k with
  | .ok p => .ok p
  | .miss v => .wait (s.ask a.asker slot v)
  | .trap cause tval => .stop (engineCause cause) tval

/-- Local rights of a command's context (R27, R232). -/
def State.engineLocal (s : State) (a : Agent) (va n : Nat) (store : Bool) : Bool :=
  isLocal (va + n - 1) && localRight (s.core a.core).xb.toNat a.ctx false store va

/-- The bytes that an engine reads at a local address. -/
def State.engineHere (s : State) (a : Agent) (va n : Nat) : Got (List Byte) :=
  if !s.engineLocal a va n false then .stop 0x25 (xlatTval 5 va)
  else if va % n ≠ 0 then .stop 0x04 (BitVec.ofNat 64 va)
  else if s.poisoned (localPa a.core va) n then .stop 0x28 (BitVec.ofNat 64 va)
  else .ok (readBytes s.mem (localPa a.core va) n)

/-- The bytes of a page in another package: asked for once, then waited for. -/
def State.engineFar (s : State) (a : Agent) (p : Spot) (n : Nat) : Got (List Byte) :=
  match s.fetched.find? fun f => f.1 == a.cmd && f.2.1 == p.va with
  | some (_, _, some (.vec v)) => .ok (natBytes n v.toNat)
  | some (_, _, some (.word w)) => .ok (natBytes n w.toNat)
  | some (_, _, some (.fault cause va _)) => .stop cause (BitVec.ofNat 64 va)
  | some _ => .wait s
  | none =>
    let m := s.engineMsg a p (.load p.pa p.va p.e.ctype n p.chain false { isV := decide (8 < n), reg := p.va } 64)
    .wait ({ s with fetched := s.fetched ++ [(a.cmd, p.va, none)] }.send m)

/-- One read of `n` bytes by an engine (R192, R233); a code load reads CODE and PRIV pages only (R236). -/
def State.engineRead (s : State) (a : Agent) (va n : Nat) (code : Bool) : Got (List Byte) :=
  if isLocal va then s.engineHere a va n
  else match s.engineSpot a va n .anyGroup with
    | .wait s => .wait s
    | .stop cause tval => .stop cause tval
    | .ok p =>
      if (if code then p.e.ctype ≠ 0 ∧ p.e.ctype ≠ 0xC else p.e.ctype = 0xC) then .stop 0x25 (xlatTval 5 va)
      else if p.pkg ≠ s.pkg then s.engineFar a p n
      else
        match (s.seen (s.keyOf a.iss.task.slot p.e) p.pa).loadAt p.pa p.e.ctype n p.chain with
        | .error cause => .stop cause (BitVec.ofNat 64 va)
        | .ok bs => if s.poisoned p.pa n then .stop 0x28 (BitVec.ofNat 64 va) else .ok bs

/-- The homes of this package that serve an engine's reads. -/
def State.readHomes (s : State) (a : Agent) (rs : List (Nat × Nat)) : List Nat :=
  rs.filterMap fun r =>
    if isLocal r.1 then none
    else match s.engineSpot a r.1 r.2 .anyGroup with
      | .ok p => if p.pkg = s.pkg then some p.home else none
      | _ => none

/-- An engine's reads take their places in the orders of their homes (R355), up to the first that `good` does not name; an
error is the point that holds them in a replay (R356). -/
def State.serveReads (s : State) (a : Agent) (good : Nat × Nat → Bool) (rs : List (Nat × Nat)) : Except (Nat × Nat) State :=
  let slot := a.iss.task.slot
  if (s.logOf slot).isNone then .ok s
  else
    let choice := tileWord a.core * 4 + a.ctx % 4
    (s.readHomes a (rs.take ((rs.takeWhile good).length + 1))).foldlM (init := s) fun t h =>
      if t.mayChoose slot (logTile h) 6 choice then .ok (t.chose slot (logTile h) 6 choice) else .error (slot, logTile h)

/-- What a write of an engine becomes (R232). -/
inductive Put where
  | here (va : Nat)
  | msg (m : Msg)
  | fill (m : Msg)
  | tile (base size : Nat) (p : Spot)
  deriving DecidableEq, Repr

/-- One write of an engine by its destination page (R232): `red` allows reduce-on-store, `below` allows a code
load, `stack` says that a destination in a stack is allowed. -/
def State.engineWrite (s : State) (a : Agent) (va : Nat) (bs : List Byte) (red below stack : Bool) : Got Put :=
  let n := bs.length
  let kindStop : Got Put := .stop 0x25 (xlatTval 5 va)
  let width : Got Put := .stop 0x08 (BitVec.ofNat 64 va)
  if isLocal va then
    if !(if below then decide (va + n ≤ 0x100000) else s.engineLocal a va n true) then kindStop
    else if va % n ≠ 0 then .stop 0x04 (BitVec.ofNat 64 va)
    else .ok (.here va)
  else match s.engineSpot a va n .own with
    | .wait s => .wait s
    | .stop cause tval => .stop cause tval
    | .ok p =>
      let ty := p.e.ctype
      let join := s.engineMsg a p (.join p.pa va ty p.e.width bs true)
      if below || (!stack && p.e.space != 2) then kindStop
      else match ty with
        | 0 => .ok (.msg (s.engineMsg a p (.store p.pa va bs)))
        | 7 => if n = 2 ^ p.e.width then .ok (.msg join) else width
        | 8 => .ok (.tile (cellVa ty p.e.width va) (cellBytes ty p.e.width) p)
        | 0xA => if n = 8 then .ok (.msg join) else width
        | 0xB => .ok (.fill (s.engineMsg a p (.fill p.pa va p.chain bs false)))
        | 0xC => kindStop
        | _ => if !red then kindStop else if n = 2 ^ p.e.width then .ok (.msg join) else width

/-- Local bytes written by an engine. -/
def State.engineStore (s : State) (a : Agent) (va : Nat) (bs : List Byte) : State :=
  let pa := localPa a.core va
  let bad := s.partPoison pa bs.length
  let s := s.poke pa bs
  if bad then s.report a.iss 0x28 a.colour (BitVec.ofNat 64 va) else s

/-! The walk. -/

/-- The agent of a copy command. -/
def CopyCmd.agent (c : CopyCmd) (core : Nat) : Agent :=
  { kind := 1, place := core, core := core, ctx := c.ctx, group := c.group, cmd := c.id, iss := c.iss, colour := c.colour
    lane := laneNumber c.iss.task.pkg core c.ctx 1 }

/-- The value that element `n` writes, with its flags (R228, R229); none where it is skipped. -/
def State.copyValue (s : State) (a : Agent) (c : CopyCmd) (src : Nat) (inb : Bool) : Got (Option (Nat × FlagSet)) :=
  let ws := c.desc
  let dn := copyDstBytes ws
  if inb then
    match s.engineRead a src (copySrcBytes ws) (copyCode ws) with
    | .wait s => .wait s
    | .stop cause tval => .stop cause tval
    | .ok bs =>
      let v := bytesNat bs
      if copyCvt ws then
        let code := if copyRnd ws = 6 then c.frm else copyRnd ws
        .ok (some (convertElem (copySfmt ws) (copyDfmt ws) { mode := rmode code, seed := c.fseed, idx := c.n } (copySat ws) v))
      else .ok (some (v, 0))
  else match copyFill ws with
    | 0 => .ok none
    | 1 => .ok (some (0, 0))
    | 2 => .ok (some (match floatFmt (copyDfmt ws) with
      | some f => f.canonical
      | none => 0, 0))
    | _ => .ok (some ((wordAt ws 3).toNat % 2 ^ (8 * dn), 0))

/-- A command of a core replaced, by its number. -/
def CoreSt.putCopy (k : CoreSt) (c : CopyCmd) : CoreSt :=
  { k with copyQ := k.copyQ.map fun d => if d.id = c.id then c else d }

/-- A command of a core replaced. -/
def State.putCopy (s : State) (core : Nat) (c : CopyCmd) : State := s.setCore core ((s.core core).putCopy c)

/-- The coalesced bytes sent, and the writes that follow them (R232). -/
def State.flushFill (s : State) (c : CopyCmd) (close : Bool) : State :=
  let s := match c.fillBuf with
    | none => s
    | some m =>
      match m.body with
      | .fill pa va ch bs _ => s.send { m with body := .fill pa va ch bs close }
      | _ => s
  c.after.foldl State.send s

/-- Two fill writes as one, when the second continues the first within 64 bytes (R232). -/
def joinFills (a b : Msg) : Option Msg :=
  match a.body, b.body with
  | .fill pa va ch x c, .fill pb _ _ y _ =>
    if pb = pa + x.length ∧ pa / 64 = pb / 64 ∧ a.home = b.home ∧ a.pkg = b.pkg
    then some { a with body := .fill pa va ch (x ++ y) c } else none
  | _, _ => none

/-- A command ends at element `n` with a cause (R235): what it coalesced is sent, without close. -/
def State.haltCopy (s : State) (core : Nat) (c : CopyCmd) (n cause : Nat) (tval : Word) : State :=
  let s := s.flushFill c false
  let s := s.report c.iss cause c.colour tval
  (s.forget 1 core c.ctx).putCopy core
    { c with n := n, destsDone := 0, value := none, fillBuf := none, first := none, after := [], tile := none, ended := some cause }

/-- A tile that is not complete stops its command at its first element (R232). -/
def State.tileStop (s : State) (core : Nat) (c : CopyCmd) (t : Nat × Nat × List (Nat × List Byte)) : State :=
  s.haltCopy core c t.2.1 0x08 (BitVec.ofNat 64 t.1)

/-- A command stops at an element with a cause (R235); within a tile that is not complete it stops at the tile's first
element, the first that is not written (R232) (DEDUCED, log entry 43). -/
def State.stopCopy (s : State) (core : Nat) (c : CopyCmd) (n cause : Nat) (tval : Word) : State :=
  match c.tile with
  | some t => s.tileStop core c t
  | none => s.haltCopy core c n cause tval

/-- The bytes of a tile whose pieces cover it. -/
def tileBytes (ps : List (Nat × List Byte)) (size piece : Nat) : List Byte :=
  (List.range (size / piece)).flatMap fun i => ((ps.find? fun p => p.1 == i * piece).map (·.2)).getD []

/-- A write of a command leaves behind the bytes that it has coalesced; while these may be its last fill write, which
closes, it waits with them (R232, R234). -/
def State.putMsg (s : State) (c : CopyCmd) (m : Msg) : State × CopyCmd :=
  if c.fillBuf.isSome ∧ copyClose c.desc then (s, { c with after := c.after ++ [m] })
  else ((s.flushFill c false).send m, { c with fillBuf := none, first := none, after := [] })

/-- One piece of an ONCET tile gathered; the tile is sent with its last byte (R232). -/
def State.gatherTile (s : State) (core : Nat) (a : Agent) (c : CopyCmd) (va base size : Nat) (p : Spot) (bs : List Byte) :
    Except State (State × CopyCmd) :=
  let t := match c.tile with
    | some t => t
    | none => (base, c.n, [])
  if t.1 ≠ base ∨ t.2.2.any (·.1 == va - base) then .error (s.tileStop core c t)
  else
    let ps := (va - base, bs) :: t.2.2
    if ps.length * bs.length < size then .ok (s, { c with tile := some (base, t.2.1, ps) })
    else
      let m := s.engineMsg a p (.join (p.pa - (va - base)) base 8 p.e.width (tileBytes ps size bs.length) true)
      .ok (s.putMsg { c with tile := none } m)

/-- A write that is no tile piece meets a tile that is not complete. -/
def CopyCmd.broken (c : CopyCmd) : Option (Nat × Nat × List (Nat × List Byte)) := c.tile

/-- A code load writes byte `va` of a core: the word that holds it keeps its old value beside it (R90). -/
def State.noteCode (s : State) (core id va : Nat) : State :=
  let k := s.core core
  let w := va / 4 * 4
  let e := match k.loading.find? fun e => e.1 == w with
    | some (_, _, old, written) => (id, old, written ||| (1#4 <<< (va % 4)))
    | none => (id, BitVec.ofNat 32 (readNat s.mem (localPa core w) 4), 1#4 <<< (va % 4))
  s.setCore core { k with loading := setAt k.loading w e }

/-- One write of a command made: the state and the command, or the state in which the command has stopped. -/
def State.copyPut (s : State) (core : Nat) (a : Agent) (c : CopyCmd) (va : Nat) (bs : List Byte) :
    Put → Except State (State × CopyCmd)
  | .tile base size p => s.gatherTile core a c va base size p bs
  | w =>
    match c.broken with
    | some t => .error (s.tileStop core c t)
    | none =>
      match w with
      | .here _ =>
        let s := if copyCode c.desc then (List.range bs.length).foldl (fun s i => s.noteCode core c.id (va + i)) s else s
        .ok (s.engineStore a va bs, { c with first := none })
      | .fill m =>
        match c.fillBuf.bind fun f => if c.after.isEmpty then joinFills f m else none with
        | some f => .ok (s, { c with fillBuf := some f })
        | none =>
          .ok (s.flushFill c false, { c with fillBuf := some m, first := if c.destsDone = 0 then some c.n else none, after := [] })
      | .msg m => .ok (s.putMsg c m)
      | .tile .. => .ok (s, c)

/-- The destinations of element `n` that are left, written in ascending order (R231). -/
def State.copyDests (s : State) (core : Nat) (a : Agent) (c : CopyCmd) (t : Nat) (bs : List Byte) : List Nat → State
  | [] =>
    ({ s with fetched := s.fetched.filter (·.1 != c.id) }.forget 1 core c.ctx).putCopy core
      { c with n := c.n + 1, destsDone := 0, value := none }
  | j :: r =>
    let va := swizzle (copySwz c.desc) (copyDest c.desc t j)
    match s.engineWrite a va bs (copyRed c.desc) (copyCode c.desc) (copySwz c.desc == 0) with
    | .wait s => s.putCopy core c
    | .stop cause tval => s.stopCopy core c c.n cause tval
    | .ok w =>
      match s.copyPut core a c va bs w with
      | .error s => s
      | .ok q => q.1.copyDests core a { q.2 with destsDone := j + 1 } t bs r

/-- The end of a walk (R228, R232): an incomplete tile stops the command, and the last fill write may close. -/
def State.endCopy (s : State) (core : Nat) (c : CopyCmd) : State :=
  match c.tile with
  | some t => s.tileStop core c t
  | none => (s.flushFill c (copyClose c.desc)).putCopy core { c with fillBuf := none, first := none, after := [], ended := some 0 }

/-- GSND's fill of a slot (R329): one ONCET join of the whole tile. -/
def State.sendImage (s : State) (core : Nat) (c : CopyCmd) (va : Nat) (image : List Byte) : State :=
  let a := c.agent core
  match s.engineSpot a va 128 .own with
  | .wait s => s
  | .stop cause tval => s.stopCopy core c 0 cause tval
  | .ok p =>
    ((s.send (s.engineMsg a p (.join p.pa va p.e.ctype p.e.width image true))).forget 1 core c.ctx).putCopy core { c with n := 1, ended := some 0 }

/-- The value of an element, read once for all its destinations (R228). -/
def State.copyOnce (s : State) (a : Agent) (c : CopyCmd) (src : Nat) (inb : Bool) : Got (Option (Nat × FlagSet)) :=
  match c.value with
  | some v => .ok (some (v, 0))
  | none => s.copyValue a c src inb

/-- The read of an element, unless it has been made, in the order of its home (R355, R356). -/
def State.copyServes (s : State) (a : Agent) (c : CopyCmd) (src : Nat) (inb : Bool) : Except (Nat × Nat) State :=
  if inb ∧ c.value.isNone then s.serveReads a (fun _ => true) [(src, copySrcBytes c.desc)] else .ok s

/-- What an element's value, or its failure, leads to (R228). -/
def State.putElement (s : State) (core : Nat) (c : CopyCmd) (t : Nat) (r : Got (Option (Nat × FlagSet))) : State :=
  match r with
  | .wait s => s
  | .stop cause tval => s.stopCopy core c c.n cause tval
  | .ok none => s.putCopy core { c with n := c.n + 1 }
  | .ok (some (v, flags)) =>
    let s := s.orFlags c.iss flags
    s.copyDests core (c.agent core) { c with value := some v } t (natBytes (copyDstBytes c.desc) v) ((copyTargets c.desc).filter fun j => c.destsDone ≤ j)

/-- One element of a command's box (R228). -/
def State.runCopy (s : State) (core : Nat) (c : CopyCmd) : State :=
  match c.image with
  | some (va, image) => s.sendImage core c va image
  | none =>
    if boxSize c.desc ≤ c.n then s.endCopy core c
    else
      let a := c.agent core
      let e := copyElement c.desc c.n
      match s.copyOnce a c e.1 e.2.2 with
      | .wait s => s
      | r => match s.copyServes a c e.1 e.2.2 with
        | .error _ => s
        | .ok t => t.putElement core c e.2.1 r

/-- A command has messages that are not applied. -/
def State.copyOwes (s : State) (id : Nat) : Bool :=
  (s.net.any fun m => m.isOf id && m.body.fenced) || (s.outbox.any fun m => m.isOf id && m.body.fenced) ||
  (s.heldFills.any fun m => m.cmd == id)

/-- The command of a context that may run: the first whose walk has not ended, unless an earlier one, or its
own, has a write held at a buffer (R234). -/
def State.copyActive (s : State) (core ctx : Nat) : Option CopyCmd :=
  let mine := (s.core core).copyQ.filter fun c => c.ctx == ctx
  let held := fun (d : CopyCmd) => s.heldFills.any fun m => m.cmd == d.id
  match mine.find? fun c => c.ended.isNone with
  | none => none
  | some c => if mine.any fun d => decide (d.id ≤ c.id) && held d then none else some c

/-- A command waits for a walk, or for another package. -/
def State.copyWaits (s : State) (core : Nat) (c : CopyCmd) : Bool :=
  (s.walks.any fun w => w.askers.contains (c.agent core).asker) || s.fetched.any fun f => f.1 == c.id && f.2.2.isNone

/-- The command of a context that the engine may serve. -/
def State.copyReady (s : State) (core ctx : Nat) : Option CopyCmd :=
  (s.copyActive core ctx).filter fun c => !s.preempted c.iss.task.slot && !s.copyWaits core c

/-- The context that the engine serves: the one whose 64-byte message is not complete, then round-robin by context number
(R234). -/
def State.copyTurn (s : State) (core : Nat) : Option Nat :=
  let k := s.core core
  let order := [1, 2, 3, 4].map fun i => (k.copyLast + i) % 4
  (if k.copyKeep then k.copyLast :: order else order).find? fun i => (s.copyReady core i).isSome

/-- The point that holds the command that the engine serves, in a replay (R356). -/
def State.copyHeld (s : State) (core ctx : Nat) : List (Nat × Nat) :=
  match s.copyReady core ctx with
  | none => []
  | some c =>
    let a := c.agent core
    let e := copyElement c.desc c.n
    if c.image.isSome ∨ boxSize c.desc ≤ c.n then []
    else match s.copyOnce a c e.1 e.2.2, s.copyServes a c e.1 e.2.2 with
      | .wait _, _ => []
      | _, .error p => [p]
      | _, .ok _ => []

/-- Everything that an engine's command has sent. -/
def State.sentBy (s : State) (id : Nat) : Nat := ((s.net ++ s.outbox).filter fun m => m.isOf id).length

/-- One element of the command that the engine serves, whose message is complete when something has left or nothing is
being gathered. -/
def State.serveCopy (s : State) (core ctx : Nat) (c : CopyCmd) : State :=
  let t := s.runCopy core c
  let k := t.core core
  let gathers := k.copyQ.any fun d => d.id == c.id && (d.fillBuf.isSome || d.tile.isSome) && d.ended.isNone
  t.setCore core { k with copyLast := ctx, copyKeep := gathers && t.sentBy c.id == s.sentBy c.id }

/-- COPY_COMMAND_RUN (R228): one element of the command that the engine serves for a context (DEDUCED, log entry 43). -/
def execCopyCommandRun (core ctx : Nat) (s : State) : Out :=
  match s.copyReady core ctx with
  | none => .next s
  | some c => if s.copyTurn core = some ctx then .next (s.serveCopy core ctx c) else .next s

/-- A command goes back to its element `n`, of which nothing has left. -/
def CopyCmd.backTo (c : CopyCmd) (n : Nat) : CopyCmd := { c with n := n, fillBuf := none, first := none, after := [], tile := none }

/-- A command between two elements stops (R238): every element below its n has left, and none at or above it.  Coalesced bytes
leave; where their write may be the last, which closes, and where a tile is not complete, the command goes back to the first
element that has not left (DEDUCED, log entry 43). -/
def State.settleCopy (s : State) (core : Nat) (c : CopyCmd) : State :=
  let c := { c with value := none }
  let s := { s with fetched := s.fetched.filter fun f => f.1 != c.id }
  match if copyClose c.desc ∧ c.fillBuf.isSome then c.first else none, c.tile with
  | some n, _ => s.putCopy core (c.backTo n)
  | none, some t =>
    if (copyTargets c.desc).length ≠ 1 then s.tileStop core c t
    else if copyClose c.desc then s.putCopy core { c with n := t.2.1, tile := none }
    else (s.flushFill c false).putCopy core (c.backTo t.2.1)
  | none, none =>
    if copyClose c.desc then s.putCopy core c else (s.flushFill c false).putCopy core { c with fillBuf := none, first := none, after := [] }

/-- The walk that a command waits for ends, in its turn or before it. -/
def State.copyWalk (s : State) (core : Nat) (c : CopyCmd) : State :=
  match s.walks.findIdx? fun w => w.askers.contains (c.agent core).asker with
  | some i => match s.walks[i]? with
    | some w => s.endWalk i w
    | none => s
  | none => s

/-- What a pre-emption makes of a command (R238): the element that it stands within is finished, in at most one turn for each
of its destinations, and the command stops behind it. -/
def State.boundary (s : State) (core : Nat) (id : Nat) : Nat → State
  | 0 => s
  | n + 1 =>
    match (s.core core).copyQ.find? fun c => c.id == id && c.ended.isNone with
    | none => s
    | some c =>
      if c.destsDone = 0 then s.settleCopy core c
      else State.boundary ((s.copyWalk core c).runCopy core c) core id n

/-! Completion (R237). -/

/-- The status word of a command (R237). -/
def CopyCmd.status (c : CopyCmd) : Word :=
  BitVec.ofNat 64 (copyTag c.desc * 2 ^ 52 + c.ended.getD 0 % 256 * 2 ^ 44 + c.n % 2 ^ 44)

/-- A command leaves the engine: its tag and cause stay with its context, its status word goes to q1. -/
def State.finishCopy (s : State) (core : Nat) (c : CopyCmd) : State :=
  let k := s.core core
  let s := s.setCore core { k with
    copyQ := k.copyQ.filter (·.id != c.id)
    loading := k.loading.filter fun e => e.2.1 != c.id }
  if c.image.isSome then s
  else
    let stat := copyStat c.desc
    let f := fun (x : Ctx) =>
      { x with
        copyOut := x.copyOut - 1
        ltag := copyTag c.desc
        lcause := c.ended.getD 0
        q1res := if stat then x.q1res - 1 else x.q1res }
    let s := (s.onTask c.iss.task f).getD s
    if stat then s.deliverWord c.iss 1 c.status else s

/-- COPY_COMPLETE (R237): the first command of a context whose walk has ended and whose writes are all applied. -/
def execCopyComplete (core ctx : Nat) (s : State) : Out :=
  match (s.core core).copyQ.find? fun c => c.ctx == ctx && c.ended.isSome && !s.copyOwes c.id with
  | none => .next s
  | some c => .next (s.finishCopy core c)

end Sys2Proof.Machine
end

