-- ==== Sys2Proof/Machine/Status.lean ====
section
/-! DEFINITION. The status registers (R119-R124): what MFS reads, what MTS writes, and when each is legal. -/

namespace Sys2Proof.Machine

/-- The gang slot of a command's slot as the key's holder. -/
def gangHolder (pkg slot : Nat) : TaskId := { pkg := pkg, core := 4096, ctx := 0, serial := 0, slot := slot }

/-- A displaced gang block whose command runs again, else the block in the gang slot: what position 4 asks the key
for (R243, R264, R265). -/
def State.gangRequest (s : State) (q : Quad) : Option (ArrCmd × Bool) :=
  match q.displaced.find? fun o => o.cmd.gang.isSome && !s.preempted o.cmd.iss.task.slot with
  | some o => some (o.cmd, true)
  | none =>
    match q.gangSlot with
    | some k => if s.preempted k.iss.task.slot then none else some (k, false)
    | none => none

/-- A gang block waits for an array (R241): in its gang slot, or displaced and without the key. -/
def State.gangWaits (s : State) (q : Quad) : Bool :=
  q.gangSlot.isSome || (match s.gangRequest q with
    | some (k, _) => decide (q.holder ≠ some (gangHolder s.pkg k.iss.task.slot))
    | none => false)

/-- akey (R241): the key's holder, who waits, and the lease. -/
def Quad.akey (q : Quad) (gang : Bool) : Word :=
  let held := match q.holder with
    | none => 0
    | some t => if t.core = 4096 then 2 ^ 63 else 2 ^ 63 + tileWord t.core * 2 ^ 16 + t.ctx % 4 * 2 ^ 14
  let waiting := fun p => if q.requests.any fun r => quadPos r.core == p then 2 ^ (8 + p) else 0
  BitVec.ofNat 64 (held + waiting 0 + waiting 1 + waiting 2 + waiting 3 +
    gang.toNat * 2 ^ 7 + q.used % 32)

/-- aprog of an operation (R258). -/
def ArrOp.aprog (o : ArrOp) (busy : Bool) : Word :=
  let held := busy && o.held
  BitVec.ofNat 64 (busy.toNat * 2 ^ 63 + held.toNat * 2 ^ 62 + (if held then o.hcause % 256 else 0) * 2 ^ 48 +
    o.rows % 256 * 2 ^ 24 + o.steps % 2 ^ 16)

/-- aprog (R258): the current array operation, or the last one. -/
def Quad.aprog (q : Quad) : Word :=
  match q.cur, q.last with
  | some o, _ => o.aprog true
  | none, some o => o.aprog false
  | none, none => 0

/-- cid (R119): package number and packed tile word; a stack core has no tile word (DEDUCED, log entry 22). -/
def cidWord (pkg core : Nat) : Word :=
  BitVec.ofNat 64 (pkg % 2 ^ 13 * 2 ^ 16 + (if core < 2048 then tileWord core else 0))

/-- The value of a status register at issue (R119). -/
def State.readStatus (s : State) (idx : Nat) : Word :=
  let c := s.ctx
  match idx with
  | 0x000 => c.tstat
  | 0x001 => c.tpc
  | 0x002 => c.tcause
  | 0x003 => c.tval
  | 0x004 => s.me.tvec
  | 0x005 => s.me.xb
  | 0x006 => c.fpre
  | 0x010 => c.lc0
  | 0x011 => c.lc1
  | 0x020 => c.fflags
  | 0x021 => c.frm
  | 0x022 => c.fseed
  | 0x030 => c.tid
  | 0x031 => cidWord s.pkg s.cur
  | 0x032 => c.grp
  | 0x033 => c.exitc
  | 0x040 => c.hst
  | 0x041 => c.hbud
  | 0x050 => c.chb
  | 0x051 => s.me.rtree
  | 0x060 => c.gtol
  | 0x061 => c.gdmp
  | 0x070 => (s.quad (quadOf s.cur)).aprog
  | 0x071 => (s.quad (quadOf s.cur)).akey (s.gangWaits (s.quad (quadOf s.cur)))
  | 0x080 => s.tick
  | 0x081 => s.cycles + s.me.cyc
  | _ => 0

/-- Registers that a task may write at any time (R119). -/
def freelyWritten : List Nat := [0x004, 0x010, 0x011, 0x020, 0x021, 0x022, 0x060, 0x061]
/-- Registers that only a trap handler may write (R119, R124). -/
def trapWritten : List Nat := [0x000, 0x001, 0x002, 0x003, 0x005, 0x006]
/-- Registers that a hinge handler may write (R307). -/
def hingeWritten : List Nat := [0x020, 0x021, 0x022]

/-- MTS to a register is legal in the context's state (R124, R307). -/
def Ctx.mtsLegal (c : Ctx) (idx : Nat) : Bool :=
  (freelyWritten.contains idx || (trapWritten.contains idx && c.inh)) &&
  (match c.role with
    | .hinge .. => hingeWritten.contains idx
    | _ => true)

/-- MTS: its checks and the bits that it writes (R88, R120, R121, R124, R141). -/
def State.writeStatus (s : State) (idx : Nat) (v : Word) : Eff :=
  let c := s.ctx
  match idx with
  | 0x000 => .done (s.setCtx { c with tstat := Word.putField c.tstat 15 0 (v.toNat % 2 ^ 16) })
  | 0x001 => .done (s.setCtx { c with tpc := v &&& 0x3FFFFC })
  | 0x002 => .done (s.setCtx { c with tcause := v &&& 0xFF })
  | 0x003 => .done (s.setCtx { c with tval := v })
  | 0x004 =>
    if 0x100000 ≤ (v &&& 0xFFFFFC).toNat then .trap 0x0B v s
    else .done (s.setMe { s.me with tvec := v &&& 0xFFFFFC })
  | 0x005 =>
    if v.toNat % 4096 ≠ 0 ∨ v.toNat < 0x1000 ∨ 0x100000 < v.toNat then .trap 0x0B v s
    else .done (s.setMe { s.me with xb := v })
  | 0x006 => .done (s.setCtx { c with fpre := v &&& 0x3FFFFF })
  | 0x010 =>
    if lcAct c.lc0 then .trap 0x0E v s
    else .done (s.setCtx { c with lc0 := Word.putField c.lc0 31 0 (v.toNat % 2 ^ 32) })
  | 0x011 =>
    if lcAct c.lc1 then .trap 0x0E v s
    else .done (s.setCtx { c with lc1 := Word.putField c.lc1 31 0 (v.toNat % 2 ^ 32) })
  | 0x020 => .done (s.setCtx { c with fflags := v &&& 0x3F3F })
  | 0x021 => .done (s.setCtx { c with frm := v &&& 0x7 })
  | 0x022 => .done (s.setCtx { c with fseed := v })
  | 0x060 => .done (s.setCtx { c with gtol := v &&& 0xFFFFFFFF })
  | 0x061 => .done (s.setCtx { c with gdmp := v &&& 0xFF })
  | _ => .done s

/-- MFS reads a status register at issue (R124). -/
def execMfs (h : Head) (d : Reg) (i : BitVec 12) (s : State) : Out :=
  .next (s.run clsPlain (.mfs h d i) h true [ux d] fun s =>
    .done (s.setCtx (s.ctx.wx d (s.readStatus i.toNat))))

/-- MTS writes a status register (R124). -/
def execMts (h : Head) (a : Reg) (i : BitVec 12) (s : State) : Out :=
  .next (s.run clsPlain (.mts h a i) h (s.ctx.mtsLegal i.toNat) [ux a] fun s =>
    s.writeStatus i.toNat (s.ctx.rx a))

end Sys2Proof.Machine
end

