-- ==== Sys2Proof/Machine/Scalar.lean ====
section
/-! DEFINITION. Scalar arithmetic (R132-R135) and predicates (R136). -/

namespace Sys2Proof.Machine

/-! The results of R132 to R134. -/

/-- A truth value as a register value. -/
def wordOfBool (b : Bool) : Word := if b then 1 else 0

/-- Shift amount b[5:0]. -/
def shamt (b : Word) : Nat := b.toNat % 64

/-- Leading zeros, 64 for 0. -/
def leadingZeros (a : Word) : Word := if a = 0 then 64 else BitVec.ofNat 64 (63 - Nat.log2 a.toNat)

/-- Trailing zeros, 64 for 0: the first set bit at or above `k`, with `n` bits left to look at. -/
def trailingFrom (a : Word) : Nat → Nat → Nat
  | 0, k => k
  | n + 1, k => if a.getLsbD k then k else trailingFrom a n (k + 1)

/-- Trailing zeros, 64 for 0. -/
def trailingZeros (a : Word) : Word := BitVec.ofNat 64 (trailingFrom a 64 0)

/-- One bits among the lowest `n`. -/
def onesBelow (a : Word) : Nat → Nat
  | 0 => 0
  | n + 1 => onesBelow a n + (a.getLsbD n).toNat

/-- Number of one bits. -/
def popCount (a : Word) : Word := BitVec.ofNat 64 (onesBelow a 64)

/-- Bytes in reverse order. -/
def byteReverse (a : Word) : Word := BitVec.ofNat 64 (bytesNat (natBytes 8 a.toNat).reverse)

/-- Bits [127:64] of a product. -/
def highHalf (p : Int) : Word := BitVec.ofInt 64 (p / 2 ^ 64)

/-- R133: signed quotient rounded toward zero; all ones for b = 0. -/
def quotient (a b : Word) : Word :=
  if b = 0 then BitVec.allOnes 64 else BitVec.ofInt 64 (Int.tdiv a.toInt b.toInt)

/-- R133: the remainder whose sign follows a; a for b = 0. -/
def remainder (a b : Word) : Word :=
  if b = 0 then a else BitVec.ofInt 64 (Int.tmod a.toInt b.toInt)

/-- R133: unsigned quotient; all ones for b = 0. -/
def quotientU (a b : Word) : Word :=
  if b = 0 then BitVec.allOnes 64 else BitVec.ofNat 64 (a.toNat / b.toNat)

/-- R133: unsigned remainder; a for b = 0. -/
def remainderU (a b : Word) : Word :=
  if b = 0 then a else BitVec.ofNat 64 (a.toNat % b.toNat)

/-- R135: sext(imm17 << 15, 32). -/
def luiValue (i : BitVec 17) : Word := ((i.setWidth 32) <<< 15).signExtend 64

/-! ALU (R132). -/

/-- ADD (R132). -/
def execAdd (h : Head) (d a b : Reg) (s : State) : Out :=
  s.alu3 (.add h d a b) h d a b fun x y => x + y
/-- SUB (R132). -/
def execSub (h : Head) (d a b : Reg) (s : State) : Out :=
  s.alu3 (.sub h d a b) h d a b fun x y => x - y
/-- AND (R132). -/
def execAnd (h : Head) (d a b : Reg) (s : State) : Out :=
  s.alu3 (.and h d a b) h d a b fun x y => x &&& y
/-- OR (R132). -/
def execOr (h : Head) (d a b : Reg) (s : State) : Out :=
  s.alu3 (.or h d a b) h d a b fun x y => x ||| y
/-- XOR (R132). -/
def execXor (h : Head) (d a b : Reg) (s : State) : Out :=
  s.alu3 (.xor h d a b) h d a b fun x y => x ^^^ y
/-- ANDN (R132). -/
def execAndn (h : Head) (d a b : Reg) (s : State) : Out :=
  s.alu3 (.andn h d a b) h d a b fun x y => x &&& ~~~y
/-- ORN (R132). -/
def execOrn (h : Head) (d a b : Reg) (s : State) : Out :=
  s.alu3 (.orn h d a b) h d a b fun x y => x ||| ~~~y
/-- SLL (R132). -/
def execSll (h : Head) (d a b : Reg) (s : State) : Out :=
  s.alu3 (.sll h d a b) h d a b fun x y => x <<< shamt y
/-- SRL (R132). -/
def execSrl (h : Head) (d a b : Reg) (s : State) : Out :=
  s.alu3 (.srl h d a b) h d a b fun x y => x >>> shamt y
/-- SRA (R132). -/
def execSra (h : Head) (d a b : Reg) (s : State) : Out :=
  s.alu3 (.sra h d a b) h d a b fun x y => x.sshiftRight (shamt y)
/-- ROR (R132). -/
def execRor (h : Head) (d a b : Reg) (s : State) : Out :=
  s.alu3 (.ror h d a b) h d a b fun x y => x.rotateRight (shamt y)
/-- SLT (R132). -/
def execSlt (h : Head) (d a b : Reg) (s : State) : Out :=
  s.alu3 (.slt h d a b) h d a b fun x y => wordOfBool (x.slt y)
/-- SLTU (R132). -/
def execSltu (h : Head) (d a b : Reg) (s : State) : Out :=
  s.alu3 (.sltu h d a b) h d a b fun x y => wordOfBool (x.ult y)
/-- SEQ (R132). -/
def execSeq (h : Head) (d a b : Reg) (s : State) : Out :=
  s.alu3 (.seq h d a b) h d a b fun x y => wordOfBool (x == y)
/-- SNE (R132). -/
def execSne (h : Head) (d a b : Reg) (s : State) : Out :=
  s.alu3 (.sne h d a b) h d a b fun x y => wordOfBool (x != y)
/-- MIN (R132). -/
def execMin (h : Head) (d a b : Reg) (s : State) : Out :=
  s.alu3 (.min h d a b) h d a b fun x y => if x.slt y then x else y
/-- MAX (R132). -/
def execMax (h : Head) (d a b : Reg) (s : State) : Out :=
  s.alu3 (.max h d a b) h d a b fun x y => if x.slt y then y else x
/-- MINU (R132). -/
def execMinu (h : Head) (d a b : Reg) (s : State) : Out :=
  s.alu3 (.minu h d a b) h d a b fun x y => if x.ult y then x else y
/-- MAXU (R132). -/
def execMaxu (h : Head) (d a b : Reg) (s : State) : Out :=
  s.alu3 (.maxu h d a b) h d a b fun x y => if x.ult y then y else x
/-- SH1ADD (R132). -/
def execSh1add (h : Head) (d a b : Reg) (s : State) : Out :=
  s.alu3 (.sh1add h d a b) h d a b fun x y => (x <<< 1) + y
/-- SH2ADD (R132). -/
def execSh2add (h : Head) (d a b : Reg) (s : State) : Out :=
  s.alu3 (.sh2add h d a b) h d a b fun x y => (x <<< 2) + y
/-- SH3ADD (R132). -/
def execSh3add (h : Head) (d a b : Reg) (s : State) : Out :=
  s.alu3 (.sh3add h d a b) h d a b fun x y => (x <<< 3) + y
/-- CLZ (R132). -/
def execClz (h : Head) (d a : Reg) (s : State) : Out :=
  s.alu2 (.clz h d a) h d a leadingZeros
/-- CTZ (R132). -/
def execCtz (h : Head) (d a : Reg) (s : State) : Out :=
  s.alu2 (.ctz h d a) h d a trailingZeros
/-- POPC (R132). -/
def execPopc (h : Head) (d a : Reg) (s : State) : Out :=
  s.alu2 (.popc h d a) h d a popCount
/-- SEXTB (R132). -/
def execSextb (h : Head) (d a : Reg) (s : State) : Out :=
  s.alu2 (.sextb h d a) h d a fun x => (x.setWidth 8).signExtend 64
/-- SEXTH (R132). -/
def execSexth (h : Head) (d a : Reg) (s : State) : Out :=
  s.alu2 (.sexth h d a) h d a fun x => (x.setWidth 16).signExtend 64
/-- SEXTW (R132). -/
def execSextw (h : Head) (d a : Reg) (s : State) : Out :=
  s.alu2 (.sextw h d a) h d a fun x => (x.setWidth 32).signExtend 64
/-- ZEXTB (R132). -/
def execZextb (h : Head) (d a : Reg) (s : State) : Out :=
  s.alu2 (.zextb h d a) h d a fun x => (x.setWidth 8).setWidth 64
/-- ZEXTH (R132). -/
def execZexth (h : Head) (d a : Reg) (s : State) : Out :=
  s.alu2 (.zexth h d a) h d a fun x => (x.setWidth 16).setWidth 64
/-- ZEXTW (R132). -/
def execZextw (h : Head) (d a : Reg) (s : State) : Out :=
  s.alu2 (.zextw h d a) h d a fun x => (x.setWidth 32).setWidth 64
/-- REV8 (R132). -/
def execRev8 (h : Head) (d a : Reg) (s : State) : Out :=
  s.alu2 (.rev8 h d a) h d a byteReverse

/-! MULDIV (R133). -/

/-- MUL (R133). -/
def execMul (h : Head) (d a b : Reg) (s : State) : Out :=
  s.alu3 (.mul h d a b) h d a b fun x y => x * y
/-- MULH (R133). -/
def execMulh (h : Head) (d a b : Reg) (s : State) : Out :=
  s.alu3 (.mulh h d a b) h d a b fun x y => highHalf (x.toInt * y.toInt)
/-- MULHU (R133). -/
def execMulhu (h : Head) (d a b : Reg) (s : State) : Out :=
  s.alu3 (.mulhu h d a b) h d a b fun x y => highHalf ((x.toNat : Int) * y.toNat)
/-- MULHSU (R133). -/
def execMulhsu (h : Head) (d a b : Reg) (s : State) : Out :=
  s.alu3 (.mulhsu h d a b) h d a b fun x y => highHalf (x.toInt * y.toNat)
/-- DIV (R133). -/
def execDiv (h : Head) (d a b : Reg) (s : State) : Out :=
  s.alu3 (.div h d a b) h d a b quotient
/-- DIVU (R133). -/
def execDivu (h : Head) (d a b : Reg) (s : State) : Out :=
  s.alu3 (.divu h d a b) h d a b quotientU
/-- REM (R133). -/
def execRem (h : Head) (d a b : Reg) (s : State) : Out :=
  s.alu3 (.rem h d a b) h d a b remainder
/-- REMU (R133). -/
def execRemu (h : Head) (d a b : Reg) (s : State) : Out :=
  s.alu3 (.remu h d a b) h d a b remainderU

/-! Immediate forms (R134, R135). -/

/-- ADDI (R134). -/
def execAddi (h : Head) (d a : Reg) (i : BitVec 12) (s : State) : Out :=
  s.alu2 (.addi h d a i) h d a fun x => x + simm i
/-- ANDI (R134). -/
def execAndi (h : Head) (d a : Reg) (i : BitVec 12) (s : State) : Out :=
  s.alu2 (.andi h d a i) h d a fun x => x &&& simm i
/-- ORI (R134). -/
def execOri (h : Head) (d a : Reg) (i : BitVec 12) (s : State) : Out :=
  s.alu2 (.ori h d a i) h d a fun x => x ||| simm i
/-- XORI (R134). -/
def execXori (h : Head) (d a : Reg) (i : BitVec 12) (s : State) : Out :=
  s.alu2 (.xori h d a i) h d a fun x => x ^^^ simm i
/-- SLLI (R134). -/
def execSlli (h : Head) (d a : Reg) (n : BitVec 6) (s : State) : Out :=
  s.alu2 (.slli h d a n) h d a fun x => x <<< n.toNat
/-- SRLI (R134). -/
def execSrli (h : Head) (d a : Reg) (n : BitVec 6) (s : State) : Out :=
  s.alu2 (.srli h d a n) h d a fun x => x >>> n.toNat
/-- SRAI (R134). -/
def execSrai (h : Head) (d a : Reg) (n : BitVec 6) (s : State) : Out :=
  s.alu2 (.srai h d a n) h d a fun x => x.sshiftRight n.toNat
/-- RORI (R134). -/
def execRori (h : Head) (d a : Reg) (n : BitVec 6) (s : State) : Out :=
  s.alu2 (.rori h d a n) h d a fun x => x.rotateRight n.toNat
/-- SLTI (R134). -/
def execSlti (h : Head) (d a : Reg) (i : BitVec 12) (s : State) : Out :=
  s.alu2 (.slti h d a i) h d a fun x => wordOfBool (x.slt (simm i))
/-- SLTIU (R134). -/
def execSltiu (h : Head) (d a : Reg) (i : BitVec 12) (s : State) : Out :=
  s.alu2 (.sltiu h d a i) h d a fun x => wordOfBool (x.ult (simm i))
/-- LUI (R135). -/
def execLui (h : Head) (d : Reg) (i : BitVec 17) (s : State) : Out :=
  .next (s.run clsArith (.lui h d i) h true [ux d] fun s => .done (s.setCtx (s.ctx.wx d (luiValue i))))
/-- LIL reads its destination. -/
def execLil (h : Head) (d : Reg) (i : BitVec 17) (s : State) : Out :=
  s.alu2 (.lil h d i) h d d fun x => x ||| i.setWidth 64

/-! Predicates (R136). -/

/-- PEQ (R136). -/
def execPeq (h : Head) (d : BitVec 3) (a b : Reg) (s : State) : Out :=
  s.pred (.peq h d a b) h d [ux a, ux b] fun c => c.rx a == c.rx b
/-- PNE (R136). -/
def execPne (h : Head) (d : BitVec 3) (a b : Reg) (s : State) : Out :=
  s.pred (.pne h d a b) h d [ux a, ux b] fun c => c.rx a != c.rx b
/-- PLT (R136). -/
def execPlt (h : Head) (d : BitVec 3) (a b : Reg) (s : State) : Out :=
  s.pred (.plt h d a b) h d [ux a, ux b] fun c => (c.rx a).slt (c.rx b)
/-- PGE (R136). -/
def execPge (h : Head) (d : BitVec 3) (a b : Reg) (s : State) : Out :=
  s.pred (.pge h d a b) h d [ux a, ux b] fun c => !(c.rx a).slt (c.rx b)
/-- PLTU (R136). -/
def execPltu (h : Head) (d : BitVec 3) (a b : Reg) (s : State) : Out :=
  s.pred (.pltu h d a b) h d [ux a, ux b] fun c => (c.rx a).ult (c.rx b)
/-- PGEU (R136). -/
def execPgeu (h : Head) (d : BitVec 3) (a b : Reg) (s : State) : Out :=
  s.pred (.pgeu h d a b) h d [ux a, ux b] fun c => !(c.rx a).ult (c.rx b)
/-- PAND (R136). -/
def execPand (h : Head) (d a b : BitVec 3) (s : State) : Out :=
  s.pred (.pand h d a b) h d [] fun c => c.rp a && c.rp b
/-- POR (R136). -/
def execPor (h : Head) (d a b : BitVec 3) (s : State) : Out :=
  s.pred (.por h d a b) h d [] fun c => c.rp a || c.rp b
/-- PXOR (R136). -/
def execPxor (h : Head) (d a b : BitVec 3) (s : State) : Out :=
  s.pred (.pxor h d a b) h d [] fun c => c.rp a ^^ c.rp b
/-- PNOT (R136). -/
def execPnot (h : Head) (d a : BitVec 3) (s : State) : Out :=
  s.pred (.pnot h d a) h d [] fun c => !c.rp a
/-- PMOVX (R136). -/
def execPmovx (h : Head) (d : BitVec 3) (a : Reg) (s : State) : Out :=
  s.pred (.pmovx h d a) h d [ux a] fun c => c.rx a != 0
/-- MOVPX (R136). -/
def execMovpx (h : Head) (d : Reg) (a : BitVec 3) (s : State) : Out :=
  .next (s.run clsPlain (.movpx h d a) h true [ux d] fun s =>
    .done (s.setCtx (s.ctx.wx d (wordOfBool (s.ctx.rp a)))))

end Sys2Proof.Machine
end

