-- ==== Sys2Proof/Machine/Vector.lean ====
section
/-! DEFINITION. The vector unit: lanes, masks, prefixes (R174-R179) and the instructions of majors 0x34 to
0x3A (R180-R190). -/

namespace Sys2Proof.Machine

/-! Prefixes (R97, R98, R101). -/

/-- The fields of a prefix body. -/
structure Pfx where
  a : Nat
  b : Nat
  d : Nat
  rnd : Nat
  sat : Bool
  scale : Nat
  axis : Bool
  body : BitVec 22
  deriving DecidableEq, Repr

/-- The fields of a body (R97). -/
def pfxOf (w : BitVec 22) : Pfx :=
  { a := (w.extractLsb' 18 4).toNat
    b := (w.extractLsb' 14 4).toNat
    d := (w.extractLsb' 11 3).toNat
    rnd := (w.extractLsb' 8 3).toNat
    sat := w.getLsbD 7
    scale := (w.extractLsb' 5 2).toNat
    axis := w.getLsbD 4
    body := w }

/-- The default prefix of every consumer but VIA (R98). -/
def plainBody : BitVec 22 := bodyFmt 0 0 0 6 0 0 0
/-- The default prefix of VIA. -/
def viaBody : BitVec 22 := bodyFmt 7 7 7 6 0 0 0

/-- The rounding of a code, or frm when that is reserved (R101). -/
def Ctx.rounding (c : Ctx) (code : Nat) : Except Word Rnd :=
  if code ≠ 6 then .ok { mode := rmode code, seed := c.fseed }
  else if 6 ≤ c.frm.toNat then .error c.frm
  else .ok { mode := rmode c.frm.toNat, seed := c.fseed }

/-- A prefix consumer: its body is accepted or a format fault (R98, R177), and its rounding is known.  Rounding code 7, which
only fpre can bring, is refused where the consumer rounds and ignored elsewhere (DEDUCED, log entry 17). -/
def State.prefixed (s : State) (dflt : BitVec 22) (ok : Pfx → Bool) (rounds : Bool) (f : Pfx → Rnd → Eff) : Eff :=
  let p := pfxOf (s.ctx.pfx.getD dflt)
  if !ok p || (rounds && p.rnd == 7) then .trap 0x0B (p.body.setWidth 64) s
  else if !rounds then f p rneMode
  else match s.ctx.rounding p.rnd with
    | .error w => .trap 0x0B w s
    | .ok r => f p r

/-! Lanes (R174, R175). -/

/-- Lane `i` of `w` bits. -/
def laneOf (v : Vec) (w i : Nat) : Nat := v.toNat / 2 ^ (w * i) % 2 ^ w

/-- A register from its lanes of `w` bits. -/
def packLanes (w : Nat) (l : List Nat) : Vec := BitVec.ofNat 512 (l.foldr (fun x r => x % 2 ^ w + r * 2 ^ w) 0)

/-- The lanes that a function gives, with all flags together. -/
def lanesOf (w : Nat) (f : Nat → Nat × FlagSet) : Vec × FlagSet :=
  let rs := (List.range (512 / w)).map f
  (packLanes w (rs.map (·.1)), rs.foldl (fun a r => a ||| r.2) 0)

/-- Active lanes computed, inactive ones kept (R175). -/
def maskedLanes (w : Nat) (m : Word) (old : Vec) (f : Nat → Nat × FlagSet) : Vec × FlagSet :=
  lanesOf w fun i => if m.getLsbD i then f i else (laneOf old w i, 0)

/-- Vector instructions may stand in a capture, after an FMT and in a row handler (R178). -/
def clsVec : Cls := { rep := true, fmt := true, row := true, hinge := false }

/-- A vector instruction that computes lane by lane into v[d]. -/
def State.lanewise (s : State) (i : Instr) (h : Head) (d : Reg) (srcs : List Reg) (k : BitVec 3)
    (dflt : BitVec 22) (ok : Pfx → Bool) (rounds : Bool) (width : Pfx → Nat)
    (f : Pfx → Rnd → (Reg → Vec) → Nat → Nat × FlagSet) : Out :=
  .next (s.run clsVec i h (s.ctx.channelsLegal [d] srcs) (srcs.map uv ++ [uv d]) fun s =>
    s.reading srcs fun rv => s.prefixed dflt ok rounds fun p r =>
      let t := maskedLanes (width p) (s.ctx.rk k) (s.ctx.rv d) (f p r rv)
      s.withFlags t.2 fun c => c.wv d t.1)

/-! VFA (R180, R181). -/

/-- f32, bf16 or f16 throughout, no scale (R177). -/
def okVfa (p : Pfx) : Bool := decide (p.a ≤ 2) && p.b == p.a && p.d == p.a && p.scale == 0

/-- A rounding of an exact result with the flags of both. -/
def FFmt.result (f : FFmt) (r : Rnd) (sat : Bool) (t : FVal × FlagSet) : Nat × FlagSet :=
  let u := f.round r sat t.1
  (u.1, t.2 ||| u.2)

/-- The format of VFA lanes. -/
def Pfx.fmtA (p : Pfx) : FFmt := (floatFmt p.a).getD fmtF32

/-- Rounding toward −∞, for the sign of an exact zero. -/
def Rnd.down (r : Rnd) : Bool := decide (r.mode = .rdn)

/-- A two-operand VFA instruction by an exact function of a, b and d, rounded. -/
def State.vfa3 (s : State) (i : Instr) (h : Head) (d a b : Reg) (k : BitVec 3)
    (f : Bool → FVal → FVal → FVal → FVal × FlagSet) : Out :=
  s.lanewise i h d [a, b] k plainBody okVfa true (fun p => fmtWidth p.a) fun p r rv n =>
    let g := p.fmtA
    let x := fun v => g.decode (laneOf v g.w n)
    g.result { r with idx := n } p.sat (f r.down (x (rv a)) (x (rv b)) (x (s.ctx.rv d)))

/-- A one-operand VFA instruction by an exact function, rounded. -/
def State.vfa2 (s : State) (i : Instr) (h : Head) (d a : Reg) (k : BitVec 3) (f : FVal → FVal × FlagSet) : Out :=
  s.lanewise i h d [a] k plainBody okVfa true (fun p => fmtWidth p.a) fun p r rv n =>
    let g := p.fmtA
    g.result { r with idx := n } p.sat (f (g.decode (laneOf (rv a) g.w n)))

/-- A VFA instruction on the bits of its operands, without flags. -/
def State.vfaBits (s : State) (i : Instr) (h : Head) (d : Reg) (srcs : List Reg) (k : BitVec 3)
    (f : FFmt → List Nat → Nat) : Out :=
  s.lanewise i h d srcs k plainBody okVfa true (fun p => fmtWidth p.a) fun p _ rv n =>
    (f p.fmtA (srcs.map fun v => laneOf (rv v) p.fmtA.w n), 0)

/-- R181: the smaller of two encodings by value. -/
def minBits (f : FFmt) (x y : Nat) : Nat :=
  let a := f.decode x
  let b := f.decode y
  if a.isNan || b.isNan then f.canonical else if b.lt true a then y else x

/-- R181: the larger of two encodings by value. -/
def maxBits (f : FFmt) (x y : Nat) : Nat :=
  let a := f.decode x
  let b := f.decode y
  if a.isNan || b.isNan then f.canonical else if a.lt true b then y else x

/-- The sign bit replaced; a NaN becomes the canonical one (R180). -/
def signBits (f : FFmt) (g : Bool → Bool) (x : Nat) : Nat :=
  if (f.decode x).isNan then f.canonical
  else x % 2 ^ (f.w - 1) + f.signBit (g (x.testBit (f.w - 1)))

/-- VADD (R180). -/
def execVadd (h : Head) (d a b : Reg) (k : BitVec 3) (s : State) : Out :=
  s.vfa3 (.vadd h d a b k) h d a b k fun rdn x y _ => x.add rdn y
/-- VSUB (R180). -/
def execVsub (h : Head) (d a b : Reg) (k : BitVec 3) (s : State) : Out :=
  s.vfa3 (.vsub h d a b k) h d a b k fun rdn x y _ => x.add rdn y.neg
/-- VMUL (R180). -/
def execVmul (h : Head) (d a b : Reg) (k : BitVec 3) (s : State) : Out :=
  s.vfa3 (.vmul h d a b k) h d a b k fun _ x y _ => x.mul y
/-- VFMA (R180). -/
def execVfma (h : Head) (d a b : Reg) (k : BitVec 3) (s : State) : Out :=
  s.vfa3 (.vfma h d a b k) h d a b k fun rdn x y z => FVal.fma rdn x y z
/-- VFMS (R180). -/
def execVfms (h : Head) (d a b : Reg) (k : BitVec 3) (s : State) : Out :=
  s.vfa3 (.vfms h d a b k) h d a b k fun rdn x y z => FVal.fma rdn x y z.neg
/-- VFNMA (R180). -/
def execVfnma (h : Head) (d a b : Reg) (k : BitVec 3) (s : State) : Out :=
  s.vfa3 (.vfnma h d a b k) h d a b k fun rdn x y z => FVal.fma rdn x.neg y z
/-- VMIN (R181). -/
def execVmin (h : Head) (d a b : Reg) (k : BitVec 3) (s : State) : Out :=
  s.vfaBits (.vmin h d a b k) h d [a, b] k fun f l => minBits f (l.getD 0 0) (l.getD 1 0)
/-- VMAX (R181). -/
def execVmax (h : Head) (d a b : Reg) (k : BitVec 3) (s : State) : Out :=
  s.vfaBits (.vmax h d a b k) h d [a, b] k fun f l => maxBits f (l.getD 0 0) (l.getD 1 0)
/-- VABS (R180). -/
def execVabs (h : Head) (d a : Reg) (k : BitVec 3) (s : State) : Out :=
  s.vfaBits (.vabs h d a k) h d [a] k fun f l => signBits f (fun _ => false) (l.getD 0 0)
/-- VNEG (R180). -/
def execVneg (h : Head) (d a : Reg) (k : BitVec 3) (s : State) : Out :=
  s.vfaBits (.vneg h d a k) h d [a] k fun f l => signBits f (fun b => !b) (l.getD 0 0)
/-- VDIV (R180). -/
def execVdiv (h : Head) (d a b : Reg) (k : BitVec 3) (s : State) : Out :=
  s.vfa3 (.vdiv h d a b k) h d a b k fun _ x y _ => x.div y
/-- VSQRT (R169). -/
def execVsqrt (h : Head) (d a : Reg) (k : BitVec 3) (s : State) : Out :=
  s.vfa2 (.vsqrt h d a k) h d a k FVal.sqrt
/-- VRCP (R167). -/
def execVrcp (h : Head) (d a : Reg) (k : BitVec 3) (s : State) : Out :=
  s.vfa2 (.vrcp h d a k) h d a k FVal.rcp
/-- VRSQ (R168). -/
def execVrsq (h : Head) (d a : Reg) (k : BitVec 3) (s : State) : Out :=
  s.vfa2 (.vrsq h d a k) h d a k FVal.rsq
/-- VEXP2 (R170). -/
def execVexp2 (h : Head) (d a : Reg) (k : BitVec 3) (s : State) : Out :=
  s.vfa2 (.vexp2 h d a k) h d a k FVal.exp2
/-- VLOG2 (R170). -/
def execVlog2 (h : Head) (d a : Reg) (k : BitVec 3) (s : State) : Out :=
  s.vfa2 (.vlog2 h d a k) h d a k FVal.log2

/-! VIA (R182, R183). -/

/-- i8 or i32 throughout (R177). -/
def okInt (p : Pfx) : Bool := (p.a == 6 || p.a == 7) && p.b == p.a && p.d == p.a && p.scale == 0
/-- The same, or rns16 with an i32 destination. -/
def okIntRns (p : Pfx) : Bool := okInt p || (p.a == 8 && p.b == 8 && p.d == 7 && p.scale == 0)
/-- i8 operands with an i32 destination. -/
def okDot (p : Pfx) : Bool := p.a == 6 && p.b == 6 && p.d == 7 && p.scale == 0

/-- VIADD, VISUB, VIMUL: by integers, or channel by channel for rns16. -/
def State.viaArith (s : State) (i : Instr) (h : Head) (d a b : Reg) (k : BitVec 3) (f : Int → Int → Int) : Out :=
  s.lanewise i h d [a, b] k viaBody okIntRns false (fun p => fmtWidth p.a) fun p _ rv n =>
    let w := fmtWidth p.a
    let x := laneOf (rv a) w n
    let y := laneOf (rv b) w n
    if p.a = 8 then (rnsOp f x y, 0) else satInt w p.sat (f (toSigned w x) (toSigned w y))

/-- The other two-operand forms, by width and bits. -/
def State.viaBits (s : State) (i : Instr) (h : Head) (d a b : Reg) (k : BitVec 3)
    (f : Nat → Nat → Nat → Nat × FlagSet) : Out :=
  s.lanewise i h d [a, b] k viaBody okInt false (fun p => fmtWidth p.a) fun p _ rv n =>
    let w := fmtWidth p.a
    f w (laneOf (rv a) w n) (laneOf (rv b) w n)

/-- VIADD (R182). -/
def execViadd (h : Head) (d a b : Reg) (k : BitVec 3) (s : State) : Out :=
  s.viaArith (.viadd h d a b k) h d a b k fun x y => x + y
/-- VISUB (R182). -/
def execVisub (h : Head) (d a b : Reg) (k : BitVec 3) (s : State) : Out :=
  s.viaArith (.visub h d a b k) h d a b k fun x y => x - y
/-- VIMUL (R182). -/
def execVimul (h : Head) (d a b : Reg) (k : BitVec 3) (s : State) : Out :=
  s.viaArith (.vimul h d a b k) h d a b k fun x y => x * y
/-- VIMIN (R182). -/
def execVimin (h : Head) (d a b : Reg) (k : BitVec 3) (s : State) : Out :=
  s.viaBits (.vimin h d a b k) h d a b k fun w x y => (if toSigned w y < toSigned w x then y else x, 0)
/-- VIMAX (R182). -/
def execVimax (h : Head) (d a b : Reg) (k : BitVec 3) (s : State) : Out :=
  s.viaBits (.vimax h d a b k) h d a b k fun w x y => (if toSigned w x < toSigned w y then y else x, 0)
/-- VIMINU (R182). -/
def execViminu (h : Head) (d a b : Reg) (k : BitVec 3) (s : State) : Out :=
  s.viaBits (.viminu h d a b k) h d a b k fun _ x y => (if y < x then y else x, 0)
/-- VIMAXU (R182). -/
def execVimaxu (h : Head) (d a b : Reg) (k : BitVec 3) (s : State) : Out :=
  s.viaBits (.vimaxu h d a b k) h d a b k fun _ x y => (if x < y then y else x, 0)
/-- VAND (R182). -/
def execVand (h : Head) (d a b : Reg) (k : BitVec 3) (s : State) : Out :=
  s.viaBits (.vand h d a b k) h d a b k fun _ x y => (x &&& y, 0)
/-- VOR (R182). -/
def execVor (h : Head) (d a b : Reg) (k : BitVec 3) (s : State) : Out :=
  s.viaBits (.vor h d a b k) h d a b k fun _ x y => (x ||| y, 0)
/-- VXOR (R182). -/
def execVxor (h : Head) (d a b : Reg) (k : BitVec 3) (s : State) : Out :=
  s.viaBits (.vxor h d a b k) h d a b k fun _ x y => (x ^^^ y, 0)
/-- VSLL (R182). -/
def execVsll (h : Head) (d a b : Reg) (k : BitVec 3) (s : State) : Out :=
  s.viaBits (.vsll h d a b k) h d a b k fun w x y => (x * 2 ^ (y % w) % 2 ^ w, 0)
/-- VSRL (R182). -/
def execVsrl (h : Head) (d a b : Reg) (k : BitVec 3) (s : State) : Out :=
  s.viaBits (.vsrl h d a b k) h d a b k fun w x y => (x / 2 ^ (y % w), 0)
/-- VSRA (R182). -/
def execVsra (h : Head) (d a b : Reg) (k : BitVec 3) (s : State) : Out :=
  s.viaBits (.vsra h d a b k) h d a b k fun w x y => (wrapInt w (toSigned w x / 2 ^ (y % w)), 0)
/-- VSADD (R182). -/
def execVsadd (h : Head) (d a b : Reg) (k : BitVec 3) (s : State) : Out :=
  s.viaBits (.vsadd h d a b k) h d a b k fun w x y => satInt w true (toSigned w x + toSigned w y)
/-- VIABS (R182). -/
def execViabs (h : Head) (d a : Reg) (k : BitVec 3) (s : State) : Out :=
  s.lanewise (.viabs h d a k) h d [a] k viaBody okInt false (fun p => fmtWidth p.a) fun p _ rv n =>
    let w := fmtWidth p.a
    satInt w p.sat (toSigned w (laneOf (rv a) w n)).natAbs
/-- VDOT4 (R183): one clamp or wrap for the whole sum. -/
def execVdot4 (h : Head) (d a b : Reg) (k : BitVec 3) (s : State) : Out :=
  s.lanewise (.vdot4 h d a b k) h d [a, b] k viaBody okDot false (fun _ => 32) fun p _ rv j =>
    let x := fun v n => toSigned 8 (laneOf v 8 n)
    let t := fun n => x (rv a) (4 * j + n) * x (rv b) (4 * j + n)
    satInt 32 p.sat (toSigned 32 (laneOf (s.ctx.rv d) 32 j) + t 0 + t 1 + t 2 + t 3)

/-! VCMP (R184). -/

/-- A destination format that stands for A: itself, or i32 for rns16, which D cannot name (R100, R177)
(DEDUCED, log entry 24). -/
def Pfx.sameD (p : Pfx) : Bool := decide (p.a ≤ 8) && p.b == p.a && p.d == (if p.a = 8 then 7 else p.a) && p.scale == 0
/-- Every code but mx4 and rns16. -/
def okBits (p : Pfx) : Bool := p.sameD && p.a != 5 && p.a != 8
/-- Every code but mx4. -/
def okAny (p : Pfx) : Bool := p.sameD && p.a != 5
/-- The floating formats. -/
def okFloat (p : Pfx) : Bool := p.sameD && decide (p.a ≤ 4)

/-- The mask of the active lanes on which a condition holds. -/
def maskOf (w : Nat) (m : Word) (f : Nat → Bool) : Word :=
  BitVec.ofNat 64 ((List.range (512 / w)).foldr (fun i r => (m.getLsbD i && f i).toNat + 2 * r) 0)

/-- A comparison: the whole mask is written, no flag is raised. -/
def State.vcmp (s : State) (i : Instr) (h : Head) (d : BitVec 3) (a b : Reg) (k : BitVec 3) (ok : Pfx → Bool)
    (f : Pfx → Nat → Nat → Bool) : Out :=
  .next (s.run clsVec i h (s.ctx.channelsLegal [] [a, b]) [uv a, uv b] fun s =>
    s.reading [a, b] fun rv => s.prefixed plainBody ok false fun p _ =>
      let w := fmtWidth p.a
      .done (s.setCtx (s.ctx.wk d (maskOf w (s.ctx.rk k) fun n => f p (laneOf (rv a) w n) (laneOf (rv b) w n)))))

/-- Equality of lanes: of their bits, or of the integers of rns16 lanes. -/
def sameLane (p : Pfx) (x y : Nat) : Bool := if p.a = 8 then rnsToInt x == rnsToInt y else x == y

/-- VCEQ (R184). -/
def execVceq (h : Head) (d : BitVec 3) (a b : Reg) (k : BitVec 3) (s : State) : Out :=
  s.vcmp (.vceq h d a b k) h d a b k okAny sameLane
/-- VCNE (R184). -/
def execVcne (h : Head) (d : BitVec 3) (a b : Reg) (k : BitVec 3) (s : State) : Out :=
  s.vcmp (.vcne h d a b k) h d a b k okAny fun p x y => !sameLane p x y
/-- VCLT (R184). -/
def execVclt (h : Head) (d : BitVec 3) (a b : Reg) (k : BitVec 3) (s : State) : Out :=
  s.vcmp (.vclt h d a b k) h d a b k okBits fun p x y =>
    decide (toSigned (fmtWidth p.a) x < toSigned (fmtWidth p.a) y)
/-- VCLE (R184). -/
def execVcle (h : Head) (d : BitVec 3) (a b : Reg) (k : BitVec 3) (s : State) : Out :=
  s.vcmp (.vcle h d a b k) h d a b k okBits fun p x y =>
    decide (toSigned (fmtWidth p.a) x ≤ toSigned (fmtWidth p.a) y)
/-- VCLTU (R184). -/
def execVcltu (h : Head) (d : BitVec 3) (a b : Reg) (k : BitVec 3) (s : State) : Out :=
  s.vcmp (.vcltu h d a b k) h d a b k okBits fun _ x y => decide (x < y)
/-- VCLEU (R184). -/
def execVcleu (h : Head) (d : BitVec 3) (a b : Reg) (k : BitVec 3) (s : State) : Out :=
  s.vcmp (.vcleu h d a b k) h d a b k okBits fun _ x y => decide (x ≤ y)
/-- VFEQ (R184). -/
def execVfeq (h : Head) (d : BitVec 3) (a b : Reg) (k : BitVec 3) (s : State) : Out :=
  s.vcmp (.vfeq h d a b k) h d a b k okFloat fun p x y => (p.fmtA.decode x).eqv (p.fmtA.decode y)
/-- VFNE (R184). -/
def execVfne (h : Head) (d : BitVec 3) (a b : Reg) (k : BitVec 3) (s : State) : Out :=
  s.vcmp (.vfne h d a b k) h d a b k okFloat fun p x y => !(p.fmtA.decode x).eqv (p.fmtA.decode y)
/-- VFLT (R184). -/
def execVflt (h : Head) (d : BitVec 3) (a b : Reg) (k : BitVec 3) (s : State) : Out :=
  s.vcmp (.vflt h d a b k) h d a b k okFloat fun p x y => (p.fmtA.decode x).lt false (p.fmtA.decode y)
/-- VFLE (R184). -/
def execVfle (h : Head) (d : BitVec 3) (a b : Reg) (k : BitVec 3) (s : State) : Out :=
  s.vcmp (.vfle h d a b k) h d a b k okFloat fun p x y =>
    (p.fmtA.decode x).lt false (p.fmtA.decode y) || (p.fmtA.decode x).eqv (p.fmtA.decode y)

/-! VPERM (R185, R186). -/

/-- A permutation: the lanes that a function of the width and the lane number gives, where the mask has it. -/
def State.vperm (s : State) (i : Instr) (h : Head) (d : Reg) (srcs : List Reg) (uses : List Nat) (k : BitVec 3)
    (f : Nat → (Reg → Vec) → Nat → Nat) : Out :=
  .next (s.run clsVec i h (s.ctx.channelsLegal [d] srcs) uses fun s =>
    s.reading srcs fun rv => s.prefixed plainBody okAny false fun p _ =>
      let w := fmtWidth p.a
      .done (s.setCtx (s.ctx.wv d (maskedLanes w (s.ctx.rk k) (s.ctx.rv d) fun n => (f w rv n, 0)).1)))

/-- VBCAST (R185). -/
def execVbcast (h : Head) (d a : Reg) (k : BitVec 3) (s : State) : Out :=
  s.vperm (.vbcast h d a k) h d [] [ux a, uv d] k fun w _ _ => (s.ctx.rx a).toNat % 2 ^ w
/-- VSEL writes every lane. -/
def execVsel (h : Head) (d a b : Reg) (k : BitVec 3) (s : State) : Out :=
  s.vperm (.vsel h d a b k) h d [a, b] [uv a, uv b, uv d] 0 fun w rv n =>
    if (s.ctx.rk k).getLsbD n then laneOf (rv a) w n else laneOf (rv b) w n
/-- VSHUF (R185). -/
def execVshuf (h : Head) (d a b : Reg) (k : BitVec 3) (s : State) : Out :=
  s.vperm (.vshuf h d a b k) h d [a, b] [uv a, uv b, uv d] k fun w rv n =>
    let j := laneOf (rv b) w n
    if 512 / w ≤ j then 0 else laneOf (rv a) w j
/-- VSLDN (R185). -/
def execVsldn (h : Head) (d a b : Reg) (k : BitVec 3) (s : State) : Out :=
  s.vperm (.vsldn h d a b k) h d [a] [uv a, ux b, uv d] k fun w rv n =>
    let j := n + (s.ctx.rx b).toNat
    if j < 512 / w then laneOf (rv a) w j else 0
/-- VSLUP (R185). -/
def execVslup (h : Head) (d a b : Reg) (k : BitVec 3) (s : State) : Out :=
  s.vperm (.vslup h d a b k) h d [a] [uv a, ux b, uv d] k fun w rv n =>
    let j := (s.ctx.rx b).toNat
    if j ≤ n then laneOf (rv a) w (n - j) else 0
/-- VZIP (R185). -/
def execVzip (h : Head) (d a b : Reg) (k : BitVec 3) (s : State) : Out :=
  s.vperm (.vzip h d a b k) h d [a, b] [uv a, uv b, uv d] k fun w rv n =>
    if n % 2 = 0 then laneOf (rv a) w (n / 2) else laneOf (rv b) w (n / 2)
/-- VUNZIP (R185). -/
def execVunzip (h : Head) (d a b : Reg) (k : BitVec 3) (s : State) : Out :=
  s.vperm (.vunzip h d a b k) h d [a, b] [uv a, uv b, uv d] k fun w rv n =>
    let half := 512 / w / 2
    if n < half then laneOf (rv a) w (2 * n) else laneOf (rv b) w (2 * (n - half))
/-- VREV (R185). -/
def execVrev (h : Head) (d a : Reg) (k : BitVec 3) (s : State) : Out :=
  s.vperm (.vrev h d a k) h d [a] [uv a, uv d] k fun w rv n => laneOf (rv a) w (512 / w - 1 - n)

/-- VEXT (R186): one lane into an x register. -/
def execVext (h : Head) (d a b : Reg) (s : State) : Out :=
  .next (s.run clsVec (.vext h d a b) h (s.ctx.channelsLegal [] [a]) [uv a, ux b, ux d] fun s =>
    s.reading [a] fun rv => s.prefixed plainBody okAny false fun p _ =>
      let w := fmtWidth p.a
      let l := s.ctx.rx b
      if 512 / w ≤ l.toNat then .trap 0x0B l s
      else .done (s.setCtx (s.ctx.wx d (BitVec.ofNat 64 (laneOf (rv a) w l.toNat)))))

/-- VINS (R186): a scalar into one lane, where the mask has it. -/
def execVins (h : Head) (d a b : Reg) (k : BitVec 3) (s : State) : Out :=
  .next (s.run clsVec (.vins h d a b k) h (s.ctx.channelsLegal [d] []) [ux a, ux b, uv d] fun s =>
    s.prefixed plainBody okAny false fun p _ =>
      let w := fmtWidth p.a
      let l := s.ctx.rx b
      if 512 / w ≤ l.toNat then .trap 0x0B l s
      else
        let t := maskedLanes w (s.ctx.rk k) (s.ctx.rv d) fun n =>
          (if n = l.toNat then (s.ctx.rx a).toNat % 2 ^ w else laneOf (s.ctx.rv d) w n, 0)
        .done (s.setCtx (s.ctx.wv d t.1)))

/-! VCVT (R187, R188). -/

/-- An MX element format. -/
def isMx (code : Nat) : Bool := code == 3 || code == 4 || code == 5 || code == 6
/-- A float format of the block forms. -/
def isWide (code : Nat) : Bool := decide (code ≤ 2)

/-- The combinations of R187 and R188 for a target. -/
def okVcvt (t : Nat) (k : BitVec 3) (p : Pfx) : Bool :=
  (p.scale == 0 && p.a != 5 && t != 5 && decide (p.a ≤ 8)) ||
  (p.scale == 1 && k == 0 && ((isWide p.a && isMx t) || (isMx p.a && isWide t)))

/-- The plain conversion (R187). -/
def cvtLanes (a t : Nat) (r : Rnd) (sat : Bool) (m : Word) (old src : Vec) : Vec × FlagSet :=
  let n := min (512 / fmtWidth a) (512 / fmtWidth t)
  lanesOf (fmtWidth t) fun i =>
    if n ≤ i then (0, 0)
    else if m.getLsbD i then convertElem a t { r with idx := i } sat (laneOf src (fmtWidth a) i)
    else (laneOf old (fmtWidth t) i, 0)

/-- The 32 values of one register of 16-bit lanes or of a pair of 32-bit lanes (R188). -/
def blockValues (a : Nat) (v v' : Vec) : List FVal :=
  let f := (floatFmt a).getD fmtF32
  (List.range 32).map fun i =>
    if a = 0 then f.decode (if i < 16 then laneOf v 32 i else laneOf v' 32 (i - 16))
    else f.decode (laneOf v 16 i)

/-- A packed block (R188). -/
def packBlock (t scale : Nat) (es : List Nat) : Vec :=
  BitVec.ofNat 512 ((packLanes (fmtWidth t) es).toNat + scale * 2 ^ 504)

/-- The values of a packed block (R188). -/
def unpackBlock (a : Nat) (v : Vec) : List FVal :=
  (List.range 32).map fun i => mxValue a (laneOf v 8 63) (laneOf v (fmtWidth a) i)

/-- The registers that a pair of a block form adds (R188); a conversion that R188 refuses names no pair. -/
def pairRegs (ok : Bool) (code : Nat) (r : Reg) : List Reg := if ok ∧ code = 0 ∧ r.toNat < 31 then [regPlus r 1] else []

/-- VCVT (R187, R188). -/
def execVcvt (h : Head) (d a : Reg) (k : BitVec 3) (t : BitVec 4) (s : State) : Out :=
  let q := pfxOf (s.ctx.pfx.getD plainBody)
  let block := q.scale == 1 && okVcvt t.toNat k q
  let more := pairRegs block q.a a
  let moreD := pairRegs block t.toNat d
  .next (s.run clsVec (.vcvt h d a k t) h (s.ctx.channelsLegal (d :: moreD) (a :: more))
    ([uv a, uv d] ++ (more ++ moreD).map uv) fun s =>
    s.reading (a :: more) fun rv => s.prefixed plainBody (okVcvt t.toNat k) true fun p r =>
      if p.scale = 0 then
        let u := cvtLanes p.a t.toNat r p.sat (s.ctx.rk k) (s.ctx.rv d) (rv a)
        s.withFlags u.2 fun c => c.wv d u.1
      else if (p.a = 0 ∧ a.toNat = 31) ∨ (t = 0 ∧ d.toNat = 31) then .trap 0x0B (p.body.setWidth 64) s
      else if isWide p.a then
        let b := mxQuantise t.toNat r (blockValues p.a (rv a) (rv (regPlus a 1)))
        s.withFlags b.2.2 fun c => c.wv d (packBlock t.toNat b.1 b.2.1)
      else
        let f := (floatFmt t.toNat).getD fmtF32
        let es := ((unpackBlock p.a (rv a)).zip (List.range 32)).map fun x => f.round { r with idx := x.2 } p.sat x.1
        let flags := es.foldl (fun g e => g ||| e.2) 0
        let bits := es.map (·.1)
        s.withFlags flags fun c =>
          if t = 0 then (c.wv d (packLanes 32 (bits.take 16))).wv (regPlus d 1) (packLanes 32 (bits.drop 16))
          else c.wv d (packLanes 16 bits))

/-! VRED (R165, R189). -/

/-- One level of the tree: neighbours added, with their position. -/
def treeLevel {α : Type} (f : Nat → α → α → α × FlagSet) : Nat → List α → List α × FlagSet
  | i, x :: y :: r =>
    let z := f i x y
    let t := treeLevel f (i + 1) r
    (z.1 :: t.1, z.2 ||| t.2)
  | _, l => (l, 0)

/-- The pairwise tree over 2^n lanes (R165). -/
def treeSum {α : Type} (f : Nat → Nat → α → α → α × FlagSet) : Nat → Nat → List α → List α × FlagSet
  | 0, _, l => (l, 0)
  | n + 1, level, l =>
    let t := treeLevel (f level) 0 l
    let u := treeSum f n (level + 1) t.1
    (u.1, t.2 ||| u.2)

/-- A reduction: the result stands in lane 0, every other bit is zero. -/
def State.vred (s : State) (i : Instr) (h : Head) (d a : Reg) (k : BitVec 3) (ok : Pfx → Bool) (rounds : Bool)
    (f : Pfx → Rnd → List (Nat × Bool) → Nat × FlagSet) : Out :=
  .next (s.run clsVec i h (s.ctx.channelsLegal [d] [a]) [uv a, uv d] fun s =>
    s.reading [a] fun rv => s.prefixed plainBody ok rounds fun p r =>
      let w := fmtWidth p.a
      let m := s.ctx.rk k
      let t := f p r ((List.range (512 / w)).map fun n => (laneOf (rv a) w n, m.getLsbD n))
      s.withFlags t.2 fun c => c.wv d (BitVec.ofNat 512 t.1))

/-- VRSUM's formats. -/
def okSum (p : Pfx) : Bool := decide (p.a ≤ 2) && p.b == p.a && decide (p.d ≤ 2) && p.scale == 0
/-- VRMAX and VRMIN. -/
def okMax (p : Pfx) : Bool := okVfa p || okInt p
/-- VRISUM. -/
def okISum (p : Pfx) : Bool := (p.a == 6 || p.a == 7) && p.b == p.a && p.d == 7 && p.scale == 0

/-- The pairwise floating sum of values into format `f` (R165). -/
def sumTree (f : FFmt) (r : Rnd) (sat : Bool) (xs : List FVal) : Nat × FlagSet :=
  let add := fun (level i : Nat) (x y : FVal) =>
    let t := f.result { r with idx := 64 * level + i } sat (x.add r.down y)
    (f.decode t.1, t.2)
  let t := treeSum add xs.length.log2 0 xs
  ((f.round rneMode false (t.1.headD (.fin true 0 0))).1, t.2)

/-- VRSUM (R189). -/
def execVrsum (h : Head) (d a : Reg) (k : BitVec 3) (s : State) : Out :=
  s.vred (.vrsum h d a k) h d a k okSum true fun p r l =>
    sumTree ((floatFmt p.d).getD fmtF32) r p.sat
      (l.map fun x => if x.2 then p.fmtA.decode x.1 else .fin true 0 0)

/-- The active lanes reduced by an operation on bits. -/
def foldLanes (e : Nat) (f : Nat → Nat → Nat) (l : List (Nat × Bool)) : Nat :=
  l.foldl (fun r x => if x.2 then f r x.1 else r) e

/-- VRMAX (R189). -/
def execVrmax (h : Head) (d a : Reg) (k : BitVec 3) (s : State) : Out :=
  s.vred (.vrmax h d a k) h d a k okMax false fun p _ l =>
    let w := fmtWidth p.a
    if p.a ≤ 2 then (foldLanes (p.fmtA.infinity true) (maxBits p.fmtA) l, 0)
    else (foldLanes (2 ^ (w - 1)) (fun x y => if toSigned w x < toSigned w y then y else x) l, 0)
/-- VRMIN (R189). -/
def execVrmin (h : Head) (d a : Reg) (k : BitVec 3) (s : State) : Out :=
  s.vred (.vrmin h d a k) h d a k okMax false fun p _ l =>
    let w := fmtWidth p.a
    if p.a ≤ 2 then (foldLanes (p.fmtA.infinity false) (minBits p.fmtA) l, 0)
    else (foldLanes (2 ^ (w - 1) - 1) (fun x y => if toSigned w y < toSigned w x then y else x) l, 0)
/-- VROR (R189). -/
def execVror (h : Head) (d a : Reg) (k : BitVec 3) (s : State) : Out :=
  s.vred (.vror h d a k) h d a k okAny false fun _ _ l => (foldLanes 0 (fun x y => x ||| y) l, 0)
/-- VRAND (R189). -/
def execVrand (h : Head) (d a : Reg) (k : BitVec 3) (s : State) : Out :=
  s.vred (.vrand h d a k) h d a k okAny false fun p _ l =>
    (foldLanes (2 ^ fmtWidth p.a - 1) (fun x y => x &&& y) l, 0)
/-- VRISUM (R189). -/
def execVrisum (h : Head) (d a : Reg) (k : BitVec 3) (s : State) : Out :=
  s.vred (.vrisum h d a k) h d a k okISum false fun p _ l =>
    let add := fun (_ _ : Nat) (x y : Nat) => satInt 32 p.sat (toSigned 32 x + toSigned 32 y)
    let xs := l.map fun x => if x.2 then wrapInt 32 (toSigned (fmtWidth p.a) x.1) else 0
    let t := treeSum add xs.length.log2 0 xs
    (t.1.headD 0, t.2)

/-! KOP (R190). -/

/-- Mask operations are no prefix consumers. -/
def clsMask : Cls := { rep := true, fmt := false, row := true, hinge := false }

/-- A mask operation that writes k[d]. -/
def State.kop (s : State) (i : Instr) (h : Head) (d : BitVec 3) (uses : List Nat) (f : Ctx → Word) : Out :=
  .next (s.run clsMask i h true uses fun s => .done (s.setCtx (s.ctx.wk d (f s.ctx))))
/-- A mask operation that writes x[d]. -/
def State.kopX (s : State) (i : Instr) (h : Head) (d : Reg) (f : Ctx → Word) : Out :=
  .next (s.run clsMask i h true [ux d] fun s => .done (s.setCtx (s.ctx.wx d (f s.ctx))))

/-- KAND (R190). -/
def execKand (h : Head) (d a b : BitVec 3) (s : State) : Out :=
  s.kop (.kand h d a b) h d [] fun c => c.rk a &&& c.rk b
/-- KOR (R190). -/
def execKor (h : Head) (d a b : BitVec 3) (s : State) : Out :=
  s.kop (.kor h d a b) h d [] fun c => c.rk a ||| c.rk b
/-- KXOR (R190). -/
def execKxor (h : Head) (d a b : BitVec 3) (s : State) : Out :=
  s.kop (.kxor h d a b) h d [] fun c => c.rk a ^^^ c.rk b
/-- KNOT (R190). -/
def execKnot (h : Head) (d a : BitVec 3) (s : State) : Out :=
  s.kop (.knot h d a) h d [] fun c => ~~~(c.rk a)
/-- XMOVK (R190). -/
def execXmovk (h : Head) (d : BitVec 3) (a : Reg) (s : State) : Out :=
  s.kop (.xmovk h d a) h d [ux a] fun c => c.rx a
/-- KMOVX (R190). -/
def execKmovx (h : Head) (d : Reg) (a : BitVec 3) (s : State) : Out :=
  s.kopX (.kmovx h d a) h d fun c => c.rk a
/-- KPOPC (R190). -/
def execKpopc (h : Head) (d : Reg) (a : BitVec 3) (s : State) : Out :=
  s.kopX (.kpopc h d a) h d fun c => popCount (c.rk a)
/-- KFIRST (R190). -/
def execKfirst (h : Head) (d : Reg) (a : BitVec 3) (s : State) : Out :=
  s.kopX (.kfirst h d a) h d fun c => trailingZeros (c.rk a)

end Sys2Proof.Machine
end

