-- ==== Sys2Proof/Machine/Array.lean ====
section
/-! DEFINITION. The matrix array (R240-R269): the key, accumulator sets, descriptors, MMA and MGANG, K-steps,
the drain and row handlers. -/

namespace Sys2Proof.Machine

/-! Descriptors (R245-R248). -/

def arrKind (d : List Word) : Nat := Word.field (wordAt d 0) 63 60
def arrMv (d : List Word) : Nat := Word.field (wordAt d 0) 59 53
def arrNv (d : List Word) : Nat := Word.field (wordAt d 0) 52 46
def arrKd (d : List Word) : Nat := Word.field (wordAt d 0) 45 30
def arrAcc (d : List Word) : Nat := Word.field (wordAt d 0) 29 28
def arrDrain (d : List Word) : Bool := (wordAt d 0).getLsbD 27
def arrHen (d : List Word) : Bool := (wordAt d 0).getLsbD 26
def arrClose (d : List Word) : Bool := (wordAt d 0).getLsbD 25
def arrBtr (d : List Word) : Bool := (wordAt d 0).getLsbD 24
def arrOfmt (d : List Word) : Nat := Word.field (wordAt d 0) 23 20
def arrPop (d : List Word) : Bool := (wordAt d 0).getLsbD 19
def arrHent (d : List Word) : Nat := Word.field (wordAt d 0) 17 0
def arrVa (d : List Word) (i : Nat) : Nat := Word.field (wordAt d i) 47 0
def arrAstride (d : List Word) : Int := sfield (Word.field (wordAt d 6) 63 42) 22
def arrBstride (d : List Word) : Int := sfield (Word.field (wordAt d 6) 41 20) 22
def arrDstride (d : List Word) : Int := sfield (Word.field (wordAt d 6) 19 0) 20
def arrDscale (d : List Word) : Nat := Word.field (wordAt d 7) 63 32
def arrSeed (d : List Word) : Nat := Word.field (wordAt d 7) 31 16

/-- Valid rows of a command's block. -/
def ArrCmd.mv (a : ArrCmd) : Nat := match a.gang with
  | some (_, _, m, _, _) => m
  | none => arrMv a.desc
/-- Valid columns of a command's block. -/
def ArrCmd.nv (a : ArrCmd) : Nat := match a.gang with
  | some (_, _, _, n, _) => n
  | none => arrNv a.desc
/-- The draining core (R255, R264). -/
def ArrCmd.drainCore (a : ArrCmd) : Nat := match a.gang with
  | some (_, _, _, _, c) => c
  | none => a.core
/-- The prefix fields of a command. -/
def ArrCmd.pfx (a : ArrCmd) : Pfx := pfxOf a.pre
/-- The rounding resolved at issue (R240). -/
def ArrCmd.rounding (a : ArrCmd) : Rnd := { mode := rmode a.rnd, seed := a.fseed }
/-- K-steps of a command. -/
def ArrCmd.depth (a : ArrCmd) : Nat := (arrKd a.desc + 31) / 32

/-- Operand formats and scale modes that the array takes, and its accumulator format (R240). -/
def Pfx.arrayOk (p : Pfx) : Bool :=
  let f8 := fun c => c == 3 || c == 4
  p.rnd != 7 &&
  ((p.a == 1 && p.b == 1 && p.scale == 0 && p.d == 0) || (p.a == 2 && p.b == 2 && p.scale == 0 && p.d == 0) ||
   (f8 p.a && f8 p.b && decide (p.scale ≤ 1) && p.d == 0) || (p.a == 5 && p.b == 5 && p.scale == 1 && p.d == 0) ||
   (p.a == 6 && p.b == 6 && p.scale == 0 && p.d == 7) || (p.a == 6 && p.b == 6 && p.scale == 1 && p.d == 0) ||
   (p.a == 8 && p.b == 8 && p.scale == 0 && p.d == 7))

/-- The axis bit names B's layout under block scales (R240). -/
def Pfx.axisOk (p : Pfx) (btr : Bool) : Bool := p.scale != 1 || p.axis == !btr

/-- Output formats of an accumulator format (R240). -/
def arrOfmtOk (d o : Nat) : Bool := if d = 0 then decide (o ≤ 4) else o == 7 || o == 6 || o == 0

/-- The checks of a descriptor that do not depend on the context (R248), for MMA or for MGANG (R263). -/
def arrDescOk (d : List Word) (p : Pfx) (gang : Bool) : Bool :=
  let mv := arrMv d
  let nv := arrNv d
  let scaled := p.scale == 1
  arrKind d == 4 && !(wordAt d 0).getLsbD 18 && Word.field (wordAt d 7) 15 0 == 0 &&
  ([1, 2, 3, 4, 5].all fun i => Word.field (wordAt d i) 63 48 == 0) &&
  (if gang then mv == 0 && nv == 0 && arrAcc d == 0 && arrDrain d && !arrPop d && !arrClose d
    else decide (1 ≤ mv) && decide (mv ≤ 64) && decide (1 ≤ nv) && decide (nv ≤ 64)) &&
  arrKd d != 0 && decide (arrAcc d ≤ 1) && arrOfmtOk p.d (arrOfmt d) && arrDscale d / 2 ^ 23 % 256 != 255 &&
  !(arrHen d && arrPop d) && (arrHen d || arrHent d == 0) && (!arrPop d || (arrVa d 3 == 0 && !arrClose d)) &&
  (if scaled then arrVa d 4 != 0 && arrVa d 5 != 0 else arrVa d 4 == 0 && arrVa d 5 == 0)

/-- acc = 1 continues a set that R248 lets it continue. -/
def AccSet.continues (a : AccSet) (d : List Word) (p : Pfx) : Bool :=
  arrAcc d == 0 || a.zeroed || (match a.last with
    | some (drained, f, mv, nv) => !drained && f == p.d && mv == arrMv d && nv == arrNv d
    | none => false)

/-! The key (R241-R243). -/

/-- The key of a quad is free again; the position that held it is kept (R243). -/
def Quad.release (q : Quad) (pos : Nat) : Quad := { q with holder := none, lastPos := pos, used := 0 }

/-- A task's frame stands in its slice: it runs, or its tile record is in the save store (R345, R346). -/
def CoreSt.frameHere (c : CoreSt) (t : TaskId) : Bool := (c.ctx t.ctx).runs t || (c.savedTask t).isSome

/-- The last operation of a task on a quad's array, without its accumulators (R244). -/
def Quad.lastOf (q : Quad) (t : TaskId) : Option ArrOp := q.lasts.find? fun o => o.cmd.iss.task == t

/-- An operation has ended: it is the array's last one, and its task's. -/
def Quad.ended (q : Quad) (o : ArrOp) : Quad :=
  let o := { o with acc := [] }
  { q with last := some o, lasts := o :: q.lasts.filter fun p => p.cmd.iss.task != o.cmd.iss.task }

/-- The frame of a task: bytes written at an offset, in the slice or in its frame place (R345). -/
def State.writeFrame (s : State) (t : TaskId) (off : Nat) (bs : List Byte) : State :=
  let c := s.core t.core
  if c.frameHere t then s.poke (localPa t.core (0x100000 + t.ctx * 0x20000 + off)) bs
  else match c.spilledAt t with
    | none => s
    | some i => match c.spilled[i]? with
      | none => s
      | some p => s.setCore t.core { c with spilled := replaceAt c.spilled i { p with frame := writeBytes p.frame off bs } }

/-- The frame of a task read at an offset. -/
def State.readFrame (s : State) (t : TaskId) (off n : Nat) : List Byte :=
  let c := s.core t.core
  if c.frameHere t then readBytes s.mem (localPa t.core (0x100000 + t.ctx * 0x20000 + off)) n
  else match (c.spilledAt t).bind fun i => c.spilled[i]? with
    | none => List.replicate n 0
    | some p => readBytes p.frame off n

/-- The accumulator save area of a frame, from an operation and a set (R244). -/
def saveArea (o : ArrOp) (busy live : Bool) (acc : Sparse (BitVec 32)) : List Byte :=
  natBytes 8 (o.aprog busy).toNat ++
  natBytes 8 (live.toNat + (busy && o.held).toNat * 2 + acc.isEmpty.toNat * 4 + 8) ++
  natBytes 8 (o.cmd.pre.toNat + o.cmd.rnd * 2 ^ 24) ++ natBytes 8 o.cmd.fseed.toNat ++ List.replicate 32 0

/-- The bytes of 4,096 accumulators. -/
def accBytes (acc : Sparse (BitVec 32)) : List Byte := (List.range 4096).flatMap fun n => natBytes 4 (look 0 acc n).toNat

/-- A set written into the save area of a task's frame; a zero set leaves the accumulator bytes (R244). -/
def State.saveSet (s : State) (t : TaskId) (o : ArrOp) (busy live : Bool) (acc : Sparse (BitVec 32)) : State :=
  let s := if acc.isEmpty then s else s.writeFrame t 0 (accBytes acc)
  let s := (s.writeFrame t 0x4000 (wordsBytes o.cmd.desc)).writeFrame t 0x4040 (saveArea o busy live acc)
  (s.onTask t fun c => { c with aset := { c.aset with saved := true } }).getD s

/-- A set read back from the save area of a task's frame. -/
def State.loadSet (s : State) (t : TaskId) : Sparse (BitVec 32) :=
  let flags := bytesNat (s.readFrame t 0x4048 8)
  if flags.testBit 2 then []
  else (List.range 4096).foldr (fun n a =>
    let v := BitVec.ofNat 32 (bytesNat (s.readFrame t (4 * n) 4))
    if v = 0 then a else (n, v) :: a) []

/-- Commands of a task that the array still has. -/
def Quad.has (q : Quad) (t : TaskId) : Bool :=
  (q.queue.any fun k => k.iss.task == t && k.gang.isNone) || (match q.cur with
    | some o => o.cmd.iss.task == t && o.cmd.gang.isNone
    | none => false)

/-- The set that the array holds is saved once its context has neither the key nor commands left (R242,
R244) (DEDUCED, log entry 45). -/
def State.settleSet (s : State) (n : Nat) : State :=
  let q := s.quad n
  match q.accOf with
  | some t =>
    if q.holder = some t ∨ q.has t then s
    else
      let s := match q.lastOf t with
        | some o => s.saveSet t o false true q.acc
        | none => s
      s.setQuad n { s.quad n with acc := [], accOf := none }
  | none => s

/-- A task has given its key up: an operation of it that is displaced waits for the key no longer (R265). -/
def Quad.unkey (q : Quad) (t : TaskId) : Quad :=
  { q with displaced := q.displaced.map fun o => if o.cmd.iss.task = t then { o with keyed := false } else o }

/-- The key of the issuing context's quad passes on. -/
def State.giveKey (s : State) : State :=
  let n := quadOf s.cur
  (s.setQuad n (((s.quad n).unkey s.myTask).release (quadPos s.cur))).settleSet n

/-- A request for the key. -/
def Quad.request (q : Quad) (t : TaskId) : Quad :=
  if q.requests.contains t then q else { q with requests := q.requests ++ [t] }

/-- The issuing context asks for the key and parks (R242). -/
def State.askKey (s : State) : State :=
  let n := quadOf s.cur
  s.setQuad n ((s.quad n).request s.myTask)

/-- Held operations of a task: in the arrays, or displaced. -/
def Quad.heldOf (q : Quad) (t : TaskId) : List ArrOp :=
  ((match q.cur with
    | some o => [o]
    | none => []) ++ q.displaced).filter fun o => o.held && o.cmd.iss.task == t

/-- An operation put into a list by its number. -/
def insertOp (o : ArrOp) : List ArrOp → List ArrOp
  | [] => [o]
  | p :: r => if o.cmd.id ≤ p.cmd.id then o :: p :: r else p :: insertOp o r

/-- The held operations of a task over all arrays, oldest first. -/
def State.heldOps (s : State) (t : TaskId) : List ArrOp := (s.quads.flatMap fun q => q.2.heldOf t).foldr insertOp []

/-- Instructions of the array that only a task context may use. -/
def clsArray : Cls := clsTaskOnly
/-- Those that take a prefix (R269). -/
def clsArrayFmt : Cls := { clsTaskOnly with fmt := true }

/-- AKEY (R242). -/
def execAkey (h : Head) (s : State) : Out :=
  .next (s.run clsArray (.akey h) h true [] fun s =>
    if s.hasKey s.myTask then .done s else .stay .key s.askKey)

/-- AREL (R242). -/
def execArel (h : Head) (s : State) : Out :=
  .next (s.run clsArray (.arel h) h true [] fun s =>
    if !s.hasKey s.myTask then .done s
    else if !((s.quad (quadOf s.cur)).heldOf s.myTask).isEmpty then .trap 0x0B 0 s
    else .done s.giveKey)

/-- KEY_GRANT: the position that is served, after the one that last held the key (R243); a pre-empted requester
waits for its resumption (R265). -/
def State.nextGrant (s : State) (q : Quad) : Option (Nat × Option TaskId) :=
  let at1 := fun p =>
    if p = 4 then if (s.gangRequest q).isSome then some (4, none) else none
    else (q.requests.find? fun t => quadPos t.core == p && !s.preempted t.slot).map fun t => (p, some t)
  [1, 2, 3, 4, 5].firstM fun d => at1 ((q.lastPos + d) % 5)

/-- The context that waits for its key after a resumption issues again (R265). -/
def State.unstop (s : State) (t : TaskId) : State := (s.onTask t fun x => { x with stopped := false }).getD s

/-- The key given to a requester at a position, with a new lease (R243). -/
def State.grantKey (s : State) (n p : Nat) (t : Option TaskId) : State :=
  let q := s.quad n
  match t with
  | some t =>
    s.leftIdle t.core
      ((((s.setQuad n { q with holder := some t, lastPos := p, used := 0, requests := q.requests.erase t }).settleSet n).unstop t).stir t.core)
  | none =>
    match s.gangRequest q with
    | none => s
    | some (k, back) =>
      let q := { q with holder := some (gangHolder s.pkg k.iss.task.slot), lastPos := p, used := 0 }
      (s.setQuad n (if back then q else { q with gangSlot := none, queue := q.queue ++ [k] })).settleSet n

/-- A grant as a choice of the scheduler log (R355): the slot of its command, and the choice. -/
def State.grantChoice (s : State) (q : Quad) (p : Nat) (t : Option TaskId) : Nat × Nat :=
  let slot := match t, s.gangRequest q with
    | some t, _ => t.slot
    | none, some (k, _) => k.iss.task.slot
    | none, none => 65536
  (slot, p + 8 * (t.map (·.ctx)).getD 0)

/-- KEY_GRANT (R243, R355): a free key goes to the next requester. -/
def execKeyGrant (n : Nat) (s : State) : Out :=
  let q := s.quad n
  if q.holder.isSome then .next s
  else match s.nextGrant q with
    | none => .next s
    | some (p, t) =>
      let k := s.grantChoice q p t
      if s.mayChoose k.1 (quadTile n 0) 3 k.2 then .next ((s.chose k.1 (quadTile n 0) 3 k.2).grantKey n p t) else .next s

/-! Issue of array commands (R250). -/

/-- A command from its descriptor, prefix and rounding. -/
def State.arrCmd (s : State) (d : List Word) (pre : BitVec 22) (rnd : Nat) (gang : Option (Nat × Nat × Nat × Nat × Nat)) :
    ArrCmd :=
  let c := s.ctx
  { id := s.fresh, iss := s.issuer, core := s.cur, ctx := s.curCtx, group := c.group, colour := c.colour, pre := pre, rnd := rnd,
    fseed := c.fseed, frm := c.frm, tid := c.tid, grp := c.grp, exitc := c.exitc, desc := d, gang := gang }

/-- The lease before one command more (R243): the quad whose lease takes it, or none when the key passes. -/
def State.lease (s : State) (q : Quad) (t : TaskId) : Option Quad :=
  if q.used < 16 then some q
  else if ((q.requests.any fun r => !s.preempted r.slot) || (s.gangRequest q).isSome) && (q.heldOf t).isEmpty then none
  else some { q with used := 0 }

/-- The rounding code of a prefix resolved from frm (R240); frm when it is reserved. -/
def Ctx.resolve (c : Ctx) (code : Nat) : Except Word Nat :=
  if code ≠ 6 then .ok code else if 6 ≤ c.frm.toNat then .error c.frm else .ok c.frm.toNat

/-- A checked command handed to the quad's array: `bad` is the tval of a failed descriptor (R250). -/
def State.enqueueArray (s : State) (d : List Word) (pre : BitVec 22) (bad : Word) : Handed :=
  let c := s.ctx
  let p := pfxOf pre
  let n := quadOf s.cur
  let q := s.quad n
  if !p.arrayOk || !p.axisOk (arrBtr d) then .bad 0x0B (pre.setWidth 64)
  else match c.resolve p.rnd with
    | .error w => .bad 0x0B w
    | .ok rnd =>
      if !arrDescOk d p false || !c.aset.continues d p then .bad 0x0B bad
      else match s.lease q s.myTask with
        | none => .wait .key s.giveKey.askKey
        | some q' =>
          if !q.room then .wait (.room 2 0) (s.setQuad n q')
          else
            let k := s.arrCmd d pre rnd none
            let s := { s with fresh := s.fresh + 16384 }
            let s := s.setQuad n { q' with queue := q'.queue ++ [k], used := q'.used + 1 }
            .taken (s.setCtx { c with
              aset := { c.aset with last := some (arrDrain d, p.d, arrMv d, arrNv d), zeroed := false } })

/-- The 64 bytes of a descriptor as the context reads them, or its fault (R250). -/
def State.arrDescriptor (s : State) (a : Word) (f : List Word → Eff) : Eff :=
  let va := a.toNat
  if va % 64 ≠ 0 then .trap 0x04 a s
  else if !(isLocal va && s.localOk va 64 false) then .trap 0x05 (0x0005000000000000 ||| a) s
  else f (s.captured va 64)

/-- MMA (R250). -/
def execMma (h : Head) (a : Reg) (s : State) : Out :=
  .next (s.run clsArrayFmt (.mma h a) h (s.hasKey s.myTask) [ux a] fun s =>
    s.arrDescriptor (s.ctx.rx a) fun d =>
      match s.enqueueArray d (s.ctx.pfx.getD plainBody) (s.ctx.rx a) with
      | .taken s => .done s
      | .wait w s => .stay w (s.keep d)
      | .bad cause tval => .trap cause tval s)

/-- Members of a group of a slot's command in rank order, in the half of the tile that asks (R67, R357). -/
def State.membersOf (s : State) (slot group tile : Nat) : List Nat :=
  match (s.slot slot).cmd with
  | none => []
  | some c =>
    match c.groups.find? fun g => g.id == group with
    | none => []
    | some g => if s.inMirror slot tile then g.members.map (· + 16) else g.members

/-- The grid of an MGANG (R262). -/
structure Grid where
  gx : Nat
  gy : Nat
  m : Nat
  n : Nat
  step : Nat
  deriving DecidableEq, Repr

/-- The fields of a grid word, when they are legal (R262, R263). -/
def gridOf (g : Word) : Option Grid :=
  let r : Grid :=
    { gx := Word.field g 3 0 + 1, gy := Word.field g 7 4 + 1, m := Word.field g 41 31 + 1, n := Word.field g 30 20 + 1
      step := Word.field g 19 16 + 1 }
  if Word.field g 63 42 ≠ 0 ∨ Word.field g 15 8 ≠ 0 ∨ 64 * r.gy < r.m ∨ r.m ≤ 64 * (r.gy - 1) ∨ 64 * r.gx < r.n ∨
      r.n ≤ 64 * (r.gx - 1) ∨ 1024 < r.m ∨ 1024 < r.n then none
  else some r

/-- The draining tiles of a grid's blocks (R263); none when a rank has no member or two quads are equal. -/
def Grid.tiles (r : Grid) (members : List Nat) : Option (List Nat) :=
  let ts := (List.range (r.gx * r.gy)).filterMap fun b => members[b * r.step]?
  if ts.length ≠ r.gx * r.gy ∨ (ts.map quadOf).eraseDups.length ≠ ts.length then none else some ts

/-- Block `b` of a grid: first row, first column, mv, nv and draining core (R264). -/
def Grid.block (r : Grid) (b tile : Nat) : Nat × Nat × Nat × Nat × Nat :=
  let bi := b / r.gx
  let bj := b % r.gx
  (64 * bi, 64 * bj, min 64 (r.m - 64 * bi), min 64 (r.n - 64 * bj), tile)

/-- The blocks from number `b` on posted; a full gang slot parks the instruction (R263). -/
def State.postBlocks (s : State) (r : Grid) (d : List Word) (pre : BitVec 22) (rnd : Nat) : List Nat → Nat → Eff
  | [], _ => .done (s.setCtx { s.ctx with gangPosted := 0 })
  | t :: ts, b =>
    let q := s.quad (quadOf t)
    if q.gangSlot.isSome then .stay (.room 6 (quadOf t)) ((s.setCtx { s.ctx with gangPosted := b }).keep d)
    else
      let k := s.arrCmd d pre rnd (some (r.block b t))
      State.postBlocks (({ s with fresh := s.fresh + 16384 } : State).setQuad (quadOf t) { q with gangSlot := some k })
        r d pre rnd ts (b + 1)

/-- MGANG (R263). -/
def execMgang (h : Head) (a b : Reg) (s : State) : Out :=
  .next (s.run clsArrayFmt (.mgang h a b) h true [ux a, ux b] fun s =>
    let g := s.ctx.rx b
    let pre := s.ctx.pfx.getD plainBody
    let p := pfxOf pre
    if !s.isLeader s.ctx.group then .trap 0x0F (s.ctx.rx a) s
    else s.arrDescriptor (s.ctx.rx a) fun d =>
      if !p.arrayOk || !p.axisOk (arrBtr d) then .trap 0x0B (pre.setWidth 64) s
      else match s.ctx.resolve p.rnd with
        | .error w => .trap 0x0B w s
        | .ok rnd =>
          if !arrDescOk d p true then .trap 0x0B (s.ctx.rx a) s
          else match gridOf g with
            | none => .trap 0x0B g s
            | some r =>
              match r.tiles (s.membersOf s.ctx.slot s.ctx.group s.cur) with
              | none => .trap 0x0B g s
              | some ts => s.postBlocks r d pre rnd (ts.drop s.ctx.gangPosted) s.ctx.gangPosted)

/-! Held operations (R259-R261). -/

/-- MRES on one quad (R259): held operations of the task, in the array or displaced, run on and read their step afresh. -/
def State.resumeFor (t : TaskId) (s : State) (n : Nat) : State :=
  let q := s.quad n
  let mine := fun (o : ArrOp) => o.held && o.cmd.iss.task == t && (o.cmd.gang.isSome || s.hasKey t)
  let one := fun (o : ArrOp) => if mine o then { o with held := false, hcause := 0 } else o
  let ids := (((q.cur.map fun o => [o]).getD [] ++ q.displaced).filter mine).map fun o => o.cmd.id
  State.setQuad { s with fetched := s.fetched.filter fun f => !ids.contains f.1 } n
    { q with cur := q.cur.map one, displaced := q.displaced.map one }

/-- MRES (R259). -/
def execMres (h : Head) (s : State) : Out :=
  .next (s.run clsArray (.mres h) h true [] fun s =>
    let t := s.myTask
    if (s.heldOps t).isEmpty then .trap 0x0B 0 s
    else .done ((s.quads.map (·.1)).foldl (State.resumeFor t) s))

/-- The gang block that has the key: in the array, queued, or displaced and granted again (R243, R264, R265). -/
def Quad.keyBlock (q : Quad) : Option Nat :=
  match q.holder with
  | none => none
  | some h =>
    if h.core ≠ 4096 then none
    else
      let back := q.displaced.find? fun o => o.cmd.gang.isSome && o.cmd.iss.task.slot == h.slot
      (((q.cur.filter fun o => o.cmd.gang.isSome).map (·.cmd)).or ((q.queue.find? fun k => k.gang.isSome).or (back.map (·.cmd)))).map (·.id)

/-- An array still has command `id`. -/
def Quad.keeps (q : Quad) (id : Nat) : Bool :=
  (q.cur.any fun o => o.cmd.id == id) || (q.queue.any fun k => k.id == id) || q.displaced.any fun o => o.cmd.id == id

/-- The key of a gang block that the array had as `old` and has no longer is free (R243). -/
def Quad.unblock (old q : Quad) : Quad :=
  match old.keyBlock with
  | some id => if q.keeps id then q else q.release 4
  | none => q

/-- What a task leaves behind in one array: held operations and the commands behind them; the array keeps the place of
the set of one that it held (R260, R264, R267). -/
def Quad.drop (q : Quad) (t : TaskId) : Quad :=
  let mine := fun (o : ArrOp) => o.held && o.cmd.iss.task == t
  let q := if (q.displaced.any fun o => mine o && o.cmd.gang.isNone) || q.cur.any mine then
      { q with queue := q.queue.filter fun k => k.iss.task != t, saved := q.saved.filter fun k => k.iss.task != t }
    else q
  let q := q.displaced.foldl (fun q o => if mine o then q.ended o else q) q
  let q := { q with displaced := q.displaced.filter fun o => !mine o }
  match q.cur with
  | some o => if mine o then { q.ended o with cur := none, acc := [], accOf := if o.cmd.gang.isNone then some t else none } else q
  | none => q

/-- What a task leaves behind is gone, and the key of a gang block among it is free again (R243). -/
def Quad.discard (q : Quad) (t : TaskId) : Quad := q.unblock (q.drop t)

/-- The held operations of a task discarded in every array. -/
def State.discardHeld (s : State) (t : TaskId) : State := { s with quads := s.quads.map fun q => (q.1, q.2.discard t) }

/-- A command that stands for none, for a save area without an operation before it. -/
def noCmd (i : Issuer) (core ctx : Nat) : ArrCmd :=
  { id := 0, iss := i, core := core, ctx := ctx, group := 0, colour := 0, pre := 0, rnd := 0, fseed := 0, frm := 0, tid := 0,
    grp := 0, exitc := 0, desc := List.replicate 8 0, gang := none }

/-- MZERO (R260). -/
def execMzero (h : Head) (s : State) : Out :=
  .next (s.run clsArray (.mzero h) h true [] fun s =>
    let t := s.myTask
    if !s.arraySettled t then .stay .arrayIdle s
    else
      let s := s.discardHeld t
      let n := quadOf s.cur
      let q := s.quad n
      let o := (q.lastOf t).getD { cmd := noCmd s.issuer s.cur s.curCtx }
      let here := s.hasKey t && decide (q.accOf = some t)
      let s := if here then s.setQuad n { q with acc := [] }
        else (if q.accOf = some t then s.setQuad n { q with acc := [], accOf := none } else s).saveSet t o false true []
      let c := s.ctx
      .done (s.setCtx { c with aset := { live := true, saved := !here, last := none, zeroed := true } }))

/-- MSTAT's result (R261). -/
def State.arrayStatus (s : State) : Word :=
  let t := s.myTask
  let set := ((s.taskCtx t).getD s.ctx).aset
  let held := s.heldOps t
  let q := s.quad (quadOf t.core)
  let mine := fun (k : ArrCmd) => k.iss.task == t && k.gang.isNone
  let queued := ((q.queue ++ q.saved).filter mine).length + (((q.cur.map fun o => [o]).getD [] ++ q.displaced).filter fun o => mine o.cmd).length
  let cause := match held with
    | o :: _ => o.hcause
    | [] => 0
  let steps := match held with
    | o :: _ => o.steps
    | [] => 0
  BitVec.ofNat 64 ((s.hasKey t).toNat * 2 ^ 63 + set.saved.toNat * 2 ^ 62 + (!held.isEmpty).toNat * 2 ^ 61 +
    set.live.toNat * 2 ^ 60 + cause % 256 * 2 ^ 48 + queued % 256 * 2 ^ 40 + steps % 2 ^ 16)

/-- MSTAT (R261). -/
def execMstat (h : Head) (d : Reg) (s : State) : Out :=
  .next (s.run clsMisc (.mstat h d) h true [ux d] fun s => .done (s.setCtx (s.ctx.wx d s.arrayStatus)))

/-! K-steps (R247, R251, R252, R259). -/

/-- The agent of an array command. -/
def ArrCmd.agent (k : ArrCmd) (quad : Nat) : Agent :=
  { kind := 2, place := quad, core := k.core, ctx := k.ctx, group := k.group, cmd := k.id, iss := k.iss, colour := k.colour
    lane := laneNumber k.iss.task.pkg k.core k.ctx (2 + quad) }

/-- One read of an array, which has no local window (R247). -/
def State.arrayRead (s : State) (a : Agent) (va n : Nat) : Got Nat :=
  if isLocal va then .stop 0x25 (xlatTval 5 va)
  else match s.engineRead a va n false with
    | .ok bs => .ok (bytesNat bs)
    | .wait s => .wait s
    | .stop cause tval => .stop cause tval

/-- Reads in order; the first that does not give its value decides. -/
def State.arrayReads (s : State) (a : Agent) : List (Nat × Nat) → Got (List Nat)
  | [] => .ok []
  | (va, n) :: r =>
    match s.arrayRead a va n with
    | .wait s => .wait s
    | .stop cause tval => .stop cause tval
    | .ok v =>
      match s.arrayReads a r with
      | .ok vs => .ok (v :: vs)
      | e => e

/-- An element's bytes: mx4 elements stand two to a byte (R155, R247). -/
def elemBytes (code : Nat) : Nat := if code = 5 then 1 else fmtWidth code / 8
/-- The byte offset of element `k` of a row. -/
def elemOff (code k : Nat) : Int := if code = 5 then ((k / 2 : Nat) : Int) else ((k * elemBytes code : Nat) : Int)
/-- The element in a byte or word that was read. -/
def elemPick (code k v : Nat) : Nat := if code = 5 then (if k % 2 = 0 then v % 16 else v / 16) else v

/-- Elements `k` of step `st` that are not masked (R247). -/
def ArrCmd.stepKs (k : ArrCmd) (st : Nat) : List Nat := (List.range (min 32 (arrKd k.desc - 32 * st))).map (32 * st + ·)

/-- The reads of row `i` of A for a step: its elements, then its scale. -/
def ArrCmd.readsA (k : ArrCmd) (st i : Nat) : List (Nat × Nat) :=
  let d := k.desc
  let p := k.pfx
  let row : Int := (arrVa d 1 : Int) + (k.row0 + i : Nat) * arrAstride d
  ((k.stepKs st).map fun e => (wrapVa (row + elemOff p.a e), elemBytes p.a)) ++
  (if p.scale = 1 then [(wrapVa ((arrVa d 4 + (k.row0 + i) * k.depth + st : Nat) : Int), 1)] else [])

/-- The reads of column `j` of B for a step: its elements, then its scale. -/
def ArrCmd.readsB (k : ArrCmd) (st j : Nat) : List (Nat × Nat) :=
  let d := k.desc
  let p := k.pfx
  let col := k.col0 + j
  let at1 := fun (e : Nat) =>
    if arrBtr d then (arrVa d 2 : Int) + (col : Nat) * arrBstride d + elemOff p.b e
    else (arrVa d 2 : Int) + (e : Nat) * arrBstride d + elemOff p.b col
  ((k.stepKs st).map fun e => (wrapVa (at1 e), elemBytes p.b)) ++
  (if p.scale = 1 then [(wrapVa ((arrVa d 5 + col * k.depth + st : Nat) : Int), 1)] else [])

/-- What was read for one row or column: elements and scale (127 for none). -/
structure Line where
  elems : List Nat
  scale : Nat
  deriving DecidableEq, Repr, Inhabited

/-- A line from its reads; `ix` numbers the elements for the choice of nibbles. -/
def lineOf (code : Nat) (scaled : Bool) (ix vs : List Nat) : Line :=
  { elems := (ix.zip vs).map fun p => elemPick code p.1 p.2, scale := if scaled then vs.getLastD 127 else 127 }

/-- Lines read in order. -/
def State.arrayLines (s : State) (a : Agent) (code : Nat) (scaled : Bool) :
    List (List Nat × List (Nat × Nat)) → Got (List Line)
  | [] => .ok []
  | (ix, rs) :: r =>
    match s.arrayReads a rs with
    | .wait s => .wait s
    | .stop cause tval => .stop cause tval
    | .ok vs =>
      match s.arrayLines a code scaled r with
      | .ok ls => .ok (lineOf code scaled ix vs :: ls)
      | e => e

/-- The value of an operand element (R153, R155). -/
def operandValue (code : Nat) (scaled : Bool) (scale n : Nat) : FVal :=
  if scaled then mxValue code scale n else (decodeElem code n).value

/-- One step of R163: the exact sum of products, added to the accumulator with one rounding. -/
def sumProducts (ms : List (FVal × FlagSet)) (old : BitVec 32) : BitVec 32 × FlagSet :=
  let one := fun (t m : FVal × FlagSet) =>
    let r := t.1.add false m.1
    (r.1, t.2 ||| m.2 ||| r.2)
  let t := ms.foldl one (FVal.fin false 0 0, 0)
  let meets := ms.any (fun m => m.1 == .inf false) && ms.any (fun m => m.1 == .inf true)
  let t := (t.1, t.2 ||| (if meets then flagNv else 0))
  match t.1 with
  | .nan => (0x7FC00000, t.2)
  | .fin _ 0 _ => (old, t.2)
  | v =>
    let r := (fmtF32.decode old.toNat).add false v
    let u := fmtF32.round rneMode false r.1
    (BitVec.ofNat 32 u.1, t.2 ||| r.2 ||| u.2)

/-- The step of a floating-point element (R163). -/
def sumFloat (p : Pfx) (x y : Line) (old : BitVec 32) : BitVec 32 × FlagSet :=
  let on := p.scale == 1
  sumProducts ((x.elems.zip y.elems).map fun e =>
    (operandValue p.a on x.scale e.1).mul (operandValue p.b on y.scale e.2)) old

/-- The step of an i8 element (R164): one product at a time in ascending k. -/
def sumInt (p : Pfx) (x y : Line) (old : BitVec 32) : BitVec 32 × FlagSet :=
  let one := fun (t : Nat × FlagSet) (e : Nat × Nat) =>
    let r := satInt 32 p.sat (toSigned 32 t.1 + toSigned 8 e.1 * toSigned 8 e.2)
    (r.1, if p.sat then t.2 ||| r.2 else t.2)
  let t := (x.elems.zip y.elems).foldl one (old.toNat, 0)
  (BitVec.ofNat 32 t.1, t.2)

/-- The step of an rns16 element (R164): every channel sums modulo its modulus. -/
def sumRns (x y : Line) (old : BitVec 32) : BitVec 32 × FlagSet :=
  (BitVec.ofNat 32 ((x.elems.zip y.elems).foldl (fun t e => rnsOp (· + ·) t (rnsOp (· * ·) e.1 e.2)) old.toNat), 0)

/-- One element's step. -/
def sumStep (p : Pfx) (x y : Line) (old : BitVec 32) : BitVec 32 × FlagSet :=
  if p.d = 0 then sumFloat p x y old else if p.a = 8 then sumRns x y old else sumInt p x y old

/-- A step summed over the unmasked elements (R163, R164). -/
def sumAll (p : Pfx) (as bs : List Line) (acc : Sparse (BitVec 32)) : Sparse (BitVec 32) × FlagSet :=
  ((List.range as.length).flatMap fun i => (List.range bs.length).map fun j => (i, j)).foldl
    (fun t ij =>
      let n := 64 * ij.1 + ij.2
      let r := sumStep p (as.getD ij.1 default) (bs.getD ij.2 default) (look 0 t.1 n)
      (put 0 t.1 n r.1, t.2 ||| r.2)) (acc, 0)


/-- The next command that the array may start (R251): no command of a context starts before its displaced operation has
returned (R265). -/
def State.nextArray (s : State) (q : Quad) : Option ArrCmd :=
  q.queue.find? fun k => !s.preempted k.iss.task.slot &&
    !(k.gang.isNone && q.displaced.any fun o => o.cmd.gang.isNone && o.cmd.iss.task == k.iss.task)

/-- A command starts (R244, R251): the set of another context is saved, its own is restored. -/
def State.startArray (s : State) (n : Nat) (k : ArrCmd) : State :=
  let t := k.iss.task
  let q := s.quad n
  let s := match q.accOf.filter (fun u => !(u == t && k.gang.isNone)), q.accOf.bind q.lastOf with
    | some u, some o => s.saveSet u o false true q.acc
    | _, _ => s
  let acc := if arrAcc k.desc = 0 then [] else if q.accOf = some t then q.acc else s.loadSet t
  let s := if k.gang.isNone then (s.onTask t fun c => { c with aset := { c.aset with saved := false } }).getD s else s
  let q := s.quad n
  s.setQuad n { q with
    queue := q.queue.erase k
    cur := some { cmd := k, past := wrapVa ((arrVa k.desc 3 : Int) + (k.row0 : Nat) * arrDstride k.desc), acc := acc }
    acc := []
    accOf := none }

/-- An operand fault holds the operation and is reported (R259). -/
def State.holdArray (s : State) (n : Nat) (o : ArrOp) (cause : Nat) (tval : Word) : State :=
  let hc := if cause = 0x25 then 0x05 else cause
  let tval : Word := if cause = 0x25 then tval else BitVec.ofNat 64 (hc * 2 ^ 52 + tval.toNat % 2 ^ 48)
  let s := { s with fetched := s.fetched.filter fun f => f.1 != o.cmd.id }
  let s := (s.setQuad n { s.quad n with cur := some { o with held := true, hcause := hc } }).forget 2 n 0
  s.report o.cmd.iss 0x26 o.cmd.colour tval

/-- The operation of a quad has ended (R244, R264): the set lives on or not, a gang block's key passes. -/
def State.endArray (s : State) (n : Nat) (o : ArrOp) : State :=
  let q := s.quad n
  let k := o.cmd
  let live := !arrDrain k.desc
  let q := { q.ended o with
    cur := none
    acc := if live then o.acc else []
    accOf := if live then some k.iss.task else none }
  let s := s.setQuad n (if k.gang.isSome then q.release 4 else q)
  let s := if k.gang.isSome then s
    else (s.onTask k.iss.task fun c => { c with aset := { c.aset with live := live } }).getD s
  s.settleSet n

/-- The lines of A that the current step of an operation reads, with what numbers their elements, and those of B. -/
def ArrOp.linesA (o : ArrOp) : List (List Nat × List (Nat × Nat)) :=
  (List.range o.cmd.mv).map fun i => (o.cmd.stepKs o.steps, o.cmd.readsA o.steps i)
def ArrOp.linesB (o : ArrOp) : List (List Nat × List (Nat × Nat)) :=
  let k := o.cmd
  let ks := k.stepKs o.steps
  (List.range k.nv).map fun j => (if arrBtr k.desc then ks else ks.map fun _ => k.col0 + j, k.readsB o.steps j)

/-- Everything that a step reads: A before B. -/
def State.stepLines (s : State) (n : Nat) (o : ArrOp) : Got (List Line × List Line) :=
  let p := o.cmd.pfx
  match s.arrayLines (o.cmd.agent n) p.a (p.scale == 1) o.linesA with
  | .wait s => .wait s
  | .stop cause tval => .stop cause tval
  | .ok as =>
    match s.arrayLines (o.cmd.agent n) p.b (p.scale == 1) o.linesB with
    | .wait s => .wait s
    | .stop cause tval => .stop cause tval
    | .ok bs => .ok (as, bs)

/-- A step summed from its operands (R163, R164); behind the last one the operation drains, or ends. -/
def State.sumLines (s : State) (n : Nat) (o : ArrOp) (as bs : List Line) : State :=
  let k := o.cmd
  let r := sumAll k.pfx as bs o.acc
  let s := (({ s with fetched := s.fetched.filter (·.1 != k.id) } : State).forget 2 n 0).orFlags k.iss r.2
  let o := { o with acc := r.1, steps := o.steps + 1 }
  if o.steps < k.depth then s.setQuad n { s.quad n with cur := some o }
  else if arrDrain k.desc then s.setQuad n { s.quad n with cur := some { o with drainOn := true } }
  else s.endArray n o

/-- The reads of a step in the orders of their homes (R355, R356). -/
def State.stepServes (s : State) (n : Nat) (o : ArrOp) : Except (Nat × Nat) State :=
  let a := o.cmd.agent n
  s.serveReads a (fun r => match s.arrayRead a r.1 r.2 with
    | .ok _ => true
    | _ => false) ((o.linesA ++ o.linesB).flatMap (·.2))

/-- One K-step of the current operation. -/
def State.runStep (s : State) (n : Nat) (o : ArrOp) : State :=
  match s.stepLines n o with
  | .wait s => s
  | r => match s.stepServes n o, r with
    | .ok t, .stop cause tval => t.holdArray n o cause tval
    | .ok t, .ok l => t.sumLines n o l.1 l.2
    | _, _ => s

/-- The point that holds the step of a quad in a replay (R356). -/
def State.stepHeld (s : State) (n : Nat) : List (Nat × Nat) :=
  match (s.quad n).cur with
  | none => []
  | some o =>
    if o.held || o.drainOn then []
    else match s.stepLines n o, s.stepServes n o with
      | .wait _, _ => []
      | _, .error p => [p]
      | _, .ok _ => []

/-- A displaced operation whose command runs again and whose task, if it held the key, holds it again (R265). -/
def State.returning (s : State) (q : Quad) : Option ArrOp :=
  q.displaced.find? fun o => !s.preempted o.cmd.iss.task.slot &&
    ((!o.keyed && o.cmd.gang.isNone) || decide (q.holder = some o.cmd.iss.task) || (o.cmd.gang.isSome && decide (q.holder = some (gangHolder s.pkg o.cmd.iss.task.slot))))

/-- A displaced operation is in the array again, and its set with it; another context's set that the array holds is saved
(R244, R265), and the operation reads its step afresh (R268). -/
def State.returnOp (s : State) (n : Nat) (o : ArrOp) : State :=
  let q := s.quad n
  let s := match q.accOf, q.accOf.bind q.lastOf with
    | some u, some p => s.saveSet u p false true q.acc
    | _, _ => s
  let s := if o.cmd.gang.isNone then (s.onTask o.cmd.iss.task fun c => { c with aset := { c.aset with saved := false } }).getD s else s
  State.setQuad { s with fetched := s.fetched.filter fun f => f.1 != o.cmd.id } n
    { s.quad n with cur := some o, displaced := q.displaced.erase o, acc := [], accOf := none }

/-- ARRAY_KSTEP (R251, R259, R265): a displaced operation returns, the next command starts, or the current one
takes its next step. -/
def execArrayKstep (n : Nat) (s : State) : Out :=
  let q := s.quad n
  match q.cur, s.returning q with
  | some o, _ => if o.held || o.drainOn then .next s else .next (s.runStep n o)
  | none, some o => .next (s.returnOp n o)
  | none, none =>
    match s.nextArray q with
    | none => .next s
    | some k => .next (s.startArray n k)

/-! The drain (R252-R254). -/

/-- The output element of accumulator bits (R252), by its place in the whole result. -/
def ArrCmd.output (k : ArrCmd) (i j : Nat) (v : BitVec 32) : Nat × FlagSet :=
  let d := k.desc
  let p := k.pfx
  let o := arrOfmt d
  let scale := if arrDscale d = 0 then FVal.fin false 1 0 else fmtF32.decode (arrDscale d)
  let r := { k.rounding with idx := 2 ^ 20 * arrSeed d + 1024 * (k.row0 + i) + (k.col0 + j) }
  let int : Int := if p.a = 8 then rnsToInt v.toNat else toSigned 32 v.toNat
  if p.d = 0 then
    if o = 0 ∧ arrDscale d = 0 then (v.toNat, 0)
    else match floatFmt o with
      | some f => f.result r p.sat ((fmtF32.decode v.toNat).mul scale)
      | none => (0, 0)
  else if o = 0 then fmtF32.result r p.sat ((FVal.ofInt int).mul scale)
  else if o = 6 then satInt 8 p.sat int
  else (wrapInt 32 int, 0)

/-- The bytes of an output element. -/
def ArrCmd.outBytes (k : ArrCmd) : Nat := fmtWidth (arrOfmt k.desc) / 8

/-- The address of result element (i, j) (R247, R264). -/
def ArrCmd.outVa (k : ArrCmd) (i j : Nat) : Nat :=
  wrapVa ((arrVa k.desc 3 : Int) + (k.row0 + i : Nat) * arrDstride k.desc + ((k.col0 + j) * k.outBytes : Nat))

/-- The writes of a row in ascending column order, each checked (R254); the first failure decides. -/
def State.rowPuts (s : State) (a : Agent) : List (Nat × List Byte) → Got (List (Nat × List Byte × Put))
  | [] => .ok []
  | (va, bs) :: r =>
    match (if isLocal va then Got.stop 0x25 (xlatTval 5 va) else s.engineWrite a va bs true false true) with
    | .wait s => .wait s
    | .stop cause tval => .stop cause tval
    | .ok w =>
      match s.rowPuts a r with
      | .ok ws => .ok ((va, bs, w) :: ws)
      | e => e

/-- Two neighbouring messages as one of at most 64 bytes (R254). -/
def joinStores (a b : Msg) : Option Msg :=
  match a.body, b.body with
  | .store pa va x, .store pb _ y =>
    if pb = pa + x.length ∧ pa / 64 = pb / 64 ∧ a.home = b.home ∧ a.pkg = b.pkg
    then some { a with body := .store pa va (x ++ y) } else none
  | _, _ => joinFills a b

/-- Messages of a row with neighbours joined. -/
def coalesce : List Msg → List Msg
  | [] => []
  | a :: r =>
    match coalesce r with
    | [] => [a]
    | b :: t => match joinStores a b with
      | some m => m :: t
      | none => a :: b :: t

/-- The pieces of the ONCET tile at `base` among a row's writes: offset and bytes. -/
def tilePieces (base : Nat) (ws : List (Nat × List Byte × Put)) : List (Nat × List Byte) :=
  ws.filterMap fun w => match w.2.2 with
    | .tile b _ _ => if b = base then some (w.1 - base, w.2.1) else none
    | _ => none

/-- The message of one write among those of its row: an ONCET tile goes whole with its first piece, and its pieces must cover
it exactly (R232, R254). -/
def State.rowMessage (s : State) (a : Agent) (ws : List (Nat × List Byte × Put)) (w : Nat × List Byte × Put) :
    Except Nat (List Msg) :=
  match w.2.2 with
  | .here _ => .ok []
  | .msg m | .fill m => .ok [m]
  | .tile base size p =>
    let ps := tilePieces base ws
    let first := (ps.head?.map (·.1)).getD 0
    let piece := (ps.head?.map (·.2.length)).getD 1
    let pa := p.pa - (p.va - base)
    if ps.length * piece ≠ size then .error base
    else if base + first ≠ w.1 then .ok []
    else .ok [s.engineMsg a { p with pa := pa } (.join pa base 8 p.e.width (tileBytes ps size piece) true)]

/-- The last fill write of a row carries close (R254). -/
def closeLast (ms : List Msg) : List Msg :=
  match ms.reverse with
  | m :: r => (match m.body with
    | .fill pa va ch bs _ => { m with body := .fill pa va ch bs true } :: r
    | _ => m :: r).reverse
  | [] => []

/-- The messages of a row's writes in ascending column order (R254). -/
def State.rowMessages (s : State) (a : Agent) (ws : List (Nat × List Byte × Put)) : Except Nat (List Msg) :=
  (ws.mapM (s.rowMessage a ws)).map fun l => coalesce l.flatten

/-- Some page is not known: the row waits. -/
inductive RowDone where
  | wait (s : State)
  /-- the row is written -/
  | ok (s : State) (past : Nat) (closed : Bool)
  /-- it is not written, and reported -/
  | failed (s : State)

/-- Row `i` of a command written from its elements of D (R252, R254). -/
def State.writeRow (s : State) (n : Nat) (k : ArrCmd) (i : Nat) (lanes : List (BitVec 32)) : RowDone :=
  let a := k.agent n
  let outs := (List.range k.nv).map fun j => (j, k.output i j (lanes.getD j 0))
  let flags := outs.foldl (fun f o => f ||| o.2.2) 0
  let report := fun (s : State) cause tval => (s.report k.iss cause k.colour tval).forget 2 n 0
  match s.rowPuts a (outs.map fun o => (k.outVa i o.1, natBytes k.outBytes o.2.1)) with
  | .wait s => .wait s
  | .stop cause tval => .failed ((report s cause tval).orFlags k.iss flags)
  | .ok ws =>
    let s := s.orFlags k.iss flags
    match s.rowMessages a ws with
    | .error va => .failed (report s 0x08 (BitVec.ofNat 64 va))
    | .ok ms =>
      let last := arrClose k.desc && i + 1 == k.mv
      let ms := if last then closeLast ms else ms
      let closed := last && ms.any fun m => match m.body with
        | .fill _ _ _ _ c => c
        | _ => false
      .ok ((ms.foldl State.send s).forget 2 n 0) (k.outVa i k.nv) closed

/-- Elements of row `i` of a set. -/
def accRow (acc : Sparse (BitVec 32)) (i n : Nat) : List (BitVec 32) := (List.range n).map fun j => look 0 acc (64 * i + j)

/-- One beat reaches a context's q3: the oldest waiting pop takes it, else it waits (R217, R257). -/
def Ctx.popBeats (c : Ctx) : Nat → Ctx × List (Dest × Vec)
  | 0 => (c, [])
  | n + 1 =>
    match c.pops.find? (·.1 == 3), c.q3, c.q3rows with
    | some p, v :: vs, b :: bs =>
      let r := ({ c with pops := c.pops.erase p, q3 := vs, q3rows := if b ≤ 1 then bs else (b - 1) :: bs } : Ctx).popBeats n
      (r.1, (p.2, v) :: r.2)
    | _, _, _ => (c, [])

/-- A task stands at its DONE, or is ending by a cancel or a failure: rows that it has not popped are discarded (R257, R267,
R338). -/
def Ctx.discardsRows (c : Ctx) : Bool :=
  match c.wait with
  | .doneWrites | .cancelling | .failing _ => true
  | _ => false

/-- A row delivered to the issuing context's q3 (R257). -/
def State.deliverRow (s : State) (k : ArrCmd) (bytes : List Byte) : State :=
  let beats := (chunks 64 bytes.length bytes).map bytesVec
  match (s.taskCtx k.iss.task).filter fun c => !c.discardsRows with
  | none => s
  | some c =>
    let r := ({ c with q3 := c.q3 ++ beats, q3rows := c.q3rows ++ [beats.length] } : Ctx).popBeats beats.length
    let s := (s.onTask k.iss.task fun _ => r.1).getD s
    let note := fun (e : Dest × Vec) =>
      ({ iss := k.iss, more := [], pkg := s.pkg, home := k.iss.task.core, colour := 8, group := 0, cmd := 0
         body := .result e.1 (.vec e.2) } : Msg)
    r.2.foldl (fun s e => s.send (note e)) s

/-- q3 of the issuing context has no room for a row. -/
def State.q3Full (s : State) (k : ArrCmd) : Bool :=
  match s.taskCtx k.iss.task with
  | some c => !c.discardsRows && decide (4 ≤ c.q3rows.length)
  | none => false

/-- Rows in the drain buffer of a quad that wait for a handler (R255, R257). -/
def State.rowsWaiting (s : State) (n core : Nat) : Nat :=
  ((s.core core).arrivals.filter fun a => match a with
    | .row j => j.quad == n
    | .hinge _ => false).length

/-- The fill write of no elements that carries close when the last row was not written (R254). -/
def State.closeBuffer (s : State) (n : Nat) (o : ArrOp) : Got State :=
  if !arrClose o.cmd.desc || o.closed || arrPop o.cmd.desc then .ok s
  else
    let a := o.cmd.agent n
    match s.engineSpot a (o.past - 1) 1 .own with
    | .wait s => .wait s
    | .stop _ _ => .ok (s.forget 2 n 0)
    | .ok p =>
      if p.e.ctype ≠ 0xB then .ok s
      else .ok (s.send (s.engineMsg a p (.fill (p.pa + 1) o.past p.chain [] true)))

/-- One row of the drain (R253). -/
def State.drainRow (s : State) (n : Nat) (o : ArrOp) : State :=
  let k := o.cmd
  let q := s.quad n
  let i := o.rows + o.rowsOut
  let lanes := accRow o.acc i k.nv
  if k.mv ≤ o.rows then
    match s.closeBuffer n o with
    | .ok s => s.endArray n o
    | .wait s => s
    | .stop _ _ => s
  else if k.mv ≤ i then s
  else if arrHen k.desc then
    let slot := k.iss.task.slot
    if 4 ≤ s.rowsWaiting n k.drainCore || !s.mayChoose slot k.drainCore 8 0 then s
    else
      let s := (s.chose slot k.drainCore 8 0).setQuad n { q with cur := some { o with rowsOut := o.rowsOut + 1 } }
      let c := s.core k.drainCore
      s.setCore k.drainCore { c with
        arrivals := c.arrivals ++ [.row { quad := n, row := i, lanes := lanes, arr := k }], dirty := true }
  else if arrPop k.desc then
    if s.q3Full k then s
    else
      let outs := (List.range k.nv).map fun j => k.output i j (lanes.getD j 0)
      let s := s.orFlags k.iss (outs.foldl (fun f x => f ||| x.2) 0)
      let bytes := outs.flatMap fun x => natBytes k.outBytes x.1
      (s.setQuad n { q with cur := some { o with rows := o.rows + 1 } }).deliverRow k bytes
  else match s.writeRow n k i lanes with
    | .wait s => s
    | .failed s => s.setQuad n { s.quad n with cur := some { o with rows := o.rows + 1 } }
    | .ok s past closed => s.setQuad n { s.quad n with cur := some { o with rows := o.rows + 1, past := past, closed := closed } }

/-- ARRAY_DRAIN_ROW (R253): one row, or the end of the drain once every row counts as drained. -/
def execArrayDrainRow (n : Nat) (s : State) : Out :=
  match (s.quad n).cur with
  | some o => if o.drainOn then .next (s.drainRow n o) else .next s
  | none => .next s

/-! Row handlers (R255, R256). -/

/-- The lanes of D over four registers, as a row handler finds them. -/
def rowRegs (lanes : List (BitVec 32)) (r : Nat) : Vec := packLanes 32 ((List.range 16).map fun j => (lanes.getD (16 * r + j) 0).toNat)

/-- The enables of the task on whose behalf a handler runs (R172). -/
def State.enablesOf (s : State) (t : TaskId) : Word :=
  match s.taskCtx t with
  | some c => c.fflags &&& 0x3F00
  | none => 0

/-- The state of a row handler at its start (R255). -/
def State.rowCtx (s : State) (j : RowJob) (run : Nat) : Ctx :=
  let k := j.arr
  let origin : Word := BitVec.ofNat 64 (k.row0 * 2 ^ 32 + k.col0)
  let c : Ctx := { role := .row j run, pc := BitVec.ofNat 64 (4 * arrHent k.desc), hbud := 64 }
  let c := ((c.wx 2 0x180000).wx 10 (BitVec.ofNat 64 j.row)).wx 11 origin
  let c := (((c.wv 24 (rowRegs j.lanes 0)).wv 25 (rowRegs j.lanes 1)).wv 26 (rowRegs j.lanes 2)).wv 27 (rowRegs j.lanes 3)
  { c with
    tid := k.tid, grp := k.grp, exitc := k.exitc, fseed := k.fseed, frm := k.frm
    tstat := BitVec.ofNat 64 (k.colour * 2)
    fflags := s.enablesOf k.iss.task
    slot := k.iss.task.slot
    serial := k.iss.task.serial }

/-- The first arrival of a core taken from its list. -/
def CoreSt.nextArrival (c : CoreSt) : Option (Arrival × CoreSt) :=
  match c.arrivals with
  | a :: r => some (a, { c with arrivals := r })
  | [] => none

/-- ROW_HANDLER_START (R74, R255): the handler context takes the row that arrived first. -/
def execRowHandlerStart (core : Nat) (s : State) : Out :=
  let c := s.core core
  match c.nextArrival with
  | some (.row j, c') =>
    if (c.ctx 4).busy || s.defers core || s.preempted j.arr.iss.task.slot then .next s
    else
      let s := { s with fresh := s.fresh + 16384 }
      .next (s.setCore core ({ c' with dirty := true }.setCtx 4 (s.rowCtx j (s.fresh - 16384))))
  | _ => .next s

/-- A handler's registers as the lanes of its row (R256). -/
def Ctx.rowLanes (c : Ctx) : List (BitVec 32) :=
  (List.range 64).map fun j => BitVec.ofNat 32 (laneOf (c.rv (BitVec.ofNat 5 (24 + j / 16))) 32 (j % 16))

/-- Where a row's writes went is kept with its operation. -/
def State.notePast (s : State) (j : RowJob) (past : Nat) (closed : Bool) : State :=
  let q := s.quad j.quad
  let one := fun (o : ArrOp) => if o.cmd.id = j.arr.id then { o with past := past, closed := closed } else o
  s.setQuad j.quad { q with cur := q.cur.map one, displaced := q.displaced.map one }

/-- Instructions that only a row handler may use. -/
def clsRowOnly : Cls := { rep := false, fmt := false, row := true, hinge := false, task := false }

/-- RROW (R256); a page whose translation is not known parks the handler. -/
def execRrow (h : Head) (s : State) : Out :=
  .next (s.run clsRowOnly (.rrow h) h true (([24, 25, 26, 27] : List Reg).map uv) fun s =>
    match s.ctx.role with
    | .row j _ =>
      match s.writeRow j.quad j.arr j.row s.ctx.rowLanes with
      | .wait s => .stay (.room 7 j.quad) s
      | .failed s => .left (s.endRow j)
      | .ok s past closed => .left ((s.notePast j past closed).endRow j)
    | _ => .done s)

/-- RDROP (R256). -/
def execRdrop (h : Head) (s : State) : Out :=
  .next (s.run clsRowOnly (.rdrop h) h true [] fun s =>
    match s.ctx.role with
    | .row j _ => .left (s.endRow j)
    | _ => .done s)

end Sys2Proof.Machine
end

