-- ==== Sys2Proof/Machine/NearBank.lean ====
section
/-! DEFINITION. Near-bank units (R270-R283): unit words, parameter blocks, the instructions of NB, and what a
unit does with bindings, runs and releases. -/

namespace Sys2Proof.Machine

/-! Unit words (R270). -/

/-- The unit that a unit word names: 128 × stack + 4 × pseudo-channel + g. -/
def unitNumber (w : Nat) : Nat := w / 2 ^ 13 % 8 * 128 + w / 2 ^ 8 % 32 * 4 + w / 2 ^ 6 % 4

/-- A unit word without reserved bits. -/
def unitWordOk (w : Word) : Bool := Word.field w 63 16 == 0 && Word.field w 5 0 == 0

/-- The unit word of a unit. -/
def unitWordOf (u : Nat) : Nat := u / 128 * 2 ^ 13 + u / 4 % 32 * 2 ^ 8 + u % 4 * 2 ^ 6

/-- The unit as a twin-mode command's mirror half reaches it (R357). -/
def State.unitFor (s : State) (slot tile u : Nat) : Nat := if s.inMirror slot tile then u + 2 * 128 else u

/-! Parameter blocks (R272-R274). -/

def nbWfmt (b : List Word) : Nat := Word.field (wordAt b 0) 59 56
def nbOfmt (b : List Word) : Nat := Word.field (wordAt b 0) 55 52
def nbRnd (b : List Word) : Nat := Word.field (wordAt b 0) 51 49
def nbSat (b : List Word) : Bool := (wordAt b 0).getLsbD 48
def nbSmode (b : List Word) : Nat := Word.field (wordAt b 0) 47 46
def nbMul (b : List Word) : Bool := (wordAt b 0).getLsbD 45
def nbRed (b : List Word) : Bool := (wordAt b 0).getLsbD 44
def nbAct (b : List Word) : Nat := Word.field (wordAt b 0) 43 42
def nbColour (b : List Word) : Nat := if (wordAt b 0).getLsbD 41 then Word.field (wordAt b 0) 40 38 else 7
def nbSeed (b : List Word) : Nat := Word.field (wordAt b 0) 15 0
/-- The page of stream `i`: 0 W, 1 S, 2 V, 3 O. -/
def nbPage (b : List Word) (i : Nat) : Nat := Word.field (wordAt b (1 + 2 * i)) 47 0
def nbStart (b : List Word) (i : Nat) : Nat := Word.field (wordAt b (2 + 2 * i)) 12 0
def nbRows (b : List Word) : Nat := Word.field (wordAt b 9) 47 32 + 1
def nbK (b : List Word) : Nat := Word.field (wordAt b 9) 13 0 + 1
/-- Bytes of an output element. -/
def nbOut (b : List Word) : Nat := if nbOfmt b = 0 then 4 else 2

/-- Stream `i` is used (R273). -/
def nbUsed (b : List Word) (i : Nat) : Bool :=
  match i with
  | 1 => nbSmode b != 0
  | 2 => nbMul b
  | _ => true

/-- The checks of one stream's words (R273). -/
def nbStreamOk (b : List Word) (i : Nat) : Bool :=
  let w := wordAt b (1 + 2 * i)
  let x := wordAt b (2 + 2 * i)
  if nbUsed b i then Word.field w 63 48 == 0 && Word.field w 20 0 == 0 && w != 0 && Word.field x 63 13 == 0
  else w == 0 && x == 0

/-- A parameter block passes R272 and R273. -/
def nbBlockOk (b : List Word) : Bool :=
  let w0 := wordAt b 0
  let wf := nbWfmt b
  Word.field w0 63 60 == 8 && [1, 3, 4, 5, 6].contains wf && decide (nbOfmt b ≤ 1) && nbRnd b != 7 && nbSmode b != 3 &&
  Word.field w0 37 16 == 0 && (w0.getLsbD 41 || Word.field w0 40 38 == 0) && (wf != 5 || nbSmode b == 1) &&
  (nbSmode b != 1 || wf != 1) && (!nbRed b || nbMul b) && ((List.range 4).all (nbStreamOk b)) &&
  Word.field (wordAt b 9) 63 48 == 0 && Word.field (wordAt b 9) 31 14 == 0 && ((b.drop 10).all (· == 0))

/-- The quotient rounded up. -/
def ceilDiv (a b : Nat) : Nat := (a + b - 1) / b

/-- Chunks of a row of W. -/
def nbCpr (b : List Word) : Nat := ceilDiv (nbK b * fmtWidth (nbWfmt b)) 512
/-- Chunks of a row of block scales. -/
def nbSpr (b : List Word) : Nat := ceilDiv (ceilDiv (nbK b) 32) 64
/-- Chunks of a row of an elementwise output. -/
def nbOpr (b : List Word) : Nat := ceilDiv (nbK b * nbOut b) 64

/-- The chunks that a stream occupies (R274). -/
def nbChunks (b : List Word) (i : Nat) : Nat :=
  match i with
  | 0 => nbRows b * nbCpr b
  | 1 => if nbSmode b = 1 then nbRows b * nbSpr b else if nbSmode b = 2 then ceilDiv (4 * nbRows b) 64 else 0
  | 2 => if nbMul b then ceilDiv (nbK b) 32 else 0
  | _ => if nbRed b then ceilDiv (nbRows b * nbOut b) 64 else nbRows b * nbOpr b

/-- The page offset of unit-local chunk `u` of bank group `g` (R271). -/
def chunkOffset (g u : Nat) : Nat := u / 4 % 2 ^ 11 * 2 ^ 10 + g * 2 ^ 8 + u % 4 * 2 ^ 6

/-! Issue (R278, R279, R281). -/

/-- A message for a unit. -/
def State.unitMsg (s : State) (u colour : Nat) (op : NbOp) : Msg :=
  { iss := s.issuer, more := [], pkg := s.pkg, home := 4096 + u / 4, colour := colour, group := s.ctx.group, cmd := 0, body := .nb u op
    lane := s.lane }

/-- The translated streams of a block, in their order (R278). -/
def State.nbStreams (s : State) (b : List Word) (u : Nat) : List Nat → Except Chk (List (Option Spot))
  | [] => .ok []
  | i :: r =>
    if !nbUsed b i then (s.nbStreams b u r).map (none :: ·)
    else
      let va := nbPage b i
      if isLocal va then
        if s.localOk va 1 (i == 3) then .error (.trap 0x0B (BitVec.ofNat 64 va)) else .error (.trap 0x05 (xlatTval 5 va))
      else match s.check va (fun _ => 1) (if i = 3 then .own else .anyGroup) with
      | .ok p =>
        let okType := p.e.ctype == 0 || (i != 3 && isLattice p.e.ctype)
        if p.pkg ≠ s.pkg ∨ p.e.space ≠ 1 ∨ p.home ≠ 4096 + u / 4 ∨ !okType then .error (.trap 0x0B (BitVec.ofNat 64 va))
        else (s.nbStreams b u r).map (some p :: ·)
      | c => .error c

/-- NBCFG (R278). -/
def execNbcfg (h : Head) (a b : Reg) (s : State) : Out :=
  .next (s.run clsTaskOnly (.nbcfg h a b) h true [ux a, ux b] fun s =>
    let va := (s.ctx.rx a).toNat
    let w := s.ctx.rx b
    if !unitWordOk w then .trap 0x0B w s
    else if va % 256 ≠ 0 then .trap 0x04 (s.ctx.rx a) s
    else if !(isLocal va && s.localOk va 256 false) then .trap 0x05 (0x0005000000000000 ||| s.ctx.rx a) s
    else
      let blk := s.captured va 256
      let u := s.unitFor s.ctx.slot s.cur (unitNumber w.toNat)
      if !nbBlockOk blk then .trap 0x0B (s.ctx.rx a) s
      else match s.nbStreams blk u [0, 1, 2, 3] with
        | .error (.miss v) => .stay (.xlate (pageOf v)) ((s.ask { kind := 0, place := s.cur, ctx := s.curCtx } s.ctx.slot v).keep blk)
        | .error (.trap cause tval) => .trap cause tval s
        | .error (.ok _) => .done s
        | .ok ps =>
          let bind : Binding :=
            { block := blk, bases := ps.map fun p => (p.map (·.pa)).getD 0
              lattice := ps.map fun p => (p.map fun q => isLattice q.e.ctype).getD false
              vas := ps.map fun p => (p.map (·.va)).getD 0
              cells := ps.map fun p => (p.map fun q => (q.e.ctype, q.e.width)).getD (0, 0)
              iss := s.issuer, group := s.ctx.group, colour := nbColour blk }
          .done (s.send (s.unitMsg u (nbColour blk) (.bind bind))))

/-- The run colour of the block that a unit will hold when the issuing task's next command reaches it (R279)
(DEDUCED, log entry 48). -/
def State.runColour (s : State) (u : Nat) : Nat :=
  let i := s.issuer
  let sent := s.net.foldl (fun c m => match m.body with
    | .nb v (.bind b) => if v = u ∧ m.iss = i then some b.colour else c
    | _ => c) none
  match sent, (look {} s.units u).bound with
  | some c, _ => c
  | none, some b => if b.iss.task = i.task then b.colour else 7
  | none, none => 7

/-- A run sent to a unit; `reg` says where its reply goes. -/
def State.sendRun (s : State) (w reg : Nat) : State :=
  let u := s.unitFor s.ctx.slot s.cur (unitNumber w)
  s.send (s.unitMsg u (s.runColour u) (.run reg (Word.field s.ctx.frm 2 0) s.ctx.fseed))

/-- An unbind sent to a unit. -/
def State.sendRel (s : State) (w : Nat) : State :=
  s.send (s.unitMsg (s.unitFor s.ctx.slot s.cur (unitNumber w)) 8 .rel)

/-- NBRUN (R279). -/
def execNbrun (h : Head) (a : Reg) (s : State) : Out :=
  .next (s.run clsTaskOnly (.nbrun h a) h true [ux a] fun s =>
    let w := s.ctx.rx a
    if !unitWordOk w then .trap 0x0B w s
    else if !s.nbRoom s.cur then .stay (.room 4 0) s
    else .done (s.sendRun w.toNat 33))

/-- NBGET (R279). -/
def execNbget (h : Head) (d a : Reg) (s : State) : Out :=
  .next (s.run clsTaskOnly (.nbget h d a) h (decide (d ≠ 0)) [ux a, ux d] fun s =>
    let w := s.ctx.rx a
    if !unitWordOk w then .trap 0x0B w s
    else if !s.nbRoom s.cur then .stay (.room 4 0) s
    else .done ((s.setCtx (s.ctx.setPending d.toNat)).sendRun w.toNat d.toNat))

/-- NBREL (R279). -/
def execNbrel (h : Head) (a : Reg) (s : State) : Out :=
  .next (s.run clsTaskOnly (.nbrel h a) h true [ux a] fun s =>
    let w := s.ctx.rx a
    if !unitWordOk w then .trap 0x0B w s else .done (s.sendRel w.toNat))

/-- A raw command written to q4 (R281). -/
def State.enqueueNb (s : State) (w : Word) : Handed :=
  let op := Word.field w 63 60
  let c := s.ctx
  if Word.field w 59 16 ≠ 0 ∨ Word.field w 5 0 ≠ 0 ∨ op = 0 ∨ 3 < op then .bad 0x0B w
  else if !s.nbRoom s.cur then .wait (.room 4 0) s
  else if op = 1 then .taken (s.sendRun (w.toNat % 2 ^ 16) 33)
  else if op = 3 then .taken (s.sendRel (w.toNat % 2 ^ 16))
  else if 16 ≤ c.q5.length + c.q5res then .wait (.room 5 0) s
  else .taken ((s.setCtx { c with q5res := c.q5res + 1 }).sendRun (w.toNat % 2 ^ 16) 32)

/-! The pipeline (R275, R276). -/

/-- An f32 operation rounded by RNE that keeps invalid and inexact, and in the last step underflow and overflow (R166,
R276). -/
def actStep (last : Bool) (x : FVal × FlagSet) : FVal × FlagSet :=
  let t := fmtF32.round rneMode false x.1
  (fmtF32.decode t.1, (if last then t.2 else t.2 &&& flagNx) ||| (x.2 &&& flagNv))

/-- A value clamped to 0 .. 1. -/
def clampUnit (h : FVal) : FVal :=
  if h.lt false (.fin false 0 0) then .fin false 0 0
  else if (FVal.fin false 1 0).lt false h then .fin false 1 0 else h

/-- act (R276). -/
def activate (act : Nat) (x : FVal) : FVal × FlagSet :=
  match act with
  | 0 => (x, 0)
  | 1 => if x.isNan then (x, 0) else if (FVal.fin false 0 0).lt false x then (x, 0) else (.fin false 0 0, 0)
  | _ =>
    if x.isNan then (.nan, 0)
    else
      let t := if act = 2 then actStep false ((constF32 0x3FD9DB23).mul x) else (x, 0)
      let h := actStep false (FVal.fma false t.1 (constF32 0x3E2AAAAB) (.fin false 1 (-1)))
      let r := actStep true (x.mul (clampUnit h.1))
      (r.1, t.2 ||| h.2 ||| r.2)

/-- What a unit reads of its streams. -/
structure NbRun where
  b : List Word
  bases : List Nat
  vas : List Nat
  cells : List (Nat × Nat)
  g : Nat
  deriving DecidableEq, Repr

/-- The physical number of chunk `c` of stream `i`, counted from its start. -/
def NbRun.pa (r : NbRun) (i c : Nat) : Nat := r.bases.getD i 0 + chunkOffset r.g (nbStart r.b i + c)
/-- Its VA. -/
def NbRun.va (r : NbRun) (i c : Nat) : Nat := r.vas.getD i 0 + chunkOffset r.g (nbStart r.b i + c)

/-- `n` bytes at byte `off` of the chunks of a stream. -/
def State.nbBytes (s : State) (r : NbRun) (i chunk off n : Nat) : Nat :=
  let t := r.cells.getD i (0, 0)
  bytesNat (s.readCells (r.pa i chunk + off) t.1 t.2 n)

/-- The value of W(row, k) with its scales (R275). -/
def State.nbWeight (s : State) (r : NbRun) (row k : Nat) : FVal :=
  let wf := nbWfmt r.b
  let bit := k * fmtWidth wf
  let chunk := row * nbCpr r.b + bit / 512
  let raw := s.nbBytes r 0 chunk (bit % 512 / 8) (elemBytes wf)
  let e := elemPick wf k raw
  match nbSmode r.b with
  | 1 => mxValue wf (s.nbBytes r 1 (row * nbSpr r.b + k / 32 / 64) (k / 32 % 64) 1) e
  | 2 => ((decodeElem wf e).value.mul (constF32 (s.nbBytes r 1 (4 * row / 64) (4 * row % 64) 4))).1
  | _ => (decodeElem wf e).value

/-- The product p(k) of a row, with its flags. -/
def State.nbProduct (s : State) (r : NbRun) (row k : Nat) : FVal × FlagSet :=
  let wf := nbWfmt r.b
  let inv : FlagSet := if nbSmode r.b = 2 then
    let bit := k * fmtWidth wf
    let e := elemPick wf k (s.nbBytes r 0 (row * nbCpr r.b + bit / 512) (bit % 512 / 8) (elemBytes wf))
    ((decodeElem wf e).value.mul (constF32 (s.nbBytes r 1 (4 * row / 64) (4 * row % 64) 4))).2 else 0
  let w := s.nbWeight r row k
  if nbMul r.b then
    let m := w.mul (fmtBf16.decode (s.nbBytes r 2 (k / 32) (k % 32 * 2) 2))
    (m.1, inv ||| m.2)
  else (w, inv)

/-- The output format and rounding of a run. -/
def nbFmt (b : List Word) : FFmt := if nbOfmt b = 0 then fmtF32 else fmtBf16

/-- The output of a reduced row (R275).  R275 raises nv for a step with a NaN product, where R154 gives a NaN operand no flag by
itself: the model follows R275 (DESIGN CHOICE, log entry 92). -/
def State.nbReduce (s : State) (r : NbRun) (rnd : Rnd) (row : Nat) : Nat × FlagSet :=
  let k := nbK r.b
  let one := fun (t : BitVec 32 × FlagSet) (st : Nat) =>
    let ps := (List.range (min 32 (k - 32 * st))).map fun j => s.nbProduct r row (32 * st + j)
    let u := sumProducts ps t.1
    (u.1, t.2 ||| u.2 ||| (if ps.any fun p => p.1.isNan then flagNv else 0))
  let t := (List.range ((k + 31) / 32)).foldl one (0, 0)
  let y := activate (nbAct r.b) (fmtF32.decode t.1.toNat)
  let o := (nbFmt r.b).round { rnd with idx := 2 ^ 20 * nbSeed r.b + row } (nbSat r.b) y.1
  (o.1, t.2 ||| y.2 ||| o.2)

/-- Output (row, k) of an elementwise run (R275). -/
def State.nbElement (s : State) (r : NbRun) (rnd : Rnd) (row k : Nat) : Nat × FlagSet :=
  let p := s.nbProduct r row k
  let f := fmtF32.round rneMode false p.1
  let y := activate (nbAct r.b) (fmtF32.decode f.1)
  let o := (nbFmt r.b).round { rnd with idx := 2 ^ 20 * nbSeed r.b + row * nbK r.b + k } (nbSat r.b) y.1
  (o.1, p.2 ||| f.2 ||| y.2 ||| o.2)

/-- The chunks that row `row` reads of each stream. -/
def NbRun.rowChunks (r : NbRun) (row : Nat) : List (Nat × Nat) :=
  let b := r.b
  ((List.range (nbCpr b)).map fun c => (0, row * nbCpr b + c)) ++
  (if nbSmode b = 1 then (List.range (nbSpr b)).map fun c => (1, row * nbSpr b + c)
   else if nbSmode b = 2 then [(1, 4 * row / 64)] else []) ++
  (if nbMul b then (List.range (ceilDiv (nbK b) 32)).map fun c => (2, c) else [])

/-- The first poisoned chunk that a row reads: its VA (R280, R358). -/
def State.nbPoison (s : State) (r : NbRun) (row : Nat) : Option Nat :=
  ((r.rowChunks row).find? fun c => s.poisoned (r.pa c.1 c.2) 64).map fun c => r.va c.1 c.2

/-- The rows of a run that can be computed, up to the first poisoned one (R280). -/
def State.nbGood (s : State) (r : NbRun) : List Nat × Option Nat :=
  let rows := List.range (nbRows r.b)
  let good := rows.takeWhile fun i => (s.nbPoison r i).isNone
  (good, if good.length < rows.length then s.nbPoison r good.length else none)

/-- The outputs of a row. -/
def State.nbRow (s : State) (r : NbRun) (rnd : Rnd) (row : Nat) : List (Nat × FlagSet) :=
  if nbRed r.b then [s.nbReduce r rnd row] else (List.range (nbK r.b)).map fun k => s.nbElement r rnd row k

/-- The chunks of O with their bytes, in chunk order (R274, R279). -/
def nbOutput (b : List Word) (rows : List (List Nat)) : List (Nat × List Byte) :=
  let eo := nbOut b
  let cut := fun (base : Nat) (bs : List Byte) => (chunks 64 bs.length bs).zipIdx.map fun c => (base + c.2, c.1)
  if nbRed b then cut 0 (rows.flatMap fun r => r.flatMap (natBytes eo))
  else rows.zipIdx.flatMap fun r => cut (r.2 * nbOpr b) (r.1.flatMap (natBytes eo))

/-! What a unit does. -/

/-- A unit. -/
def State.unit (s : State) (u : Nat) : NbUnit := look {} s.units u
/-- The state with a unit replaced. -/
def State.setUnit (s : State) (u : Nat) (x : NbUnit) : State := { s with units := put {} s.units u x }

/-- The unit word that a task uses for a unit. -/
def State.unitName (s : State) (m : Msg) (u : Nat) : Nat :=
  unitWordOf (if s.inMirror m.iss.task.slot m.iss.task.core then u - 2 * 128 else u)

/-- NB_BIND (R278). -/
def execNbBind (n : Nat) (s : State) : Out :=
  match s.due n with
  | none => .next s
  | some m =>
    match m.body with
    | .nb u (.bind b) =>
      let s := s.take n m
      let other := match (s.unit u).bound with
        | some o => decide (o.iss.task ≠ b.iss.task)
        | none => false
      if other then .next (s.report m.iss 0x27 m.colour (BitVec.ofNat 64 (2 * 2 ^ 56 + s.unitName m u)))
      else .next (s.setUnit u { bound := some b })
    | _ => .next s

/-- The first message for a unit that may be taken and that `p` names. -/
def State.unitDue (s : State) (u : Nat) (p : NbOp → Bool) : Option (Nat × Msg) :=
  (s.net.zipIdx.find? fun e => match e.1.body with
    | .nb v op => v == u && p op && s.eligible e.2 e.1 && s.mayServe e.1
    | _ => false).map fun e => (e.2, e.1)

/-- The reply of a run (R280, R281). -/
def State.nbReply (s : State) (m : Msg) (cmd reg status rows last : Nat) : State :=
  if reg = 33 then s
  else
    let w : Word := BitVec.ofNat 64 (status * 2 ^ 56 + rows % 65536 * 2 ^ 32 + last % 2 ^ 32)
    s.send { m.toward m.pkg m.iss.task.core (.result { isV := false, reg := reg } (.word w)) with cmd := cmd }

/-- A rejected run (R279, R280). -/
def State.nbReject (s : State) (m : Msg) (u reg status : Nat) : State :=
  (s.report m.iss 0x27 m.colour (BitVec.ofNat 64 (status * 2 ^ 56 + s.unitName m u))).nbReply m 0 reg status 0 0

/-- Some stream of a block crosses its page (R274). -/
def nbCrosses (b : List Word) : Bool :=
  (List.range 4).any fun i => nbUsed b i && decide (8192 < nbStart b i + nbChunks b i)

/-- A chunk of W, S or V lies in an open block of lattice memory (R279). -/
def State.nbOpen (s : State) (r : NbRun) (lattice : List Bool) : Bool :=
  [0, 1, 2].any fun i => nbUsed r.b i && lattice.getD i false &&
    (List.range (nbChunks r.b i)).any fun c => !(s.block (r.pa i c)).bolted

/-- A run computed: its output stores, its flags and its reply (R275, R279, R280). -/
def State.nbCompute (s : State) (m : Msg) (u : Nat) (r : NbRun) (colour reg : Nat) (rnd : Rnd) : State :=
  let good := s.nbGood r
  let outs := good.1.map fun row => s.nbRow r rnd row
  let flags := outs.foldl (fun f row => row.foldl (fun f o => f ||| o.2) f) 0
  let cmd := s.fresh
  let store := fun (c : Nat × List Byte) =>
    { m.toward m.pkg (homeOf (r.pa 3 c.1)) (.store (r.pa 3 c.1) (r.va 3 c.1) c.2) with
      colour := colour, cmd := cmd, lane := laneNumber s.pkg 8193 0 u }
  let s := ({ s with fresh := s.fresh + 16384 } : State).orFlags m.iss flags
  let s := (nbOutput r.b (outs.map fun row => row.map (·.1))).foldl (fun s c => s.send (store c)) s
  let last := (outs.getLast?.bind fun row => row.getLast?.map (·.1)).getD 0
  match good.2 with
  | none => s.nbReply m cmd reg 0 outs.length last
  | some va => (s.report m.iss 0x28 colour (BitVec.ofNat 64 va)).nbReply m cmd reg 5 outs.length last

/-- RUN or GET at a unit, in the order of its checks (R279); it reads what the banks hold (R38). -/
def State.nbStart (s : State) (m : Msg) (u reg frm : Nat) (fseed : Word) : State :=
  let s := s.banks
  match (s.unit u).bound with
  | none => s.nbReject m u reg 1
  | some b =>
    let r : NbRun := { b := b.block, bases := b.bases, vas := b.vas, cells := b.cells, g := u % 4 }
    if b.iss.task ≠ m.iss.task then s.nbReject m u reg 1
    else if nbCrosses b.block then s.nbReject m u reg 3
    else if s.nbOpen r b.lattice then s.nbReject m u reg 4
    else if nbRnd b.block = 6 ∧ 6 ≤ frm then s.nbReject m u reg 6
    else s.nbCompute m u r b.colour reg { mode := rmode (if nbRnd b.block = 6 then frm else nbRnd b.block), seed := fseed }

/-- NB_RUN (R279). -/
def execNbRun (u : Nat) (s : State) : Out :=
  let isRun := fun (op : NbOp) => match op with
    | .run .. => true
    | _ => false
  match s.unitDue u isRun with
  | none => .next s
  | some (n, m) =>
    match m.body with
    | .nb _ (.run reg frm fseed) => .next ((s.take n m).nbStart m u reg frm fseed)
    | _ => .next s

/-- NB_UNBIND (R279). -/
def execNbUnbind (u : Nat) (s : State) : Out :=
  match s.unitDue u fun op => decide (op = .rel) with
  | none => .next s
  | some (n, m) =>
    let s := s.take n m
    match (s.unit u).bound with
    | some b => .next (if b.iss.task = m.iss.task then s.setUnit u {} else s)
    | none => .next s

/-- The bindings of a task end (R283). -/
def State.unbindTask (s : State) (t : TaskId) : State :=
  { s with units := s.units.filter fun u => match u.2.bound with
    | some b => decide (b.iss.task ≠ t)
    | none => true }

end Sys2Proof.Machine
end

