-- ==== Sys2Proof/Machine/Queues.lean ====
section
/-! DEFINITION. The queue registers (R216, R217). -/

namespace Sys2Proof.Machine

/-- The assembly buffer of a write queue. -/
def Ctx.asm (c : Ctx) (q : Nat) : List Word := if q = 0 then c.asm0 else if q = 2 then c.asm2 else c.asm4
/-- The context with an assembly buffer replaced. -/
def Ctx.setAsm (c : Ctx) (q : Nat) (ws : List Word) : Ctx :=
  if q = 0 then { c with asm0 := ws } else if q = 2 then { c with asm2 := ws } else { c with asm4 := ws }

/-- The words of a command by its queue and its first word (R217). -/
def queueWords (q : Nat) (w : Word) : Nat :=
  let kind := Word.field w 63 60
  if q = 0 then if kind = 1 then 16 else if kind = 2 then 32 else 1
  else if q = 2 then if kind = 4 then 8 else 1
  else 1

/-- The prefix under which an instruction hands commands to q2: its FMT's, else the q2 prefix state (R250). -/
def Ctx.q2now (c : Ctx) : BitVec 22 := c.pfx.getD c.q2pre

/-- A completed command handed to its queue's owner (R217). -/
def State.handOver (s : State) (q : Nat) (ws : List Word) (word : Word) : Handed :=
  let w0 := wordAt ws 0
  if q = 0 then if copyOk ws then s.enqueueCopy ws word else .bad 0x0B w0
  else if q = 2 then
    if !s.hasKey s.myTask ∨ arrKind ws ≠ 4 then .bad 0x0B w0 else s.enqueueArray ws s.ctx.q2now w0
  else s.enqueueNb w0

/-- A write to q2 that completes sets the q2 prefix state (R250); one that fails its check leaves it (R5, R217). -/
def Ctx.wroteQueue (c : Ctx) (q : Nat) : Ctx := if q = 2 then { c with q2pre := c.q2now } else c

/-- The completed commands of an assembly buffer enqueued in turn; `fuel` bounds their number. -/
def State.drainAsm (q : Nat) (word : Word) : Nat → State → Eff
  | 0, s => .done (s.setCtx (s.ctx.wroteQueue q))
  | fuel + 1, s =>
    let ws := s.ctx.asm q
    let n := queueWords q (wordAt ws 0)
    if ws.isEmpty ∨ ws.length < n then .done (s.setCtx (s.ctx.wroteQueue q))
    else match s.handOver q (ws.take n) word with
      | .taken s => State.drainAsm q word fuel (s.setCtx (s.ctx.setAsm q (ws.drop n)))
      | .wait w s => .stay w (s.setCtx { s.ctx with phase := 1 })
      | .bad cause tval => .trap cause tval (s.setCtx (s.ctx.setAsm q []))

/-- Words appended to a write queue (R217); an instruction that parked has appended them already. -/
def State.pushWords (s : State) (q : Nat) (word : Word) (ws : List Word) : Eff :=
  let c := s.ctx
  let c := if c.phase = 1 then c else c.setAsm q (c.asm q ++ ws)
  State.drainAsm q word (c.asm q).length (s.setCtx c)

/-- A write queue. -/
def writeQueue (q : BitVec 3) : Bool := q == 0 || q == 2 || q == 4

/-- The class of QWR and QWRV: prefix consumers when they name q2 (R98, R239). -/
def clsQueue (q : BitVec 3) : Cls := { clsTaskOnly with fmt := q == 2 }

/-- QWR (R217). -/
def execQwr (h : Head) (q : BitVec 3) (a : Reg) (s : State) : Out :=
  .next (s.run (clsQueue q) (.qwr h q a) h (writeQueue q) [ux a] fun s =>
    s.pushWords q.toNat ((Instr.qwr h q a).wordOf.setWidth 64) [s.ctx.rx a])

/-- QWRV (R217). -/
def execQwrv (h : Head) (q : BitVec 3) (a : Reg) (s : State) : Out :=
  .next (s.run (clsQueue q) (.qwrv h q a) h (writeQueue q && s.ctx.channelsLegal [] [a]) [uv a] fun s =>
    s.reading [a] fun r =>
      s.pushWords q.toNat ((Instr.qwrv h q a).wordOf.setWidth 64) (bytesWords (vecBytes (r a))))

/-- The oldest element of a 64-bit delivery queue, if any, and the context without it. -/
def Ctx.takeWord (c : Ctx) (q : Nat) : Option Word × Ctx :=
  if q = 1 then (c.q1.head?, { c with q1 := c.q1.tail }) else (c.q5.head?, { c with q5 := c.q5.tail })

/-- QRD (R217). -/
def execQrd (h : Head) (d : Reg) (q : BitVec 3) (s : State) : Out :=
  .next (s.run clsTaskOnly (.qrd h d q) h (decide (d ≠ 0) && (q == 1 || q == 5)) [ux d] fun s =>
    let dst := s.dest false d.toNat
    match s.ctx.takeWord q.toNat with
    | (some w, c) => .done ((s.setCtx (c.setPending d.toNat)).send (s.selfResult dst (.word w)))
    | (none, _) =>
      let c := s.ctx.setPending d.toNat
      .done (s.setCtx { c with pops := c.pops ++ [(q.toNat, dst)] }))

/-- QRDV (R217). -/
def execQrdv (h : Head) (d : Reg) (q : BitVec 3) (s : State) : Out :=
  .next (s.run clsTaskOnly (.qrdv h d q) h (q == 3 && s.ctx.channelsLegal [d] []) [uv d] fun s =>
    let dst := s.dest true d.toNat
    let c := s.ctx.setPending (32 + d.toNat)
    let r := ({ c with pops := c.pops ++ [(3, dst)] } : Ctx).popBeats 1
    .done (r.2.foldl (fun s e => s.send (s.selfResult e.1 (.vec e.2))) (s.setCtx r.1)))

/-- QCNT's result (R217). -/
def State.queueCount (s : State) (q : Nat) : Nat :=
  let c := s.ctx
  let a := s.quad (quadOf s.cur)
  match q with
  | 0 => 32 - s.me.copyQ.length
  | 1 => c.q1.length
  | 2 => 8 - (a.queue.length + a.cur.isSome.toNat)
  | 3 => c.q3.length
  | 4 => 16 - s.nbUsedPlaces s.cur
  | _ => c.q5.length

/-- QCNT (R217). -/
def execQcnt (h : Head) (d : Reg) (q : BitVec 3) (s : State) : Out :=
  .next (s.run clsMisc (.qcnt h d q) h (decide (q.toNat ≤ 5)) [ux d] fun s =>
    .done (s.setCtx (s.ctx.wx d (BitVec.ofNat 64 (s.queueCount q.toNat)))))

end Sys2Proof.Machine
end

