-- ==== Sys2Proof/Machine/Tasks.lean ====
section
/-! DEFINITION. Tasks: records and their start (R69, R70, R122), the deque (R76), SPAWN, SPAWNAT and FORK (R147,
R148), JOIN (R149), CANCEL (R150, R84), DONE and what ends a task (R71, R146, R338), placement by hint (R79),
stealing (R78) and spilling (R80, R345). -/

namespace Sys2Proof.Machine

/-! Records (R69). -/

def Rec.entry (r : Rec) : Nat := Word.field (wordAt r.words 0) 23 0
def Rec.local_ (r : Rec) : Bool := (wordAt r.words 0).getLsbD 24
def Rec.group (r : Rec) : Nat := Word.field (wordAt r.words 0) 39 32
def Rec.prio (r : Rec) : Nat := Word.field (wordAt r.words 0) 47 40
def Rec.radius (r : Rec) : Nat := Word.field (wordAt r.words 0) 52 48
def Rec.hintY (r : Rec) : Nat := Word.field (wordAt r.words 0) 58 53
def Rec.hintX (r : Rec) : Nat := Word.field (wordAt r.words 0) 63 59
def Rec.exit (r : Rec) : Nat := Word.field (wordAt r.words 1) 47 0

/-- A record's reserved bits are zero and its entry is legal. -/
def Rec.ok (r : Rec) : Bool :=
  Word.field (wordAt r.words 0) 31 25 == 0 && Word.field (wordAt r.words 1) 63 48 == 0 &&
  r.entry % 4 == 0 && decide (r.entry < 0x100000)

/-- A core's slot of a group (R67). -/
def CoreSt.groupSlot (c : CoreSt) (g : Nat) : Option GroupSlot := c.groups.find? fun k => k.id == g

/-- grp of a task of group `g` on a core (R122). -/
def CoreSt.grpWord (c : CoreSt) (g : Nat) : Word :=
  match c.groupSlot g with
  | some k => BitVec.ofNat 64 (k.grank % 2 ^ 32 * 2 ^ 32 + k.rank % 2 ^ 16 * 2 ^ 16 + g)
  | none => BitVec.ofNat 64 g

/-- tid of a task (R122). -/
def tidWord (serial tile ctx : Nat) : Word := BitVec.ofNat 64 (serial % 2 ^ 32 * 2 ^ 32 + tileWord tile * 2 ^ 16 + ctx % 4)

/-- The context of a record that starts on context `c` of core `n` as its task number `serial` (R70, R119). -/
def State.freshTask (s : State) (n c serial : Nat) (r : Rec) : Ctx :=
  let x3 : Word := match (s.slot r.slot).cmd with
    | some k => k.x3
    | none => 0
  let z : Ctx := { role := .task, pc := BitVec.ofNat 64 r.entry }
  let z := (z.wx 2 (BitVec.ofNat 64 (0x100000 + c * 0x20000))).wx 3 x3
  let z := ((z.wx 10 (wordAt r.words 2)).wx 11 (wordAt r.words 3)).wx 12 (wordAt r.words 4)
  let z := ((z.wx 13 (wordAt r.words 5)).wx 14 (wordAt r.words 6)).wx 15 (wordAt r.words 7)
  { z with
    flagged := r.flagged
    tid := tidWord serial n c
    grp := (s.core n).grpWord r.group
    exitc := BitVec.ofNat 64 r.exit
    prio := r.prio, slot := r.slot, serial := serial }

/-- A record starts on context `c` of core `n`. -/
def State.startOn (s : State) (n c : Nat) (r : Rec) : State :=
  let k := s.core n
  s.leftIdle n (s.setCore n ({ k with serial := k.serial + 1 }.setCtx c (s.freshTask n c (k.serial + 1) r)))

/-- The lowest-numbered task context that is free and not pinned (R75). -/
def CoreSt.freeCtx (c : CoreSt) : Option Nat := [0, 1, 2, 3].find? fun i => decide ((c.ctx i).role = .free)

/-- The core's tasks may not start: its command is pre-empted or the core is halted (R346, R348). -/
def State.held (s : State) (n : Nat) : Bool :=
  (s.core n).halted || (match (s.core n).slot with
    | some k => s.preempted k
    | none => false)

/-! The deque (R76, R77). -/

/-- The deque arbiter of a tile serves a request of a rank now: owner pop 0, steal give 1, SPAWNAT take 2, cancel 3; within
one cycle it serves them in this order (R77) (DEDUCED, log entry 80). -/
def State.arbitrates (s : State) (n rank : Nat) : Bool :=
  (s.core n).arbiter.1 != s.cycles.toNat || decide ((s.core n).arbiter.2 ≤ rank)

/-- The arbiter has served a request of a rank in this cycle. -/
def State.arbitrated (s : State) (n rank : Nat) : State := s.setCore n { s.core n with arbiter := (s.cycles.toNat, rank) }

/-- The hardware part refilled in batches of 16 from the newest records of the overflow area, but while its records stand in
the tile record (R346). -/
def CoreSt.refillDeque : Nat → CoreSt → CoreSt
  | 0, c => c
  | fuel + 1, c =>
    if 128 ≤ c.deque.length ∨ c.overflow.isEmpty ∨ c.saved.isSome then c
    else CoreSt.refillDeque fuel { c with deque := c.deque ++ c.overflow.take 16, overflow := c.overflow.drop 16 }

/-- The deque after records left it. -/
def CoreSt.refilled (c : CoreSt) : CoreSt := CoreSt.refillDeque 64 c

/-- A record pushed at the owner end; a full hardware part moves its oldest record to the overflow area. -/
def CoreSt.pushed (c : CoreSt) (r : Rec) : CoreSt :=
  let d := r :: c.deque
  if d.length ≤ 256 then { c with deque := d }
  else { c with deque := d.dropLast, overflow := (match d.getLast? with
    | some o => [o]
    | none => []) ++ c.overflow }

/-- A push on core `n` for issuer `who`; a full deque drops the record and reports spill exhausted. -/
def State.pushRec (s : State) (n : Nat) (who : Issuer) (r : Rec) : State :=
  let c := s.core n
  if 1280 ≤ c.deque.length + c.overflow.length + ((c.saved.map (·.deque.length)).getD 0) then (s.bump 0xC98).report who 0x29 8 0x190000
  else
    let t := if 256 ≤ c.deque.length then s.bump 0xCA0 else s
    s.leftIdle n (t.setCore n (c.pushed r))

/-- The newest record taken at the owner end. -/
def CoreSt.popped (c : CoreSt) : Option (Rec × CoreSt) :=
  match c.deque with
  | r :: d => some (r, CoreSt.refilled { c with deque := d })
  | [] => none

/-- Core `n` starts its newest record on free context `c`. -/
def State.startNewest (s : State) (n c : Nat) : State :=
  match (s.core n).popped with
  | some (r, k) => ((s.setCore n k).arbitrated n 0).startOn n c r
  | none => s

/-! Frames and spilled tasks (R344, R345). -/

/-- The cells of `m` from `lo` over `len` bytes, their addresses counted from `lo`. -/
def cellsOf (m : List Host.Cell) (lo len : Nat) : List Host.Cell :=
  (m.filter fun c => decide (lo ≤ c.1) && decide (c.1 < lo + len)).map fun c => (c.1 - lo, c.2)

/-- `m` with the bytes from `lo` over `len` replaced by cells counted from `lo`. -/
def putCells (m : List Host.Cell) (lo len : Nat) (cs : List Host.Cell) : List Host.Cell :=
  cs.foldl (fun m c => writeByte m (lo + c.1) c.2) (m.filter fun c => decide (c.1 < lo) || decide (lo + len ≤ c.1))

/-- The frame of context `c` of a core as a physical number (R27). -/
def framePa (n c : Nat) : Nat := localPa n (0x100000 + c * 0x20000)

/-- The poisoned units of `len` bytes from `lo`, counted from there (R358). -/
def poisonOf (l : List Nat) (lo len : Nat) : List Nat :=
  (l.filter fun u => decide (lo ≤ u) && decide (u < lo + len)).map (· - lo)

/-- The poisoned units with those of `len` bytes from `lo` replaced. -/
def putPoison (l : List Nat) (lo len : Nat) (us : List Nat) : List Nat :=
  us.map (lo + ·) ++ l.filter fun u => decide (u < lo) || decide (lo + len ≤ u)

/-- A spilled task restored into the context that it left: its frame first, then its record (R345). -/
def State.restore (s : State) (n i : Nat) (p : Spilled) : State :=
  let c := s.core n
  let lo := framePa n p.num
  let s := { s with
    mem := putCells s.mem lo 0x20000 p.frame
    poison := putPoison s.poison lo 0x20000 p.poison }
  s.setCore n ({ c with spilled := removeAt c.spilled i }.setCtx p.num p.ctx)

/-- The older wake of two spilled tasks, by their places in the list. -/
def olderWake (l : List Spilled) (a b : Nat) : Nat :=
  match (l[a]?).bind (·.ready), (l[b]?).bind (·.ready) with
  | some x, some y => if y < x then b else a
  | some _, none => a
  | _, _ => b

/-- The ready spilled task that left context `c` and was woken first (R75). -/
def CoreSt.readyFor (c : CoreSt) (i : Nat) : Option Nat :=
  let ks := (List.range c.spilled.length).filter fun k => match c.spilled[k]? with
    | some p => p.num == i && p.ready.isSome
    | none => false
  match ks with
  | [] => none
  | k :: r => some (r.foldl (olderWake c.spilled) k)

/-- The first free context with a ready spilled task. -/
def CoreSt.firstRestore (c : CoreSt) : Option (Nat × Nat) :=
  [0, 1, 2, 3].findSome? fun i => if (c.ctx i).busy then none else (c.readyFor i).map fun k => (i, k)

/-- TASK_START (R75): a ready spilled task before the newest record of the deque. -/
def execTaskStart (core : Nat) (s : State) : Out :=
  let c := s.core core
  if s.held core then .next s
  else match c.firstRestore with
    | some (_, k) =>
      match c.spilled[k]? with
      | some p => .next (s.leftIdle core (s.restore core k p))
      | none => .next s
    | none =>
      match c.freeCtx with
      | some i => if s.arbitrates core 0 then .next (s.startNewest core i) else .next s
      | none => .next s

/-- A context that may be spilled (R80). -/
def State.spillable (s : State) (n i : Nat) : Bool :=
  let c := s.ctxOf n i
  decide (c.role = .task) && c.parkedIdle && !s.hasKey (s.idOf n i c)

/-- The spillable context that parked earliest, ties going to the lowest number. -/
def State.spillChoice (s : State) (n : Nat) : Option Nat :=
  ([0, 1, 2, 3].filter fun i => s.spillable n i).foldl (fun best i =>
    match best with
    | none => some i
    | some j => if (s.ctxOf n i).parkedAt < (s.ctxOf n j).parkedAt then some i else some j) none

/-- All task contexts are occupied, none is ready, and a record waits (R80). -/
def State.wantsSpill (s : State) (n : Nat) : Bool :=
  let c := s.core n
  !s.held n && !c.deque.isEmpty && s.arbitrates n 0 && ([0, 1, 2, 3].all fun i => (c.ctx i).busy && !s.ctxReady n i)

/-- The lowest of the eight frame places that no spilled task holds. -/
def CoreSt.freePlace (c : CoreSt) : Option Nat :=
  (List.range 8).find? fun k => c.spilled.all fun p => p.place != k

/-- SPILL (R80, R345). -/
def execSpill (core : Nat) (s : State) : Out :=
  if !s.wantsSpill core then .next s
  else match s.spillChoice core with
    | none => .next s
    | some i =>
      let c := s.core core
      let x := c.ctx i
      match c.freePlace with
      | none =>
        .next ((s.bump 0xC98).report { task := s.idOf core i x, via := 0 } 0x29 8 0x1A0000)
      | some k =>
        let lo := framePa core i
        let p : Spilled :=
          { ctx := x, num := i, place := k, frame := cellsOf s.mem lo 0x20000, poison := poisonOf s.poison lo 0x20000, ready := none }
        let s := (s.bump 0xC90).setCore core ({ c with spilled := c.spilled ++ [p] }.setCtx i {})
        .next ((s.syncSpill core).startNewest core i)

/-! SPAWN, SPAWNAT and FORK. -/

/-- SPAWN is also allowed in a hinge handler (R151). -/
def clsSpawn : Cls := { clsTaskOnly with hinge := true }

/-- The flagged task ends here with CANCELLED (R84). -/
def State.cancelled (s : State) : Eff := .left (s.park .cancelling)

/-- The issuing context is a task that a cancel request has flagged. -/
def State.isFlagged (s : State) : Bool := decide (s.ctx.role = .task) && s.ctx.flagged

/-- The record that SPAWN and SPAWNAT read at `a` (R147). -/
def State.spawning (s : State) (a : Word) (f : State → Rec → State) : Eff :=
  if s.isFlagged then s.cancelled
  else if a.toNat % 64 ≠ 0 then .trap 0x04 a s
  else if !s.localOk a.toNat 64 false then .trap 0x05 (0x5000000000000 ||| a) s
  else
    let b := s.readHere a.toNat 64
    let r : Rec := { words := bytesWords b.2, slot := s.ctx.slot }
    if !r.ok then .trap 0x0B a s
    else if (s.me.groupSlot r.group).isNone then .trap 0x0F a s
    else .done (f b.1 r)

/-- SPAWN (R147). -/
def execSpawn (h : Head) (a : Reg) (s : State) : Out :=
  .next (s.run clsSpawn (.spawn h a) h true [ux a] fun s =>
    s.spawning (s.ctx.rx a) fun s r => s.pushRec s.cur s.issuer r)

/-- The tile of a record's hint; the mirror half of a twin-mode command walks in its own half (R79, R357)
(DEDUCED, log entry 28). -/
def State.hintTile (s : State) (r : Rec) (from_ : Nat) : Nat :=
  32 * r.hintY + (if s.inMirror r.slot from_ then (r.hintX + 16) % 32 else r.hintX)

/-- Distance between two tiles. -/
def manhattan (a b : Nat) : Nat :=
  (if tileX a ≤ tileX b then tileX b - tileX a else tileX a - tileX b) +
  (if tileY a ≤ tileY b then tileY b - tileY a else tileY a - tileY b)

/-- The next tile on the way from `a` to `b`, X first. -/
def towards (a b : Nat) : Nat :=
  if tileX a < tileX b then a + 1 else if tileX b < tileX a then a - 1
  else if tileY a < tileY b then a + 32 else a - 32

/-- Tile `n` belongs to the record's command and to its group, in the half of the record's issuer. -/
def State.takesGroup (s : State) (n from_ : Nat) (r : Rec) : Bool :=
  (s.core n).slot == some r.slot && ((s.core n).groupSlot r.group).isSome && s.inMirror r.slot n == s.inMirror r.slot from_

/-- No spilled task of a core is ready (R78, R79). -/
def CoreSt.noneReady (c : CoreSt) : Bool := c.spilled.all fun p => p.ready.isNone

/-- Tile `n` may start the record of a walk (R79). -/
def State.walkEligible (s : State) (n from_ : Nat) (r : Rec) : Bool :=
  decide (manhattan n (s.hintTile r from_) ≤ r.radius) && s.takesGroup n from_ r && !s.held n &&
  (s.core n).freeCtx.isSome && (s.core n).noneReady

/-- The hint tile enqueues the record, or drops it (R79). -/
def State.walkEnds (s : State) (n : Nat) (who : Issuer) (r : Rec) : State :=
  if s.takesGroup n who.task.core r then (s.chose r.slot n 2 0x3F).pushRec n who r
  else s.report who 0x0F 8 (BitVec.ofNat 64 (tileWord (32 * r.hintY + r.hintX)))

/-- A replay holds a record on its walk at tile `n` (R356): where the tile's next choice is that it is taken there, until the
tile can take it; else where the tile could take it, and at the hint unless it is enqueued next (DESIGN CHOICE, log entry
68). -/
def State.walkHeld (s : State) (n : Nat) (who : Issuer) (r : Rec) : Bool :=
  match s.logNext r.slot n with
  | none => false
  | some (k, c, _) =>
    let hint := s.hintTile r who.task.core
    let mine := s.takesGroup n who.task.core r
    if decide (n = hint) && mine && k == 2 && c == 0x3F then false
    else if mine && decide (manhattan n hint ≤ r.radius) && k == 2 && c == manhattan who.task.core n then !s.walkEligible n who.task.core r
    else decide (n = hint) && mine || s.walkEligible n who.task.core r

/-- A record on its walk to tile `n`. -/
def State.walkMsg (s : State) (n : Nat) (who : Issuer) (group : Nat) (r : Rec) : Msg :=
  { iss := who, more := [], pkg := s.pkg, home := n, colour := 8, group := group, cmd := 0, body := .walk r n }

/-- A record on its walk stands at tile `n` (R79). -/
def State.walkAt (s : State) (n : Nat) (who : Issuer) (group : Nat) (r : Rec) : State :=
  let hint := s.hintTile r who.task.core
  let hop := manhattan who.task.core n
  match s.walkEligible n who.task.core r && s.mayChoose r.slot n 2 hop, (s.core n).freeCtx with
  | true, some i => ((s.chose r.slot n 2 hop).arbitrated n 2).startOn n i r
  | _, _ =>
    if n = hint then s.walkEnds n who r
    else s.send (s.walkMsg (towards n hint) who group r)

/-- SPAWNAT (R147); the record waits at its tile where the deque arbiter has served a later rank in this cycle (R77), or a
replay holds it (R356). -/
def execSpawnat (h : Head) (a : Reg) (s : State) : Out :=
  .next (s.run clsTaskOnly (.spawnat h a) h true [ux a] fun s =>
    s.spawning (s.ctx.rx a) fun s r =>
      if s.arbitrates s.cur 2 && !s.walkHeld s.cur s.issuer r then s.walkAt s.cur s.issuer s.ctx.group r
      else s.send (s.walkMsg s.cur s.issuer s.ctx.group r))

/-- SPAWNAT_WALK (R79); the records of a pre-empted command go to their hint (R346). -/
def execSpawnatWalk (n : Nat) (s : State) : Out :=
  match s.due n with
  | none => .next s
  | some m =>
    match m.body with
    | .walk r place => if s.arbitrates place 2 && !s.walkHeld place m.iss r then .next ((s.take n m).walkAt place m.iss m.group r) else .next s
    | _ => .next s

/-- The record that FORK builds (R148). -/
def Ctx.forkRec (c : Ctx) (t : Nat) (e : Word) : Rec :=
  { words := [BitVec.ofNat 64 (c.prio % 2 ^ 8 * 2 ^ 40 + c.group * 2 ^ 32 + t), e, c.rx 10, c.rx 11, c.rx 12, c.rx 13, c.rx 14, c.rx 15]
    slot := c.slot }

/-- FORK (R148). -/
def execFork (h : Head) (e : Reg) (o : BitVec 17) (s : State) : Out :=
  .next (s.run clsTaskOnly (.fork h e o) h true [ux e, 10, 11, 12, 13, 14, 15] fun s =>
    let t := s.ctx.rel o
    let x := s.ctx.rx e
    if s.isFlagged then s.cancelled
    else if !inWindow t then .trap 0x03 t s
    else if 2 ^ 48 ≤ x.toNat then .trap 0x0B x s
    else if 0x100000 ≤ t.toNat then .trap 0x0B t s
    else .done (s.pushRec s.cur s.issuer (s.ctx.forkRec t.toNat x)))

/-! JOIN (R149). -/

/-- The alignment of a read of a cell's width. -/
def TlbEntry.cellAlign (e : TlbEntry) : Nat := if isLattice e.ctype then cellBytes e.ctype e.width else 1

/-- JOIN (R149). -/
def execJoin (h : Head) (a b : Reg) (s : State) : Out :=
  .next (s.run clsTaskOnly (.join h a b) h true [ux a, ux b] fun s =>
    let va := s.ctx.rx a
    let c := s.ctx.rx b
    if s.ctx.phase = 1 then
      match s.ctx.reply with
      | some (.fault cause va _) => .trap cause (BitVec.ofNat 64 va) s
      | _ => .done s
    else if isLocal va.toNat then s.formatTrap va
    else s.withSpot (s.check va.toNat TlbEntry.cellAlign .anyGroup) fun p =>
      if p.e.ctype ≠ 6 then s.formatTrap va
      else if s.isFlagged then s.cancelled
      else if c = 0 then .done s
      else if 2 ^ (8 * cellBytes 6 p.e.width) ≤ c.toNat then .trap 0x07 c s
      else (s.request p (.join c.toNat) 32).parkAt 1 .answer)

/-! The end of a task (R71, R146, R338, R84). -/

/-- `f` applied as if context `i` of core `n` were the issuing one. -/
def State.atCtx (s : State) (n i : Nat) (f : State → State) : State :=
  let t := f { s with cur := n, curCtx := i }
  { t with cur := s.cur, curCtx := s.curCtx }

/-- Latches that `p` names are removed, and overflow entries move up (R205, R207). -/
def State.removeLatches (s : State) (p : Latch → Bool) : State :=
  let homes := ((s.latches.filter p).map (·.home)).eraseDups
  let s := { s with latches := s.latches.filter fun l => !p l }
  homes.foldl (fun s h => s.refill h s.latches.length) s

/-- What task `t` holds of its quad passes on or is discarded (R267). -/
def Quad.leave (q : Quad) (t : TaskId) : Quad :=
  let q := { q with
    requests := q.requests.filter (· != t)
    lasts := q.lasts.filter fun o => o.cmd.iss.task != t
    saved := q.saved.filter fun k => k.iss.task != t }
  let q := if q.accOf = some t then { q with acc := [], accOf := none } else q
  if q.holder = some t then q.release (quadPos t.core) else q

/-- The ports that a context has bound are free again and keep their packets (R311). -/
def CoreSt.freePorts (c : CoreSt) (x : Ctx) : CoreSt :=
  [28, 29, 30, 31].foldl (fun c v =>
    if x.bound v then c.setPort (x.portOf v) { c.port (x.portOf v) with bound := none, next := 0 } else c) c

/-- The failure that a record names: the least cause, then the least PC (R350). -/
def worseFailure (a b : Option Failure) : Option Failure :=
  match a, b with
  | some x, some y => if y.cause < x.cause ∨ (y.cause = x.cause ∧ y.pc < x.pc) then some y else some x
  | none, b => b
  | a, none => a

/-- A saturating count of `w` bits one higher. -/
def satSucc (w n : Nat) : Nat := min (n + 1) (2 ^ w - 1)

/-- The fault cell of a task and its failure joined into the completion record (R342). -/
def Tally.close (y : Tally) (f : FaultCell) : Tally :=
  { y with
    faults := y.faults.merge { f with failure := none }
    worst := worseFailure y.worst f.failure
    failed := if f.failure.isSome then satSucc 16 y.failed else y.failed }

/-- Everything that task `t` holds is given up, and its fault cell goes to the completion record. -/
def State.leave (s : State) (t : TaskId) (x : Ctx) (f : Tally → Tally) : State :=
  let s := s.onTally t.slot t.core fun y => f (y.close x.faults)
  let s := (s.discardHeld t).unbindTask t
  let s := s.setQuad (quadOf t.core) ((s.quad (quadOf t.core)).leave t)
  let s := s.removeLatches fun l => l.iss.task == t && l.iss.via == 0
  s.setCore t.core ((s.core t.core).freePorts x)

/-- The task on context `i` of core `n` ends, and the context is free. -/
def State.endTask (s : State) (n i : Nat) (f : Tally → Tally) : State :=
  let x := s.ctxOf n i
  let s := s.leave (s.idOf n i x) x f
  let c := s.core n
  s.setCore n ({ c with switch := c.switch || c.last == i }.setCtx i {})

/-- The alignment of an exit cell. -/
def TlbEntry.exitAlign (e : TlbEntry) : Nat := if e.ctype = 6 then 2 ^ e.width else 1

/-- The bump of a retired task's exit cell (R71), or the report of what stands in its way. -/
def State.bumpExit (s : State) (t : TaskId) (x : Ctx) : State :=
  let who : Issuer := { task := t, via := 0 }
  let va := x.exitc.toNat
  let bad := fun cause (tval : Word) => s.report who cause x.colour tval
  if va = 0 then s
  else if isLocal va then bad 0x0B x.exitc
  else match s.checkWalk t.slot x.group t.core va TlbEntry.exitAlign .own with
    | .trap cause tval => bad cause tval
    | .miss _ => s
    | .ok p =>
      if p.e.ctype ≠ 6 then bad 0x0B x.exitc
      else s.send { iss := who, more := [], pkg := p.pkg, home := p.home, colour := x.colour, group := x.group, cmd := 0,
                    body := .join p.pa va 6 p.e.width (natBytes (2 ^ p.e.width) 1) false
                    lane := laneNumber s.pkg t.core t.ctx 0, key := s.keyOf t.slot p.e }

/-- Retirement (R71): the context is free and the exit cell is bumped. -/
def State.retire (s : State) (n i : Nat) : State :=
  let x := s.ctxOf n i
  let t := s.idOf n i x
  (s.endTask n i fun y => { y with retired := satSucc 32 y.retired }).bumpExit t x

/-- DONE (R146): it waits for results, where a flagged task ends (R84), then for writes; a faulted result traps here, in a
flagged task too (R195). -/
def execDone (h : Head) (s : State) : Out :=
  .next (s.run { clsTaskOnly with task := true } (.done h) h true [] fun s =>
    let c := s.ctx
    if c.pending ≠ 0 then .stay .doneRegs s
    else match c.inh, c.firstFault with
      | false, some (n, f) => .trap f.cause (f.tval n) s
      | _, _ => .left (s.park .doneWrites))

/-- The member tiles of a slot's command. -/
def State.cmdTiles (s : State) (slot : Nat) : List Nat :=
  match (s.slot slot).cmd with
  | some c => c.members
  | none => []

/-- The packages of a slot's gang but this one. -/
def State.others (s : State) (slot : Nat) : List Nat :=
  match (s.slot slot).cmd.bind (·.gang) with
  | some g => (List.range g.n).filter (· != s.pkg)
  | none => []

/-- A cancelled task waits at no home any more (R207, R329): its latches and its requests go, in the other packages of its
gang by a message. -/
def State.letGo (s : State) (t : TaskId) : State :=
  let iss : Issuer := { task := t, via := 0 }
  let want := fun (m : Msg) => m.iss == iss && match m.body with
    | .want .. => true
    | _ => false
  let s := { s with
    net := s.net.filter fun m => !want m, outbox := s.outbox.filter fun m => !want m, asked := s.asked.filter fun m => !want m }
  let s := s.removeLatches fun l => l.iss == iss
  (s.others t.slot).foldl (fun s p =>
    s.send { iss := iss, more := [], pkg := p, home := 8192, colour := 8, group := 0, cmd := 0, body := .unlatch }) s

/-- TASK_RETIRE (R71, R84, R342): once its writes are applied, the task surfaces what is open, or retires, or ends
with CANCELLED; on a halted core it stays where it is (R348). -/
def execTaskRetire (core ctx : Nat) (s : State) : Out :=
  let c := s.ctxOf core ctx
  let t := s.idOf core ctx c
  if s.owes (ofTask t) 0x1FF || decide (c.role ≠ .task) || (s.core core).halted then .next s
  else match c.wait with
    | .doneWrites =>
      .next (s.atCtx core ctx fun s =>
        let r := s.surface 0xFF
        match r.2 with
        | some (cause, tval) => r.1.trap cause tval
        | none => r.1.retire core ctx)
    | .cancelling => .next ((s.letGo t).endTask core ctx id)
    | _ => .next s

/-- TASK_FAILURE (R338): once its writes are applied, the task's failure is recorded and its context is free; on a halted core
it stays where it is (R348). -/
def execTaskFailure (core ctx : Nat) (s : State) : Out :=
  let c := s.ctxOf core ctx
  if s.owes (ofTask (s.idOf core ctx c)) 0x1FF || (s.core core).halted then .next s
  else match c.wait with
    | .failing f =>
      .next ((s.setCtxOf core ctx { c with faults := { c.faults with failure := some f } }).endTask core ctx id)
    | _ => .next s

/-! CANCEL (R84, R150). -/

/-- The core number that stands for every member tile of another package. -/
def allTiles : Nat := 8192

/-- The cancel requests of this package's tiles, for tasks with an exit cell (R150). -/
def State.cancelHere (s : State) (iss : Issuer) (exit slot : Nat) : State :=
  let s := s.onCmd slot fun c => { c with cancel := true }
  (s.cmdTiles slot).foldl (fun s n =>
    s.send { iss := iss, more := [], pkg := s.pkg, home := n, colour := 8, group := 0, cmd := 0, body := .cancel exit slot n }) s

/-- A cancel request sent to every tile of every package of the command. -/
def State.sendCancel (s : State) (exit slot : Nat) : State :=
  let iss := s.issuer
  (s.others slot).foldl (fun s p =>
    s.send { iss := iss, more := [], pkg := p, home := allTiles, colour := 8, group := 0, cmd := 0,
             body := .cancel exit slot allTiles }) (s.cancelHere iss exit slot)

/-- CANCEL (R150). -/
def execCancel (h : Head) (a : Reg) (s : State) : Out :=
  .next (s.run clsTaskOnly (.cancel h a) h true [ux a] fun s =>
    let e := s.ctx.rx a
    if e = 0 ∨ 2 ^ 48 ≤ e.toNat then .trap 0x0B e s
    else .done (s.sendCancel e.toNat s.ctx.slot))

/-- A started task that a request names is flagged; one that is parked ends there (R84, R207). -/
def State.flag (s : State) (n i : Nat) (x : Ctx) : Ctx :=
  let answered := s.net.any fun m => m.iss == { task := s.idOf n i x, via := 0 } && (match m.body with
    | .mreply (.version ..) => true
    | _ => false)
  if x.wait.ending || x.reserved || answered || s.overFor n i x then { x with flagged := true } else { x with flagged := true, wait := .cancelling }

/-- A tile record whose tasks and records are flagged or dropped: a pre-empted task ends at its first cancellation point
after its command resumes (R84, R347). -/
def Saved.cancel (v : Saved) (named : Ctx → Bool) (queued : Rec → Bool) : Saved :=
  { v with
    ctxs := v.ctxs.map fun x => if decide (x.role = .task) && named x then { x with flagged := true } else x
    deque := v.deque.filter fun r => !queued r }

/-- The tasks and records that `named` and `queued` name on core `n` are flagged or dropped (R84); one that is parked waits
at no home any more. -/
def State.cancelCore (s : State) (n : Nat) (named : Ctx → Bool) (queued : Rec → Bool) : State :=
  let c := s.core n
  let hit := [0, 1, 2, 3].filter fun i => decide ((c.ctx i).role = .task) && named (c.ctx i)
  let gone := (hit.map fun i => (i, s.flag n i (c.ctx i))) ++
    (c.spilled.filter fun p => named p.ctx).map fun p => (p.num, s.flag n p.num p.ctx)
  let c := CoreSt.refilled { c with deque := c.deque.filter fun r => !queued r, overflow := c.overflow.filter fun r => !queued r }
  let c := hit.foldl (fun (k : CoreSt) i => k.setCtx i (s.flag n i (k.ctx i))) c
  let c := { c with
    stamps := c.stamps + 1
    saved := c.saved.map fun v => v.cancel named queued
    spilled := c.spilled.map fun p =>
      if named p.ctx then
        let x := s.flag n p.num p.ctx
        { p with ctx := x, ready := if decide (x.wait = .cancelling) && p.ready.isNone then some c.stamps else p.ready }
      else p }
  let s := (s.setCore n c).syncSpill n
  (gone.filter fun p => decide (p.2.wait = .cancelling)).foldl (fun s p => s.letGo (s.idOf n p.1 p.2)) s

/-- A record in transit by a steal that was given in this cycle counts as started: it runs flagged (R77). -/
def State.flagStolen (s : State) (queued : Rec → Bool) (m : Msg) : Msg :=
  match m.body with
  | .stolen thief r cycle => if queued r && cycle == s.cycles.toNat then { m with body := .stolen thief { r with flagged := true } cycle } else m
  | _ => m

/-- Records in transit that `queued` names are dropped (R84), but those that a cancel of the cycle of their steal has flagged:
they have started (R77). -/
def State.dropTransit (s : State) (queued : Rec → Bool) : State :=
  let gone := fun (m : Msg) => match m.body with
    | .walk r _ => queued r
    | .stolen _ r cycle => queued r && !r.flagged && cycle != s.cycles.toNat
    | _ => false
  let s' := { s with net := (s.net.filter fun m => !gone m).map (s.flagStolen queued) }
  (s.net.filter gone).foldl (fun s m => match m.body with
    | .stolen thief _ _ => State.receivedAll (s.setCore thief { s.core thief with stealOut := false }) m
    | _ => s.receivedAll m) s'

/-- A request to end the tasks of a slot with an exit cell takes effect at core `n`; an exit of 2^48 or more names
every task (R61). -/
def State.cancelAt (s : State) (exit slot n : Nat) : State :=
  let names := fun (e : Nat) => decide (2 ^ 48 ≤ exit) || e == exit
  let queued := fun (r : Rec) => r.slot == slot && names r.exit
  (s.dropTransit queued).cancelCore n (fun x => x.slot == slot && names x.exitc.toNat) queued

/-- CANCEL_REQUEST (R84, R207). -/
def execCancelRequest (n : Nat) (s : State) : Out :=
  match s.due n with
  | none => .next s
  | some m =>
    match m.body with
    | .cancel exit slot core =>
      if core = allTiles then .next ((s.take n m).cancelHere m.iss exit slot)
      else if !s.arbitrates core 3 then .next s
      else .next (((s.take n m).arbitrated core 3).cancelAt exit slot core)
    | _ => .next s

/-! Stealing (R78). -/

/-- Whether two tiles lie in one half, which a twin-mode command never leaves (R357). -/
def State.sameHalf (s : State) (slot a b : Nat) : Bool := s.inMirror slot a == s.inMirror slot b

/-- The neighbour of a tile in a direction: north, east, south, west; none beyond the package. -/
def neighbour (n dir : Nat) : Option Nat :=
  match dir with
  | 0 => if tileY n = 0 then none else some (n - 32)
  | 1 => if tileX n = 31 then none else some (n + 1)
  | 2 => if tileY n = 63 then none else some (n + 32)
  | _ => if tileX n = 0 then none else some (n - 1)

/-- The directions of a tile for its command. -/
def State.stealDirs (s : State) (n : Nat) : List Nat :=
  [0, 1, 2, 3].filter fun d => match neighbour n d with
    | some v => s.sameHalf ((s.core n).slot.getD 0) n v
    | none => false

/-- The next direction to ask, from `d` on. -/
def State.nextDir (s : State) (n d : Nat) : Option Nat :=
  [d % 4, (d + 1) % 4, (d + 2) % 4, (d + 3) % 4].find? fun k => (s.stealDirs n).contains k

/-- A core is idle for stealing (R78). -/
def State.stealIdle (s : State) (n : Nat) : Bool :=
  let c := s.core n
  c.slot.isSome && !s.held n && c.freeCtx.isSome && c.deque.isEmpty && c.overflow.isEmpty && c.noneReady

/-- A core as the sender of messages of the steal network. -/
def State.tileIssuer (s : State) (n : Nat) : Issuer :=
  { task := { pkg := s.pkg, core := n, ctx := 0, serial := 0, slot := (s.core n).slot.getD 0 }, via := 0 }

/-- A message of the steal network from `a` to `b`. -/
def State.stealMsg (s : State) (a b : Nat) (x : Body) : Msg :=
  { iss := s.tileIssuer a, more := [], pkg := s.pkg, home := b, colour := 8, group := 0, cmd := 0, body := x }

/-- STEAL_BACKOFF (R78): an idle core without a request asks its next direction. -/
def execStealBackoff (core : Nat) (s : State) : Out :=
  let c := s.core core
  if c.stealOut || !s.stealIdle core then .next s
  else match s.nextDir core c.stealDir with
    | none => .next s
    | some d =>
      match neighbour core d with
      | none => .next s
      | some v =>
        let s := s.setCore core { c with stealOut := true, stealDir := (d + 1) % 4 }
        .next (s.send (s.stealMsg core v (.steal core v d s.cycles.toNat)))

/-- The last element of a list that `p` names, and the list without it. -/
def takeLast {α : Type} (p : α → Bool) : List α → Option (α × List α)
  | [] => none
  | a :: r =>
    match takeLast p r with
    | some (b, t) => some (b, a :: t)
    | none => if p a then some (a, r) else none

/-- The oldest record that `p` names, and the core without it. -/
def CoreSt.giveOldest (c : CoreSt) (p : Rec → Bool) : Option (Rec × CoreSt) :=
  match takeLast p c.overflow with
  | some (r, l) => some (r, { c with overflow := l })
  | none =>
    match takeLast p c.deque with
    | some (r, l) => some (r, CoreSt.refilled { c with deque := l })
    | none => none

/-- The record that victim `v` gives to a thief. -/
def State.steal (s : State) (thief v : Nat) : Option (Rec × CoreSt) :=
  let t := s.core thief
  if s.held v then none
  else (s.core v).giveOldest fun r => t.slot == some r.slot && (t.groupSlot r.group).isSome && !r.local_

/-- The place of a direction in the order in which victim `v` serves requests of one cycle (R78). -/
def State.serveOrder (s : State) (v back : Nat) : Nat := (back + 3 - (s.core v).lastServed % 4) % 4

/-- Another request that reached victim `v` in the same cycle is served before the one from direction `back`; requests
travel one hop, so those sent in one cycle arrive in one (R78). -/
def State.servedBefore (s : State) (v back cycle : Nat) : Bool :=
  s.net.any fun m => match m.body with
    | .steal _ w d k => w == v && k == cycle && decide (s.serveOrder v ((d + 2) % 4) < s.serveOrder v back)
    | _ => false

/-- STEAL_REQUEST (R78, R355). -/
def execStealRequest (n : Nat) (s : State) : Out :=
  match s.due n with
  | none => .next s
  | some m =>
    match m.body with
    | .steal thief v d cycle =>
      let back := (d + 2) % 4
      let give := s.steal thief v
      let choice := 2 * back + give.isSome.toNat
      let slot := s.slotOf v
      if !s.mayChoose slot v 1 choice || s.servedBefore v back cycle || !s.arbitrates v 1 then .next s
      else
        let s := ((s.take n m).chose slot v 1 choice).arbitrated v 1
        match give with
        | some (r, c) =>
          let s := s.setCore v { c with lastServed := back, arbiter := (s.core v).arbiter }
          .next (s.send (s.stealMsg v thief (.stolen thief r s.cycles.toNat)))
        | none =>
          let s := s.setCore v { s.core v with lastServed := back }
          .next (s.send (s.stealMsg v thief (.refusal thief)))
    | _ => .next s

/-- STOLEN_RECORD (R78): it starts at once, or waits in the thief's deque. -/
def execStolenRecord (n : Nat) (s : State) : Out :=
  match s.due n with
  | none => .next s
  | some m =>
    match m.body with
    | .stolen thief r _ =>
      let s := s.take n m
      let c := s.core thief
      let s := s.setCore thief { c with stealOut := false, refusals := 0, backoff := 64 }
      match s.held thief, c.freeCtx with
      | false, some i => .next (s.startOn thief i r)
      | _, _ => .next (s.pushRec thief m.iss r)
    | _ => .next s

/-- STEAL_REFUSAL (R78): after a full round of refusals the next wait is twice as long. -/
def execStealRefusal (n : Nat) (s : State) : Out :=
  match s.due n with
  | none => .next s
  | some m =>
    match m.body with
    | .refusal thief =>
      let s := s.take n m
      let c := s.core thief
      let round := (c.refusals + 1) % (max 1 (s.stealDirs thief).length) == 0
      .next (s.setCore thief { c with
        stealOut := false
        refusals := c.refusals + 1
        backoff := if round && decide ((s.stealDirs thief).length < c.refusals + 1) then min 1024 (2 * c.backoff) else c.backoff })
    | _ => .next s

end Sys2Proof.Machine
end

