-- ==== Sys2Proof/Machine/Barriers.lean ====
section
/-! DEFINITION. Barriers (R297-R301). -/

namespace Sys2Proof.Machine

/-- The state with a barrier replaced. -/
def State.setBar (s : State) (b : Nat) (x : Bar) : State := { s with bars := put {} s.bars b x }

/-- pend of a barrier at a tile (R297). -/
def CoreSt.pendOf (c : CoreSt) (b : Nat) : Nat := look 0 c.pend b
/-- The core with pend of a barrier replaced. -/
def CoreSt.setPend (c : CoreSt) (b n : Nat) : CoreSt := { c with pend := put 0 c.pend b n }

/-- A barrier that some group of the core binds (R300). -/
def CoreSt.binds (c : CoreSt) (b : Nat) : Bool := c.groups.any fun g => g.bars.contains b

/-- The checks of a barrier's number (R300). -/
def State.onBarrier (s : State) (b : Word) (f : Nat → Eff) : Eff :=
  if 127 < b.toNat then .trap 0x0B b s
  else if !s.me.binds b.toNat then .trap 0x0F b s
  else f b.toNat

/-- Arriving (R300): at pend 15 the context parks until a release. -/
def State.arrive (s : State) (b : Nat) (f : State → Eff) : Eff :=
  let n := s.me.pendOf b
  let g := (s.bar b).gen
  if 15 ≤ n then .stay (.barFull b g) s
  else
    let s := s.setMe (s.me.setPend b (n + 1))
    f (s.setCtx { s.ctx with ticket := some (b, (g + n + 1) % 2 ^ 32) })

/-- Waiting (R300): for the ticket's release, or for the next one. -/
def State.await (s : State) (b : Nat) : Eff :=
  let c := s.ctx
  let own := match c.ticket with
    | some (k, g) => if k = b then some g else none
    | none => none
  let tgt := own.getD (((s.bar b).gen + 1) % 2 ^ 32)
  let s := if own.isSome then s.setCtx { c with ticket := none } else s
  if genReached (s.bar b).gen tgt then .done s else s.parkAt 1 (.bar b tgt)

/-- BAR (R300). -/
def execBar (h : Head) (a : Reg) (s : State) : Out :=
  .next (s.run clsTaskOnly (.bar h a) h true [ux a] fun s =>
    if s.ctx.phase = 1 then .done s
    else s.onBarrier (s.ctx.rx a) fun b => s.arrive b fun s => s.await b)

/-- BARA (R300). -/
def execBara (h : Head) (a : Reg) (s : State) : Out :=
  .next (s.run clsTaskOnly (.bara h a) h true [ux a] fun s =>
    if s.ctx.phase = 1 then .done s else s.onBarrier (s.ctx.rx a) fun b => s.arrive b .done)

/-- BARW (R300). -/
def execBarw (h : Head) (a : Reg) (s : State) : Out :=
  .next (s.run clsTaskOnly (.barw h a) h true [ux a] fun s =>
    if s.ctx.phase = 1 then .done s else s.onBarrier (s.ctx.rx a) s.await)

/-! Releases (R298, R299). -/

/-- Every arrival line of a barrier is asserted: that of each member tile; a halted or pre-empted tile keeps its own, and so
does one that is fenced during the command, for its fence takes effect at the next LAUNCH (R297, R362). -/
def State.linesUp (s : State) (x : Bar) (b : Nat) : Bool :=
  match x.bound with
  | some (_, _, ms) => ms.all fun n => decide (0 < (s.core n).pendOf b)
  | none => false

/-- A member's part of a release: its pend falls, and its waiters are ready. -/
def State.releaseAt (b : Nat) (s : State) (n : Nat) : State :=
  let c := s.core n
  s.setCore n (c.setPend b (c.pendOf b - 1))

/-- The local release of a barrier (R298). -/
def State.releaseBar (s : State) (b : Nat) : State :=
  let x := s.bar b
  let ms := match x.bound with
    | some (_, _, ms) => ms
    | none => []
  let t := s.setBar b { x with gen := (x.gen + 1) % 2 ^ 32, sent := false, heldFrom := [] }
  let t := ms.foldl (State.releaseAt b) t
  ms.foldl (fun u n => s.leftIdle n (u.stir n)) t

/-- A control flit to another package. -/
def State.flitTo (s : State) (p vnet : Nat) (ws : List Nat) : State :=
  s.send { iss := frontEnd s.pkg 4096, more := [], pkg := p, home := 8192, colour := 8, group := 0, cmd := 0,
           body := .control vnet ws }

/-- Package 0 holds an arrival from package `p`; with one from every package it releases, and tells the others
(R299). -/
def State.gangArrival (s : State) (p b : Nat) : State :=
  let x := s.bar b
  let held := if x.heldFrom.contains p then x.heldFrom else p :: x.heldFrom
  if (List.range x.gangn).all held.contains then
    (List.range x.gangn).foldl (fun s k => if k = s.pkg then s else s.flitTo k 5 [b]) (s.releaseBar b)
  else s.setBar b { x with heldFrom := held }

/-- BARRIER_RELEASE (R298): every line is asserted; in a gang the package's arrival goes to package 0 (R299). -/
def execBarrierRelease (b : Nat) (s : State) : Out :=
  let x := s.bar b
  if !s.linesUp x b || x.sent then .next s
  else if x.gangn ≤ 1 then .next (s.releaseBar b)
  else
    let t := s.setBar b { x with sent := true }
    if s.pkg = 0 then .next (t.gangArrival 0 b) else .next (t.flitTo 0 5 [b, s.pkg])

/-- BARRIER_ARRIVAL_FLIT (R299), at package 0. -/
def execBarrierArrivalFlit (pkg b : Nat) (s : State) : Out :=
  if s.pkg ≠ 0 ∨ (s.bar b).bound.isNone then .next s else .next (s.gangArrival pkg b)

/-- BARRIER_RELEASE_FLIT (R299): the local release that package 0 has ordered. -/
def execBarrierReleaseFlit (b : Nat) (s : State) : Out :=
  let x := s.bar b
  if s.pkg = 0 || !x.sent then .next s else .next (s.releaseBar b)

/-- The task states that a core holds, each under its context's number: in its contexts, its tile record and its spill slots
(R344, R346). -/
def CoreSt.taskStates (c : CoreSt) : List (Nat × Ctx) :=
  ([0, 1, 2, 3].map fun i => (i, c.ctx i)) ++ ([0, 1, 2, 3].filterMap fun i => (c.savedCtx i).map fun x => (i, x)) ++
  c.spilled.map fun p => (p.num, p.ctx)

/-- A context that is parked on a barrier. -/
def Ctx.waitsBar (c : Ctx) (b : Nat) : Bool := match c.wait with
  | .bar k _ | .barFull k _ => k == b
  | _ => false

/-- A task that waits on a barrier goes on behind its instruction, with link failure reported (R299). -/
def State.breakTask (link : Nat) (s : State) (t : TaskId) : State :=
  (((s.onTask t fun x => { x with wait := .none, phase := 1 }).getD s).report { task := t, via := 0 } 0x2B 8 (BitVec.ofNat 64 link)).stir t.core

/-- The tasks of a tile that wait on a barrier stop waiting, and the tile has left idle (R81, R299). -/
def State.breakAt (b link : Nat) (s : State) (n : Nat) : State :=
  let waiting := ((s.core n).taskStates.filter fun x => x.2.waitsBar b).map fun x => s.idOf n x.1 x.2
  s.leftIdle n (waiting.foldl (State.breakTask link) s)

/-- The contexts that wait on a barrier of the package stop waiting, for a link on the way is lost (R299). -/
def State.breakBar (s : State) (b link : Nat) : State :=
  match (s.bar b).bound with
  | some (_, _, ms) => ms.foldl (State.breakAt b link) s
  | none => s

end Sys2Proof.Machine
end

