-- ==== Sys2Proof/Machine/Hinges.lean ====
section
/-! DEFINITION. Hinge calls (R302-R310): HCALL and HRET, the mailbox, the start of a handler, and what comes back
to the caller. -/

namespace Sys2Proof.Machine

/-- HCALL in a hinge handler only posts (R318). -/
def clsHcall (w : BitVec 1) : Cls := { clsTaskOnly with hinge := w == 0 }

/-- The payload registers of a call. -/
def payloadRegs (d : Reg) (n : Nat) : List Reg := (List.range n).map fun i => regPlus d (i + 1)

/-- A call of the issuing context to a unit (R302). -/
def State.callTo (s : State) (pkg unit : Nat) (d : Reg) (t : Word) (e n : Nat) (w : Bool) : State :=
  let c := s.ctx
  let k : Call :=
    { id := s.fresh, caller := s.issuer, entry := e, payload := (payloadRegs d n).map c.rx, target := t.toNat, colour := c.colour,
      group := c.group, w := w, rd := d.toNat, pkg := pkg, unit := unit, grp := c.grp, exitc := c.exitc, tid := c.tid,
      enables := c.fflags &&& 0x3F00, dst := s.dest false d.toNat }
  let c := c.setPending d.toNat
  let c := if w then c.setPending (d.toNat + 1) else c
  let s := { s with fresh := s.fresh + 16384, remoteCalls := if pkg = s.pkg then s.remoteCalls else s.remoteCalls ++ [k] }
  (s.setCtx c).send { iss := k.caller, more := [], pkg := pkg, home := unit, colour := k.colour, group := k.group, cmd := 0, body := .hcall k, lane := s.lane }

/-- HCALL (R302). -/
def execHcall (h : Head) (d a : Reg) (e : BitVec 8) (n : BitVec 3) (w : BitVec 1) (s : State) : Out :=
  let count := n.toNat + 1
  .next (s.run (clsHcall w) (.hcall h d a e n w) h (decide (d ≠ 0) && decide (d.toNat + count ≤ 31))
      ([ux a, ux d] ++ (payloadRegs d count).map ux) fun s =>
    let t := s.ctx.rx a
    if isLocal t.toNat then
      if !s.localOk t.toNat 1 false then .trap 0x05 (xlatTval 5 t.toNat) s
      else .done (s.callTo s.pkg s.cur d t e.toNat count (w == 1))
    else s.withSpot (s.check t.toNat (fun _ => 1) .anyGroup) fun p =>
      .done (s.callTo p.pkg (unitOf p.home) d t e.toNat count (w == 1)))

/-- Instructions that only a hinge handler may use. -/
def clsHingeOnly : Cls := { rep := false, fmt := false, row := false, hinge := true, task := false }

/-- HRET (R308): it waits for the handler's messages and for what they answer; a load that has received a fault at its home
ends the handler with it (R307) (DEDUCED, log entry 33). -/
def execHret (h : Head) (a : Reg) (s : State) : Out :=
  .next (s.run clsHingeOnly (.hret h a) h true [ux a] fun s =>
    match s.ctx.role with
    | .hinge k run =>
      let v := s.ctx.rx a
      if s.ctx.pending ≠ 0 ∨ s.owes (ofRun run) 0x1FF then .stay (.hret v) s
      else match s.ctx.firstFault with
        | some (n, f) => .trap f.cause (f.tval n) s
        | none => .left (s.endHinge k (.ended v))
    | _ => .done s)

/-! The mailbox (R304, R367). -/

/-- The queue of this package whose command a call belongs to: that of its caller, which for a call from another package is
named by the gang identity (R68). -/
def Call.slot (k : Call) : Nat := k.caller.task.slot

/-- A unit has room for a call: a free entry, and one within the limit of the call's command (R304, R367). -/
def State.mailboxRoom (s : State) (u : Nat) (k : Call) : Bool :=
  let box := (s.core u).mailbox
  let limit := match (s.slot k.slot).cmd with
    | some c => c.mboxLimit
    | none => 64
  decide (box.length < 64) && decide ((box.filter fun j => j.slot == k.slot).length < limit)

/-- The choice that a mailbox's decision stands for (R355). -/
def Call.choice (k : Call) (accepted : Bool) : Nat :=
  tileWord k.caller.task.core * 8 + k.caller.task.ctx % 4 * 2 + accepted.toNat

/-- A call accepted by a unit: its handler waits its turn. -/
def State.acceptCall (s : State) (u : Nat) (k : Call) : State :=
  let c := s.core u
  let t := s.setCore u { c with mailbox := c.mailbox ++ [k], arrivals := c.arrivals ++ [.hinge k] }
  (s.leftIdle u (t.chose k.slot (logTile u) 8 1)).noteTo k .accept

/-- HINGE_CALL_ARRIVAL (R304): accepted while an entry is free, else refused. -/
def execHingeCallArrival (n : Nat) (s : State) : Out :=
  match s.due n with
  | none => .next s
  | some m =>
    match m.body with
    | .hcall k =>
      let u := m.home
      let ok := s.mailboxRoom u k
      if !s.mayChoose k.slot (logTile u) 4 (k.choice ok) then .next s
      else
        let s := (s.take n m).chose k.slot (logTile u) 4 (k.choice ok)
        .next (if ok then s.acceptCall u k else s.endCall u k .refuse)
    | _ => .next s

/-! The handler (R306). -/

/-- The fields of a hinge-table entry (R65). -/
def hingeEntry (w : Word) : Nat := Word.field w 23 0
def hingeAbsent (w : Word) : Bool := w.getLsbD 31
def hingeStack (w : Word) : Bool := w.getLsbD 24
def hingeBudget (w : Word) : Nat := if Word.field w 47 32 = 0 then 256 else Word.field w 47 32

/-- The table entry that serves a call at its unit; none where it ends with remote fault. -/
def State.entryFor (s : State) (k : Call) : Option Word :=
  (s.slot k.slot).cmd.bind fun c =>
    if decide (k.unit < 2048) && (s.core k.unit).slot != some k.slot then none
    else match c.hinge[k.entry]? with
      | none => none
      | some w => if hingeAbsent w || (stackCore k.unit && !hingeStack w) then none else some w

/-- The state of a hinge handler at its start. -/
def State.hingeCtx (_s : State) (k : Call) (w : Word) (run : Nat) : Ctx :=
  let c : Ctx := { role := .hinge k run, pc := BitVec.ofNat 64 (hingeEntry w), hbud := BitVec.ofNat 64 (hingeBudget w) }
  let c := (c.wx 2 0x180000).wx 9 (BitVec.ofNat 64 k.target)
  let c := ((List.range k.payload.length).zip k.payload).foldl (fun (c : Ctx) p => c.wx (BitVec.ofNat 5 (10 + p.1)) p.2) c
  { c with
    tid := k.tid, grp := k.grp, exitc := k.exitc
    tstat := BitVec.ofNat 64 (k.colour * 2)
    fflags := k.enables
    slot := k.slot
    serial := k.caller.task.serial }

/-- HINGE_HANDLER_START (R74, R306): the handler context takes the call that arrived first. -/
def execHingeHandlerStart (core : Nat) (s : State) : Out :=
  let c := s.core core
  match c.nextArrival with
  | some (.hinge k, c') =>
    if (c.ctx 4).busy || s.defers core || (decide (core < 2048) && s.preempted k.slot) then .next s
    else match s.entryFor k with
      | none => .next ((s.setCore core c').endCall core k (.failed 0x23))
      | some w =>
        let s := { s with fresh := s.fresh + 16384 }
        .next (s.setCore core (c'.setCtx 4 (s.hingeCtx k w (s.fresh - 16384))))
  | _ => .next s

/-! What comes back (R305, R310). -/

/-- The status word of a call (R305). -/
def Call.status (k : Call) (status rcause : Nat) : Word :=
  BitVec.ofNat 64 (status * 2 ^ 56 + rcause % 256 * 2 ^ 48 + k.w.toNat * 2 ^ 45 + k.rd % 32 * 2 ^ 40 + k.entry % 256 * 2 ^ 32)

/-- A status word delivered to the caller's registers, with the reply when the call waits. -/
def Ctx.landStatus (c : Ctx) (k : Call) (reply st : Word) : Ctx :=
  let c := { c with hst := st }
  if k.w then (c.landX k.rd reply).landX (k.rd + 1) st else c.landX k.rd st

/-- What a note does to the caller's context. -/
def Ctx.landNote (c : Ctx) (k : Call) (n : HingeNote) : Ctx :=
  match n, k.w with
  | .accept, false => c.landStatus k 0 (k.status 0 0)
  | .accept, true => c
  | .refuse, _ => c.landStatus k 0 (k.status 1 0)
  | .ended v, true => c.landStatus k v (k.status 0 0)
  | .ended _, false => c
  | .failed rc, true => c.landStatus k 0 (k.status 2 rc)
  | .failed _, false => c
  | .lost, _ => c.landStatus k 0 (k.status 3 0)

/-- A change of the caller, where it still runs. -/
def State.onCaller (s : State) (k : Call) (f : Ctx → Ctx) : State :=
  match k.dst.handler with
  | some (_, core, run) => s.onRun core run f
  | none => s.wakeTask k.caller.task f

/-- A note ends its call, all but ACCEPT. -/
def HingeNote.ends : HingeNote → Bool
  | .accept => false
  | _ => true

/-- A note at the caller: ACCEPT completes a posted call (R305), and one that failed on another package is reported here (R309). -/
def State.landNote (s : State) (k : Call) (n : HingeNote) : State :=
  let s := if n.ends then { s with remoteCalls := s.remoteCalls.filter (·.id != k.id) }
    else if k.w then s
    else { s with remoteCalls := s.remoteCalls.map fun c => if c.id = k.id then { c with accepted := true } else c }
  let s := match n, k.w with
    | .failed rc, false => s.report k.caller 0x23 k.colour (BitVec.ofNat 64 (rc % 256 * 2 ^ 56 + k.target % 2 ^ 48))
    | _, _ => s
  s.onCaller k fun c => c.landNote k n

/-- HINGE_STATUS_ARRIVAL (R305); a note for a call declared lost is discarded (R310), and one that would have ended it does
not count as received, for the call's own sent count was withdrawn (DEDUCED, log entry 34). -/
def execHingeStatusArrival (n : Nat) (s : State) : Out :=
  match s.due n with
  | none => .next s
  | some m =>
    match m.body with
    | .hnote k note =>
      if !s.lostCalls.contains k.id then .next ((s.take n m).landNote k note)
      else if note.ends then .next { s with net := removeAt s.net n }
      else .next (s.take n m)
    | _ => .next s

/-- A link is down: retraining or failed (R310). -/
def State.linkDown (s : State) (l : Nat) : Bool :=
  let k := look {} s.links l
  !k.up || k.retraining || k.failed

/-- What a call to another package leaves is discarded from now on, and the caller's sent count is withdrawn (R310). -/
def State.withdraw (s : State) (k : Call) : State :=
  let here := fun (m : Msg) => match m.body with
    | .hcall j => j.id == k.id
    | _ => false
  let s := { s with
    lostCalls := k.id :: s.lostCalls
    outbox := s.outbox.filter fun m => !here m }
  match s.counterOf k.caller with
  | some n => s.setCore n { s.core n with sent := (s.core n).sent - 1 }
  | none => s

/-- A call to another package is lost (R310): its status, the report, and the caller's sent count. -/
def State.loseCall (s : State) (k : Call) : State :=
  ((s.withdraw k).report k.caller 0x24 k.colour (BitVec.ofNat 64 (k.target % 2 ^ 48))).landNote k .lost

/-- The end of a posted call that ACCEPT has completed is lost with a link: the call is not lost (R310), but its task has had it
outstanding (R18, R292) (DEDUCED, log entry 34). -/
def State.loseEnd (s : State) (link : Nat) (k : Call) : State :=
  let s := s.withdraw k
  ({ s with remoteCalls := s.remoteCalls.filter (·.id != k.id) } : State).report k.caller 0x2B 8 (BitVec.ofNat 64 link)

/-- HINGE_REPLY_TIMEOUT (R310): the timer runs while a link on the call's path is down, until the call has completed. -/
def execHingeReplyTimeout (id : Nat) (s : State) : Out :=
  match s.remoteCalls.find? fun k => k.id == id && !k.accepted with
  | none => .next s
  | some k => if (Config.linksTo k.pkg).any s.linkDown then .next (s.loseCall k) else .next s

end Sys2Proof.Machine
end

