-- ==== Sys2Proof/Machine/Channels.lean ====
section
/-! DEFINITION. Channels (R311-R314) and reduction servers (R315, R316). -/

namespace Sys2Proof.Machine

/-! Binding (R312). -/

/-- Byte `n` of chb. -/
def chbByte (c : Ctx) (n v : Nat) : Ctx := { c with chb := Word.putField c.chb (8 * n + 7) (8 * n) v }

/-- Channel `n` of the issuing context is free again. -/
def State.unbind (s : State) (n : Nat) : State :=
  let c := s.ctx
  if !c.bound (28 + n) then s
  else
    let p := c.portOf (28 + n)
    let k := s.me
    (s.setMe (k.setPort p { k.port p with bound := none, next := 0 })).setCtx (chbByte c n 0)

/-- The fields of a mode word are legal (R312). -/
def modeOk (w : Word) : Bool :=
  let mode := Word.field w 1 0
  let nsend := Word.field w 15 8
  Word.field w 63 16 == 0 && Word.field w 7 2 == 0 && mode != 3 && (if mode = 2 then decide (1 ≤ nsend) else nsend == 0)

/-- A port belongs to the reduction server of its tile (R311, R315). -/
def CoreSt.serverPort (c : CoreSt) (p : Nat) : Bool := p == 3 && c.rtree.getLsbD 63

/-- CHBIND (R312). -/
def execChbind (h : Head) (n : BitVec 2) (a b : Reg) (s : State) : Out :=
  .next (s.run clsTaskOnly (.chbind h n a b) h true [ux a, ux b] fun s =>
    let t := s.ctx.rx a
    let w := s.ctx.rx b
    let p := Word.field t 1 0
    let ranked := Word.field w 1 0 == 2
    let own := [28, 29, 30, 31].any fun v => s.ctx.bound v && s.ctx.portOf v == p
    if !modeOk w then .trap 0x0B w s
    else if Word.field t 63 2 ≠ 0 then .trap 0x0B t s
    else if Word.field w 1 0 = 0 then .done (s.unbind n.toNat)
    else if s.me.serverPort p || ((s.me.port p).bound.isSome && !own) then .trap 0x0B t s
    else
      let s := s.unbind n.toNat
      let k := s.me
      let s := s.setMe (k.setPort p { k.port p with bound := some (s.curCtx, n.toNat, ranked, Word.field w 15 8), next := 0 })
      .done (s.setCtx (chbByte s.ctx n.toNat (0x80 + ranked.toNat * 0x40 + p))))

/-! SEND (R313). -/

/-- Packages of the gang that a context's command runs on. -/
def State.gangSize (s : State) (slot : Nat) : Nat :=
  match (s.slot slot).cmd.bind (·.gang) with
  | some g => g.n
  | none => 1

/-- The fields of a route word are legal (R313). -/
def routeOk (r : Word) (n : Nat) : Bool :=
  Word.field r 63 46 == 0 && Word.field r 20 16 == 0 &&
  (if r.getLsbD 45 then decide (Word.field r 44 32 < n) else Word.field r 44 32 == 0) &&
  (Word.field r 13 12 == 0 || Word.field r 15 14 == 3)

/-- The package and tile of a route word, seen from a tile. -/
def State.routeTo (s : State) (r : Word) (slot from_ : Nat) : Nat × Nat :=
  (if r.getLsbD 45 then Word.field r 44 32 else s.pkg,
   wordTile (Word.field r 31 16) + (if s.inMirror slot from_ then 16 else 0))

/-- SEND (R313). -/
def execSend (h : Head) (a b : Reg) (s : State) : Out :=
  .next (s.run clsTaskOnly (.send h a b) h (s.ctx.channelsLegal [] [b]) [ux a, uv b] fun s =>
    s.reading [b] fun v =>
      let r := s.ctx.rx a
      let slot := s.ctx.slot
      let far := s.routeTo r slot s.cur
      let port := Word.field r 15 14
      if !routeOk r (s.gangSize slot) then .trap 0x0B r s
      else if !(s.membersOf slot s.ctx.group s.cur).contains far.2 then .trap 0x0F r s
      else if s.packetOut s.issuer far.1 far.2 port then .stay (.room 3 ((far.1 * 8192 + far.2) * 4 + port)) s
      else
        let p : Packet :=
          { iss := s.issuer, rank := Word.field r 11 0, rfmt := Word.field r 13 12, colour := s.ctx.colour, data := v b, route := r,
            server := false, tile := far.2, port := port, wait := 256 }
        .done (s.send { iss := s.issuer, more := [], pkg := far.1, home := far.2, colour := s.ctx.colour, group := s.ctx.group, cmd := 0,
                        body := .packet p, lane := s.lane }))

/-! Placement (R314). -/

/-- What a port does with a packet. -/
inductive Placed where
  | into (p : Port)
  | full
  /-- a rank that the port does not know -/
  | bad
  deriving DecidableEq, Repr

/-- Placing a packet: one place is kept for the next expected rank. -/
def Port.place (q : Port) (p : Packet) : Placed :=
  match q.bound with
  | some (_, _, true, n) =>
    if n ≤ p.rank then .bad
    else if q.pkts.length < (if p.rank = q.next then 32 else 31) then .into { q with pkts := q.pkts ++ [p] }
    else .full
  | _ => if q.pkts.length < 32 then .into { q with pkts := q.pkts ++ [p] } else .full

/-- A placement or refusal notice to the sending tile. -/
def State.packetNote (s : State) (m : Msg) (p : Packet) (placed : Bool) : State :=
  s.send (m.toward m.iss.task.pkg m.iss.task.core (.packetNote p placed))

/-- The choice of a port's placement (R355). -/
def Packet.choice (p : Packet) : Nat := tileWord p.iss.task.core * 4 + p.iss.task.ctx % 4

/-- A reduction server takes the packets of its round from port 3, each as its rank comes, up to `n` (R316). -/
def Port.takeUp (children : Nat) : Nat → Port → Port
  | 0, q => q
  | n + 1, q =>
    match q.head with
    | some p => if q.taken.length ≤ children then Port.takeUp children n { q.pop with taken := q.taken ++ [p] } else q
    | none => q

/-- The server of a tile, while it runs, takes what its round needs. -/
def State.serverTakes (s : State) (n : Nat) : State :=
  let c := s.core n
  if c.rtree.getLsbD 63 && !s.held n then s.setCore n (c.setPort 3 ((c.port 3).takeUp (Word.field c.rtree 20 16) 32)) else s

/-- A packet decided at its port; it has its place in its lane's order, and counts as received, once it is not refused
(R288, R313). -/
def State.decidePacket (s : State) (m : Msg) (p : Packet) : State :=
  let c := s.core p.tile
  match (c.port p.port).place p with
  | .into q =>
    let s := (s.numberIn m).receivedAll m
    let c := s.core p.tile
    let t := ((s.setCore p.tile (c.setPort p.port q)).serverTakes p.tile).chose m.iss.task.slot p.tile 7 p.choice
    (s.leftIdle p.tile (t.stir p.tile)).packetNote m p true
  | .full => s.packetNote m { p with seq := m.seq } false
  | .bad => (((s.numberIn m).receivedAll m).report p.iss 0x23 p.colour p.route).packetNote m p true

/-- CHANNEL_PACKET_ARRIVAL (R314). -/
def execChannelPacketArrival (n : Nat) (s : State) : Out :=
  match s.due n with
  | none => .next s
  | some m =>
    match m.body with
    | .packet p =>
      if s.mayChoose m.iss.task.slot p.tile 7 p.choice then .next ((s.take n m).decidePacket m p) else .next s
    | _ => .next s

/-- CHANNEL_PACKET_REPLY (R313): a refused packet waits to be sent again, each time twice as long. -/
def execChannelPacketReply (n : Nat) (s : State) : Out :=
  match s.due n with
  | none => .next s
  | some m =>
    match m.body with
    | .packetNote p placed =>
      let s := s.take n m
      let s := { s with outbox := s.outbox.filter fun o => match o.body with
        | .packet q => { q with seq := [] } != { p with seq := [] }
        | _ => true }
      let c := s.core p.iss.task.core
      .next (if placed then s
        else s.setCore p.iss.task.core { c with resend := c.resend ++ [({ p with wait := min 4096 (2 * p.wait) }, p.wait)] })
    | _ => .next s

/-- The message of a packet: a task's stands in the lane of its context, under the number that it has; a server sends one at
a time. -/
def State.packetMsg (s : State) (p : Packet) : Msg :=
  { iss := p.iss, more := [], pkg := s.packetPkg p, home := p.tile, colour := p.colour, group := 0, cmd := 0, body := .packet p
    lane := if p.server then 0 else laneNumber p.iss.task.pkg p.iss.task.core p.iss.task.ctx 0, seq := p.seq }

/-- CHANNEL_RESEND (R313): core `n` sends its oldest refused packet again. -/
def execChannelResend (n : Nat) (s : State) : Out :=
  let c := s.core n
  match c.resend with
  | [] => .next s
  | (p, _) :: r => .next ((s.setCore n { c with resend := r }).sendAgain (s.packetMsg p))

/-! Reduction servers (R315, R316). -/

/-- Fields of rtree (R315). -/
def treeRoot (w : Word) : Bool := w.getLsbD 62
def treeChildren (w : Word) : Nat := Word.field w 20 16
def treeIndex (w : Word) : Nat := Word.field w 15 12

/-- Two lanes added in a reduction format, rounded to nearest even. -/
def reduceLane (fmt a b : Nat) : Nat :=
  let float := fun (f : FFmt) => (f.result rneMode false ((f.decode a).add false (f.decode b))).1
  match fmt with
  | 0 => float fmtF32
  | 1 => float fmtBf16
  | 2 => (a + b) % 2 ^ 32
  | _ => (satInt 32 true (toSigned 32 a + toSigned 32 b)).1

/-- Two packets' data added lane by lane (R316). -/
def reduceVec (fmt : Nat) (a b : Vec) : Vec :=
  let w := if fmt = 1 then 16 else 32
  packLanes w ((List.range (512 / w)).map fun i => reduceLane fmt (laneOf a w i) (laneOf b w i))

/-- The sum of a round, and the packets whose format differs from the first one's. -/
def reduceRound : List Packet → Vec × List Packet
  | [] => (0, [])
  | p :: ps => ps.foldl (fun r k =>
      if k.rfmt = p.rfmt then (reduceVec p.rfmt r.1 k.data, r.2) else (reduceVec p.rfmt r.1 0, r.2 ++ [k])) (p.data, [])

/-- A forward of this server is still on its way. -/
def State.serverOut (s : State) (core : Nat) : Bool :=
  let mine := fun (p : Packet) => p.server && p.iss.task.core == core
  (s.net.any fun m => match m.body with
    | .packet p | .packetNote p _ => mine p
    | _ => false) ||
  (s.outbox.any fun m => match m.body with
    | .packet p => mine p
    | _ => false) || ((s.core core).resend.any fun p => mine p.1)

/-- The server's packet with the sum of a round: to its parent, or for its own port 2. -/
def State.serverPacket (s : State) (core fmt : Nat) (v : Vec) : Packet :=
  let t := (s.core core).rtree
  let rank := if treeRoot t then 0 else treeIndex t + 1
  let tile := if treeRoot t then tileWord core else Word.field t 47 32
  let port := if treeRoot t then 2 else 3
  let rfmt := if treeRoot t then 0 else fmt
  { iss := s.tileIssuer core, rank := rank, rfmt := rfmt, colour := 0, data := v
    route := BitVec.ofNat 64 (Word.field t 61 48 * 2 ^ 32 + tile * 2 ^ 16 + port * 2 ^ 14 + rfmt * 2 ^ 12 + rank)
    server := true, tile := wordTile tile, port := port, wait := 256 }

/-- The packets of another format reported to their senders. -/
def State.reportFormats (s : State) (ps : List Packet) : State := ps.foldl (fun s p => s.report p.iss 0x23 p.colour p.route) s

/-- A reduced round goes on: forwarded, or placed in the root's port 2 when it has room (R314, R316, R355). -/
def State.endRound (s : State) (core : Nat) (ps : List Packet) : State :=
  let r := reduceRound ps
  let fmt := ((ps.head?).map (·.rfmt)).getD 0
  let p := s.serverPacket core fmt r.1
  let slot := p.iss.task.slot
  let c := s.core core
  let c := c.setPort 3 { c.port 3 with taken := [] }
  if treeRoot c.rtree then
    match (c.port 2).place p, s.mayChoose slot core 7 p.choice with
    | .into q2, true =>
      let t := ((s.setCore core (c.setPort 2 q2)).serverTakes core).chose slot core 7 p.choice
      (s.leftIdle core (t.stir core)).reportFormats r.2
    | _, _ => s
  else (((s.setCore core c).serverTakes core).send (s.packetMsg p)).reportFormats r.2

/-- REDUCTION_ROUND (R316): a full round at the server of a tile. -/
def execReductionRound (core : Nat) (s : State) : Out :=
  if !(s.core core).rtree.getLsbD 63 || s.held core || s.serverOut core then .next s
  else
    let s := s.serverTakes core
    if (s.core core).roundReady then .next (s.endRound core ((s.core core).port 3).taken) else .next s

end Sys2Proof.Machine
end

