-- ==== Sys2Proof/Machine/Control.lean ====
section
/-! DEFINITION. Branches and jumps (R137-R139), hardware loops (R140-R142), MISC (R143-R145), REP (R129) and
FMT (R97, R99).  DONE stands with the tasks. -/

namespace Sys2Proof.Machine

/-! Branches and jumps. -/

/-- BEQ (R137). -/
def execBeq (h : Head) (a b : Reg) (o : BitVec 12) (s : State) : Out :=
  s.branch (.beq h a b o) h [ux a, ux b] o fun c => c.rx a == c.rx b
/-- BNE (R137). -/
def execBne (h : Head) (a b : Reg) (o : BitVec 12) (s : State) : Out :=
  s.branch (.bne h a b o) h [ux a, ux b] o fun c => c.rx a != c.rx b
/-- BLT (R137). -/
def execBlt (h : Head) (a b : Reg) (o : BitVec 12) (s : State) : Out :=
  s.branch (.blt h a b o) h [ux a, ux b] o fun c => (c.rx a).slt (c.rx b)
/-- BGE (R137). -/
def execBge (h : Head) (a b : Reg) (o : BitVec 12) (s : State) : Out :=
  s.branch (.bge h a b o) h [ux a, ux b] o fun c => !(c.rx a).slt (c.rx b)
/-- BLTU (R137). -/
def execBltu (h : Head) (a b : Reg) (o : BitVec 12) (s : State) : Out :=
  s.branch (.bltu h a b o) h [ux a, ux b] o fun c => (c.rx a).ult (c.rx b)
/-- BGEU (R137). -/
def execBgeu (h : Head) (a b : Reg) (o : BitVec 12) (s : State) : Out :=
  s.branch (.bgeu h a b o) h [ux a, ux b] o fun c => !(c.rx a).ult (c.rx b)
/-- BRP: taken when the predicate equals the sense bit (R138). -/
def execBrp (h : Head) (p : BitVec 3) (t : BitVec 1) (o : BitVec 12) (s : State) : Out :=
  s.branch (.brp h p t o) h [] o fun c => c.rp p == t.getLsbD 0

/-- J (R139). -/
def execJ (h : Head) (o : BitVec 22) (s : State) : Out :=
  .next (s.run clsPlain (.j h o) h true [] fun s => s.goto (s.ctx.rel o) id)
/-- JAL links in x1. -/
def execJal (h : Head) (o : BitVec 22) (s : State) : Out :=
  .next (s.run clsPlain (.jal h o) h true [ux 1] fun s =>
    s.goto (s.ctx.rel o) fun c => c.wx 1 (c.pc + 4))
/-- JALR: the target comes from the old x[rs1]; outside the window 0x03, misaligned 0x04 (R89).  Of a target that is both no rule
says which cause wins: the model raises 0x03 (DESIGN CHOICE, log entry 91). -/
def execJalr (h : Head) (d a : Reg) (i : BitVec 12) (s : State) : Out :=
  .next (s.run clsPlain (.jalr h d a i) h true [ux a, ux d] fun s =>
    let t := s.ctx.ea a i
    if !inWindow t then .trap 0x03 t s
    else if t.toNat % 4 ≠ 0 then .trap 0x04 t s
    else s.goto t fun c => c.wx d (c.pc + 4))

/-! Hardware loops. -/

/-- A loop of `len` words may open on counter `n`: the counter is inactive and the body lies within that of
the other loop, when it is live (R140, R142). -/
def Ctx.loopLegal (c : Ctx) (n len : Nat) : Bool :=
  !lcAct (c.lc n) && !(c.live (1 - n) && decide (lcLast (c.lc (1 - n)) < c.pc.toNat + 4 * len))

/-- A loop opens with a count, or its body is skipped (R140, R142). -/
def State.openLoop (s : State) (n len : Nat) (count : Word) : Eff :=
  let c := s.ctx
  if 2 ^ 32 ≤ count.toNat then .trap 0x0B count s
  else if count = 0 then .skip (c.pc + BitVec.ofNat 64 (4 * (len + 1))) s
  else .done (s.setCtx { c.setLc n (lcMake true len (c.pc.toNat + 4) count.toNat) with laterLc1 := n == 1 })

/-- LOOP (R140). -/
def execLoop (h : Head) (l : BitVec 1) (a : Reg) (n : BitVec 12) (s : State) : Out :=
  .next (s.run clsPlain (.loop h l a n) h (s.ctx.loopLegal l.toNat n.toNat) [ux a] fun s =>
    s.openLoop l.toNat n.toNat (s.ctx.rx a))
/-- LOOPI (R140). -/
def execLoopi (h : Head) (l : BitVec 1) (k : BitVec 9) (n : BitVec 12) (s : State) : Out :=
  .next (s.run clsPlain (.loopi h l k n) h (s.ctx.loopLegal l.toNat n.toNat) [] fun s =>
    s.openLoop l.toNat n.toNat (k.setWidth 64))

/-! MISC. -/

/-- NOP (R143). -/
def execNop (h : Head) (s : State) : Out :=
  .next (s.run clsPlain (.nop h) h true [] fun s => .done s)

/-- BRK halts the core when the debug module says so, and else traps (R143, R349). -/
def execBrk (h : Head) (c : BitVec 5) (s : State) : Out :=
  .next (s.run clsMisc (.brk h c) h true [] fun s =>
    let k := s.me
    if k.haltOnBrk then .left (s.setMe { k with halted := true, atBrk := s.curCtx :: k.atBrk.filter (· != s.curCtx) })
    else .trap 0x0D (c.setWidth 64) s)

/-- TRAP (R143). -/
def execTrap (h : Head) (c : BitVec 5) (s : State) : Out :=
  .next (s.run clsMisc (.trap h c) h true [] fun s => .trap 0x0C (c.setWidth 64) s)

/-- IRET is legal only in a trap handler (R144); a marker on it parks behind the return. -/
def execIret (h : Head) (s : State) : Out :=
  .next (s.run clsMisc (.iret h) h s.ctx.inh [] fun s =>
    let a := s.instrPc
    let s := s.setCtx s.ctx.iret
    .left (if h.sw then s.marker a else s))

/-- YIELD gives way in a task context, and ends a flagged task (R145, R84). -/
def execYield (h : Head) (s : State) : Out :=
  .next (s.run clsMisc (.yield h) h true [] fun s =>
    if s.curCtx = 4 then .done s
    else if s.ctx.flagged then .left (s.park .cancelling)
    else .done (s.setMe { s.me with switch := true, yielded := true }))

/-- SETC (R143). -/
def execSetc (h : Head) (c : BitVec 5) (s : State) : Out :=
  .next (s.run clsPlain (.setc h c) h true [] fun s =>
    .done (s.setCtx { s.ctx with tstat := Word.putField s.ctx.tstat 3 1 c.toNat }))

/-! REP and FMT. -/

/-- REP and FMT lie outside the hinge subset (R307). -/
def clsCapture : Cls := { rep := false, fmt := false, row := true, hinge := false }

/-- REP starts its replay at position (0, 0); the PC stays at it (R130). -/
def execRep (h : Head) (n : BitVec 4) (i : BitVec 6) (d a b : BitVec 2) (s : State) : Out :=
  .next (s.run clsCapture (.rep h n i d a b) h true [] fun s =>
    let c := s.ctx
    .left (s.setCtx { c with rep := true, tstat := Word.putField c.tstat 15 4 1 }))

/-- An FMT that is the last word of a live loop's body is illegal (R99). -/
def Ctx.lastOfBody (c : Ctx) (a : Nat) : Bool :=
  (c.live 0 && lcLast c.lc0 == a) || (c.live 1 && lcLast c.lc1 == a)

/-- FMT holds its body for the next word (R97). -/
def execFmt (a b : BitVec 4) (d r : BitVec 3) (t : BitVec 1) (c : BitVec 2) (x : BitVec 1) (s : State) : Out :=
  .next (s.run clsCapture (.fmt a b d r t c x) Head.plain (!s.ctx.lastOfBody s.ctx.pc.toNat) [] fun s =>
    let k := s.ctx
    .left (s.setCtx { k with pc := k.pc + 4, pfx := some (bodyFmt a b d r t c x) }))

end Sys2Proof.Machine
end

