-- ==== Sys2Proof/Machine/Gaussian.lean ====
section
/-! DEFINITION. Gaussian belief propagation (R319-R334): G-blocks, elimination, the mean, and the mailbox
instructions. -/

namespace Sys2Proof.Machine

/-! G-blocks (R320). -/

/-- The 96 lanes of the block at v[r]. -/
def Ctx.gblock (c : Ctx) (r : Reg) : List Nat :=
  (List.range 96).map fun l => laneOf (c.rv (regPlus r (l / 16))) 32 (l % 16)

/-- The block at v[r] written. -/
def Ctx.wgblock (c : Ctx) (r : Reg) (ls : List Nat) : Ctx :=
  (List.range 6).foldl (fun (c : Ctx) i => c.wv (regPlus r i) (packLanes 32 ((ls.drop (16 * i)).take 16))) c

/-- The lane of Λ(i, j) for i ≤ j. -/
def lamLane (i j : Nat) : Nat := 12 + 12 * i - i * (i - 1) / 2 + (j - i)

/-- The lane of Λ(i, j), where the lower triangle stands for the upper. -/
def lam (i j : Nat) : Nat := if i ≤ j then lamLane i j else lamLane j i

/-- Lane `l` of a block. -/
def laneIn (b : List Nat) (l : Nat) : Nat := b.getD l 0

/-- Lane `l` of a block as a value. -/
def valIn (b : List Nat) (l : Nat) : FVal := fmtF32.decode (laneIn b l)

/-- A block with lanes replaced, and the flags of their values. -/
def putLanes (b : List Nat) (ws : List (Nat × Nat × FlagSet)) : List Nat × FlagSet :=
  (ws.foldl (fun b w => b.set w.1 w.2.1) b, ws.foldl (fun f w => f ||| w.2.2) 0)

/-- A rounding of block arithmetic: RNE to f32 (R321). -/
def gRound (x : FVal × FlagSet) : Nat × FlagSet := fmtF32.result rneMode false x

/-! The frame of a GBP instruction (R321). -/

/-- Only f32 throughout without saturation or scale is accepted. -/
def okGbp (p : Pfx) : Bool := p.a == 0 && p.b == 0 && p.d == 0 && !p.sat && p.scale == 0

/-- Block arithmetic stands after an FMT and in a row handler. -/
def clsGbp : Cls := { rep := false, fmt := true, row := true, hinge := false }
/-- GSND and GRCV are for task contexts. -/
def clsGbpTask : Cls := { clsGbp with row := false }

/-- No block holds a bound channel register. -/
def Ctx.blocksLegal (c : Ctx) (rs : List Reg) : Bool :=
  rs.all fun r => (List.range 6).all fun i => !c.bound (r.toNat + i)

/-- The frame of an instruction on blocks. -/
def State.gbp (s : State) (k : Cls) (i : Instr) (h : Head) (legal : Bool) (blocks : List Reg) (uses : List Nat)
    (f : State → Eff) : Out :=
  .next (s.run k i h (legal && s.ctx.blocksLegal blocks) uses fun s =>
    s.prefixed plainBody okGbp false fun _ _ => f s)

/-- A block result with its flags (R323). -/
def State.putBlock (s : State) (d : Reg) (r : List Nat × FlagSet) : Eff := s.withFlags r.2 fun c => c.wgblock d r.1

/-- The dimensions of a 12-bit mask, ascending. -/
def maskDims (m : Word) : List Nat := (List.range 12).filter fun i => m.getLsbD i

/-- The mask operand of an instruction: format fault with a bit above 11 (R321). -/
def State.withDims (s : State) (k : BitVec 3) (f : List Nat → Eff) : Eff :=
  let m := s.ctx.rk k
  if 2 ^ 12 ≤ m.toNat then .trap 0x0B m s else f (maskDims m)

/-! Block arithmetic (R323). -/

/-- GZERO (R323). -/
def execGzero (h : Head) (d : Reg) (s : State) : Out :=
  s.gbp clsGbp (.gzero h d) h true [d] (ug d) fun s => .done (s.setCtx (s.ctx.wgblock d (List.replicate 96 0)))

/-- Every lane by a function of destination and source, rounded. -/
def blockWise (f : FVal → FVal → FVal × FlagSet) (b a : List Nat) : List Nat × FlagSet :=
  putLanes b ((List.range 96).map fun l => (l, gRound (f (valIn b l) (valIn a l))))

/-- GADD (R323). -/
def execGadd (h : Head) (d a : Reg) (s : State) : Out :=
  s.gbp clsGbp (.gadd h d a) h true [a, d] (ug a ++ ug d) fun s =>
    s.putBlock d (blockWise (fun x y => x.add false y) (s.ctx.gblock d) (s.ctx.gblock a))

/-- GSUB (R323). -/
def execGsub (h : Head) (d a : Reg) (s : State) : Out :=
  s.gbp clsGbp (.gsub h d a) h true [a, d] (ug a ++ ug d) fun s =>
    s.putBlock d (blockWise (fun x y => x.add false y.neg) (s.ctx.gblock d) (s.ctx.gblock a))

/-- The pairs i ≤ j of a list of dimensions. -/
def upperPairs (ds : List Nat) : List (Nat × Nat) :=
  ds.flatMap fun i => (ds.filter fun j => decide (i ≤ j)).map fun j => (i, j)

/-- GACC's sum: a message over the dimensions of a mask. -/
def accumulate (b a : List Nat) (f : List Nat) : List Nat × FlagSet :=
  let at_ := fun (l m : Nat) => (l, gRound ((valIn b l).add false (valIn a m)))
  let g := fun i => f.getD i 0
  putLanes b ((List.range f.length).map (fun i => at_ (g i) i) ++
    (upperPairs (List.range f.length)).map fun p => at_ (lamLane (g p.1) (g p.2)) (lamLane p.1 p.2))

/-- GACC (R323). -/
def execGacc (h : Head) (d a : Reg) (k : BitVec 3) (s : State) : Out :=
  s.gbp clsGbp (.gacc h d a k) h true [a, d] (ug a ++ ug d) fun s =>
    s.withDims k fun f =>
      if f = [] ∨ 6 < f.length then .trap 0x0B (s.ctx.rk k) s
      else s.putBlock d (accumulate (s.ctx.gblock d) (s.ctx.gblock a) f)

/-! Elimination (R324). -/

/-- gtol as a tolerance: neither NaN, infinite, nor below zero. -/
def tolerance (w : Word) : Option FVal :=
  match fmtF32.decode (w.toNat % 2 ^ 32) with
  | .fin neg m e => if neg ∧ m ≠ 0 then none else some (.fin neg m e)
  | _ => none

/-- The larger of two finite magnitudes. -/
def largerOf (a b : FVal) : FVal := if a.lt false b then b else a

/-- The magnitude of a value. -/
def FVal.mag : FVal → FVal
  | .fin _ m e => .fin false m e
  | .inf _ => .inf false
  | x => x

/-- A value that is NaN or infinite. -/
def FVal.special : FVal → Bool
  | .fin .. => false
  | _ => true

/-- The threshold of the singular test, with its flags. -/
def singularBound (g : FVal) (b : List Nat) : FVal × FlagSet :=
  let ds := (List.range 12).map fun i => (valIn b (lamLane i i)).mag
  if ds.any FVal.special then (.inf false, 0)
  else
    let r := gRound (g.mul (ds.foldl largerOf (.fin false 0 0)))
    (fmtF32.decode r.1, r.2)

/-- A pivot is singular: NaN, infinite, or not above the threshold by value. -/
def singular (q thr : FVal) : Bool := q.special || !thr.lt false q

/-- One pivot eliminated from the dimensions `ks`; every update reads values from before it. -/
def eliminate (b : List Nat) (p : Nat) (ks : List Nat) : List Nat × FlagSet :=
  let q := valIn b (lamLane p p)
  let ls := ks.map fun i => (i, gRound ((valIn b (lam i p)).div q))
  let l := fun i => (fmtF32.decode ((ls.find? fun x => x.1 == i).map (·.2.1) |>.getD 0)).neg
  let r := putLanes b ((upperPairs ks).map (fun x =>
      (lamLane x.1 x.2, gRound (FVal.fma false (l x.1) (valIn b (lam p x.2)) (valIn b (lamLane x.1 x.2))))) ++
    ks.map fun i => (i, gRound (FVal.fma false (l i) (valIn b p) (valIn b i))))
  (r.1, ls.foldl (fun f x => f ||| x.2.2) r.2)

/-- The outcome of a chain of pivots. -/
inductive Pivots where
  /-- the block, the flags, and the block before each pivot, the last pivot first -/
  | ok (b : List Nat) (f : FlagSet) (before : List (Nat × List Nat))
  /-- a singular pivot and its bits -/
  | bad (p q : Nat)

/-- Pivots `ps` in turn; `keep p` lists the dimensions that remain behind pivot p. -/
def pivotAll (thr : FVal) (keep : Nat → List Nat) : List Nat → List Nat → FlagSet → List (Nat × List Nat) → Pivots
  | [], b, f, before => .ok b f before
  | p :: ps, b, f, before =>
    if singular (valIn b (lamLane p p)) thr then .bad p (laneIn b (lamLane p p))
    else
      let r := eliminate b p (keep p)
      pivotAll thr keep ps r.1 (f ||| r.2) ((p, b) :: before)

/-- The block of the dimensions `ks` packed (R324). -/
def packMarginal (b ks : List Nat) : List Nat :=
  let g := fun i => ks.getD i 0
  (putLanes (List.replicate 96 0) ((List.range ks.length).map (fun i => (i, laneIn b (g i), 0)) ++
    (upperPairs (List.range ks.length)).map fun p => (lamLane p.1 p.2, laneIn b (lam (g p.1) (g p.2)), 0))).1

/-- tval of a singular block. -/
def singularTval (p q : Nat) : Word := BitVec.ofNat 64 (p * 2 ^ 32 + q)

/-- GSCH and GMEAN: the tolerance, the threshold and the pivots, then the result. -/
def State.solving (s : State) (d a : Reg) (k : BitVec 3) (keep : List Nat → Nat → List Nat)
    (result : List Nat → List Nat → List (Nat × List Nat) → List Nat × FlagSet) : Eff :=
  s.withDims k fun e =>
    let b := s.ctx.gblock a
    match tolerance s.ctx.gtol with
    | none => .trap 0x0B s.ctx.gtol s
    | some g =>
      let t := singularBound g b
      match pivotAll t.1 (keep e) e b t.2 [] with
      | .bad p q => .trap 0x0A (singularTval p q) s
      | .ok b f before =>
        let r := result e b before
        s.putBlock d (r.1, f ||| r.2)

/-- GSCH (R324). -/
def execGsch (h : Head) (d a : Reg) (k : BitVec 3) (s : State) : Out :=
  s.gbp clsGbp (.gsch h d a k) h true [a, d] (ug a ++ ug d) fun s =>
    s.solving d a k (fun e p => (List.range 12).filter fun i => decide (p < i) || !e.contains i)
      fun e b _ => (packMarginal b ((List.range 12).filter fun i => !e.contains i), 0)

/-- One step of back substitution: μ(p) from the block before pivot p (R325). -/
def backStep (r : List (Nat × Nat) × FlagSet) (x : Nat × List Nat) : List (Nat × Nat) × FlagSet :=
  let v := r.1.foldl (fun (a : Nat × FlagSet) m =>
    let t := gRound (FVal.fma false (valIn x.2 (lamLane x.1 m.1)).neg (fmtF32.decode m.2) (fmtF32.decode a.1))
    (t.1, a.2 ||| t.2)) (laneIn x.2 x.1, 0)
  let m := gRound ((fmtF32.decode v.1).div (valIn x.2 (lamLane x.1 x.1)))
  ((x.1, m.1) :: r.1, r.2 ||| v.2 ||| m.2)

/-- GMEAN (R325). -/
def execGmean (h : Head) (d a : Reg) (k : BitVec 3) (s : State) : Out :=
  s.gbp clsGbp (.gmean h d a k) h true [a, d] (ug a ++ ug d) fun s =>
    s.solving d a k (fun e p => e.filter fun i => decide (p < i))
      fun _ _ before =>
        let r := before.foldl backStep ([], 0)
        ((r.1.map (·.2)) ++ List.replicate (96 - r.1.length) 0, r.2)

/-! Mailboxes (R326-R331). -/

/-- The checks of a mailbox's header, then the request to its home and the park for its reply. -/
def State.onMailbox (s : State) (h : Word) (k : AKind) (w : Want) : Eff :=
  if h.toNat % 128 ≠ 0 then .trap 0x04 h s
  else if isLocal h.toNat then .trap 0x0B h s
  else s.withSpot (s.check h.toNat (fun _ => 128) k) fun p =>
    if p.e.ctype ≠ 8 ∨ p.e.width ≠ 1 then .trap 0x0B h s
    else (s.request p w 0).parkAt 1 .answer

/-- A reply that is a fault is delivered at the instruction (R195). -/
def State.onReply (s : State) (f : Answer → Eff) : Eff :=
  match s.ctx.reply with
  | some (.fault cause va _) => .trap cause (BitVec.ofNat 64 va) s
  | some a => f a
  | none => .done s

/-- The offset of Λ(i, j) in a slot (R327). -/
def slotOffset (i j : Nat) : Nat := 32 + 4 * (6 * i - i * (i - 1) / 2 + (j - i))

/-- The slot image of a block's first `d` dimensions (R327). -/
def slotImage (b : List Nat) (v d : Nat) : List Byte :=
  let eta := (List.range 6).flatMap fun i => natBytes 4 (if i < d then laneIn b i else 0)
  let lams := (upperPairs (List.range 6)).flatMap fun p => natBytes 4 (if p.2 < d then laneIn b (lamLane p.1 p.2) else 0)
  natBytes 8 (v % 2 ^ 32 * 2 ^ 32 + d) ++ eta ++ lams ++ List.replicate 12 0

/-- GSND's fill handed to the copy engine (R329). -/
def State.enqueueSlot (s : State) (va : Nat) (image : List Byte) : Eff :=
  if !s.me.copyRoom then .stay (.room 0 0) s
  else
    let c := s.ctx
    let cmd : CopyCmd :=
      { id := s.fresh, iss := s.issuer, ctx := s.curCtx, group := c.group, colour := c.colour, fseed := c.fseed, frm := 0, desc := [],
        image := some (va, image), n := 0, destsDone := 0, tile := none, fillBuf := none, ended := none }
    let s := { s with fresh := s.fresh + 16384 }
    .done (s.setMe { s.me with copyQ := s.me.copyQ ++ [cmd] })

/-- GSND (R329). -/
def execGsnd (h : Head) (d a : Reg) (s : State) : Out :=
  s.gbp clsGbpTask (.gsnd h d a) h true [d] (ux a :: ug d) fun s =>
    let va := s.ctx.rx a
    if s.ctx.phase = 1 then s.onReply fun r =>
      match r with
      | .version v n depth => s.enqueueSlot (va.toNat + 128 * (1 + v % depth)) (slotImage (s.ctx.gblock d) v n)
      | _ => .done s
    else s.onMailbox va .own .gsnd

/-- A slot's η and Λ as a block (R330). -/
def slotBlock (bs : List Byte) : List Nat :=
  let at4 := fun o => bytesNat ((bs.drop o).take 4)
  (putLanes (List.replicate 96 0) ((List.range 6).map (fun i => (i, at4 (8 + 4 * i), 0)) ++
    (upperPairs (List.range 6)).map fun p => (lamLane p.1 p.2, at4 (slotOffset p.1 p.2), 0))).1

/-- GRCV (R330). -/
def execGrcv (h : Head) (d a : Reg) (s : State) : Out :=
  s.gbp clsGbpTask (.grcv h d a) h true [d] (ux a :: ug d) fun s =>
    if s.ctx.phase = 1 then s.onReply fun r =>
      match r with
      | .slot bs => .done (s.setCtx (s.ctx.wgblock d (slotBlock bs)))
      | _ => .done s
    else s.onMailbox (s.ctx.rx a) .own .grcv

/-- The blend of a new block with an old one (R331). -/
def dampBlock (delta : Nat) (new old : List Nat) : List Nat × FlagSet :=
  let r := (List.range 96).map fun l =>
    let t := gRound ((valIn old l).add false (valIn new l).neg)
    let u := gRound (FVal.fma false (.fin false delta (-8)) (fmtF32.decode t.1) (valIn new l))
    (l, u.1, t.2 ||| u.2)
  putLanes new r

/-- GDMP with its damping known. -/
def State.damp (s : State) (d a : Reg) (delta : Nat) : Eff :=
  if delta = 0 then .done s else s.putBlock d (dampBlock delta (s.ctx.gblock d) (s.ctx.gblock a))

/-- GDMP (R331). -/
def execGdmp (h : Head) (d a b : Reg) (s : State) : Out :=
  s.gbp clsGbp (.gdmp h d a b) h (decide (b = 0) || (match s.ctx.role with
      | .row .. => false
      | _ => true)) [a, d] (ug a ++ ux b :: ug d) fun s =>
    if b = 0 then s.damp d a (Word.field s.ctx.gdmp 7 0)
    else if s.ctx.phase = 1 then s.onReply fun r =>
      match r with
      | .damp delta => s.damp d a delta
      | _ => .done s
    else s.onMailbox (s.ctx.rx b) .anyGroup .gdmp

end Sys2Proof.Machine
end

