-- ==== Sys2Proof/Machine/Rings.lean ====
section
/-! DEFINITION. The firmware's side of the front end: pre-emption and resumption (R265, R346, R347), queue control
blocks (R53), the mapping of queues onto slots (R59), kicks (R54), and the admin commands (R52, R353, R367). -/

namespace Sys2Proof.Machine

/-! Pre-emption (R346). -/

/-- The rows of an operation that no handler has taken are not handed out any more (R265). -/
def State.takeBackRows (s : State) (o : ArrOp) : State × ArrOp :=
  let n := o.cmd.drainCore
  let c := s.core n
  let mine := fun (a : Arrival) => match a with
    | .row j => j.arr.id == o.cmd.id
    | .hinge _ => false
  let k := (c.arrivals.filter mine).length
  (if k = 0 then s else s.setCore n { c with arrivals := c.arrivals.filter fun a => !mine a }, { o with rowsOut := o.rowsOut - k })

/-- The current operation of a quad is displaced, and saved as R265 says: into its holder's save area, or a gang
block into the area of its draining tile. -/
def State.displace (s : State) (n : Nat) (o : ArrOp) : State :=
  let r := s.takeBackRows o
  let q := r.1.quad n
  let keyed := o.cmd.gang.isNone && q.holder == some o.cmd.iss.task
  let s := State.setQuad { r.1 with fetched := r.1.fetched.filter fun f => f.1 != o.cmd.id } n
    { q with cur := none, displaced := q.displaced ++ [{ r.2 with keyed := keyed }] }
  let k := o.cmd
  if k.gang.isSome then
    let at_ := localPa k.drainCore 0x188000
    ((s.poke at_ (accBytes o.acc)).poke (at_ + 0x4000) (wordsBytes k.desc)).poke (at_ + 0x4040) (saveArea o true false o.acc)
  else
    let live := match s.taskCtx k.iss.task with
      | some c => c.aset.live
      | none => false
    s.saveSet k.iss.task o true live o.acc

/-- A gang block that has the key and has not started waits as a displaced one. -/
def Quad.unqueueGang (q : Quad) (slot : Nat) : Quad :=
  let mine := fun (k : ArrCmd) => k.gang.isSome && k.iss.task.slot == slot
  { q with
    queue := q.queue.filter fun k => !mine k
    displaced := q.displaced ++ (q.queue.filter mine).map fun k =>
      { cmd := k, past := wrapVa ((arrVa k.desc 3 : Int) + (k.row0 : Nat) * arrDstride k.desc) } }

/-- The queued commands of a command's contexts are saved with them (R265). -/
def Quad.saveQueue (q : Quad) (slot : Nat) : Quad :=
  let mine := fun (k : ArrCmd) => k.gang.isNone && k.iss.task.slot == slot
  { q with queue := q.queue.filter fun k => !mine k, saved := q.saved ++ q.queue.filter mine }

/-- The saved commands of a command's contexts stand in the queue again. -/
def Quad.restoreQueue (q : Quad) (slot : Nat) : Quad :=
  let mine := fun (k : ArrCmd) => k.iss.task.slot == slot
  { q with queue := q.queue ++ q.saved.filter mine, saved := q.saved.filter fun k => !mine k }

/-- A quad gives up what a pre-empted command has of it: its operation, its queued commands, its key, its set (R265). -/
def State.stopQuad (slot : Nat) (s : State) (n : Nat) : State :=
  let s := match (s.quad n).cur with
    | some o => if o.cmd.iss.task.slot = slot then s.displace n o else s
    | none => s
  let s := s.setQuad n (((s.quad n).unqueueGang slot).saveQueue slot)
  let q := s.quad n
  match q.holder with
  | some t =>
    if t.slot ≠ slot then s
    else if t.core = 4096 then s.setQuad n (q.release 4)
    else (s.setQuad n ((q.release (quadPos t.core)).request t)).settleSet n
  | none => s

/-- The copy engine of a core stops its commands of a slot at element boundaries (R238). -/
def State.stopCopies (slot : Nat) (s : State) (n : Nat) : State :=
  ((s.core n).copyQ.filter fun c => c.iss.task.slot == slot).foldl (fun s c => s.boundary n c.id 64) s

/-- The context of a reduction server, which hardware runs, stays; every other one is free (R315, R346). -/
def Ctx.gatedCtx (x : Ctx) : Ctx := if decide (x.role = .server) then x else {}

/-- A member tile of a pre-empted command (R346 steps 1, 2, 5 and 6): its contexts, the hardware part of its deque and what
waits for its handler go to its tile record, with interrupt 0x40 (R335), and its core is power-gated. -/
def State.saveTile (s : State) (n : Nat) : State :=
  let c := s.core n
  if c.saved.isSome then s
  else s.setCore n { c with
    saved := some {
      cause := 0x40
      ctxs := c.ctxs.map fun x => if decide (x.wait = .none) && x.busy then { x with stopped := true } else x
      deque := c.deque
      arrivals := c.arrivals }
    ctxs := c.ctxs.map Ctx.gatedCtx
    deque := []
    arrivals := []
    gated := some s.cycles }

/-- The running command of a queue is pre-empted (R346). -/
def State.preempt (s : State) (q : Nat) : State :=
  let s := s.onCmd q fun c => { c with phase := .preempted, clean := 0 }
  let s := (s.cmdTiles q).foldl (State.stopCopies q) s
  let s := (s.quads.map (·.1)).foldl (State.stopQuad q) s
  (s.cmdTiles q).foldl State.saveTile s

/-- A context as it comes back from the tile record: one that held its array's key waits for it first (R265), and a parked
task that was cancelled meanwhile ends (R84, R347). -/
def State.restored (s : State) (n i : Nat) (x : Ctx) : Ctx :=
  let waits := x.busy && decide (x.wait ≠ .key) && (s.quad (quadOf n)).requests.contains (s.idOf n i x)
  let dead := decide (x.role = .task) && x.flagged && !x.wait.ending && !x.reserved && !s.overFor n i x
  { x with stopped := waits, wait := if dead then .cancelling else x.wait }

/-- A tile's record is restored (R347): its contexts to their own numbers, its deque in front of what was taken meanwhile, and
what waits for the handler; its cycles do not count the time in which it was gated (R20). -/
def State.restoreTile (s : State) (n : Nat) : State :=
  let c := s.core n
  match c.saved with
  | none => s
  | some v =>
    let back := fun i => if decide ((c.ctx i).role = .server) then c.ctx i else s.restored n i (v.ctxs[i]?.getD {})
    let deque := c.deque ++ v.deque
    let t := s.setCore n { c with
      saved := none
      dirty := true
      ctxs := (Vector.range 5).map back
      deque := deque.take 256
      overflow := deque.drop 256 ++ c.overflow
      arrivals := v.arrivals ++ c.arrivals
      cyc := c.cyc - (s.cycles - c.gated.getD s.cycles)
      gated := none }
    let t := t.setCore n (t.core n).refilled
    let ended := [0, 1, 2, 3].filter fun i => decide ((t.ctxOf n i).wait = .cancelling)
    ended.foldl (fun t i => t.letGo (t.idOf n i (t.ctxOf n i))) t

/-- A pre-empted command resumes (R347), once it is mapped again and no CHKPT of a CHKNOW runs before it (R353). -/
def State.resume (s : State) (q : Nat) : State :=
  if !s.preempted q || (s.slot q).side.isSome then s
  else
    let s := s.onCmd q fun c => { c with phase := .running }
    let s := { s with quads := s.quads.map fun (a : Nat × Quad) => (a.1, a.2.restoreQueue q) }
    (s.cmdTiles q).foldl State.restoreTile s

/-! Queue control blocks (R53). -/

/-- What the firmware keeps of a queue. -/
def State.queue (s : State) (q : Nat) : Queue := look {} s.queues q
/-- The state with it replaced. -/
def State.setQueue (s : State) (q : Nat) (x : Queue) : State := { s with queues := setAt s.queues q x }

/-- Where a queue's QCB stands in host memory (R52). -/
def State.qcbAddr (s : State) (q : Nat) : Option Nat :=
  s.qtab.bind fun t => if q < t.2 then some (t.1 + 256 * q) else none

/-- The QCB of a queue as it stands in host memory. -/
def State.hostQcb (s : State) (q : Nat) : List Word :=
  match s.qcbAddr q with
  | some a => bytesWords (readBytes s.hostMem a 256)
  | none => List.replicate 32 0

/-- The QCB of a queue: the slot's copy while it is mapped, else the host's. -/
def State.qcb (s : State) (q : Nat) : List Word := if (s.slot q).hw.isSome then (s.slot q).qcb else s.hostQcb q

/-- Fields of a QCB. -/
def qcbState (b : List Word) : Nat := Word.field (wordAt b 1) 63 60
def qcbSize (b : List Word) : Nat := 2 ^ Word.field (wordAt b 1) 55 48
def qcbPrio (b : List Word) : Nat := Word.field (wordAt b 1) 47 40
def qcbHead (b : List Word) : Nat := Word.field (wordAt b 1) 15 0
def qcbConf (b : List Word) : Bool := (wordAt b 5).getLsbD 63

/-- A word of a QCB with bits [hi:lo] replaced. -/
def qcbPut (b : List Word) (i hi lo v : Nat) : List Word := replaceAt b i (Word.putField (wordAt b i) hi lo v)

/-- Word `i` written into a queue's QCB in host memory. -/
def State.hostWord (s : State) (q i : Nat) (w : Word) : State :=
  match s.qcbAddr q with
  | some a => { s with hostMem := writeBytes s.hostMem (a + 8 * i) (natBytes 8 w.toNat) }
  | none => s

/-- The fields marked RW of a QCB taken from another one: state, eprio, head, charged, conf, estat, ehead, w8-w15. -/
def qcbBack (host b : List Word) : List Word :=
  let w1 := wordAt b 1
  let h := qcbPut (qcbPut (qcbPut host 1 63 60 (Word.field w1 63 60)) 1 39 32 (Word.field w1 39 32)) 1 15 0 (Word.field w1 15 0)
  let h := qcbPut (replaceAt h 4 (wordAt b 4)) 5 63 63 (Word.field (wordAt b 5) 63 63)
  let h := qcbPut (qcbPut h 7 63 56 (Word.field (wordAt b 7) 63 56)) 7 15 0 (Word.field (wordAt b 7) 15 0)
  (List.range 8).foldl (fun h i => replaceAt h (8 + i) (wordAt b (8 + i))) h

/-- A queue's QCB written back (R53). -/
def State.writeBack (s : State) (q : Nat) (b : List Word) : State :=
  let h := qcbBack (s.hostQcb q) b
  (List.range 16).foldl (fun s i => if i = 0 ∨ i = 2 ∨ i = 3 ∨ i = 6 then s else s.hostWord q i (wordAt h i)) s

/-- A change of the QCB of a queue where it stands. -/
def State.onQcb (s : State) (q : Nat) (f : List Word → List Word) : State :=
  if (s.slot q).hw.isSome then s.setSlot q { s.slot q with qcb := f (s.slot q).qcb } else s.writeBack q (f (s.hostQcb q))

/-! Mapping (R59). -/

/-- The slot at a place of the configuration order: 0, 16, 1, 17 and so on (R52). -/
def slotAt (k : Nat) : Nat := k / 2 + 16 * (k % 2)

/-- A hardware slot is configured. -/
def State.configured (s : State) (hw : Nat) : Bool := (List.range s.slotCount).any fun k => slotAt k == hw

/-- The queue that a hardware slot holds. -/
def State.queueOn (s : State) (hw : Nat) : Option Nat := (s.slots.find? fun x => decide (x.2.hw = some hw)).map (·.1)

/-- A queue is waiting: created, unmapped, with its pending bit or work in its ring, and not held (rule 1). -/
def State.wantsSlot (s : State) (q : Nat) : Bool :=
  let u := s.queue q
  u.created && !u.destroyed && !u.halted && (s.slot q).hw.isNone && !u.held &&
  (u.pendingBit || decide (qcbHead (s.hostQcb q) ≠ u.tail))

/-- A queue that becomes waiting takes its base priority; one that stops waiting is marked so (rule 2).  The effective priority of
a waiting queue stands in the firmware's state only; its QCB in host memory does not follow it (DESIGN CHOICE, log entry 95). -/
def State.noteWaiting (s : State) (q : Nat) : State :=
  let u := s.queue q
  if s.wantsSlot q then
    if u.waiting then s else s.setQueue q { u with waiting := true, since := s.tick.toNat, eprio := qcbPrio (s.hostQcb q) }
  else if u.waiting then s.setQueue q { u with waiting := false } else s

/-- The waiting queue with the highest eprio, ties going to the lowest id (rule 3). -/
def State.bestWaiting (s : State) : Option Nat :=
  s.queues.foldl (fun best x =>
    if !x.2.waiting then best
    else match best with
      | none => some x.1
      | some q => if (s.queue q).eprio < x.2.eprio then some x.1 else best) none

/-- A queue mapped to a hardware slot: the slot takes a copy of its QCB, active, or draining as it was (R61), and a pre-empted
command resumes (R53, R59, R347). -/
def State.map (s : State) (q hw : Nat) : State :=
  let u := s.queue q
  let state := if qcbState (s.hostQcb q) = 2 then 2 else 1
  let b := qcbPut (qcbPut (qcbPut (s.hostQcb q) 1 63 60 state) 1 39 32 (qcbPrio (s.hostQcb q))) 1 31 16 u.tail
  let s := s.setQueue q { u with pendingBit := false, waiting := false, eprio := qcbPrio b }
  (s.setSlot q { s.slot q with hw := some hw, qcb := b }).resume q

/-- A mapped queue leaves its slot: its QCB is written back (R53), with the saved front-end state in w8 to w15, whose layout no
rule gives: free values (DESIGN CHOICE, log entry 6); what is in flight for its command still translates through its tables. -/
def State.unmap (s : State) (q : Nat) : State :=
  let x := s.slot q
  if x.hw.isNone then s
  else
    let b := if qcbState x.qcb = 1 then qcbPut x.qcb 1 63 60 0 else x.qcb
    let b := (List.range 8).foldl (fun b i => replaceAt b (8 + i) (Config.freeWord (s.free + i))) b
    let s := { s with free := s.free + 8 }
    let s := (s.writeBack q b).setSlot q { x with hw := none, qcb := b }
    (s.setQueue q { s.queue q with waiting := false }).noteWaiting q

/-- The free configured slots, in slot-number order. -/
def State.freeSlots (s : State) : List Nat := (List.range 32).filter fun h => s.configured h && (s.queueOn h).isNone

/-- Free slots take the best waiting queues (rule 3). -/
def State.mapFree (s : State) : State :=
  s.freeSlots.foldl (fun s h => match s.bestWaiting with
    | some q => s.map q h
    | none => s) s

/-- The command boundary of a mapped queue: an empty ring frees its slot (rule 3); a better waiting queue replaces
the mapped one (rule 4), but in a slot that takes no new queues (R52). -/
def State.atBoundary (s : State) (q : Nat) : State :=
  let x := s.slot q
  match x.hw with
  | none => s.mapFree
  | some h =>
    if qcbHead x.qcb = (s.queue q).tail then (s.unmap q).mapFree
    else if !s.configured h then s
    else match s.bestWaiting with
      | none => s
      | some w => if qcbPrio x.qcb < (s.queue w).eprio then (s.unmap q).map w h else s

/-! Kicks (R54). -/

/-- A queue takes kicks. -/
def State.kickable (s : State) (q : Nat) : Bool :=
  let u := s.queue q
  u.created && !u.destroyed && !u.halted

/-- KICK (R54) (DEDUCED, log entries 51 and 52). -/
def execKick (q : Nat) (tail : BitVec 16) (s : State) : Out :=
  if !s.ready then .next s
  else if !s.kickable q then .next (s.bump 0xCF0)
  else
    let u := s.queue q
    let t := tail.toNat % qcbSize (s.qcb q)
    if (s.slot q).hw.isSome then
      .next ((s.setQueue q { u with tail := t }).onQcb q fun b => qcbPut b 1 31 16 t)
    else .next (((s.setQueue q { u with tail := t, pendingBit := true }).noteWaiting q).mapFree)

/-! Admin commands (R52). -/

/-- Eight bytes of the response to the last admin command: its status, then what no rule lays out (R52) (DESIGN CHOICE, log
entry 104). -/
def State.responseAt (s : State) (off : Nat) : Word :=
  BitVec.ofNat 64 (bytesNat ((List.range 8).map fun i =>
    if off + i = 0 then BitVec.ofNat 8 s.response else Config.responseByte (off + i) s.response s.info))

/-- The firmware writes the response behind the command in the admin mailbox (R50, R52). -/
def State.writeResponse (s : State) : State :=
  { s with bar0 := (List.range 8).foldl (fun m i => put 0 m (0x1040 + 8 * i) (s.responseAt (8 * i))) s.bar0 }

/-- The response of an admin command: 0, or some nonzero byte for a refusal, and vector 0 (R52)
(DESIGN CHOICE, log entry 6). -/
def State.respond (s : State) (ok : Bool) : State :=
  let s := { s with interrupts := s.interrupts ++ [0] }
  if ok then State.writeResponse { s with response := 0 }
  else State.writeResponse { s with response := 1 + (Config.freeWord s.free).toNat % 255, free := s.free + 1 }

/-- An admin command, ignored before ready (R63) and refused unless `ok`. -/
def State.admin (s : State) (ok : Bool) (f : State → State) : Out :=
  if !s.ready then .next s else if ok then .next ((f s).respond true) else .next (s.respond false)

/-- QTAB (R52). -/
def execQtab (base : Word) (count : Nat) (s : State) : Out :=
  s.admin (base.toNat % 4096 == 0 && decide (1 ≤ count) && decide (count ≤ 4096)) fun s =>
    { s with qtab := some (base.toNat, count) }

/-- The checks that QCREATE makes of a QCB (R53). -/
def qcbOk (b : List Word) : Bool :=
  let w := wordAt b
  Word.field (w 1) 59 56 == 0 && Word.field (w 5) 62 48 == 0 && Word.field (w 6) 62 11 == 0 && Word.field (w 7) 55 16 == 0 &&
  ((b.drop 16).all (· == 0)) && decide (6 ≤ Word.field (w 1) 55 48) && decide (Word.field (w 1) 55 48 ≤ 16) &&
  (w 0).toNat % 4096 == 0 && (w 2).toNat % 8192 == 0 && Word.field (w 2) 63 52 == 0 && Word.field (w 6) 10 0 != 0

/-- A new queue's QCB: the fields marked RW at their reset values (R53). -/
def qcbFresh (b : List Word) : List Word := qcbBack b (List.replicate 32 0)

/-- QCREATE (R52, R53): a queue that is mapped or has a command is refused; what REPLAY, TWIN and MBOXLIM have set for the
queue lasts (R353, R367) (DEDUCED, log entry 52). -/
def execQcreate (q : Nat) (s : State) : Out :=
  let b := s.hostQcb q
  s.admin ((s.qcbAddr q).isSome && qcbOk b && (s.slot q).hw.isNone && (s.slot q).cmd.isNone && (s.slot q).outer.isNone) fun s =>
    let s := s.writeBack q (qcbFresh b)
    let s := s.setSlot q {}
    let u := s.queue q
    let u : Queue := { created := true, tail := Word.field (wordAt b 1) 31 16, period := s.tick.toNat, replay := u.replay, twin := u.twin, mbox := u.mbox }
    ((s.setQueue q u).noteWaiting q).mapFree

/-- SLOTS (R52). -/
def execSlots (count ageing : Nat) (s : State) : Out :=
  s.admin (decide (1 ≤ count) && decide (count ≤ 32)) fun s =>
    ({ s with slotCount := count, ageing := if ageing = 0 then 1000 else ageing, ageBase := s.tick.toNat } : State).mapFree

/-- A queue that an admin command names is there. -/
def State.live (s : State) (q : Nat) : Bool := (s.queue q).created && !(s.queue q).destroyed

/-- A queue has no command running. -/
def State.quiet (s : State) (q : Nat) : Bool := (s.slot q).cmd.isNone && (s.slot q).outer.isNone

/-- CCREATE (R52, R62). -/
def execCcreate (q : Nat) (session : Word) (s : State) : Out :=
  s.admin (s.live q && s.quiet q) fun s =>
    (s.setQueue q { s.queue q with session := some session }).onQcb q fun b => qcbPut b 5 63 63 1

/-- REPLAY (R353): for the queue's next LAUNCH or GANG. -/
def execReplay (q mode : Nat) (log len : Word) (s : State) : Out :=
  let o := log.toNat % 2 ^ 39
  s.admin (s.live q && s.quiet q && decide (mode ≤ 2) && (mode == 0 || (log.toNat % 2 ^ 21 == 0 && len.toNat % 2 ^ 21 == 0 &&
      log.toNat / 2 ^ 39 == s.pkg && (physOf 0 o).isSome && len != 0))) fun s =>
    s.setQueue q { s.queue q with replay := (mode, log, len) }

/-- TWIN (R353). -/
def execTwin (q on : Nat) (s : State) : Out :=
  s.admin (s.live q && s.quiet q && decide (on ≤ 1)) fun s => s.setQueue q { s.queue q with twin := on == 1 }

/-- MBOXLIM (R367). -/
def execMboxlim (q limit : Nat) (s : State) : Out :=
  s.admin (s.live q && s.quiet q && decide (limit ≤ 64)) fun s =>
    s.setQueue q { s.queue q with mbox := if limit = 0 then 64 else limit }

/-- SAMPLE (R353): tick 0 stands for the next tick that can be armed. -/
def execSample (tick host : Word) (len : Nat) (s : State) : Out :=
  let next := s.tick.toNat + 1 + (Config.freeWord s.free).toNat % 2 ^ 32
  s.admin (decide (33280 ≤ len) && host.toNat % 64 == 0 && (tick == 0 || decide (s.tick.toNat < tick.toNat))) fun s =>
    { s with
      sampling := s.sampling ++ [{ tick := if tick = 0 then next else tick.toNat, host := host.toNat, len := len }]
      free := s.free + 1 }

/-! Ageing and energy (R59, R60). -/

/-- AGEING_BOUNDARY (R59): a queue that waited throughout the interval gains 1. -/
def execAgeingBoundary (s : State) : Out :=
  let at_ := s.ageBase + s.ageing * 1000
  if s.slotCount = 0 ∨ s.tick.toNat < at_ then .next s
  else
    let one := fun (x : Nat × Queue) =>
      (x.1, if x.2.waiting && decide (x.2.since ≤ s.ageBase) then { x.2 with eprio := min 255 (x.2.eprio + 1) } else x.2)
    .next { s with queues := s.queues.map one, ageBase := at_ }

/-- A mapped queue is charged; one that has exhausted its budget is unmapped and held, and its running command pre-empted; one
whose command has not started or waits for the homes goes on with it when it is mapped again (R60) (DEDUCED, log entry 56). -/
def State.chargeQueue (s : State) (c : Nat × Nat) : State :=
  let q := c.1
  let x := s.slot q
  if x.hw.isNone then s
  else
    let charged := (wordAt x.qcb 4).toNat + c.2
    let s := s.onQcb q fun b => replaceAt b 4 (BitVec.ofNat 64 charged)
    let s := s.onCmd q fun k => { k with energy := k.energy + c.2 }
    let budget := Word.field (wordAt x.qcb 3) 63 32
    if budget = 0 ∨ charged < budget * 1000 then s
    else
      let s := match x.cmd with
        | some k => if k.phase = CmdPhase.running then s.preempt q else s
        | none => s
      (s.setQueue q { s.queue q with held := true }).unmap q

/-- ENERGY_SAMPLE (R60): the charges of the mapped queues, by queue and in µJ.  No rule says from when the 100 µs are counted:
every event is a sample, whatever the tick (DESIGN CHOICE, log entry 97). -/
def execEnergySample (charges : List (Nat × Nat)) (s : State) : Out :=
  .next ((charges.foldl State.chargeQueue s).mapFree)

/-- The accounting period of a QCB in ticks (R53). -/
def qcbPeriod (b : List Word) : Nat := (if Word.field (wordAt b 3) 31 0 = 0 then 10000 else Word.field (wordAt b 3) 31 0) * 1000

/-- PERIOD_BOUNDARY (R60): charged returns to zero, and a held queue becomes waiting. -/
def execPeriodBoundary (q : Nat) (s : State) : Out :=
  let u := s.queue q
  let at_ := u.period + qcbPeriod (s.qcb q)
  if !u.created ∨ s.tick.toNat < at_ then .next s
  else
    let s := s.onQcb q fun b => replaceAt b 4 0
    .next (((s.setQueue q { u with period := at_, held := false }).noteWaiting q).mapFree)

end Sys2Proof.Machine
end

