-- ==== Sys2Proof/Machine/Packets.lean ====
section
/-! DEFINITION. Packets (R55-R58): their layout and checks, fetching from the ring and from an indirect buffer, and
the packets that act on memory: COPYH, BOLT, CLEAR, FENCE, SIGNAL, CHKPT (R359, R360), IB and DESTROY (R61). -/

namespace Sys2Proof.Machine

/-! Layout (R55, R56). -/

/-- The number in `n` bytes from byte `at_` of a packet. -/
def pkNat (p : List Byte) (at_ n : Nat) : Nat := bytesNat ((p.drop at_).take n)
def pkOp (p : List Byte) : Nat := pkNat p 0 1
def pkCancel (p : List Byte) : Bool := (pkNat p 1 1).testBit 0
def pkIrq (p : List Byte) : Bool := (pkNat p 1 1).testBit 1
def pkBeats (p : List Byte) : Nat := pkNat p 2 1
def pkCmdid (p : List Byte) : Nat := pkNat p 3 3
def pkCrc (p : List Byte) : Nat := pkNat p 6 2
def pkCvaddr (p : List Byte) : Nat := pkNat p 8 6

/-- Bytes `lo` to `hi - 1` of a packet are zero. -/
def pkZero (p : List Byte) (lo hi : Nat) : Bool := ((p.drop lo).take (hi - lo)).all (· == 0)

/-- The CRC of a packet is right (R55). -/
def pkCrcOk (p : List Byte) : Bool :=
  decide (1 ≤ pkBeats p) && crc16 (p.take 6 ++ [0, 0] ++ p.drop 8) == pkCrc p

/-- The body of a packet has its fields in range and every other byte zero (R56).  No rule gives the status of a BOLT or CLEAR
whose VA is not 4 KiB aligned: the model takes it as malformed (DESIGN CHOICE, log entry 96). -/
def pkBodyOk (p : List Byte) : Bool :=
  match pkOp p with
  | 1 | 2 =>
    decide (pkNat p 28 2 ≤ 256) && pkZero p 30 31 && decide (pkNat p 31 1 ≤ 253) && pkBeats p == 2 + pkNat p 31 1 &&
    (if pkOp p = 1 then pkZero p 48 64 else pkZero p 48 56)
  | 3 => pkBeats p == 1 && pkZero p 30 32 && decide (pkNat p 40 1 ≤ 1) && decide (pkNat p 42 1 < 8) && pkZero p 43 64
  | 4 | 5 =>
    pkBeats p == 1 && pkZero p 22 24 && pkNat p 16 6 % 4096 == 0 && decide (1 ≤ pkNat p 24 8) && decide (pkNat p 24 8 ≤ 65536) &&
    pkZero p 33 64
  | 6 => pkBeats p == 1 && decide (pkNat p 16 1 ≤ 1) && pkZero p 17 64
  | 7 => pkBeats p == 1 && pkZero p 22 24 && decide (pkNat p 32 1 < 4) && pkZero p 34 64
  | 8 => pkBeats p == 1 && pkZero p 16 64
  | 9 => pkBeats p == 1 && pkZero p 22 24 && decide (pkNat p 32 2 < 4096) && pkZero p 40 64
  | 10 =>
    pkBeats p == 1 && pkNat p 16 8 % 64 == 0 && decide (1 ≤ pkNat p 24 4) && decide (pkNat p 24 4 ≤ 2 ^ 20) && pkZero p 28 64
  | _ => false

/-- A packet is well formed (R55, R56). -/
def pkOk (p : List Byte) : Bool :=
  decide (pkNat p 1 1 < 8) && (!pkCancel p || pkOp p == 8) && pkNat p 14 2 == 0 && pkBodyOk p

/-! Fetching (R54, R55, R58). -/

/-- The bytes of `n` beats of a ring from beat `h` (R54). -/
def State.ringBeats (s : State) (b : List Word) (h n : Nat) : List Byte :=
  (List.range n).flatMap fun i => readBytes s.hostMem ((wordAt b 0).toNat + 64 * ((h + i) % qcbSize b)) 64

/-- A packet from its place: its first beat says how many beats it has. -/
def wholePacket (read : Nat → List Byte) : List Byte := read (max 1 (pkBeats (read 1)))

/-- The packet that stands at a beat of a mapped queue's ring. -/
def State.ringPacket (s : State) (q h : Nat) : List Byte := wholePacket (s.ringBeats (s.slot q).qcb h)

/-- The next packet of a mapped queue: from the indirect buffer that runs, or from its ring (R58). -/
def State.peek (s : State) (q : Nat) : Option (List Byte) :=
  let x := s.slot q
  let h := qcbHead x.qcb
  if x.hw.isNone || x.cmd.isSome then none
  else match x.outer.bind (·.ib) with
    | some (_, 0) => none
    | some (a, _) => some (wholePacket fun n => readBytes s.hostMem a (64 * n))
    | none =>
      if h = (s.queue q).tail then none
      else
        let p := s.ringPacket q h
        if qcbState x.qcb = 2 ∧ pkOp p ≠ 8 then none else some p

/-- A packet as the front end starts on it. -/
def State.newCmd (s : State) (q : Nat) (p : List Byte) (phase : CmdPhase) (status : Nat) : Cmd :=
  let u := s.queue q
  let launch := pkOp p == 1 || pkOp p == 2
  { packet := p, op := pkOp p, phase := phase, status := status, ftval := 0, groups := [], hinge := [], regions := [], code := none
    members := [], x3 := 0, west := {}, east := {}, cancel := false, twin := launch && u.twin
    rlog := if launch then u.replay.1 else 0, log := (u.replay.2.1.toNat, u.replay.2.2.toNat)
    tstart := s.tick, energy := 0, clean := 0, gang := none, beats := pkBeats p, ib := none, sent := 0, acked := 0
    link := false, mboxLimit := u.mbox }

/-- A packet that launches tasks. -/
def Cmd.launches (c : Cmd) : Bool := c.op == 1 || c.op == 2

/-- A change of the queue's command, its outer packet and its copy. -/
def State.setCmd (s : State) (q : Nat) (c : Option Cmd) : State := s.setSlot q { s.slot q with cmd := c }
/-- The outer packet replaced. -/
def State.setOuter (s : State) (q : Nat) (c : Option Cmd) : State := s.setSlot q { s.slot q with outer := c }

/-- A CRC failure in the ring (R57): the queue halts and leaves its slot. -/
def State.haltRing (s : State) (q : Nat) : State :=
  let h := qcbHead (s.slot q).qcb
  let s := s.onQcb q fun b => qcbPut (qcbPut (qcbPut b 7 63 56 1) 7 15 0 h) 1 63 60 4
  ((s.setQueue q { s.queue q with halted := true }).unmap q).mapFree

/-- The indirect buffer that runs is left at once, with a status (R58). -/
def State.skipIb (s : State) (q status : Nat) : State :=
  match (s.slot q).outer with
  | some o => s.setOuter q (some { o with ib := o.ib.map fun i => (i.1, 0), status := status })
  | none => s

/-- The front end starts on the next packet (R55, R57, R58): it fetches and checks it.  A LAUNCH or GANG of an indirect buffer
that a DESTROY behind it has cancelled does not start (R61) (DEDUCED, log entry 64). -/
def State.fetchPacket (s : State) (q : Nat) : State :=
  match s.peek q with
  | none => s
  | some p =>
    let begin_ := fun (s : State) phase status =>
      let t := s.setCmd q (some (s.newCmd q p phase status))
      if pkOp p = 1 ∨ pkOp p = 2 then t.setQueue q { t.queue q with replay := (0, 0, 0) } else t
    match (s.slot q).outer.bind (·.ib) with
    | none =>
      if !pkCrcOk p then s.haltRing q
      else if !pkOk p then begin_ s .finished 2
      else begin_ s .fetched 0
    | some (_, left) =>
      if !pkCrcOk p then begin_ (s.skipIb q 1) .finished 1
      else if left < pkBeats p then begin_ (s.skipIb q 0) .finished 2
      else if pkOp p = 10 then begin_ s .finished 7
      else if !pkOk p then begin_ s .finished 2
      else
        let t := begin_ s .fetched 0
        if ((s.slot q).outer.any (·.cancel)) && (pkOp p == 1 || pkOp p == 2)
        then t.onCmd q fun c => { c with cancel := true, phase := .finished } else t

/-- The front end has work of an opcode before it: it starts on a packet when it has none. -/
def State.starts (s : State) (q op : Nat) : State :=
  match s.peek q with
  | some p => if pkOp p = op then s.fetchPacket q else s
  | none => s

/-- The effect of a packet of an opcode, once it has been fetched. -/
def State.packet (s : State) (q op : Nat) (f : State → Cmd → State) : Out :=
  let t := s.starts q op
  match (t.slot q).cmd with
  | some c => if c.op = op ∧ c.phase = .fetched ∧ (t.slot q).hw.isSome then .next (f t c) else .next t
  | none => .next t

/-- A packet goes on to a phase. -/
def State.phase (s : State) (q : Nat) (p : CmdPhase) : State := s.onCmd q fun c => { c with phase := p }

/-- A packet is rejected with a status (R57). -/
def State.reject (s : State) (q status : Nat) : State := s.onCmd q fun c => { c with phase := .finished, status := status }

/-- The lane of the front end's messages for a queue (R13). -/
def frontLane (pkg q : Nat) : Nat := laneNumber pkg 8192 (q / 8192) (q % 8192)

/-- A message of the front end for a packet: group and colour; colour 8 stands for none. -/
def State.frontMsg (s : State) (q : Nat) (p : Spot) (group colour : Nat) (b : Body) : Msg :=
  { iss := frontEnd s.pkg q, more := [], pkg := p.pkg, home := p.home, colour := colour, group := group, cmd := 0, body := b
    lane := frontLane s.pkg q, page := p.e.privPage, key := s.keyOf q p.e }

/-- Something that the front end sent for a packet is not applied, or not acknowledged; it may stand in a merged join
(R208, R294). -/
def State.frontOwes (s : State) (q : Nat) : Bool :=
  (s.net ++ s.outbox ++ s.heldFills).any fun m => m.any (· == frontEnd s.pkg q)

/-- The page of an address by the queue's tables. -/
def State.pageAt (s : State) (q va : Nat) : Option Spot :=
  match s.walk q va with
  | .ok e => e.spot va
  | .error _ => none

/-! COPYH (R56). -/

/-- A range cut at 64-byte lines. -/
def linePieces (va len : Nat) : List (Nat × Nat) :=
  (List.range ((va + len + 63) / 64 - va / 64)).map fun i =>
    let lo := max va (64 * (va / 64 + i))
    (lo, min (va + len) (64 * (va / 64 + i + 1)) - lo)

/-- BUF data below the write pointer of a filling or full buffer. -/
def State.bufData (s : State) (p : Spot) (n : Nat) : Bool :=
  match s.bufOf p.chain p.pa with
  | some h => decide (h + 64 ≤ p.pa) && s.bufReads p.chain p.pa n
  | none => false

/-- A piece of a COPYH passes its checks (R56): direction 0 to the device, 1 to the host. -/
def State.copyhOk (s : State) (va len dir group : Nat) (x : Nat × Nat) (p : Spot) : Bool :=
  let ty := p.e.ctype
  let cell := cellBytes ty p.e.width
  (ty == 0 || p.e.group == group || (dir == 1 && p.e.rdall && isLattice ty)) && ty != 0xC &&
  (x.1 != va || va % cell == 0) && (x.1 + x.2 != va + len || (va + len) % cell == 0) &&
  (dir == 0 || p.pkg != s.pkg || ty == 0 || (if ty = 0xB then s.bufData p x.2 else (s.block p.pa).bolted))

/-- The pieces of a COPYH with their spots, when all pass. -/
def State.copyhSpots (s : State) (q va len dir group : Nat) : Option (List ((Nat × Nat) × Spot)) :=
  (linePieces va len).mapM fun x => (s.pageAt q x.1).bind fun p => if s.copyhOk va len dir group x p then some (x, p) else none

/-- What a piece of a COPYH to the device sends: stores, fills, or a join for each cell; a tile above 64 bytes is
sent whole with its first piece. -/
def State.copyhMsgs (s : State) (q host va group colour : Nat) (x : Nat × Nat) (p : Spot) : List Msg :=
  let ty := p.e.ctype
  let cell := cellBytes ty p.e.width
  let bytes := fun at_ n => readBytes s.hostMem (host + (at_ - va)) n
  let msg := s.frontMsg q p group colour
  match ty with
  | 0 => [msg (.store p.pa x.1 (bytes x.1 x.2))]
  | 0xB => [msg (.fill p.pa x.1 p.chain (bytes x.1 x.2) false)]
  | _ =>
    if 64 < cell then if x.1 % cell = 0 then [msg (.join p.pa x.1 ty p.e.width (bytes x.1 cell) true)] else []
    else (List.range (x.2 / cell)).map fun i =>
      msg (.join (p.pa + i * cell) (x.1 + i * cell) ty p.e.width (bytes (x.1 + i * cell) cell) true)

/-- The number under which the front end's reads in other packages stand for a queue. -/
def farId (q : Nat) : Nat := 2 ^ 32 + q

/-- The bytes of a piece that a COPYH to the host reads; poisoned bytes are reported and not moved (R350, R358). -/
def State.copyhRead (s : State) (q group : Nat) (x : Nat × Nat) (p : Spot) : Got (State × List Byte) :=
  if p.pkg ≠ s.pkg then
    let a : Agent := { kind := 3, place := q, core := 8192, ctx := 0, group := group, cmd := farId q, iss := frontEnd s.pkg q, colour := 8,
                       lane := frontLane s.pkg q }
    match s.engineFar a p x.2 with
    | .ok bs => .ok (s, bs)
    | .wait s => .wait s
    | .stop c t => .stop c t
  else if s.poisoned p.pa x.2 then .ok (s.report (frontEnd s.pkg q) 0x28 8 (BitVec.ofNat 64 x.1), [])
  else
    let s := s.seen (s.keyOf q p.e) p.pa
    .ok (s, s.readCells p.pa p.e.ctype p.e.width x.2)

/-- The pieces of a COPYH to the host: the state and their bytes; `none` marks a wait, a failure ends it. -/
def State.copyhReads (s : State) (q group : Nat) : List ((Nat × Nat) × Spot) → State × Except Bool (List (Nat × List Byte))
  | [] => (s, .ok [])
  | (x, p) :: r =>
    match s.copyhRead q group x p with
    | .stop _ _ => (s, .error true)
    | .wait t =>
      match t.copyhReads q group r with
      | (u, .error true) => (u, .error true)
      | (u, _) => (u, .error false)
    | .ok (t, bs) =>
      match t.copyhReads q group r with
      | (u, .ok l) => (u, .ok ((x.1, bs) :: l))
      | e => e

/-- A COPYH to the host: every piece is read before any is written. -/
def State.copyToHost (s : State) (q host va group : Nat) (xs : List ((Nat × Nat) × Spot)) : State :=
  let r := s.copyhReads q group xs
  match r.2 with
  | .error false => { s with net := r.1.net, outbox := r.1.outbox, fetched := r.1.fetched }
  | .error true => (({ s with fetched := s.fetched.filter (·.1 != farId q) } : State)).reject q 8
  | .ok l =>
    let t := { r.1 with
      hostMem := l.foldl (fun m (b : Nat × List Byte) => writeBytes m (host + (b.1 - va)) b.2) r.1.hostMem
      fetched := r.1.fetched.filter (·.1 != farId q) }
    t.phase q .working

/-- COPYH (R56). -/
def execCopyh (q : Nat) (s : State) : Out :=
  s.packet q 3 fun s c =>
    let p := c.packet
    let host := pkNat p 16 8
    let va := pkNat p 24 6
    let len := pkNat p 32 8
    let dir := pkNat p 40 1
    let group := pkNat p 41 1
    match s.copyhSpots q va len dir group with
    | none => s.reject q 8
    | some xs =>
      if dir = 1 then s.copyToHost q host va group xs
      else ((xs.flatMap fun x => s.copyhMsgs q host va group (pkNat p 42 1) x.1 x.2).foldl State.send s).phase q .working

/-! BOLT and CLEAR (R56). -/

/-- The blocks of a packet with their spots, when every one is on a lattice page of the group. -/
def State.packetBlocks (s : State) (q va count group : Nat) : Option (List (Nat × Spot)) :=
  (List.range count).mapM fun i => (s.pageAt q (va + 4096 * i)).bind fun p =>
    if isLattice p.e.ctype && p.e.group == group then some (va + 4096 * i, p) else none

/-- A packet over blocks: all checked, then a message to the home of each. -/
def State.blockPacket (s : State) (q : Nat) (c : Cmd) (f : Nat → Nat → Spot → Body) : State :=
  let group := pkNat c.packet 32 1
  match s.packetBlocks q (pkNat c.packet 16 6) (pkNat c.packet 24 8) group with
  | none => s.reject q 8
  | some xs => (xs.foldl (fun s x => s.send (s.frontMsg q x.2 group 8 (f group x.1 x.2))) s).phase q .working

/-- BOLT_PACKET (R56, R211). -/
def execBoltPacket (q : Nat) (s : State) : Out :=
  s.packet q 4 fun s c => s.blockPacket q c fun group va p => .bolt p.pa va group

/-- CLEAR_PACKET (R56). -/
def execClearPacket (q : Nat) (s : State) : Out :=
  s.packet q 5 fun s c => s.blockPacket q c fun _ va p => .clearApply p.pa va p.e.ctype p.e.width

/-! FENCE and SIGNAL (R56). -/

/-- FENCE_PACKET (R56): the queue's earlier packets are complete, and host memory is written at once, so both kinds
complete as soon as nothing of the queue is outstanding. -/
def execFencePacket (q : Nat) (s : State) : Out := s.packet q 6 fun s _ => s.phase q .working

/-- The checks of a SIGNAL's cell (R43, R56). -/
def signalOk (p : Spot) (va n group : Nat) (data : List Byte) : Bool :=
  isLattice p.e.ctype && p.e.group == group && va % n == 0 && (p.e.storeTrap va n data false).isNone

/-- SIGNAL (R56): a join of colour 0 (R286). -/
def execSignal (q : Nat) (s : State) : Out :=
  s.packet q 7 fun s c =>
    let va := pkNat c.packet 16 6
    let n := 2 ^ pkNat c.packet 32 1
    let data := natBytes n (pkNat c.packet 24 8)
    let group := pkNat c.packet 33 1
    match s.pageAt q va with
    | none => s.reject q 8
    | some p =>
      if signalOk p va n group data then
        (s.send (s.frontMsg q p group 0 (.join p.pa va p.e.ctype p.e.width data false))).phase q .working
      else s.reject q 8

/-! CHKPT (R359, R360). -/

/-- The links of a mask, ascending. -/
def maskLinks (m : Nat) : List Nat := (List.range 12).filter fun l => m.testBit l

/-- The 4 KiB blocks of `n` pages from the one of `va`, each with its spot; none where a page is not mapped or is a CODE page,
as COPYH checks it (R56, R359). -/
def State.regionBlocks (s : State) (q : Nat) : Nat → Nat → Option (List (Nat × Spot))
  | 0, _ => some []
  | n + 1, va =>
    match s.walk q va with
    | .error _ => none
    | .ok e =>
      if e.ctype = 0xC then none
      else
        let lo := va / 4096 * 4096
        let stop := e.va + e.size
        let here := (List.range ((stop - lo) / 4096)).filterMap fun i => (e.spot (lo + 4096 * i)).map fun p => (lo + 4096 * i, p)
        (s.regionBlocks q n stop).map fun r => here ++ r

/-- The bytes of a block as a stream carries them: of a confidential stack page what the banks hold, a confidential SRAM page
under the context's key (R38, R359). -/
def State.streamData (s : State) (q : Nat) (p : Spot) : List Byte :=
  let b := p.pa / 4096
  let d := s.readCells (b * 4096) p.e.ctype p.e.width 4096
  if !p.e.conf then d
  else if p.e.space = 2 then
    natBytes 4096 (cipher s.pkg ((s.queue q).session.getD 0) b (BitVec.ofNat 32768 (bytesNat d))).toNat
  else readBytes (s.seen none p.pa).mem (b * 4096) 4096

/-- The message of a block (R359). -/
def State.streamMsg (s : State) (q store epoch : Nat) (x : Nat × Spot) : List Byte :=
  let p := x.2
  let head := Config.streamHeader
    [store, epoch, s.pkg, x.1, (s.block p.pa).bolted.toNat, p.e.ctype, p.e.width, p.e.group]
  let body := natBytes 32 head.toNat ++ s.streamData q p ++ s.onceBits p.pa p.e.ctype p.e.width
  body ++ natBytes 8 (crc64 body)

/-- A block is skipped: bolted, and sent to the same store in its bolt epoch (R360); that of a block of another package is kept
there. -/
def State.skipsBlock (s : State) (store : Nat) (p : Spot) : Bool :=
  let b := s.block p.pa
  decide (p.pkg = s.pkg) && b.bolted && b.sent && decide (s.lastStore = some store)

/-- The messages of blocks; what another package holds is a free value (DESIGN CHOICE, log entry 90). -/
def State.streamMsgs (s : State) (q store epoch : Nat) : List (Nat × Spot) → Nat → List (List Byte)
  | [], _ => []
  | x :: r, k =>
    if x.2.pkg = s.pkg then s.streamMsg q store epoch x :: s.streamMsgs q store epoch r k
    else Config.farStream k :: s.streamMsgs q store epoch r (k + 1)

/-- The blocks of a region streamed over the links of a mask, the k-th over the (k mod n)-th (R359). -/
def State.streamAll (s : State) (q store epoch : Nat) (links : List Nat) (xs : List (Nat × Spot)) : State :=
  let ys := xs.filter fun x => !s.skipsBlock store x.2
  let msgs := (s.streamMsgs q store epoch ys s.free).zipIdx.map fun e => (links.getD (e.2 % links.length) 0, e.1)
  let mark := fun (t : State) (x : Nat × Spot) =>
    let b := t.block x.2.pa
    if b.bolted ∧ x.2.pkg = s.pkg then t.setBlock x.2.pa { b with sent := true } else t
  { ys.foldl mark s with stream := s.stream ++ msgs, lastStore := some store, free := s.free + ys.length }

/-- The CHKPT packet that a queue's front end works on: the one of CHKNOW before its command. -/
def Slot.chkpt (x : Slot) : Option Cmd :=
  match x.side with
  | some c => some c
  | none => x.cmd

/-- A change of that packet. -/
def State.onChkpt (s : State) (q : Nat) (f : Cmd → Cmd) : State :=
  match (s.slot q).side with
  | some c => s.setSlot q { s.slot q with side := some (f c) }
  | none => s.onCmd q f

/-- A CHKPT packet streams its region (R359). -/
def State.checkpoint (s : State) (q : Nat) (c : Cmd) : State :=
  let p := c.packet
  let store := pkNat p 34 2
  let links := maskLinks (pkNat p 32 2)
  let no := fun status => s.onChkpt q fun c => { c with phase := .finished, status := status }
  if links.isEmpty ∨ !(links.all fun l => Config.linkLeadsTo l store) then no 2
  else match s.regionBlocks q (pkNat p 24 8) (pkNat p 16 6) with
    | none => no 8
    | some xs =>
      if links.any fun l => (look {} s.links l : Link).failed then s.onChkpt q fun c => { c with phase := .finished, link := true }
      else
        let t := s.streamAll q store (pkNat p 36 4) links xs
        t.onChkpt q fun c => { c with phase := .working, sent := t.stream.length - s.stream.length }

/-- CHKPT (R359); one of CHKNOW starts once two waves have shown nothing in flight for the pre-empted command (R360). -/
def execChkpt (q : Nat) (s : State) : Out :=
  match (s.slot q).side with
  | some c => if c.phase = .fetched ∧ (c.clean ≥ 2 ∨ !s.preempted q) then .next (s.checkpoint q c) else .next s
  | none => s.packet q 9 fun s c => s.checkpoint q c

/-- CHKPT_BLOCK_ACK (R359). -/
def execChkptBlockAck (q : Nat) (s : State) : Out :=
  match (s.slot q).chkpt with
  | some c =>
    if c.op = 9 ∧ c.phase = .working ∧ c.acked < c.sent then .next (s.onChkpt q fun c => { c with acked := c.acked + 1 })
    else .next s
  | none => .next s

/-- CHKNOW (R353, R360): the queue is mapped, and its command, if it has one, is running. -/
def execChknow (q : Nat) (host : Word) (s : State) : Out :=
  let x := s.slot q
  let p := wholePacket fun n => readBytes s.hostMem host.toNat (64 * n)
  let free := match x.cmd with
    | some c => decide (c.phase = .running)
    | none => true
  s.admin (x.hw.isSome && x.side.isNone && free && pkOp p == 9 && pkCrcOk p && pkOk p) fun s =>
    let s := if x.cmd.isSome then s.preempt q else s
    s.setSlot q { s.slot q with side := some (s.newCmd q p .fetched 0) }

/-! IB (R58). -/

/-- IB (R58): its packets run next. -/
def execIb (q : Nat) (s : State) : Out :=
  s.packet q 10 fun s c =>
    let o := { c with ib := some (pkNat c.packet 16 8, pkNat c.packet 24 4), phase := .working }
    s.setSlot q { s.slot q with cmd := none, outer := some o }

/-! DESTROY (R61). -/

/-- The leaves of a table, which maps what stands from `va` on, and of the tables below it (R35); entries 0 to 31 of the root
are never consulted (R34). -/
def State.leaves (s : State) (conf : Bool) : List Nat → Nat → Nat → List TlbEntry
  | [], _, _ => []
  | level :: rest, table, va =>
    (List.range (if level = 4 then 16 else 512)).flatMap fun i =>
      match physOf 0 (table % 2 ^ 39 + 16 * i) with
      | none => []
      | some pa =>
        let w0 : Word := BitVec.ofNat 64 (readNat s.mem pa 8)
        let w1 : Word := BitVec.ofNat 64 (readNat s.mem (pa + 8) 8)
        let at_ := va + i * (if level = 4 then 2 ^ 17 else 2 ^ (48 - 9 * level))
        let e : TlbEntry := { slot := 0, va := at_, size := leafBytes level, w0 := w0, w1 := w1 }
        if (level = 1 ∧ i < 32) || !w0.getLsbD 0 || (entryFault level s.pkg conf w0 w1).isSome then []
        else if w0.getLsbD 5 then [e]
        else s.leaves conf rest e.addr at_

/-- The pages that a queue's tables map; a root in another package maps none (R34). -/
def State.pagesOf (s : State) (q : Nat) : List TlbEntry :=
  let b := s.qcb q
  let root := Word.field (wordAt b 2) 51 0
  if root / 2 ^ 39 = s.pkg then s.leaves (qcbConf b) [1, 2, 3, 4] root 0 else []

/-- The bytes of a page of a confidential context wiped (R38, R62). -/
def State.wipe (s : State) (pa len : Nat) : State :=
  { s with mem := putCells s.mem pa len [], poison := putPoison s.poison pa len [] }

/-- The SRAM pages of a confidential context are zeroised when it exits (R62), those of another package by a message to its
home. -/
def State.zeroise (s : State) (q : Nat) : State :=
  (if qcbConf (s.qcb q) then s.pagesOf q else []).foldl (fun s e => match physOf 2 (e.addr % 2 ^ 39) with
    | some pa =>
      if e.space ≠ 2 then s
      else if e.addr / 2 ^ 39 = s.pkg then s.wipe pa e.size
      else s.send { iss := frontEnd s.pkg q, more := [], pkg := e.addr / 2 ^ 39, home := homeOf pa, colour := 8, group := 0, cmd := 0,
                    body := .wipe pa e.size }
    | none => s) s

/-- A queue is draining. -/
def State.drain (s : State) (q : Nat) : State := s.onQcb q fun b => qcbPut b 1 63 60 2

/-- The running command of a queue is cancelled as a whole (R61, R84); work of a packet without tasks ends as it stands. -/
def State.cancelAll (s : State) (q : Nat) : State :=
  match (s.slot q).cmd with
  | none => s
  | some c =>
    if c.phase = .fetched then s.setCmd q (some { c with cancel := true, phase := .finished })
    else if c.phase = .preparing ∨ !c.launches then s.setCmd q (some { c with cancel := true })
    else s.cancelHere (frontEnd s.pkg 4096) (2 ^ 48) q

/-- The packet behind the one that runs in an indirect buffer (R58). -/
def State.behindIb (s : State) (q : Nat) : Option (List Byte) :=
  match (s.slot q).outer.bind (·.ib), (s.slot q).cmd with
  | some (a, left), some c =>
    let p := wholePacket fun n => readBytes s.hostMem (a + 64 * c.beats) (64 * n)
    if c.beats + pkBeats p ≤ left ∧ pkCrcOk p ∧ pkOk p then some p else none
  | _, _ => none

/-- The packet behind the one that runs in the ring of a mapped queue, be it an IB whose packets run (R58, R61). -/
def State.behindRing (s : State) (q : Nat) : Option (List Byte) :=
  let x := s.slot q
  match x.hw, x.cmd with
  | some _, some c =>
    let size := qcbSize x.qcb
    let h := (qcbHead x.qcb + (x.outer.getD c).beats) % size
    let used := (qcbHead x.qcb + size - h) % size
    if h = (s.queue q).tail ∨ used = 0 then none
    else
      let p := s.ringPacket q h
      if pkCrcOk p && pkOk p then some p else none
  | _, _ => none

/-- The DESTROY that follows the running packet: in its indirect buffer, or in the ring (R58, R61) (DEDUCED, log entry 64). -/
def State.behind (s : State) (q : Nat) : Option (List Byte) :=
  ((s.behindIb q).filter fun p => pkOp p == 8).or ((s.behindRing q).filter fun p => pkOp p == 8)

/-- A DESTROY with cancel cancels the command before it, and the rest of an indirect buffer that it stands behind (R61)
(DEDUCED, log entry 64). -/
def State.cancelBehind (s : State) (q : Nat) : State :=
  let s := if (s.behindIb q).any fun p => pkOp p == 8 then s
    else match (s.slot q).outer with
      | some o => s.setOuter q (some { o with cancel := true })
      | none => s
  s.cancelAll q

/-- DESTROY (R61): while a command runs, a DESTROY behind it drains the queue and may cancel the command; when its
turn comes, the pages of a confidential context are zeroised before its record. -/
def execDestroy (q : Nat) (s : State) : Out :=
  match (s.slot q).cmd, s.behind q with
  | some c, some p =>
    if qcbState (s.slot q).qcb = 2 ∨ c.op = 8 then s.packet q 8 fun s _ => ((s.drain q).zeroise q).phase q .working
    else .next (if pkCancel p then (s.cancelBehind q).drain q else s.drain q)
  | _, _ => s.packet q 8 fun s _ => ((s.drain q).zeroise q).phase q .working

end Sys2Proof.Machine
end

