-- ==== Sys2Proof/Machine/Tables.lean ====
section
/-! DEFINITION. What a LAUNCH brings and what is checked before any memory changes: the group table (R66, R67), the
hinge table (R65), the image (R113-R115) and the region descriptors (R45, R47). -/

namespace Sys2Proof.Machine

/-! The group table (R66, R67). -/

/-- A packed word's width or height part, and a tile's place. -/
def packX (w : Nat) : Nat := w / 2048 % 32
def packY (w : Nat) : Nat := w / 32 % 64

/-- The tiles of a rectangle in a rank order (R67). -/
def rankTiles (x y w h layout : Nat) : List Nat :=
  let tile := fun r c => 32 * (y + r) + (x + c)
  if layout = 1 then (List.range w).flatMap fun c => (List.range h).map fun r => tile r c
  else (List.range h).flatMap fun r =>
    (List.range w).map fun c => tile r (if layout = 2 ∧ r % 2 = 1 then w - 1 - c else c)

/-- Tile `t` can be a member: it is not fenced, nor in twin mode its mirror (R67, R357, R362). -/
def State.canServe (s : State) (twin : Bool) (t : Nat) : Bool :=
  !s.fenced.contains t && !(twin && decide (tileX t < 16) && s.fenced.contains (t + 16))

/-- The members of an entry in rank order (R67). -/
def State.entryMembers (s : State) (twin : Bool) (ws : List Word) : List Nat :=
  let w0 := wordAt ws 0
  let o := Word.field w0 47 32
  let e := Word.field w0 63 48
  let bit := fun t => (readByte s.hostMem ((wordAt ws 1).toNat + t / 8)).getLsbD (t % 8)
  (rankTiles (packX o) (packY o) (packX e + 1) (packY e + 1) (Word.field (wordAt ws 2) 23 16)).filter fun t =>
    (!w0.getLsbD 1 || bit t) && s.canServe twin t

/-- The barriers that an entry binds, in their order. -/
def entryBars (ws : List Word) : List Nat :=
  ((List.range 4).filter fun i => (wordAt ws 2).getLsbD (39 + 8 * i)).map fun i => Word.field (wordAt ws 2) (38 + 8 * i) (32 + 8 * i)

/-- A valid entry's fields are in range (R66, R67). -/
def entryOk (ws : List Word) : Bool :=
  let w0 := wordAt ws 0
  let w2 := wordAt ws 2
  let o := Word.field w0 47 32
  let e := Word.field w0 63 48
  let l := Word.field w0 31 16
  let inside := decide (packX o ≤ packX l) && decide (packX l ≤ packX o + packX e) && decide (packY o ≤ packY l) &&
    decide (packY l ≤ packY o + packY e)
  let fan := Word.field w2 15 8
  o % 32 == 0 && e % 32 == 0 && l % 32 == 0 && Word.field w0 15 2 == 0 && decide (packX o + packX e < 32) &&
  decide (packY o + packY e < 64) && inside &&
  (if w0.getLsbD 1 then (wordAt ws 1).toNat % 64 == 0 else wordAt ws 1 == 0) &&
  Word.field w2 31 24 == 0 && Word.field w2 7 2 == 0 && decide (Word.field w2 23 16 ≤ 2) &&
  (fan == 0 || (decide (2 ≤ fan) && decide (fan ≤ 16))) && ((ws.drop 3).all (· == 0))

/-- A valid entry as a group. -/
def State.groupOf (s : State) (twin : Bool) (id : Nat) (ws : List Word) : Group :=
  let ms := s.entryMembers twin ws
  let named := wordTile (Word.field (wordAt ws 0) 31 16)
  { id := id, members := ms, leader := if ms.contains named then named else ms.headD named, bars := entryBars ws
    fanout := Word.field (wordAt ws 2) 15 8, server := Word.field (wordAt ws 2) 1 0
    right := packX (Word.field (wordAt ws 0) 47 32) + packX (Word.field (wordAt ws 0) 63 48) }

/-- Entry `g` of a group table: its group, nothing, or malformed. -/
def State.readGroup (s : State) (twin : Bool) (table g : Nat) : Option (Option Group) :=
  let ws := bytesWords (readBytes s.hostMem (table + 64 * g) 64)
  if !(wordAt ws 0).getLsbD 0 then if ws.all (· == 0) then some none else none
  else if !entryOk ws || (s.entryMembers twin ws).isEmpty then none
  else some (some (s.groupOf twin g ws))

/-- The whole table obeys the limits of R66, R67 and R315. -/
def groupsOk (gs : List Group) : Bool :=
  let bars := gs.flatMap (·.bars)
  let all := (gs.flatMap (·.members)).eraseDups
  bars.eraseDups.length == bars.length &&
  all.all fun t => decide ((gs.filter fun g => g.members.contains t).length ≤ 4) &&
    decide ((gs.filter fun g => g.members.contains t && g.fanout != 0).length ≤ 1)

/-- The group table at a host address. -/
def State.readGroups (s : State) (twin : Bool) (table : Nat) : Option (List Group) :=
  ((List.range 256).mapM (s.readGroup twin table)).bind fun l =>
    let gs := l.filterMap id
    if groupsOk gs then some gs else none

/-! The hinge table (R65). -/

/-- A hinge-table entry is well formed, in a command with or without a code region. -/
def hingeOk (code : Bool) (w : Word) : Bool :=
  Word.field w 63 48 == 0 && Word.field w 30 25 == 0 && Word.field w 23 0 % 4 == 0 && decide (Word.field w 23 0 < 0x100000) &&
  (!hingeAbsent w || w == 0x80000000) && (!hingeStack w || code)

/-! The image (R113-R115). -/

/-- Bytes of an image. -/
def imgNat (img : List Byte) (at_ n : Nat) : Nat := bytesNat ((img.drop at_).take n)

/-- The segments of an image: address, length, offset, kind, and their reserved bytes. -/
def segments (img : List Byte) : List (Nat × Nat × Nat × Nat × Nat) :=
  (List.range (imgNat img 6 2)).map fun i =>
    let b := 64 + 16 * i
    (imgNat img b 4, imgNat img (b + 4) 4, imgNat img (b + 8) 4, imgNat img (b + 12) 1, imgNat img (b + 13) 3)

/-- A segment is loaded into the tiles (R114). -/
def loaded (g : Nat × Nat × Nat × Nat × Nat) : Bool := decide (g.2.2.2.1 ≤ 1)

/-- Two loaded segments overlap (R115); so does an empty one that lies strictly inside another (DESIGN CHOICE, log entry 82). -/
def overlap (a b : Nat × Nat × Nat × Nat × Nat) : Bool :=
  loaded a && loaded b && decide (a.1 < b.1 + b.2.1) && decide (b.1 < a.1 + a.2.1)

/-- An initial xb is one that R88 allows. -/
def xbOk (x : Nat) : Bool := x % 4096 == 0 && decide (0x1000 ≤ x) && decide (x ≤ 0x100000)

/-- No two elements of a list stand in a relation. -/
def noPair {α : Type} (r : α → α → Bool) : List α → Bool
  | [] => true
  | a :: l => l.all (fun b => !r a b) && noPair r l

/-- The checks of an image (R115); a segment whose length or offset is no multiple of 4 (R113) fails them too (DESIGN CHOICE,
log entry 81), and so do an initial xb that R88 refuses and a segment table that runs past the image's end (DESIGN CHOICE, log
entry 98). -/
def imageOk (img : List Byte) : Bool :=
  let nseg := imgNat img 6 2
  let xb := imgNat img 8 4
  let gs := segments img
  decide (64 ≤ img.length) && imgNat img 0 4 == 0x4F414843 && imgNat img 4 2 == 1 && decide (1 ≤ nseg) && decide (nseg ≤ 64) &&
  xbOk xb && imgNat img 15 1 == 0 && imgNat img 16 8 == img.length && ((img.drop 24).take 40).all (· == 0) &&
  decide (64 + 16 * nseg ≤ img.length) &&
  (gs.all fun g => decide (g.2.2.2.1 < 8) && g.2.2.2.2 == 0 && g.2.1 % 4 == 0 && g.2.2.1 % 4 == 0 &&
    decide (g.2.2.1 + g.2.1 ≤ img.length) && (decide (g.2.2.2.1 ≤ 2) || g.1 == 0) && (!loaded g || decide (g.1 + g.2.1 ≤ xb))) &&
  noPair overlap gs

/-! Regions (R45, R47). -/

def Region.base (r : Region) : Nat := Word.field r.w0 47 0
def Region.ctype (r : Region) : Nat := Word.field r.w1 55 52
def Region.width (r : Region) : Nat := Word.field r.w1 51 50
def Region.init (r : Region) : Nat := Word.field r.w1 43 40
def Region.pages (r : Region) : Nat := Word.field r.w1 31 0
/-- The page size that a size code names. -/
def Region.pageSize (r : Region) : Nat := leafBytes (4 - Word.field r.w1 47 46)
def Region.bytes (r : Region) : Nat := r.pages * r.pageSize

/-- Region descriptor `i` of a packet, with its reserved words. -/
def pkRegion (p : List Byte) (i : Nat) : Region × Bool :=
  let ws := bytesWords ((p.drop (128 + 64 * i)).take 64)
  ({ w0 := wordAt ws 0, w1 := wordAt ws 1, src := wordAt ws 2, len := wordAt ws 3, owner := wordAt ws 4 }, (ws.drop 5).all (· == 0))

/-- A descriptor is legal in itself (R45, R47).  No rule says how a region fails that runs past VA 2^48: the model fails its
descriptor, with page index 0 (DESIGN CHOICE, log entry 94). -/
def Region.ok (r : Region) : Bool :=
  let i := r.init
  Word.field r.w0 63 48 == 0 && Word.field r.w1 39 32 == 0 && Word.field r.w1 47 46 != 3 && decide (i ≤ 4) &&
  decide (1 ≤ r.pages) && r.base % r.pageSize == 0 && decide (0x100000000000 ≤ r.base) && decide (r.base + r.bytes ≤ 2 ^ 48) &&
  Word.field r.owner 63 16 == 0 && (r.ctype == 0 || r.owner == 0) && ((i != 0 && i != 1) || r.src == 0) &&
  ((i == 2 || i == 3) || r.len == 0) && decide (r.len.toNat ≤ r.bytes) && (i != 4 || r.ctype == 0)

/-- Two regions overlap. -/
def Region.meets (a b : Region) : Bool := decide (a.base < b.base + b.bytes) && decide (b.base < a.base + a.bytes)

/-- A page is as its descriptor expects (R47), its home's tile is not fenced, nor in twin mode that of its mirror (R362), and
in twin mode it lies in the west half (R357). -/
def State.pageOk (s : State) (twin : Bool) (r : Region) (va : Nat) (e : TlbEntry) : Bool :=
  let w := r.w1
  let o := e.addr % 2 ^ 39
  let tile := o / 2 ^ 22 % 32 + 32 * (o / 2 ^ 27 % 64)
  e.va == va && e.size == r.pageSize && e.sizeCode == Word.field w 47 46 && e.space == Word.field w 49 48 && e.ctype == r.ctype &&
  e.width == r.width && e.group == Word.field w 63 56 && e.rdall == w.getLsbD 45 && e.conf == w.getLsbD 44 &&
  e.owner == r.owner.toNat && !(e.space == 2 && e.addr / 2 ^ 39 == s.pkg && !s.canServe twin tile) &&
  (!twin || (if e.space = 2 then decide (tileX tile < 16) else decide (o / 2 ^ 36 % 4 < 2)))

/-- The first page of a region from number `i` on that fails, among `n`. -/
def State.badPage (s : State) (q : Nat) (twin : Bool) (r : Region) : Nat → Nat → Option Nat
  | 0, _ => none
  | n + 1, i =>
    let va := r.base + i * r.pageSize
    match s.walk q va with
    | .error _ => some i
    | .ok e => if s.pageOk twin r va e then s.badPage q twin r n (i + 1) else some i

/-- The first failing descriptor and page of the regions (R47), `before` being those already checked. -/
def State.badRegion (s : State) (q : Nat) (twin : Bool) : List (Region × Bool) → List Region → Option (Nat × Nat)
  | [], _ => none
  | (r, zeros) :: rest, before =>
    let n := before.length
    if !zeros || !r.ok || before.any r.meets then some (n, 0)
    else match s.badPage q twin r r.pages 0 with
      | some i => some (n, i)
      | none => s.badRegion q twin rest (before ++ [r])

/-! All checks of a LAUNCH (R64). -/

/-- What the tables of a LAUNCH say. -/
structure Plan where
  groups : List Group
  hinge : List Word
  regions : List Region
  code : Option (Nat × Nat)
  image : List Byte
  root : Rec
  /-- the member set, in twin mode of both halves -/
  members : List Nat
  deriving DecidableEq, Repr

/-- The root record of a packet. -/
def pkRoot (q : Nat) (p : List Byte) : Rec := { words := bytesWords ((p.drop 64).take 64), slot := q }

/-- The tables of a LAUNCH, read and checked (R64 step 2); none where they are malformed. -/
def State.plan (s : State) (q : Nat) (twin : Bool) (p : List Byte) : Option Plan :=
  let regions := (List.range (pkNat p 31 1)).map fun i => (pkRegion p i).1
  let code := (regions.find? fun r => r.ctype == 0xC).map fun r => (r.base, r.bytes)
  let hinge := bytesWords (readBytes s.hostMem (pkNat p 32 8) (8 * pkNat p 28 2))
  let image := readBytes s.hostMem (pkNat p 16 8) (pkNat p 24 4)
  let root := pkRoot q p
  match s.readGroups twin (pkNat p 40 8) with
  | none => none
  | some gs =>
    let ms := (gs.flatMap (·.members)).eraseDups
    if hinge.all (hingeOk code.isSome) && imageOk image && root.ok && (gs.any fun g => g.id == root.group) then
      some { groups := gs, hinge := hinge, regions := regions, code := code, image := image, root := root
             members := if twin then ms ++ ms.map (· + 16) else ms }
    else none

/-- The tile availability map of a list of fenced tiles (R362). -/
def mapImage (fenced : List Nat) : List Byte :=
  (List.range 256).map fun i => (List.range 8).foldl (fun b j => if fenced.contains (8 * i + j) then b else b ||| (1#8 <<< j)) 0
/-- The tile availability map, and its CRC-64 (R362). -/
def State.mapBytes (s : State) : List Byte := mapImage s.fenced
def State.mapDigest (s : State) : Nat := crc64 s.mapBytes

/-- Where a scheduler log stands. -/
def Cmd.logBase (c : Cmd) : Option Nat := physOf 0 (c.log.1 % 2 ^ 39)

/-- The log that a replay follows was taken with another availability map (R356). -/
def State.staleLog (s : State) (c : Cmd) : Bool :=
  c.rlog == 2 && (match c.logBase with
    | some a => readNat s.mem a 8 != s.mapDigest
    | none => true)

/-- A status that rejects a LAUNCH with what it says in ftval, or its plan (R47, R64, R115, R356, R357). -/
def State.checkLaunch (s : State) (q : Nat) (c : Cmd) : Except (Nat × Word) Plan :=
  match s.plan q c.twin c.packet with
  | none => .error (2, 0)
  | some plan =>
    if s.staleLog c then .error (2, 0)
    else if c.twin && plan.groups.any (fun g => decide (16 ≤ g.right)) then .error (3, 0)
    else match s.badRegion q c.twin ((List.range (pkNat c.packet 31 1)).map (pkRegion c.packet)) [] with
      | some (d, i) => .error (3, BitVec.ofNat 64 (d * 2 ^ 32 + i))
      | none => .ok plan

end Sys2Proof.Machine
end

