-- ==== Sys2Proof/Machine/Launch.lean ====
section
/-! DEFINITION. LAUNCH and GANG (R64-R73): preparing regions (R46, R47), loading the image, configuring the tiles,
arming and dispatching; termination waves and quiescence (R81-R83, R294). -/

namespace Sys2Proof.Machine

/-! Regions (R46). -/

/-- The cells that bytes from `lo` list. -/
def cellsAt (lo : Nat) (bs : List Byte) : List Host.Cell :=
  (((List.range bs.length).map (lo + ·)).zip bs).filter fun c => c.2 != emptyByte

/-- A memory with the bytes from `lo` replaced. -/
def overwrite (m : List Host.Cell) (lo : Nat) (bs : List Byte) : List Host.Cell :=
  (m.filter fun c => decide (c.1 < lo)) ++ cellsAt lo bs ++ m.filter fun c => decide (lo + bs.length ≤ c.1)

/-- Bytes written directly, by initialisation or a load: poison in them is cleared (R358). -/
def State.overwrite (s : State) (pa : Nat) (bs : List Byte) : State :=
  { s with
    mem := Sys2Proof.Machine.overwrite s.mem pa bs
    poison := s.poison.filter fun u => !covers pa bs.length u }

/-- The 4,096 bytes that initialisation writes into the block at byte `off` of a region (R46).  No rule says what bottom is in
the rest of a buffer page with init 2 or 3: the model writes zero bytes (DESIGN CHOICE, log entry 102). -/
def State.initBytes (s : State) (r : Region) (off : Nat) : List Byte :=
  let bottom := bottomBlock r.ctype r.width
  if r.init = 4 then (List.replicate 512 (natBytes 8 r.src.toNat)).flatten
  else if r.init = 1 then bottom
  else
    let k := min 4096 (r.len.toNat - off)
    readBytes s.hostMem (r.src.toNat + off) k ++ bottom.drop k

/-- The ONCE cells and ONCET tiles of a block that an image covers, wholly or in part, are FULL (R46). -/
def coverOnce (r : Region) (off pa : Nat) (once : Sparse Nat) : Sparse Nat :=
  let n := cellBytes r.ctype r.width
  if (r.init = 2 ∨ r.init = 3) ∧ (r.ctype = 7 ∨ r.ctype = 8) then
    (List.range (4096 / n)).foldl (fun m i => if off + i * n < r.len.toNat then setAt m (pa + i * n) 1 else m) once
  else once

/-- The headers of a chain returned to empty: consumers, size and fcell stay, every other field is written (R219). -/
def State.emptyBufs (s : State) (ch : Chain) : Nat → Nat → State
  | 0, _ => s
  | n + 1, h =>
    let stop := ch.base + ch.len
    if stop < h + 64 then s
    else
      let b := s.bufBits h
      let t := s.putBuf h { b with st := 0, rel := 0, wp := 0, gen := 0 }
      let t := { t with mem := writeBytes t.mem (h + 32) (List.replicate 32 0) }
      if b.size = 0 ∨ b.size % 64 ≠ 0 ∨ stop < h + 64 + b.size then t else t.emptyBufs ch n (h + 64 + b.size)

/-- The init action empties the buffers of a page. -/
def Region.empties (r : Region) : Bool := r.init == 1 && r.ctype == 0xB

/-- One block of a region initialised at `pa` with its bytes, which clears its poison (R46, R358). -/
def State.initBlock (s : State) (q : Nat) (r : Region) (off pa : Nat) (ch : Chain) (bytes : List Byte) : State :=
  let k := pa / 4096
  let s := if r.empties then
      { (if pa = ch.base then s.emptyBufs ch (ch.len / 64) ch.base else s) with poison := putPoison s.poison pa 4096 [] }
    else s.overwrite pa bytes
  let s := { s with
    once := coverOnce r off pa (s.once.filter fun e => e.1 / 4096 != k)
    mboxes := s.mboxes.filter fun e => e.1 / 4096 != k
    blocks := dropAt s.blocks k }
  if r.init = 3 then s.boltBlock pa q (Word.field r.w1 63 56) else s

/-- A chain as the mirror half has it. -/
def Chain.mirror (c : Chain) : Chain := { c with base := mirrorPa c.base }

/-- The block that begins at a spot initialised: here, or by a message to its home in another package (R46, R47, R372). -/
def State.initSpot (s : State) (q : Nat) (r : Region) (off : Nat) (p : Spot) (ch : Chain) : State :=
  let bytes := if r.empties then [] else s.initBytes r off
  if p.pkg = s.pkg then (s.seen (s.keyOf q p.e) p.pa).initBlock q r off p.pa ch bytes
  else s.send (s.frontMsg q p 0 8 (.init p.pa off r ch bytes))

/-- The block at byte `off` of a region, in twin mode in both halves (R46, R357). -/
def State.initAt (s : State) (q : Nat) (twin : Bool) (r : Region) (off : Nat) : State :=
  match s.pageAt q (r.base + off) with
  | none => s
  | some p =>
    let s := s.initSpot q r off p p.chain
    if twin then s.initSpot q r off (p.mirror true) p.chain.mirror else s

/-- A region initialised (R46). -/
def State.initRegion (q : Nat) (twin : Bool) (s : State) (r : Region) : State :=
  if r.init = 0 then s else (List.range (r.bytes / 4096)).foldl (fun s i => s.initAt q twin r (4096 * i)) s

/-! Tiles (R64 steps 4 and 5). -/

/-- The loaded segments of an image written into a tile (R114). -/
def State.loadTile (s : State) (img : List Byte) (n : Nat) : State :=
  (segments img).foldl (fun s g =>
    if loaded g then s.overwrite (localPa n g.1) ((img.drop g.2.2.1).take g.2.1) else s) s

/-- Which package and how many a command runs on. -/
def Cmd.gangSize (c : Cmd) : Nat := match c.gang with
  | some g => g.n
  | none => 1

/-- A core's slot of a group (R67, R68); `east` for a tile of the mirror half. -/
def groupSlotOf (pkg : Nat) (g : Group) (t : Nat) (east : Bool) : GroupSlot :=
  let rank := g.members.idxOf t
  { id := g.id, rank := rank, grank := pkg * g.members.length + rank
    leader := if east then g.leader + 16 else g.leader, bars := g.bars }

/-- The children of gang rank `i` in a tree of `total` ranks with fanout `f`. -/
def childCount (total f i : Nat) : Nat := min (f * i + f + 1) total - min (f * i + 1) total

/-- rtree of a tile (R315). -/
def treeWord (pkg n : Nat) (g : Group) (t : Nat) (east : Bool) : Word :=
  let m := g.members.length
  let i := pkg * m + g.members.idxOf t
  let parent := (i - 1) / g.fanout
  let ptile := g.members.getD (parent % m) 0 + (if east then 16 else 0)
  let kids := childCount (n * m) g.fanout i
  let up := if i = 0 then 2 ^ 62 else
    (if parent / m = pkg then 0 else 2 ^ 61 + parent / m % 2 ^ 13 * 2 ^ 48) + tileWord ptile * 2 ^ 32 + (i - 1) % g.fanout * 2 ^ 12
  BitVec.ofNat 64 (2 ^ 63 + up + g.id * 2 ^ 24 + kids * 2 ^ 16)

/-- A member tile as a LAUNCH leaves it (R64 step 5, R119, R315): `t` is the tile or its twin in the west half. -/
def CoreSt.configured (c : CoreSt) (pkg n slot : Nat) (gs : List Group) (xb t : Nat) (east : Bool) : CoreSt :=
  let mine := gs.filter fun g => g.members.contains t
  let tree := mine.find? fun g => g.fanout != 0
  let base : CoreSt := { c with
    tvec := 0
    xb := BitVec.ofNat 64 xb
    rtree := match tree with
      | some g => treeWord pkg n g t east
      | none => 0
    groups := mine.map fun g => groupSlotOf pkg g t east
    slot := some slot
    serial := 0, deque := [], overflow := [], ports := Vector.replicate 4 {}, pend := [], spilled := [], loading := []
    saved := none, gated := none
    stealOut := false, stealDir := 0, refusals := 0, backoff := 64, lastServed := 3
    sent := 0, recv := 0, dirty := false, last := 3, switch := true, yielded := false }
  let base := [0, 1, 2, 3].foldl (fun (b : CoreSt) i => b.setCtx i {}) base
  match tree with
  | some g =>
    let kids := Word.field base.rtree 20 16
    (base.setCtx g.server { role := .server }).setPort 3 { bound := some (g.server, 3, true, kids + 1) }
  | none => base

/-- The barriers that a command's groups bind are set to generation 0 (R297). -/
def State.bindBars (s : State) (q n : Nat) (twin : Bool) (gs : List Group) : State :=
  gs.foldl (fun s g => g.bars.foldl (fun s b =>
    s.setBar b { bound := some (q, g.id, if twin then g.members ++ g.members.map (· + 16) else g.members), gangn := n }) s) s

/-- What TLBs and walkers cache of a slot's translations is invalidated (R42). -/
def State.invalidate (s : State) (q : Nat) : State :=
  let keep := fun (l : List TlbEntry) => l.filter fun e => e.slot != q
  { s with
    cores := s.cores.map fun c => (c.1, { c.2 with tlb := keep c.2.tlb, copyTlb := keep c.2.copyTlb })
    quads := s.quads.map fun c => (c.1, { c.2 with tlb := keep c.2.tlb })
    walks := s.walks.filter fun w => w.slot != q
    walkFails := s.walkFails.filter fun f => f.slot != q
    pointers := s.pointers.map fun d => (d.1, d.2.filter fun p => p.slot != q) }

/-- The log of a command that records begins with the digest of the availability map (R355). -/
def State.beginLog (s : State) (q : Nat) (c : Cmd) : State :=
  let s := { s with schedLog := s.schedLog.filter fun e => e.1 / 2 ^ 12 != q }
  match c.rlog, c.logBase with
  | 1, some a => { s with mem := writeBytes s.mem a (natBytes 64 s.mapDigest) }
  | _, _ => s

/-- x3 of every task: the base of the first region with init 3 (R70). -/
def firstImage (rs : List Region) : Word :=
  match rs.find? fun r => r.init == 3 with
  | some r => BitVec.ofNat 64 r.base
  | none => 0

/-- Steps 3 to 5 of R64: regions, image and tiles. -/
def State.prepare (s : State) (q : Nat) (c : Cmd) (p : Plan) : State :=
  let c := { c with
    groups := p.groups, hinge := p.hinge, regions := p.regions, code := p.code, members := p.members, x3 := firstImage p.regions }
  let s := s.setCmd q (some c)
  let s := s.bindBars q c.gangSize c.twin c.groups
  let s := p.regions.foldl (State.initRegion q c.twin) s
  let s := p.members.foldl (fun s n => s.loadTile p.image n) s
  let xb := imgNat p.image 8 4
  let s := p.members.foldl (fun s n =>
    let east := s.inMirror q n
    s.setCore n ((s.core n).configured s.pkg c.gangSize q c.groups xb (if east then n - 16 else n) east)) s
  (s.invalidate q).beginLog q c

/-- The root record starts on its group's leader (R72), in twin mode in both halves. -/
def State.dispatch (s : State) (q : Nat) (t : Word) : State :=
  match (s.slot q).cmd with
  | none => s
  | some c =>
    let r := pkRoot q c.packet
    let s := s.onCmd q fun c => { c with phase := .running, tstart := t, clean := 0 }
    match c.groups.find? fun g => g.id == r.group with
    | none => s
    | some g =>
      let one := fun (s : State) n => match (s.core n).freeCtx with
        | some i => s.startOn n i r
        | none => s
      if c.twin then one (one s g.leader) (g.leader + 16) else one s g.leader

/-- A command of another queue holds a tile of the member set or a barrier of the group table (R64 step 1). -/
def State.blockedBy (s : State) (q : Nat) (p : Plan) : Bool :=
  let bars := p.groups.flatMap (·.bars)
  s.slots.any fun x => x.1 != q && (match x.2.cmd with
    | some c => (c.members.any fun n => p.members.contains n) || c.groups.any fun g => g.bars.any fun b => bars.contains b
    | none => false)

/-- A link failed under a packet's own messages (R18). -/
def Cmd.lostLink (c : Cmd) : Bool := c.west.faults.rows.any fun r => r.1 == 0x2B

/-- A prepared command goes on by `f` once other packages have initialised what they hold of its regions (R47, R64). -/
def State.whenReady (s : State) (q : Nat) (f : State → Cmd → State) : State :=
  match (s.slot q).cmd with
  | some c => if s.frontOwes q || (s.slot q).hw.isNone then s.phase q .preparing else f s c
  | none => s

/-- The command of a queue, of opcode `op`, waits for other packages. -/
def State.isPreparing (s : State) (q op : Nat) : Bool :=
  match (s.slot q).cmd with
  | some c => c.op == op && decide (c.phase = .preparing)
  | none => false

/-- A LAUNCH that is prepared: its root task is dispatched; a cancelled one, and one whose messages met a failed link, ends. -/
def State.launchReady (s : State) (q : Nat) : State :=
  s.whenReady q fun s c => if c.cancel || c.lostLink then s.phase q .finished else s.dispatch q s.tick

/-- LAUNCH (R64) (DEDUCED, log entry 57). -/
def execLaunch (q : Nat) (s : State) : Out :=
  if s.isPreparing q 1 then .next (s.launchReady q)
  else s.packet q 1 fun s c =>
    match s.checkLaunch q c with
    | .error (status, ftval) => s.onCmd q fun c => { c with phase := .finished, status := status, ftval := ftval }
    | .ok p => if s.blockedBy q p then s else (s.prepare q c p).launchReady q

/-! Gang launch (R73). -/

/-- A control flit of a queue's gang, named by its gang identity (R53).  On vnet 8 a word says what follows: 0 an ARM or NOARM,
1 the decision, 2 a fence report (R73, R294). -/
def State.gangFlit (s : State) (q p vnet : Nat) (ws : List Nat) : State :=
  s.flitTo p vnet (Word.field (wordAt (s.slot q).qcb 5) 47 32 :: ws)

/-- A change of the gang side of a queue's command. -/
def State.onGang (s : State) (q : Nat) (f : Gang → Gang) : State := s.onCmd q fun c => { c with gang := c.gang.map f }

/-- An ARM (status 0) or NOARM that came at tick `at_` for the gang, which starts at tick `start`: the first of its package
counts, unless it came after tick T - M (R73). -/
def Gang.armedBy (g : Gang) (pkg status start : Nat) (counts : List (Nat × Nat)) (at_ : Nat) : Gang :=
  if g.tick ≠ start || g.arms.any (·.1 == pkg) || decide (g.tick < at_ + g.margin) then g
  else { g with arms := g.arms ++ [(pkg, status, counts)] }

/-- The gang of a queue whose start tick is `start`: its packet has been read. -/
def State.gangAt (s : State) (q start : Nat) : Bool := ((s.slot q).cmd.bind (·.gang)).any fun g => g.tick == start

/-- An ARM or NOARM reaches the coordinator (R73); one that comes before the coordinator's own packet has been read waits for
it. -/
def State.armed (s : State) (q pkg status start : Nat) (counts : List (Nat × Nat)) : State :=
  let now := s.tick.toNat
  if s.gangAt q start then s.onGang q fun g => g.armedBy pkg status start counts now
  else if start < now then s
  else s.setQueue q { s.queue q with arms := (s.queue q).arms ++ [⟨pkg, status, start, counts, now⟩] }

/-- The member counts of a command's groups, which its ARM carries (R68). -/
def Cmd.counts (c : Cmd) : List (Nat × Nat) := c.groups.map fun g => (g.id, g.members.length)

/-- This package is prepared, or cannot be: it arms or says so. -/
def State.sendArm (s : State) (q status : Nat) : State :=
  let s := s.phase q .armed
  let counts := match (s.slot q).cmd with
    | some c => if status = 0 then c.counts else []
    | none => []
  let start := (((s.slot q).cmd.bind (·.gang)).map (·.tick)).getD 0
  if s.pkg = 0 then s.armed q 0 status start counts
  else s.gangFlit q 0 8 ([0, s.pkg, status, start] ++ counts.flatMap fun n => [n.1, n.2])

/-- A gang's package is prepared and arms; one whose messages met a failed link cannot. -/
def State.gangReady (s : State) (q : Nat) : State := s.whenReady q fun s c => s.sendArm q (if c.lostLink then 9 else 0)

/-- The packages of a queue's gang (R53). -/
def State.gangCount (s : State) (q : Nat) : Nat := max 1 (Word.field (wordAt (s.qcb q) 5) 31 16)

/-- The gang side of a GANG packet (R53, R56, R73), with what has come for it before it was read: ARMs, and a decision. -/
def State.newGang (s : State) (q : Nat) (c : Cmd) : Gang :=
  let w := wordAt (s.slot q).qcb 5
  let margin := if Word.field w 15 0 = 0 then 50 else Word.field w 15 0
  let t := pkNat c.packet 56 8
  let g : Gang := { tick := t, margin := margin * 1000, n := max 1 (Word.field w 31 16), arms := [], decision := none, waves := [], reports := [] }
  let g := (s.queue q).arms.foldl (fun g a => g.armedBy a.pkg a.status a.start a.counts a.came) g
  { g with decision := ((s.queue q).decision.filter fun d => d.2 == t).map (·.1) }

/-- What came for a gang before its packet was read is taken. -/
def State.takeEarly (s : State) (q : Nat) : State := s.setQueue q { s.queue q with arms := [], decision := none }

/-- GANG (R73); a package that holds ABORT already completes the packet with its status. -/
def execGang (q : Nat) (s : State) : Out :=
  if s.isPreparing q 2 then .next (s.gangReady q)
  else s.packet q 2 fun s c =>
    let g := c.gang.getD (s.newGang q c)
    if c.gang.isNone ∧ g.tick < s.tick.toNat then s.reject q 4
    else
      let s := if c.gang.isNone then s.takeEarly q else s
      let c := { c with gang := some g }
      let s := s.setCmd q (some c)
      if g.decision.any (· != 0) then s.reject q (g.decision.getD 0)
      else match s.checkLaunch q c with
      | .error (status, ftval) => (s.onCmd q fun c => { c with status := status, ftval := ftval }).sendArm q status
      | .ok p => if s.blockedBy q p then s else (s.prepare q c p).gangReady q

/-- ARM (R73), at package 0: a status, the start tick of the gang, and the member counts of the groups of a package that is
prepared (R68). -/
def execArm (q pkg : Nat) (status : BitVec 8 × Nat × List (Nat × Nat)) (s : State) : Out :=
  if s.pkg ≠ 0 then .next s else .next (s.armed q pkg status.1.toNat status.2.1 status.2.2)

/-- A decision takes effect on this package (R73): COMMIT waits for the start tick, ABORT completes the packet. -/
def State.decided (s : State) (q status : Nat) : State :=
  let s := s.onGang q fun g => { g with decision := some status }
  if status = 0 then s else s.onCmd q fun c => { c with phase := .finished, status := status }

/-- The gang of a queue that waits for its decision. -/
def State.undecided (s : State) (q : Nat) : Option Gang :=
  match (s.slot q).cmd with
  | some c =>
    if c.phase = .armed ∨ c.phase = .fetched ∨ c.phase = .preparing then
      match c.gang with
      | some g => if g.decision.isNone then some g else none
      | none => none
    else none
  | none => none

/-- What the coordinator decides: the first NOARM status; 0x02 where the member counts differ (R68); COMMIT with every ARM,
else LATE (DEDUCED, log entry 58). -/
def Gang.verdict (g : Gang) : Nat :=
  match g.arms.find? fun a => a.2.1 != 0 with
  | some a => a.2.1
  | none =>
    if g.arms.any fun a => a.2.2 != (g.arms.headD (0, 0, [])).2.2 then 2
    else if (List.range g.n).all fun p => g.arms.any (·.1 == p) then 0 else 4

/-- The coordinator decides, and tells every other package. -/
def State.decideGang (s : State) (q : Nat) : State :=
  match s.undecided q with
  | some g => if s.pkg = 0 then ((s.others q).foldl (fun s p => s.gangFlit q p 8 [1, g.verdict, g.tick]) s).decided q g.verdict else s
  | none => s

/-- GANG_DECIDE (R73): at tick T - M. -/
def execGangDecide (q : Nat) (s : State) : Out :=
  match s.undecided q with
  | some g => if s.tick.toNat + g.margin < g.tick then .next s else .next (s.decideGang q)
  | none => .next s

/-- A copy of a decision goes to every other package but the coordinator. -/
def State.relay (s : State) (q status start : Nat) : State :=
  ((List.range (s.gangCount q)).filter fun p => p != 0 && p != s.pkg).foldl (fun s p => s.gangFlit q p 8 [1, status, start]) s

/-- GANG_DECISION (R73), with the start tick of the gang: the first copy is relayed; one that comes after tick T is none; one
that comes before the package's own packet has been read waits for it. -/
def execGangDecision (q : Nat) (status : BitVec 8 × Nat) (s : State) : Out :=
  let k := status.1.toNat
  let start := status.2
  if s.pkg = 0 ∨ start < s.tick.toNat then .next s
  else if s.gangAt q start then .next (if (s.undecided q).isSome then (s.relay q k start).decided q k else s)
  else if (s.queue q).decision.any fun d => d.2 == start then .next s
  else .next ((s.relay q k start).setQueue q { s.queue q with decision := some (k, start) })

/-! Links that fail (R18). -/

/-- A call's way crosses a link. -/
def crosses (pkg link : Nat) : Bool := (Config.linksTo pkg).contains link

/-- The links that a message may leave over: one for all accesses of a PRIV page (R194), else those of its way. -/
def Msg.way (m : Msg) : List Nat :=
  let l := Config.linksTo m.pkg
  if m.plain then (l[Config.pageLink m.pkg m.page % l.length]?).toList else l

/-- A message is outstanding over a link: it has left over it, or no other link of its way is left. -/
def State.isOver (s : State) (link : Nat) (m : Msg) : Bool :=
  match m.wired with
  | some l => l == link
  | none => m.way.contains link && m.way.all fun l => (look {} s.links l : Link).failed

/-- A lost message counts as received, but a call or the note that ends one: the call is declared lost (R310). -/
def Body.lostCounts : Body → Bool
  | .hcall _ => false
  | .hnote _ n => !n.ends
  | _ => true

/-- Every task with a message outstanding over a link, or a request whose answer is, receives link failure, under no colour
(R18, R335); the messages are gone. -/
def State.dropOver (s : State) (link : Nat) : State :=
  let lost := (s.outbox ++ s.asked).filter (s.isOver link)
  let s := { s with outbox := s.outbox.filter fun m => !s.isOver link m, asked := s.asked.filter fun m => !s.isOver link m }
  let tell := fun (s : State) (m : Msg) =>
    let s := if m.body.lostCounts then s.receivedAll m else s
    match m.body with
    | .hcall _ | .control .. | .report .. | .flags _ | .result .. | .wake .. | .hnote .. | .mreply _ | .ack _ | .boltAck | .unlatch => s
    | _ => s.reportAll { m with colour := 8 } 0x2B (BitVec.ofNat 64 link)
  lost.foldl tell s

/-- The calls whose way crosses a link are lost (R310), but a posted one that ACCEPT has completed, whose end is lost. -/
def State.loseOver (s : State) (link : Nat) : State :=
  (s.remoteCalls.filter fun k => crosses k.pkg link).foldl (fun s k => if k.accepted then s.loseEnd link k else s.loseCall k) s

/-- The gang barriers that a failed link cuts off from package 0 (R299). -/
def State.breakBars (s : State) (link : Nat) : State :=
  let cut := fun (b : Nat × Bar) => decide (1 < b.2.gangn) &&
    (if s.pkg = 0 then (List.range b.2.gangn).any fun p => p != 0 && crosses p link else crosses 0 link)
  (s.bars.filter cut).foldl (fun s b => s.breakBar b.1 link) s

/-- A checkpoint that streams over a failed link ends with link failure (R359), and what it has to send there is gone. -/
def State.breakStreams (s : State) (link : Nat) : State :=
  s.slots.foldl (fun s x => match x.2.chkpt with
    | some c =>
      if c.op = 9 ∧ c.phase = .working ∧ (maskLinks (pkNat c.packet 32 2)).contains link
      then s.onChkpt x.1 fun c => { c with phase := .finished, link := true } else s
    | none => s) { s with stream := s.stream.filter (·.1 != link) }

/-- A link is declared failed (R18); a package has links 0 to 11 (R15). -/
def State.failLink (s : State) (link : Nat) : State :=
  let l := look {} s.links link
  if l.failed ∨ 12 ≤ link then s
  else
    let s := { s with links := setAt s.links link { l with up := false, retraining := false, failed := true, failures := l.failures + 1 } }
    ((((s.bump (0x0A30 + 8 * link)).dropOver link).loseOver link).breakBars link).breakStreams link

/-- A gang starts; the queue of a package that energy has held is unmapped, and its command pre-empted at once (R60). -/
def State.gangDispatch (s : State) (q : Nat) (t : Word) : State :=
  let s := s.dispatch q t
  if (s.slot q).hw.isNone then s.preempt q else s

/-- GANG_START (R73): at tick T; the coordinator has decided by then. -/
def execGangStart (q : Nat) (s : State) : Out :=
  match (s.slot q).cmd.bind (·.gang) with
  | none => .next s
  | some g =>
    if s.tick.toNat < g.tick then .next s
    else
      let s := s.decideGang q
      match (s.slot q).cmd with
      | none => .next s
      | some c =>
        if c.phase ≠ .armed ∧ c.phase ≠ .fetched ∧ c.phase ≠ .preparing then .next s
        else match c.gang.bind (·.decision) with
          | some 0 => if c.cancel then .next (s.phase q .fencing) else .next (s.gangDispatch q (BitVec.ofNat 64 g.tick))
          | some _ => .next s
          | none =>
            let s := s.onCmd q fun c => { c with phase := .finished, status := 0, link := true }
            .next (((s.others q).flatMap Config.linksTo).foldl State.failLink s)

/-! Termination (R81-R83). -/

/-- A wave over the member tiles: all idle, some dirty, sent minus received. -/
def State.wave (s : State) (ms : List Nat) : Bool × Bool × Int :=
  (ms.all s.tileIdle, ms.any fun n => (s.core n).dirty,
    ms.foldl (fun a n => a + ((s.core n).sent : Int) - ((s.core n).recv : Int)) 0)

/-- The dirty bits that a wave clears. -/
def State.cleanTiles (s : State) (ms : List Nat) : State := ms.foldl (fun s n => s.setCore n { s.core n with dirty := false }) s

/-- The parked residue of a core ends (R83). -/
def State.endParked (q : Nat) (s : State) (n : Nat) : State :=
  let f := fun (y : Tally) => { y with residue := satSucc 32 y.residue }
  let s := [0, 1, 2, 3].foldl (fun (s : State) i =>
    let x := s.ctxOf n i
    if decide (x.role = .task) && x.slot == q then s.endTask n i f else s) s
  let mine := (s.core n).spilled.filter fun p => p.ctx.slot == q
  let s := mine.foldl (fun (s : State) p => s.leave (s.idOf n p.num p.ctx) p.ctx f) s
  s.setCore n { s.core n with spilled := (s.core n).spilled.filter fun p => p.ctx.slot != q }

/-- Quiescence (R83): the parked residue is cancelled and counted, every latch of the command goes, also those whose waiters
are in other packages of its gang (R207), and the device-wide fence begins. -/
def State.quiesce (s : State) (q : Nat) : State :=
  let s := (s.cmdTiles q).foldl (State.endParked q) s
  (s.removeLatches fun l => l.iss.task.slot == q).phase q .fencing

/-- A wave counts towards quiescence: the second clean one in a row declares it (R82). -/
def State.countWave (s : State) (q : Nat) (clean : Bool) : State :=
  let n := match (s.slot q).cmd with
    | some c => if clean then c.clean + 1 else 0
    | none => 0
  let s := s.onCmd q fun c => { c with clean := n }
  if 2 ≤ n then s.quiesce q else s

/-- A wave of CHKNOW has been taken, with a sum of zero or not (R360). -/
def State.countSide (s : State) (q : Nat) (zero : Bool) : State :=
  match (s.slot q).side with
  | some c => s.setSlot q { s.slot q with side := some { c with clean := if zero then c.clean + 1 else 0 } }
  | none => s

/-- Package 0 combines the wave results once every package has sent one, and broadcasts the outcome (R82): quiescence, or
whether the sum was zero, for which a package's CHKNOW waits (R360). -/
def State.combineWaves (s : State) (q : Nat) : State :=
  match (s.slot q).cmd.bind (·.gang) with
  | none => s
  | some g =>
    if !(List.range g.n).all fun p => g.waves.any (·.1 == p) then s
    else
      let ws := (List.range g.n).filterMap fun p => g.waves.find? (·.1 == p)
      let sum := ws.foldl (fun a w => a + w.2.2.2) (0 : Int)
      let clean := ws.all (fun w => w.2.1 && !w.2.2.1) && sum == 0
      let s := ((s.onGang q fun g => { g with waves := [] }).countWave q clean).countSide q (sum == 0)
      let ended := (s.slot q).cmd.any fun c => decide (c.phase = .fencing)
      let outcome := if ended then 1 else if sum == 0 then 0 else 2
      (s.others q).foldl (fun s p => s.gangFlit q p 6 [0, outcome]) s

/-- A package's wave result stands at package 0; a later one before the combination adds to it. -/
def State.noteWave (s : State) (q pkg : Nat) (w : Bool × Bool × Int) : State :=
  let add := fun (g : Gang) =>
    let old := (g.waves.find? (·.1 == pkg)).map (·.2)
    let idle := w.1 && (old.map (·.1)).getD true
    let dirty := w.2.1 || (old.map (·.2.1)).getD false
    { g with waves := (pkg, idle, dirty, w.2.2) :: g.waves.filter (·.1 != pkg) }
  (s.onGang q add).combineWaves q

/-- The words of a wave result. -/
def waveWords (pkg : Nat) (w : Bool × Bool × Int) : List Nat := [pkg, w.1.toNat, w.2.1.toNat, wrapInt 64 w.2.2]

/-- The queue's gang waits for its package's next wave result to be taken. -/
def Cmd.waveOut (c : Cmd) (pkg : Nat) : Bool := match c.gang with
  | some g => g.waves.any (·.1 == pkg)
  | none => false

/-- Waves are taken of a running command; of a pre-empted one only for a CHKNOW, which asks for nothing in flight (R346,
R360). -/
def State.waves (s : State) (q : Nat) (c : Cmd) : Bool :=
  decide (c.phase = .running) || decide (c.phase = .preempted) && (s.slot q).side.isSome

/-- TERMINATION_WAVE (R81, R82). -/
def execTerminationWave (q : Nat) (s : State) : Out :=
  match (s.slot q).cmd with
  | none => .next s
  | some c =>
    if !s.waves q c ∨ c.waveOut s.pkg then .next s
    else
      let w := s.wave c.members
      let t := s.cleanTiles c.members
      match c.gang with
      | none => .next ((t.countWave q (w.1 && !w.2.1 && w.2.2 == 0)).countSide q (w.2.2 == 0))
      | some _ => if s.pkg = 0 then .next (t.noteWave q 0 w) else .next (t.gangFlit q 0 6 (waveWords s.pkg w))

/-- GANG_WAVE_RESULT (R82): at package 0 another package's result; elsewhere package 0's outcome: idle for quiescence, else the
sum, for which a CHKNOW waits (R360). -/
def execGangWaveResult (q pkg : Nat) (idle dirty : Bool) (sum : Int) (s : State) : Out :=
  match (s.slot q).cmd with
  | none => .next s
  | some c =>
    if c.gang.isNone ∨ (c.phase ≠ .running ∧ c.phase ≠ .preempted) then .next s
    else if s.pkg = 0 then .next (s.noteWave q pkg (idle, dirty, sum))
    else if pkg ≠ 0 then .next s
    else if !idle then .next (s.countSide q (sum == 0))
    else if c.phase = .running ∧ !dirty ∧ sum = 0 then .next (s.quiesce q) else .next s

/-- GANG_FENCE_REPORT (R294, R351): another package's device-wide fence and its summary. -/
def execGangFenceReport (q pkg : Nat) (status fclass : BitVec 8) (cancel : Bool) (s : State) : Out :=
  .next (s.onGang q fun g =>
    if g.reports.any (·.1 == pkg) then g else { g with reports := g.reports ++ [(pkg, status.toNat, fclass.toNat, cancel)] })

end Sys2Proof.Machine
end

