-- ==== Sys2Proof/Machine/Records.lean ====
section
/-! DEFINITION. Completion: the record (R350-R352), its comparison in twin mode (R357), and the end of a packet (R57,
R58, R61, R294). -/

namespace Sys2Proof.Machine

/-! The record (R350, R351). -/

/-- The sum of all imprecise counts, saturating (R350). -/
def Tally.reports (y : Tally) : Nat := min (y.faults.rows.foldl (fun a r => a + r.2.count) 0) (2 ^ 44 - 1)

/-- A cause lies in a range and has been reported. -/
def Tally.has (y : Tally) (lo hi : Nat) : Bool := y.faults.rows.any fun r => decide (lo ≤ r.1) && decide (r.1 ≤ hi) && r.2.count != 0

/-- Bit i: cause 0x20 + i has a nonzero count. -/
def Tally.present (y : Tally) : Nat := (List.range 12).foldl (fun a i => if y.has (0x20 + i) (0x20 + i) then a + 2 ^ i else a) 0

/-- The least imprecise cause with a nonzero count. -/
def Tally.least (y : Tally) : Option (Nat × FaultRow) := y.faults.rows.find? fun r => r.2.count != 0

/-- fclass (R350). -/
def Tally.fclass (y : Tally) : Nat :=
  let bit := fun (b : Bool) i => b.toNat * 2 ^ i
  bit (y.failed != 0) 0 + bit (y.has 0x20 0x22) 1 + bit (y.has 0x23 0x24) 2 + bit (y.has 0x25 0x27 || y.has 0 0x1F) 3 +
  bit (y.has 0x28 0x28) 4 + bit (y.has 0x29 0x29) 5 + bit (y.has 0x2A 0x2A) 6 + bit (y.has 0x2B 0x2B) 7

/-- The status of a command by the first rule that matches (R351). -/
def Cmd.statusOf (c : Cmd) (y : Tally) : Nat :=
  if c.status ≠ 0 then c.status
  else if c.cancel then 5
  else if c.link || y.has 0x2B 0x2B then 9
  else if y.failed ≠ 0 ∨ y.reports ≠ 0 then 6
  else 0

/-- What the packages of a gang agree on: status, fclass and cancel (R351). -/
structure Verdict where
  status : Nat
  fclass : Nat
  cancel : Bool
  deriving DecidableEq, Repr

/-- This package's own summary. -/
def Cmd.verdict (c : Cmd) (y : Tally) : Verdict := { status := c.statusOf y, fclass := y.fclass, cancel := c.cancel }

/-- Two summaries together: the earlier rule of R351 wins. -/
def Verdict.join (a b : Verdict) : Verdict :=
  let rank := fun n => if n = 5 then 3 else if n = 9 then 2 else if n = 6 then 1 else 0
  { status := if rank a.status < rank b.status then b.status else a.status
    fclass := a.fclass ||| b.fclass
    cancel := a.cancel || b.cancel }

/-- rlog of a record: a full log or an abandoned replay gives 3 (R350, R355). -/
def State.rlogOf (s : State) (q : Nat) (c : Cmd) : Nat :=
  if c.rlog = 1 && s.schedLog.any (fun e => e.2.kind == 16 && e.1 / 2 ^ 12 == q) then 3 else c.rlog

/-- The eight words of a record (R350); for a confidential context only what R352 keeps. -/
def State.record (s : State) (q : Nat) (c : Cmd) (y : Tally) (v : Verdict) (conf : Bool) : List Word :=
  let failure := y.worst.getD { cause := 0, tval := 0, pc := 0, double := false }
  let least := y.least
  let keep := fun n => if conf then 0 else n
  let w0 := v.status % 2 ^ 8 * 2 ^ 56 + pkCmdid c.packet * 2 ^ 32 + keep (v.cancel.toNat * 2 ^ 31 + c.twin.toNat * 2 ^ 30 +
    s.rlogOf q c % 4 * 2 ^ 28) + v.fclass % 2 ^ 8 * 2 ^ 16 + keep y.failed
  let w1 := keep (if c.launches then y.residue * 2 ^ 32 + y.retired else 0)
  let w5 := keep ((least.map (·.1)).getD 0 * 2 ^ 56 + y.present * 2 ^ 44 + y.reports)
  let w6 := keep (if v.status = 3 then c.ftval.toNat else (least.map fun r => r.2.low.toNat).getD 0)
  let w7 := keep (if c.launches then failure.cause * 2 ^ 56 + failure.double.toNat * 2 ^ 55 + failure.pc % 2 ^ 22 / 4 * 4 else 0)
  [BitVec.ofNat 64 w0, BitVec.ofNat 64 w1, c.tstart, s.tick, BitVec.ofNat 64 c.energy, BitVec.ofNat 64 w5, BitVec.ofNat 64 w6, BitVec.ofNat 64 w7]

/-- A record that is dropped or makes a conflict is counted (R352, R361). -/
def State.countRecord (s : State) : State := s.bump 0xCF8

/-- The tile of a packet's record: an ONCET tile of 64 bytes (R350, R352). -/
def State.recordTile (s : State) (q : Nat) (c : Cmd) : Option Spot :=
  let va := pkCvaddr c.packet
  (s.pageAt q va).filter fun p => p.e.ctype == 8 && p.e.width == 0 && va % 64 == 0

/-- The record of a packet has its tile in another package, whose answer the packet awaits (R57). -/
def State.recordFar (s : State) (q : Nat) (c : Cmd) : Bool :=
  pkCvaddr c.packet != 0 && (s.recordTile q c).any fun p => p.pkg != s.pkg

/-- A record joined at its tile (R350, R352), or sent there. -/
def State.joinRecord (s : State) (q : Nat) (c : Cmd) (ws : List Word) : State :=
  let va := pkCvaddr c.packet
  if va = 0 then s
  else match s.recordTile q c with
    | none => s.countRecord
    | some p =>
      if p.pkg ≠ s.pkg then s.send (s.frontMsg q p p.e.group 8 (.join p.pa va 8 0 (wordsBytes ws) false))
      else if (s.block p.pa).bolted then s.countRecord
      else
        let r := (s.seen (s.keyOf q p.e) p.pa).joinCell p.pa 8 0 (wordsBytes ws)
        let t := if r.2.isSome then r.1.countRecord else r.1
        t.redecide p.pa fun l => l.touches (cellBase 8 0 p.pa)

/-! Twin mode (R357). -/

/-- The words of a half that twin mode compares: all but w2 to w4. -/
def State.halfWords (s : State) (q : Nat) (c : Cmd) (y : Tally) : List Word :=
  let ws := s.record q c y (c.verdict y) false
  ws.take 2 ++ ws.drop 5

/-- A page of this package's west half, which a twin-mode command mirrors (R357). -/
def State.mirrored (s : State) (e : TlbEntry) : Bool :=
  let o := e.addr % 2 ^ 39
  decide (e.addr / 2 ^ 39 = s.pkg) && (if e.space = 2 then decide (tileX (o / 2 ^ 22 % 32 + 32 * (o / 2 ^ 27 % 64)) < 16) else decide (o / 2 ^ 36 % 4 < 2))

/-- The blocks of the mirrored lattice pages that a queue's tables map, with their spots (R357). -/
def State.mirroredBlocks (s : State) (q : Nat) : List (Nat × Spot) :=
  ((s.pagesOf q).filter fun e => isLattice e.ctype && s.mirrored e).flatMap fun e =>
    (List.range (e.size / 4096)).filterMap fun i => (e.spot (e.va + 4096 * i)).map fun p => (e.va + 4096 * i, p)

/-- A bolted block whose digest differs between the halves, or that only one half has bolted. -/
def State.halvesDiffer (s : State) (p : Spot) : Bool :=
  let a := (s.block p.pa).bolted
  let b := (s.block (mirrorPa p.pa)).bolted
  (a || b) && (a != b || s.digest p.pa p.e.ctype p.e.width != s.digest (mirrorPa p.pa) p.e.ctype p.e.width)

/-- The lowest VA of a block that differs, among every bolted block (R357). -/
def State.firstDiffer (s : State) (q : Nat) : Option Nat :=
  least (((s.mirroredBlocks q).filter fun x => s.halvesDiffer x.2).map (·.1))

/-- The comparison at completion (R357): a divergence is counted in the west half's record; where only the records
differ, no rule says what stands in low. -/
def State.compareHalves (s : State) (q : Nat) (c : Cmd) : State × Cmd :=
  if !c.twin || !c.launches || c.members.isEmpty then (s, c)
  else
    let note := fun (low : Word) => { c with west := { c.west with faults := c.west.faults.add 0x2A 8 low } }
    match s.firstDiffer q with
    | some va => (s.bump (0x0A90 + 8 * 0x2A), note (BitVec.ofNat 64 va))
    | none =>
      if s.halfWords q c c.west = s.halfWords q c c.east then (s, c)
      else (({ s with free := s.free + 1 } : State).bump (0x0A90 + 8 * 0x2A), note (Config.freeWord s.free))

/-! The end of a packet (R57). -/

/-- What a command had is free again: its tiles, its groups, its barriers and its server contexts. -/
def CoreSt.released (c : CoreSt) : CoreSt :=
  let c := { c with slot := none, groups := [], rtree := 0, ports := Vector.replicate 4 {} }
  [0, 1, 2, 3].foldl (fun (c : CoreSt) i => if decide ((c.ctx i).role = .server) then c.setCtx i {} else c) c

/-- A command's tiles and barriers are released. -/
def State.releaseCmd (s : State) (c : Cmd) : State :=
  let s := c.members.foldl (fun s n => s.setCore n (s.core n).released) s
  c.groups.foldl (fun s g => g.bars.foldl (fun s b => s.setBar b {}) s) s

/-- The completion interrupt (R57). -/
def State.interrupt (s : State) (q : Nat) (c : Cmd) : State :=
  let w := wordAt (s.slot q).qcb 6
  if pkIrq c.packet && w.getLsbD 63 then { s with interrupts := s.interrupts ++ [Word.field w 10 0] } else s

/-- head advances over a packet of the ring, in the slot and in host memory (R57). -/
def State.advanceHead (s : State) (q beats : Nat) : State :=
  let b := (s.slot q).qcb
  let h := (qcbHead b + beats) % qcbSize b
  let s := s.onQcb q fun b => qcbPut b 1 15 0 h
  s.hostWord q 1 (wordAt (qcbPut (s.hostQcb q) 1 15 0 h) 1)

/-- The end of a DESTROY (R61): its slot is free and the queue is destroyed. -/
def State.destroyed (s : State) (q : Nat) : State :=
  let s := s.onQcb q fun b => qcbPut b 1 63 60 3
  let s := (s.setQueue q { s.queue q with destroyed := true }).unmap q
  s.mapFree

/-- The record of a packet (R350-R352). -/
def State.giveRecord (s : State) (q : Nat) (c : Cmd) (v : Option Verdict) : State :=
  s.joinRecord q c (s.record q c c.west (v.getD (c.verdict c.west)) (qcbConf (s.slot q).qcb))

/-- Behind the record of a packet: its interrupt, and what it held (R57). -/
def State.closePacket (s : State) (q : Nat) (c : Cmd) : State := (s.interrupt q c).releaseCmd c

/-- A packet whose record is joined completes: in the ring head advances, in an indirect buffer its place does (R57, R58).  A
DESTROY inside an indirect buffer leaves the IB packet without a record and without an advance of head (DESIGN CHOICE, log
entry 83). -/
def State.finishPacket (s : State) (q : Nat) (c : Cmd) : State :=
  let s := (s.closePacket q c).setCmd q none
  match (s.slot q).outer with
  | some o =>
    let s := s.setOuter q (some { o with ib := o.ib.map fun i => if i.2 = 0 then i else (i.1 + 64 * c.beats, i.2 - c.beats) })
    if c.op = 8 ∧ c.status = 0 then (s.setOuter q none).destroyed q else s
  | none =>
    let s := s.advanceHead q c.beats
    if c.op = 8 ∧ c.status = 0 then s.destroyed q else s.atBoundary q

/-- A packet ends: its record is joined, or on its way to another package, which the packet awaits (R57). -/
def State.endPacket (s : State) (q : Nat) (c : Cmd) (v : Option Verdict) : State :=
  let t := s.giveRecord q c v
  if s.recordFar q c then t.setCmd q (some { c with phase := .recording }) else t.finishPacket q c

/-- An indirect buffer whose record is joined completes (R58). -/
def State.finishIb (s : State) (q : Nat) (o : Cmd) : State :=
  (((s.closePacket q o).setOuter q none).advanceHead q o.beats).atBoundary q

/-- An indirect buffer ends when its packets are done (R58). -/
def State.endIb (s : State) (q : Nat) (o : Cmd) : State :=
  let t := s.giveRecord q o none
  if s.recordFar q o then t.setOuter q (some { o with phase := .recording }) else t.finishIb q o

/-- The packet of CHKNOW completes, and the command resumes (R353, R360). -/
def State.finishSide (s : State) (q : Nat) (c : Cmd) : State :=
  let s := s.closePacket q c
  (s.setSlot q { s.slot q with side := none }).resume q

/-- The packet of CHKNOW ends. -/
def State.endSide (s : State) (q : Nat) (c : Cmd) : State :=
  let t := s.giveRecord q c none
  if s.recordFar q c then t.setSlot q { t.slot q with side := some { c with phase := .recording } } else t.finishSide q c

/-- The work of a packet at its homes is done. -/
def State.workDone (s : State) (q : Nat) (c : Cmd) : Bool := !s.frontOwes q && (c.op != 9 || decide (c.sent ≤ c.acked))

/-- A command's device-wide fence is complete (R83, R294): nothing that its tasks, engines and handlers have issued on this
package is open, be a handler's caller in another package. -/
def State.fenceDone (s : State) (q : Nat) : Bool := !s.owes (fun i => i.task.slot == q) 0x1FF

/-- A gang's package whose fence is complete compares its halves and reports, and joins its record once all have reported
(R294, R351, R357). -/
def State.endGang (s : State) (q : Nat) (c : Cmd) (g : Gang) : State :=
  if !g.reports.any (·.1 == s.pkg) then
    let r := s.compareHalves q c
    let v := r.2.verdict r.2.west
    let s := (r.1.setCmd q (some r.2)).onGang q fun g => { g with reports := g.reports ++ [(s.pkg, v.status, v.fclass, v.cancel)] }
    (s.others q).foldl (fun s p => s.gangFlit q p 8 [2, s.pkg, v.status, v.fclass, v.cancel.toNat]) s
  else if (List.range g.n).all fun p => g.reports.any (·.1 == p) then
    s.endPacket q c (some (g.reports.foldl (fun (a : Verdict) r =>
      a.join { status := r.2.1, fclass := r.2.2.1, cancel := r.2.2.2 }) (c.verdict c.west)))
  else s

/-- A command whose tasks are gone ends once its fence is complete. -/
def State.endFence (s : State) (q : Nat) (c : Cmd) : State :=
  let alone := fun (r : State × Cmd) => r.1.endPacket q r.2 none
  if !s.fenceDone q then s
  else match c.gang with
    | some g => if 1 < g.n then s.endGang q c g else alone (s.compareHalves q c)
    | none => alone (s.compareHalves q c)

/-- A packet that no other event starts: its opcode is reserved (R56), or the indirect buffer is at its end. -/
def State.odd (s : State) (q : Nat) : State :=
  match s.peek q with
  | some p => if pkOp p = 0 ∨ 11 ≤ pkOp p then s.fetchPacket q else s
  | none => s

/-- PACKET_COMPLETE (R57). -/
def execPacketComplete (q : Nat) (s : State) : Out :=
  let x := s.slot q
  let sideDone := x.side.bind fun c =>
    if c.phase = .finished ∨ (c.phase = .working ∧ s.workDone q c) ∨ (c.phase = .recording ∧ !s.frontOwes q) then some c else none
  if x.hw.isNone then .next s
  else match sideDone, x.cmd, x.outer with
    | some c, _, _ => .next (if c.phase = .recording then s.finishSide q c else s.endSide q c)
    | none, some c, _ =>
      match c.phase with
      | .finished => .next (s.endPacket q c none)
      | .working => if s.workDone q c then .next (s.endPacket q c none) else .next s
      | .fencing => .next (s.endFence q c)
      | .recording => if s.frontOwes q then .next s else .next (s.finishPacket q c)
      | _ => .next s
    | none, none, some o =>
      match o.phase, o.ib with
      | .recording, _ => if s.frontOwes q then .next s else .next (s.finishIb q o)
      | _, some (_, 0) => .next (s.endIb q o)
      | _, _ => .next (s.odd q)
    | none, none, none => .next (s.odd q)

end Sys2Proof.Machine
end

