-- ==== Sys2Proof/Machine/Links.lean ====
section
/-! DEFINITION. What comes from other packages and goes to them: names of commands, deliveries (R13, R68, R73, R82, R294, R299),
answers to what was sent (R292, R341), and Teord links with their flits (R17-R19). -/

namespace Sys2Proof.Machine

/-! Names (R53, R68). -/

/-- The gang identity in a QCB, of a queue that is one of a gang of several packages (R53). -/
def qcbGang (b : List Word) : Option Nat :=
  if 1 < Word.field (wordAt b 5) 31 16 then some (Word.field (wordAt b 5) 47 32) else none

/-- The queue of this package that a gang identity names: the one with a gang command, else one that works, else
one that waits. -/
def State.queueOfGang (s : State) (gid : Nat) : Option Nat :=
  let mine := s.slots.filter fun x => qcbGang x.2.qcb == some gid && (x.2.hw.isSome || x.2.cmd.isSome)
  let all := s.queues.find? fun x => x.2.created && !x.2.destroyed && qcbGang (s.qcb x.1) == some gid
  (((mine.find? fun x => x.2.cmd.any fun c => c.gang.isSome).map (·.1)).or ((mine.head?).map (·.1))).or (all.map (·.1))

/-- The queue that a name on a link stands for: a gang identity; a command of this package that is no gang goes by its queue's
number (DEDUCED, log entry 58). -/
def State.localSlot (s : State) (pkg slot : Nat) : Nat := (s.queueOfGang slot).getD (if pkg = s.pkg then slot else 65536)

/-- An issuer that a link names, under this package's queue. -/
def State.localIssuer (s : State) (i : Issuer) : Issuer := { i with task := { i.task with slot := s.localSlot i.task.pkg i.task.slot } }

/-- A call and a packet so. -/
def State.localCall (s : State) (k : Call) : Call := { k with caller := s.localIssuer k.caller }
def State.localPacket (s : State) (p : Packet) : Packet := { p with iss := s.localIssuer p.iss }

/-- A message that a link has brought, under this package's queues. -/
def State.localMsg (s : State) (m : Msg) : Msg :=
  { m with
    iss := s.localIssuer m.iss
    more := m.more.map fun x => { x with iss := s.localIssuer x.iss }
    wired := none
    crossed := true
    body := match m.body with
      | .hcall k => .hcall (s.localCall k)
      | .hnote k n => .hnote (s.localCall k) n
      | .packet p => .packet (s.localPacket p)
      | .packetNote p b => .packetNote (s.localPacket p) b
      | .cancel e slot core => .cancel e (s.localSlot m.iss.task.pkg slot) core
      | b => b }

/-! Deliveries. -/

/-- The state that a step leaves, where it goes on. -/
def State.after (s : State) (r : Out) : State := match r with
  | .next t => t
  | _ => s

/-- Pairs of a flat list. -/
def pairUp : List Nat → List (Nat × Nat)
  | a :: b :: r => (a, b) :: pairUp r
  | _ => []

/-- A control flit takes its effect (R17): barriers (R299), termination (R82), and gang control (R73, R294). -/
def State.control (s : State) (vnet : Nat) (ws : List Nat) : State :=
  match vnet, ws with
  | 5, [b] => s.after (execBarrierReleaseFlit b s)
  | 5, [b, p] => s.after (execBarrierArrivalFlit p b s)
  | 6, [g, p, idle, dirty, sum] =>
    s.after (execGangWaveResult (s.localSlot 65536 g) p (idle == 1) (dirty == 1) (BitVec.ofNat 64 sum).toInt s)
  | 6, [g, _, outcome] => s.after (execGangWaveResult (s.localSlot 65536 g) 0 (outcome == 1) false (if outcome = 2 then 1 else 0) s)
  | 8, g :: 0 :: p :: status :: start :: counts => s.after (execArm (s.localSlot 65536 g) p (BitVec.ofNat 8 status, start, pairUp counts) s)
  | 8, [g, 1, status, start] => s.after (execGangDecision (s.localSlot 65536 g) (BitVec.ofNat 8 status, start) s)
  | 8, [g, 2, p, status, fclass, cancel] =>
    s.after (execGangFenceReport (s.localSlot 65536 g) p (BitVec.ofNat 8 status) (BitVec.ofNat 8 fclass) (cancel == 1) s)
  | _, _ => s

/-- What arrives for a command that runs on this package alone counts here at both ends (R81) (DEDUCED, log entry 26). -/
def State.balance (s : State) (m : Msg) : State :=
  if m.iss.task.pkg = s.pkg && m.body.counted && (s.others m.iss.task.slot).isEmpty then
    let t := s.countSent m.iss
    match m.body with
    | .hnote _ n => if n.ends then t.received m.iss else t
    | .packetNote _ true => t.received m.iss
    | _ => t
  else s

/-- A message whose answer is awaited. -/
def Body.expects : Body → Bool
  | .load .. | .want .. | .bolt .. | .clearCheck .. | .clearApply .. | .brel .. | .bdecl .. => true
  | _ => false

/-- Message `a` answers request `q`. -/
def answers (a q : Msg) : Bool :=
  a.iss == q.iss && (match a.body, q.body with
    | .result d x, .load _ _ _ _ _ _ e l => d == e && (match x with
      | .lane i _ | .fault _ _ i => i == l
      | _ => l == 64)
    | .wake d _, .want _ _ _ _ w r => !w.mailbox && d.reg == r
    | .mreply _, .want _ _ _ _ w _ => w.mailbox
    | .boltAck, .bolt .. => true
    | .ack _, b => b.expects && (match b with
      | .load .. | .want .. | .bolt .. => false
      | _ => true)
    | _, _ => false)

/-- The request that a message answers has its answer. -/
def State.answered (s : State) (a : Msg) : State :=
  match s.asked.findIdx? (answers a), s.outbox.findIdx? (answers a) with
  | some i, _ => { s with asked := removeAt s.asked i }
  | none, some i => { s with outbox := removeAt s.outbox i }
  | none, none => s

/-- What arrives from another package: reports, flags, acknowledgements, control flits, and what another front end has done
to this package's memory take effect at once; other messages wait in `net`. -/
def State.deliver (s : State) (m : Msg) : State :=
  if m.pkg ≠ s.pkg then s
  else
    let m := s.localMsg m
    let s := s.answered m
    match m.body with
    | .report cause tval => s.report m.iss cause m.colour tval
    | .flags f => s.orFlags m.iss f
    | .ack a => s.ackHere m.iss.task a
    | .control vnet ws => s.control vnet ws
    | .init pa off r ch bytes => (s.seen m.key pa).initBlock m.iss.task.slot r off pa ch bytes
    | .wipe pa len => s.wipe pa len
    | .unlatch => s.removeLatches fun l => l.iss == m.iss
    | _ => let t := s.balance m
           { t with net := t.net ++ [m] }

/-- Another package has applied message `n` of the outbox; what its home reports reaches every issuer first (R292, R341).  A
packet is answered by a note of its own (R313), and a request by its answer. -/
def State.remoteDone (s : State) (n : Nat) (reports : List (Nat × Word)) : State :=
  match s.outbox[n]? with
  | none => s
  | some m =>
    match m.body with
    | .packet _ => s
    | _ =>
      let t := { s with outbox := removeAt s.outbox n, asked := if m.body.expects then s.asked ++ [m] else s.asked }
      let t := match m.body with
        | .join .. => if (t.others m.iss.task.slot).isEmpty then t.receivedAll m else t
        | _ => t
      reports.foldl (fun t r => t.reportAll m r.1 r.2) t

/-! Flits (R17). -/

/-- Fields of a flit's header. -/
def flitField (f : List Byte) (hi lo : Nat) : Nat := Word.field (BitVec.ofNat 64 (bytesNat (f.take 8))) hi lo

/-- A flit is whole: its length, CRC, type, vnet and len (R17, R18). -/
def flitOk (f : List Byte) : Bool :=
  f.length == 256 && crc64 (f.take 248) == bytesNat (f.drop 248) && decide (flitField f 63 60 ≤ 5) && decide (flitField f 59 56 ≤ 8) &&
  decide (flitField f 11 0 ≤ 240)

/-- The payload bytes in use. -/
def flitPayload (f : List Byte) : List Byte := (f.drop 8).take (flitField f 11 0)

/-- A flit of a type and a vnet, with its sequence number, acknowledgement, credit return and payload. -/
def flitBytes (ty vnet seq ack credit cvnet : Nat) (payload : List Byte) : List Byte :=
  let head := ty % 16 * 2 ^ 60 + vnet % 16 * 2 ^ 56 + seq % 4096 * 2 ^ 44 + ack % 4096 * 2 ^ 32 + credit % 65536 * 2 ^ 16 +
    cvnet % 16 * 2 ^ 12 + payload.length
  let body := natBytes 8 head ++ payload ++ List.replicate (240 - payload.length) 0
  body ++ natBytes 8 (crc64 body)

/-- A flit leaves over a link: it takes the next number, acknowledges what has come in order, returns the credits of one
vnet, and stays in the replay buffer until it is acknowledged. -/
def Link.put (k : Link) (ty vnet : Nat) (payload : List Byte) : Link :=
  let c := k.owed.headD (0, 0)
  let f := flitBytes ty vnet k.next (k.expect + 4095) c.2 c.1 payload
  { k with next := (k.next + 1) % 4096, replayBuf := k.replayBuf ++ [f], wire := k.wire ++ [f], owed := k.owed.drop 1 }

/-- What the other side acknowledges leaves the replay buffer: the flits up to its highest number in order. -/
def Link.acked (k : Link) (last : Nat) : Link :=
  let n := (last + 1 + k.replayBuf.length + 4096 - k.next) % 4096
  if n ≤ k.replayBuf.length then { k with replayBuf := k.replayBuf.drop n } else k

/-- The header of a flit in order: its acknowledgement and its credits are taken, and a flit that carries messages is owed a
credit. -/
def Link.takes (k : Link) (f : List Byte) : Link :=
  let k := k.acked (flitField f 43 32)
  let cv := flitField f 15 12
  let v := flitField f 59 56
  { k with
    expect := (k.expect + 1) % 4096, replays := 0, replayAsked := false
    credits := if flitField f 31 16 = 0 then k.credits else setAt k.credits cv (look 0 k.credits cv + flitField f 31 16)
    owed := if flitField f 63 60 = 1 ∨ flitField f 63 60 = 3 then setAt k.owed v (look 0 k.owed v + 1) else k.owed }

/-- The vnet that carries a message (R13, R17, R313).  No rule names that of bolts, clears, releases and redeclarations: vnet 0,
and their acknowledgements vnet 1 (DESIGN CHOICE, log entry 101). -/
def Body.vnet : Body → Nat
  | .result .. | .mreply _ | .ack _ | .boltAck | .packetNote .. | .report .. | .flags _ => 1
  | .join .. => 2
  | .wake .. => 3
  | .hcall _ | .hnote .. | .packet _ => 4
  | .control v _ => v
  | _ => 0

/-- The type of the flits that carry a message. -/
def Body.flitType (b : Body) : Nat := if b.vnet = 5 ∨ b.vnet = 6 then 3 else 1

/-- A link takes no more flits: it is down, or its replay buffer, of 4,096 flits, is full.  No rule gives that size (DESIGN
CHOICE, log entry 100). -/
def State.linkFull (s : State) (link flits : Nat) : Bool :=
  decide (12 ≤ link) || s.linkDown link || decide (4096 ≤ (look {} s.links link : Link).replayBuf.length + flits)

/-- Message `n` of the outbox leaves over a link on its way, in flits (R17), behind those that it must not pass (R194)
(DESIGN CHOICE, log entry 99). -/
def State.sendFlit (s : State) (link n : Nat) : State :=
  match s.outbox[n]? with
  | none => s
  | some m =>
    let bytes := Config.messageBytes m
    let k := look {} s.links link
    let pieces := if bytes.isEmpty then [[]] else chunks 240 bytes.length bytes
    let late := (s.outbox.take n).any fun e => e.wired.isNone && e.pkg == m.pkg && mustWait e m
    if s.linkFull link pieces.length || m.wired.isSome || !m.way.contains link || late then s
    else { s with
      links := setAt s.links link (pieces.foldl (fun k p => k.put m.body.flitType m.body.vnet p) k)
      outbox := replaceAt s.outbox n { m with wired := some link } }

/-- An idle flit or a tick-alignment flit leaves over a link (R17). -/
def State.linkFlit (s : State) (link : Nat) (tick : Bool) : State :=
  if s.linkFull link 1 then s
  else
    let k := look {} s.links link
    { s with links := setAt s.links link (if tick then k.put 4 0 ((Config.tickFlit s.tick).take 240) else k.put 0 0 []) }

/-- The next bytes of the oldest message that a checkpoint sends over a link leave in a flit of vnet 7 (R17, R18, R359). -/
def State.streamFlit (s : State) (link : Nat) : State :=
  match s.stream.findIdx? (·.1 == link) with
  | none => s
  | some i =>
    let bytes := ((s.stream[i]?).map (·.2)).getD []
    if s.linkFull link 1 then s
    else { s with
      links := setAt s.links link ((look {} s.links link).put 1 7 (bytes.take 240))
      stream := if bytes.length ≤ 240 then removeAt s.stream i else replaceAt s.stream i (link, bytes.drop 240) }

/-- The other side asks for a replay behind flit `last` (R18): everything later is sent again. -/
def State.replayRequest (s : State) (link last : Nat) : State :=
  if 12 ≤ link || s.linkDown link then s
  else
    let k := (look {} s.links link).acked last
    { s with links := setAt s.links link { k with wire := k.wire ++ k.replayBuf } }

/-- A link starts to retrain (R18), which is counted (R361). -/
def State.retrain (s : State) (l : Nat) : State :=
  let k := look {} s.links l
  if k.retraining || k.failed || decide (12 ≤ l) then s
  else { s with links := setAt s.links l { k with up := false, retraining := true, retrains := k.retrains + 1, replays := 0, replayAsked := false } }.bump
    (0x09D0 + 8 * l)

/-- A flit is discarded and a replay asked for from the last one in order, by a flit that acknowledges it; one that comes while
a replay is awaited is a failed replay, and eight of them in a row start a retrain (R18) (DEDUCED, log entry 60). -/
def State.askReplay (s : State) (l : Nat) : State :=
  let k := look {} s.links l
  let n := if k.replayAsked then k.replays + 1 else k.replays
  if 8 ≤ n then { s with links := setAt s.links l { k with replays := n } }.retrain l
  else { s with links := setAt s.links l (Link.put { k with replays := n, replayAsked := true } 2 0 []) }

/-- What a flit in sequence brings: the messages of a data or a barrier flit are delivered; a tick-alignment flit adjusts the
tick counter, never back (R17, R19). -/
def State.takeFlit (s : State) (f : List Byte) : State :=
  let v := flitField f 59 56
  match flitField f 63 60 with
  | 1 | 3 => (Config.messagesIn v (flitPayload f)).foldl State.deliver { s with flits := s.flits ++ [(v, flitPayload f)] }
  | 4 =>
    let t := Config.tickAlign v (flitPayload f) s.tick
    { s with tick := if s.tick.toNat ≤ t.toNat then t else s.tick }
  | _ => s

/-- FLIT_RECEIVE (R17, R18): flits are taken in their sequence only. -/
def execFlitReceive (link : Nat) (flit : List Byte) (s : State) : Out :=
  let k := look {} s.links link
  if s.linkDown link || decide (12 ≤ link) then .next s
  else if !flitOk flit then .next (s.askReplay link)
  else if flitField flit 55 44 ≠ k.expect then .next (if k.replayAsked then s else s.askReplay link)
  else .next ({ s with links := setAt s.links link (k.takes flit) }.takeFlit flit)

/-- LINK_RETRAIN (R18). -/
def execLinkRetrain (link : Nat) (s : State) : Out := .next (s.retrain link)

/-- LINK_RETRAIN_COMPLETE (R18): the link's first flit is a retrain marker (R17) (DESIGN CHOICE, log entry 99). -/
def execLinkRetrainComplete (link : Nat) (s : State) : Out :=
  let k := look {} s.links link
  if k.retraining then .next { s with links := setAt s.links link (Link.put { k with up := true, retraining := false } 5 0 []) } else .next s

/-- LINK_FAIL_TIMEOUT (R18): a link that retrains is declared failed. -/
def execLinkFailTimeout (link : Nat) (s : State) : Out :=
  if (look {} s.links link).retraining then .next (s.failLink link) else .next s

end Sys2Proof.Machine
end

