-- ==== Sys2Proof/Machine/Health.lean ====
section
/-! DEFINITION. The part's life: the lifetime record and INFO (R361), firmware start (R63), the host's windows (R49-R51), the
clock (R20), the debugger (R348, R349), the sampling pulse (R354), soft errors and fences (R358, R362), and replay's
abandonment (R356). -/

namespace Sys2Proof.Machine

/-! The lifetime record (R361). -/

/-- Eight bytes of a record's image between its head and its map: a counter. -/
def Life.bytes (l : Life) (off : Nat) : List Byte := natBytes 8 (look 0 l.counts off)

/-- The image of a copy: 4,608 bytes.  No rule lays out the version, the serial, the two counts behind the magic, or an entry
of the fence log (DESIGN CHOICE, log entry 6). -/
def LifeCopy.image (c : LifeCopy) : List Byte :=
  natBytes 4 0x52494C56 ++ natBytes 60 (Config.lifeHead c.life.powerOns c.life.seconds).toNat ++
  ((List.range 408).flatMap fun i => c.life.bytes (0x40 + 8 * i)) ++ mapImage c.fenced ++
  (List.range 64).flatMap fun i => match c.log[i]? with
    | some e => natBytes 16 (Config.fenceEntry e.1 e.2.1 e.2.2).toNat
    | none => List.replicate 16 0

/-- A copy is valid: the CRC-64 that closes it is right. -/
def LifeCopy.valid (c : LifeCopy) : Bool := c.crc == crc64 c.image

/-- The latest valid copy of a hub. -/
def Hub.newest (h : Hub) : Option LifeCopy :=
  let a := if h.latest = 0 then h.copies.1 else h.copies.2
  let b := if h.latest = 0 then h.copies.2 else h.copies.1
  if a.valid then some a else if b.valid then some b else none

/-- The latest valid copy of the record: the west hub's, else that of the east hub's mirror (R15); an empty one before any has
been written. -/
def State.newestCopy (s : State) : LifeCopy := (s.hubs.1.newest.or s.hubs.2.newest).getD {}

/-- A copy written in a hub, over the older of the two. -/
def Hub.keep (h : Hub) (c : LifeCopy) : Hub :=
  { h with
    copies := if h.latest = 0 then (h.copies.1, c) else (c, h.copies.2)
    latest := if h.latest = 0 then 1 else 0 }

/-- The record written into both nonvolatile stores (R15). -/
def State.writeLife (s : State) : State :=
  let c : LifeCopy := { life := s.life, fenced := s.fenced, log := s.fenceLog }
  let c := { c with crc := crc64 c.image }
  { s with hubs := (s.hubs.1.keep c, s.hubs.2.keep c) }

/-- LIFETIME_RECORD_WRITE (R361). -/
def execLifetimeRecordWrite (s : State) : Out := .next s.writeLife

/-- POWER_DOWN (R361). -/
def execPowerDown (s : State) : Out := .next { s.writeLife with powered := false, ready := false }

/-- POWER_FAILURE (R361). -/
def execPowerFailure (s : State) : Out := .next { s with powered := false, ready := false }

/-- Seconds that begin in `ticks` ticks are counted, powered and in the band of 425 W of the power last read (R22, R361). -/
def State.countSeconds (s : State) (ticks : Nat) : Life :=
  let n := (s.tick.toNat + ticks) / 10 ^ 9 - s.tick.toNat / 10 ^ 9
  let off := 0xCB0 + 8 * min 7 (s.watts / 425)
  if n = 0 then s.life
  else { s.life with
    seconds := min (s.life.seconds + n) (2 ^ 64 - 1)
    counts := setAt s.life.counts off (min (look 0 s.life.counts off + n) (2 ^ 64 - 1)) }

/-! Firmware start and power (R63, R361). -/

/-- A tile fenced in the availability map (R362). -/
def State.fence (s : State) (cause tile : Nat) : State :=
  if s.fenced.contains tile then s
  else { s with
    fenced := s.fenced ++ [tile]
    fenceLog := (s.fenceLog ++ [(tileWord tile, s.tick.toNat, cause)]).drop (s.fenceLog.length - 63) }

/-- A hub as power finds it: its store. -/
def Hub.cold (h : Hub) : Hub := { h with tcm := [], patches := [] }

/-- The package as power finds it: what is nonvolatile, and the world outside (R361, R362). -/
def State.powerOn (s : State) : State :=
  if s.powered then s
  else { State.reset with
    pkg := s.pkg, hostMem := s.hostMem, turns := s.turns, fenced := s.fenced, fenceLog := s.fenceLog, life := s.newestCopy.life
    hubs := (s.hubs.1.cold, s.hubs.2.cold), free := s.free, fresh := s.pkg % 16384 + 1 }

/-- A hub's ROM takes the patch table of its store, of at most 64 entries, when its signature is right, else none (R63). -/
def Hub.patch (h : Hub) (ok : Bool) : Hub := { h with patches := if ok then h.table.take 64 else [] }

/-- FIRMWARE_START (R63): whether the west and the east hub's patch tables pass their check; `failed` lists the tiles that fail
their test, and a number beyond the tiles stands for a failed router or die-edge module, which leaves ready clear (R362).  The
fence log's cause of a failed test is free. -/
def execFirmwareStart (patchOk : Bool × Bool) (failed : List Nat) (s : State) : Out :=
  if s.powered && s.ready then .next s
  else
    let s := s.powerOn
    let cause := (Config.freeWord s.free).toNat % 256
    let s := (failed.filter (· < 2048)).foldl (fun s t => s.fence cause t) { s with free := s.free + 1 }
    .next { s with
      hubs := (s.hubs.1.patch patchOk.1, s.hubs.2.patch patchOk.2), links := [], ready := failed.all (· < 2048)
      life := { s.life with powerOns := min (s.life.powerOns + 1) (2 ^ 64 - 1) } }

/-- Where the image lies in stack 0, pseudo-channel 31: its offset in the compute-capable decoding (R25, R361). -/
def lifeOffset : Nat := 31 * 2 ^ 31 + Config.lifeBlock % (2 ^ 19 - 1) * 4096

/-- INFO (R52, R361): the map's digest, and where the image of the latest valid copy stands. -/
def execInfo (s : State) : Out :=
  s.admin true fun s =>
    let s := match physOf 1 lifeOffset with
      | some pa => ((s.seen none pa).seen none (pa + 4096)).overwrite pa s.newestCopy.image
      | none => s
    { s with info := (BitVec.ofNat 64 s.mapDigest, BitVec.ofNat 64 (s.pkg * 2 ^ 39 + lifeOffset)) }

/-! The host's windows (R50, R51). -/

/-- BAR2_WINDOW_BASE (R50, R51): reserved bits are not written. -/
def execBar2WindowBase (v : Word) (s : State) : Out :=
  if s.ready then .next { s with bar2 := v &&& 0xFFFFFC0000003 } else .next s

/-- Physical byte `k` lies on a confidential page of a context that exists (R62). -/
def State.confByte (s : State) (k : Nat) : Bool :=
  let covers := fun (e : TlbEntry) => e.conf && e.addr / 2 ^ 39 == s.pkg &&
    (List.range (e.size / 4096)).any fun i => (physOf e.space ((e.addr + 4096 * i) % 2 ^ 39)).map (· / 4096) == some (k / 4096)
  s.queues.any fun q => s.live q.1 && qcbConf (s.qcb q.1) && (s.pagesOf q.1).any covers

/-- The physical byte that BAR2 byte `b` reaches; none beyond the BAR, and for reserved or confidential space (R49, R51, R62).
R51 says only what the window's base must be: one that names another package reaches nothing, and one that is not aligned to
the BAR's size is added to as it stands (DESIGN CHOICE, log entry 84). -/
def State.bar2Byte (s : State) (b : Nat) : Option Nat :=
  let pa := Word.field s.bar2 51 30 * 2 ^ 30 + b
  if pa / 2 ^ 39 ≠ s.pkg ∨ s.bar2Size ≤ b then none
  else match physOf (Word.field s.bar2 1 0) (pa % 2 ^ 39) with
    | none => none
    | some k => if s.confByte k then none else some k

/-- The stack blocks behind BAR2 bytes stand as the banks hold them. -/
def State.bar2Seen (s : State) (off len : Nat) : State :=
  (List.range len).foldl (fun t i => match s.bar2Byte (off + i) with
    | some k => t.seen none k
    | none => t) s

/-- BAR2_READ (R48, R51). -/
def execBar2Read (off len : Nat) (s : State) : Out :=
  let t := s.bar2Seen off len
  .next { t with bar2Read := (List.range len).map fun i => match s.bar2Byte (off + i) with
    | some k => readByte t.mem k
    | none => 0xFF }

/-- BAR2_WRITE (R48, R51). -/
def execBar2Write (off : Nat) (bytes : List Byte) (s : State) : Out :=
  .next (((List.range bytes.length).zip bytes).foldl (fun t x => match s.bar2Byte (off + x.1) with
    | some k => t.poke k [x.2]
    | none => t) (s.bar2Seen off bytes.length))

/-- The size of BAR2 is 2^n bytes, from 1 to 512 GiB (R49). -/
def State.resizeBar2 (s : State) (n : Nat) : State := if 30 ≤ n ∧ n ≤ 39 then { s with bar2Size := 2 ^ n } else s

/-- BAR0 registers that hold what is written: the admin mailbox's command and response, the MSI-X table and the PBA (R50). -/
def plainRegister (off : Nat) : Bool :=
  off % 8 == 0 && ((decide (0x1000 ≤ off) && decide (off < 0x1080)) || (decide (0x200000 ≤ off) && decide (off < 0x208100)))

/-- What a read of the BAR0 register at an offset gives (R50): write-only and unlisted offsets read zero.  No rule gives the
width of an access: the model has accesses of 8 bytes at multiples of 8, and another offset inside a listed range is as one that
is not listed (DESIGN CHOICE, log entry 103). -/
def State.bar0At (s : State) (off : Nat) : Word :=
  if off = 0 then BitVec.ofNat 64 Config.deviceId
  else if off = 8 then Config.firmwareVersion
  else if off = 0x10 then (BitVec.ofBool s.ready).setWidth 64
  else if off = 0x10000 then s.bar2
  else if 0x108000 ≤ off ∧ off < 0x108200 ∧ off % 8 = 0 then
    BitVec.ofNat 64 ((List.range 64).foldl (fun a i => a + (s.queue (8 * (off - 0x108000) + i)).pendingBit.toNat * 2 ^ i) 0)
  else if plainRegister off then look 0 s.bar0 off
  else 0

/-- The host reads a BAR0 register.  Before ready only the identity answers (R63); what another register reads as then is a free
value (DESIGN CHOICE, log entry 6). -/
def State.registerRead (s : State) (off : Nat) : State :=
  if s.ready || decide (off < 0x1000) then { s with bar0Read := s.bar0At off }
  else { s with bar0Read := Config.freeWord s.free, free := s.free + 1 }

/-- The admin command that stands in the mailbox is submitted (R50, R52, R353, R367); one of no known code is refused. -/
def State.submit (s : State) : Out :=
  match Config.adminCommand ((List.range 8).flatMap fun i => natBytes 8 (look 0 s.bar0 (0x1000 + 8 * i)).toNat) with
  | [1, base, count] => execQtab (BitVec.ofNat 64 base) count s
  | [2, q] => execQcreate q s
  | [3, count, ageing] => execSlots count ageing s
  | [4, q, session] => execCcreate q (BitVec.ofNat 64 session) s
  | [5] => execInfo s
  | [6, tick, host, len] => execSample (BitVec.ofNat 64 tick) (BitVec.ofNat 64 host) len s
  | [7, q, mode, log, len] => execReplay q mode (BitVec.ofNat 64 log) (BitVec.ofNat 64 len) s
  | [8, q, on] => execTwin q on s
  | [9, q, host] => execChknow q (BitVec.ofNat 64 host) s
  | [10, q, limit] => execMboxlim q limit s
  | _ => s.admin false id

/-- REGISTER_WRITE (R50, R63): a register that has no behaviour of its own holds what is written; the admin doorbell, the window
base and the kick doorbells act as their own steps say; every other offset ignores a write. -/
def execRegisterWrite (off : Nat) (v : Word) (s : State) : Out :=
  if !s.ready then .next s
  else if plainRegister off then .next { s with bar0 := put 0 s.bar0 off v }
  else if off = 0x1080 then s.submit
  else if off = 0x10000 then execBar2WindowBase v s
  else if 0x100000 ≤ off ∧ off < 0x108000 ∧ off % 8 = 0 then execKick ((off - 0x100000) / 8) (v.setWidth 16) s
  else .next s

/-! The clock (R20). -/

/-- CLOCK_STEP (R20): by 100 MHz, between 1.6 and 3.3 GHz. -/
def execClockStep (up : Bool) (s : State) : Out :=
  .next { s with clock := if up then min 33 (s.clock + 1) else max 16 (s.clock - 1) }

/-! The debugger (R348, R349). -/

/-- DEBUG_HALT (R348). -/
def execDebugHalt (core : Nat) (s : State) : Out :=
  .next (s.setCore core { s.core core with halted := true, haltCause := 0x41, stepping := false })

/-- Context `i` of a core continues behind the BRK that halted the core there (R349), be it in the tile record of a pre-empted
command (R346). -/
def CoreSt.passBrk (c : CoreSt) (i : Nat) : CoreSt :=
  if !c.atBrk.contains i then c
  else
    let go := fun (x : Ctx) => { x with pc := x.pc + 4 }
    { (match c.savedCtx i with
        | some x => c.setSaved i (go x)
        | none => c.setCtx i (go (c.ctx i))) with atBrk := c.atBrk.filter (· != i) }

/-- Every context of a core that stands at a BRK continues behind it. -/
def CoreSt.passBrks (c : CoreSt) : CoreSt := [0, 1, 2, 3, 4].foldl CoreSt.passBrk c

/-- DEBUG_RESUME (R348, R349). -/
def execDebugResume (core : Nat) (s : State) : Out :=
  let c := s.core core
  if c.halted then .next (s.setCore core { c.passBrks with halted := false, stepping := false }) else .next s

/-- SINGLE_STEP (R349): the next turn issues the one instruction. -/
def execSingleStep (core ctx : Nat) (s : State) : Out :=
  if (s.core core).halted then .next { s with turns := .single core ctx :: s.turns } else .next s

/-! The sampling pulse (R354). -/

/-- PC[19:2]. -/
def pcBits (x : Ctx) : Nat := Word.field x.pc 19 2

/-- The reason that a sample shows for task context `i` of core `n`: a context whose park is over is ready (R128, R344). -/
def State.sampleReason (s : State) (n i : Nat) : Nat :=
  let x := s.ctxOf n i
  if !x.busy then 0xE else if x.wait ≠ .none ∧ s.overFor n i x then 0 else x.parkReason

/-- What a sample shows of the array, on the core that has the key. -/
def State.sampleArray (s : State) (n : Nat) : Nat :=
  let q := s.quad (quadOf n)
  if q.holder.map (·.core) ≠ some n then 0
  else match q.cur with
    | none => 0
    | some o => if o.held then 2 else if o.drainOn then 3 else 1

/-- The sample of a core (R354). -/
def State.sampleOf (s : State) (n : Nat) : Word × Word :=
  let c := s.core n
  let h := c.ctx 4
  match c.slot with
  | none => (0, 0)
  | some q =>
    if qcbConf (s.slot q).qcb then (0, 0)
    else
      let hstate := if c.halted then 3 else match h.role with
        | .row .. => 1
        | .hinge .. => 2
        | _ => 0
      let busy := [0, 1, 2, 3, 4].any fun i => (c.ctx i).busy
      let why := s.sampleReason n 0 * 2 ^ 12 + s.sampleReason n 1 * 2 ^ 8 + s.sampleReason n 2 * 2 ^ 4 + s.sampleReason n 3
      (BitVec.ofNat 64 ((s.slot q).hw.getD 0 % 32 * 2 ^ 59 + busy.toNat * 2 ^ 58 + hstate * 2 ^ 54 + pcBits h * 2 ^ 36 +
        pcBits (c.ctx 0) * 2 ^ 18 + pcBits (c.ctx 1)),
       BitVec.ofNat 64 (pcBits (c.ctx 2) * 2 ^ 46 + pcBits (c.ctx 3) * 2 ^ 28 + why * 2 ^ 12 + s.sampleArray n * 2 ^ 8 +
        min 255 (c.deque.length + c.overflow.length)))

/-- Tile `t` of die `d` (R354). -/
def dieTile (d t : Nat) : Nat := 32 * (16 * (d / 4) + t / 8) + 8 * (d % 4) + t % 8

/-- Samples in tile order without repeats, and the repeat map. -/
def packSamples : Option (Word × Word) → Nat → List (Word × Word) → List (Word × Word) × Nat
  | _, _, [] => ([], 0)
  | last, t, a :: r =>
    let x := packSamples (some a) (t + 1) r
    if last = some a then (x.1, x.2 + 2 ^ t) else (a :: x.1, x.2)

/-- The record of a die (R354). -/
def State.dieRecord (s : State) (tick d : Nat) : List Byte :=
  let x := packSamples none 0 ((List.range 128).map fun t => (s.core (dieTile d t)).sample)
  natBytes 8 (5 * 2 ^ 60 + d * 2 ^ 56 + x.1.length * 2 ^ 48) ++ natBytes 8 tick ++ natBytes 16 x.2 ++ x.1.flatMap fun a => wordsBytes [a.1, a.2]

/-- Every core latches its sample. -/
def State.latchSamples (s : State) : State := (List.range 2048).foldl (fun t n => t.setCore n { t.core n with sample := s.sampleOf n }) s

/-- SAMPLE_PULSE (R354): at the tick of the pulse that was armed first. -/
def execSamplePulse (s : State) : Out :=
  match s.sampling.find? fun a => decide (a.tick ≤ s.tick.toNat) with
  | none => .next s
  | some a =>
    let t := s.latchSamples
    let bytes := (List.range 16).flatMap fun d => t.dieRecord a.tick d
    .next { t with sampling := t.sampling.erase a, hostMem := writeBytes t.hostMem a.host bytes }

/-! Soft errors (R358, R362). -/

/-- The lifetime counter of the corrected errors of a die, a temperature band and a kind: 0 SRAM, 1 stack (R361). -/
def scrubCounter (e : Nat × Nat × Nat) : Nat := 0x40 + 8 * ((e.1 % 18 * 8 + e.2.1 % 8) * 2 + e.2.2 % 2)

/-- SCRUB (R358): reads and corrects; it changes no value.  An error that it corrects is counted by a turn of its own. -/
def execScrub (s : State) : Out := .next s

/-- A task on a context fails with 0x28, or a handler ends with it (R339, R358); the failure's tval is free. -/
def State.parityFail (n : Nat) (s : State) (i : Nat) : State :=
  let x := s.ctxOf n i
  let f : Failure := { cause := 0x28, tval := Config.freeWord s.free, pc := x.pc.toNat, double := false }
  let s := { s with free := s.free + 1 }
  match x.role with
  | .task => if x.wait.ending then s else s.setCtxOf n i { x with wait := .failing f, pfx := none, rep := false }
  | .row .. | .hinge .. => s.atCtx n i fun s => s.trap 0x28 f.tval
  | _ => s

/-- The task or the handler on context `i` of a tile record fails with 0x28 (R346, R358): a task once it resumes; a hinge handler
ends then; a row handler's row is dropped (R339). -/
def State.failSaved (n : Nat) (s : State) (i : Nat) : State :=
  match (s.core n).savedCtx i with
  | none => s
  | some x =>
    let s := { s with free := s.free + 1 }
    let put := fun (x : Ctx) => s.setCore n ((s.core n).setSaved i x)
    let f : Failure := { cause := 0x28, tval := Config.freeWord (s.free - 1), pc := x.pc.toNat, double := false }
    match x.role with
    | .task => if x.wait.ending then s else put { x with wait := .failing f, pfx := none, rep := false, stopped := false }
    | .hinge .. => put { x with wait := .hfail 0x28, pfx := none, rep := false, stopped := false }
    | .row j _ => ((put {}).orFlags j.arr.iss x.ownFlags).atCtx n i fun s => (s.setCtx { role := .row j 0 }).trap 0x28 f.tval
    | _ => s

/-- A tile found faulty is fenced, and its running tasks fail (R362), those of a pre-empted command among them. -/
def State.faultTile (s : State) (n : Nat) : State :=
  let s := (s.bump (0x0A90 + 8 * 0x28)).fence 0x28 n
  [0, 1, 2, 3, 4].foldl (State.failSaved n) ([0, 1, 2, 3, 4].foldl (State.parityFail n) s)

/-- The die of a byte: a tile's own, or the one that drives its pseudo-channel (R11, R361). -/
def dieOf (pa : Nat) : Nat :=
  if pa < 2 ^ 40 then tileX (pa / 2 ^ 22) / 8 + 4 * (tileY (pa / 2 ^ 22) / 16)
  else
    let k := (pa - 2 ^ 40) / 2 ^ 31
    let st := k / 32
    st % 4 + 4 * (2 * (st / 4) + k % 32 / 16)

/-- An uncorrectable error of a die is counted (R361). -/
def State.countError (s : State) (die : Nat) : State := s.bump (0x0940 + 8 * die)

/-- An uncorrectable error of tile `n`'s SRAM: the fifth within 24 hours fences the tile (R362). -/
def State.sramError (s : State) (n : Nat) : State :=
  let ticks := s.tick.toNat :: (look [] s.sramErrors n).filter fun t => decide (s.tick.toNat ≤ t + 86400000000000)
  let s := { s with sramErrors := setAt s.sramErrors n ticks }
  if 4 < ticks.length ∧ n < 2048 ∧ !s.fenced.contains n then s.faultTile n else s

/-- A unit of memory becomes poisoned (R358). -/
def State.poisonAt (s : State) (pa : Nat) : State :=
  let u := poisonUnit pa
  let s := (if s.poison.contains u then s else { s with poison := s.poison ++ [u] }).countError (dieOf pa)
  if pa < 2 ^ 40 then s.sramError (pa / 2 ^ 22) else s

/-- An error in a spill slot, a frame place or the save store (R358): the owning task fails. -/
def State.failSpilled (s : State) (n place : Nat) : State :=
  let c := s.core n
  let f : Failure := { cause := 0x28, tval := Config.freeWord s.free, pc := 0, double := false }
  s.setCore n { c with
    stamps := c.stamps + 1
    spilled := c.spilled.map fun p =>
      if p.place = place then
        { p with ctx := { p.ctx with wait := .failing { f with pc := p.ctx.pc.toNat } }, ready := some c.stamps }
      else p }

/-- Record `k` of a core is gone: of its deque, its overflow area, or the deque of its tile record. -/
def CoreSt.dropRecord (c : CoreSt) (k : Nat) : CoreSt :=
  let d := c.deque.length
  let o := c.overflow.length
  if k < d then { c with deque := removeAt c.deque k }
  else if k < d + o then { c with overflow := removeAt c.overflow (k - d) }
  else { c with saved := c.saved.map fun v => { v with deque := removeAt v.deque (k - d - o) } }

/-- An error in a deque record (R358): the record is lost, and the completion record tells it. -/
def State.loseRecord (s : State) (n k : Nat) : State :=
  let c := s.core n
  match (c.deque ++ c.overflow ++ (c.saved.map (·.deque)).getD [])[k]? with
  | some r =>
    ((s.setCore n (c.dropRecord k).refilled).bump (0x0A90 + 8 * 0x28)).onTally r.slot n fun y =>
      { y with faults := y.faults.add 0x28 8 (Config.freeWord s.free) }
  | none => s

/-- Record `k` of a core stands in its overflow area, which is SRAM (R76). -/
def CoreSt.inOverflow (c : CoreSt) (k : Nat) : Bool := decide (c.deque.length ≤ k) && decide (k < c.deque.length + c.overflow.length)

/-- Latch `k` is lost (R358): its task is told, and waits on (DESIGN CHOICE, log entry 89). -/
def State.loseLatch (s : State) (k : Nat) : State :=
  match s.latches[k]? with
  | none => s
  | some l =>
    ((State.refill { s with latches := removeAt s.latches k } l.home s.latches.length).report l.iss 0x28 l.colour (BitVec.ofNat 64 l.va)).countError
      (tileDie (logTile l.home))

/-- The call that waits in place `k` of a mailbox ends without its handler (R358) (DESIGN CHOICE, log entry 89). -/
def State.loseEntry (s : State) (n k : Nat) : State :=
  let c := s.core n
  match c.mailbox[k]? with
  | none => s
  | some m =>
    let here := fun (a : Arrival) => match a with
      | .hinge h => h.id == m.id
      | .row _ => false
    let t := s.countError (coreDie n)
    if c.arrivals.any here then (t.setCore n { t.core n with arrivals := c.arrivals.filter fun a => !here a }).endCall n m (.failed 0x28)
    else match c.saved with
      | some v =>
        if v.arrivals.any here
        then (t.setCore n { t.core n with saved := some { v with arrivals := v.arrivals.filter fun a => !here a } }).endCall n m (.failed 0x28)
        else t
      | none => t

/-- Packet `k` of a port is lost, and its sender is told (R358) (DESIGN CHOICE, log entry 89). -/
def State.losePacket (s : State) (n port k : Nat) : State :=
  let p := (s.core n).port port
  match p.pkts[k]? with
  | none => s
  | some m =>
    (({ s with free := s.free + 1 } : State).setCore n ((s.core n).setPort port { p with pkts := removeAt p.pkts k })).report m.iss 0x28 m.colour
      (Config.freeWord s.free) |>.countError (coreDie n)

/-- UNCORRECTABLE_ERROR (R358, R362), by kind: 0 memory at physical number `place`; 1 a register of core place / 8,
context place mod 8; 2 the spill slot or frame place mod 8 of core place / 8; 3 deque record place mod 2,048 of core
place / 2,048; 4 the TLBs of core `place`, whose entries are invalidated; 5 the logic of tile `place`; 6 the save store of core
place / 8, context place mod 8; 7 the pointer cache of the walker of die `place`; 8 the TLB of quad `place`; 9 latch `place`; 10
the mailbox of core place / 64, its entry place mod 64; 11 the port place / 64 mod 4 of core place / 256, its packet
place mod 64. -/
def execUncorrectableError (kind place : Nat) (s : State) : Out :=
  match kind with
  | 0 => .next (s.poisonAt place)
  | 1 =>
    if place / 8 < 2048 then .next ((State.parityFail (place / 8) s (place % 8)).faultTile (place / 8))
    else .next (State.parityFail (place / 8) s (place % 8))
  | 2 => .next (((({ s with free := s.free + 1 } : State).failSpilled (place / 8) (place % 8)).countError (coreDie (place / 8))).sramError (place / 8))
  | 3 =>
    let n := place / 2048
    let t := (({ s with free := s.free + 1 } : State).loseRecord n (place % 2048)).countError (coreDie n)
    .next (if (s.core n).inOverflow (place % 2048) then t.sramError n else t)
  | 4 => .next (s.setCore place { s.core place with tlb := [], copyTlb := [] })
  | 5 => .next ((s.faultTile place).countError (tileDie place))
  | 6 => .next ((State.failSaved (place / 8) s (place % 8)).countError (coreDie (place / 8)))
  | 7 => .next { s with pointers := dropAt s.pointers place }
  | 8 => .next (s.setQuad place { s.quad place with tlb := [] })
  | 9 => .next (s.loseLatch place)
  | 10 => .next (s.loseEntry (place / 64) (place % 64))
  | 11 => .next (s.losePacket (place / 256) (place / 64 % 4) (place % 64))
  | _ => .next s

/-! Replay's abandonment (R356). -/

/-- The scheduling point that holds a message of the network, as a candidate that is not the next choice of its log: its
command's slot and its tile (R356). -/
def State.holding (s : State) (m : Msg) : Option (Nat × Nat) :=
  let at_ := fun slot tile kind choice => if s.mayChoose slot tile kind choice then none else some (slot, tile)
  match m.body with
  | .hcall k => at_ k.slot (logTile m.home) 4 (k.choice (s.mailboxRoom m.home k))
  | .packet p => at_ m.iss.task.slot p.tile 7 p.choice
  | .walk r place => if s.walkHeld place m.iss r then some (r.slot, place) else none
  | .steal thief v d _ => at_ (s.slotOf v) v 1 (2 * ((d + 2) % 4) + (s.steal thief v).isSome.toNat)
  | b => if b.atHome then at_ m.iss.task.slot (logTile m.home) 6 m.place else none

/-- The point of a quad that holds a requester of its key, or a row for the handler of a tile. -/
def State.holdingQuad (s : State) (n : Nat) : List (Nat × Nat) :=
  let q := s.quad n
  let key := match q.holder, s.nextGrant q with
    | none, some (p, t) =>
      let k := s.grantChoice q p t
      if s.mayChoose k.1 (quadTile n 0) 3 k.2 then [] else [(k.1, quadTile n 0)]
    | _, _ => []
  let row := match q.cur with
    | some o =>
      let k := o.cmd
      if o.drainOn && arrHen k.desc && !s.mayChoose k.iss.task.slot k.drainCore 8 0 then [(k.iss.task.slot, k.drainCore)] else []
    | none => []
  key ++ row

/-- Every point that holds a candidate now. -/
def State.heldPoints (s : State) : List (Nat × Nat) :=
  (((List.range s.net.length).zip s.net).filterMap fun x => if s.eligible x.1 x.2 then s.holding x.2 else none) ++
  (s.quads.flatMap fun q => s.holdingQuad q.1 ++ s.stepHeld q.1) ++
  s.cores.flatMap fun c => [0, 1, 2, 3].flatMap (s.copyHeld c.1)

/-- Some command follows a scheduler log. -/
def State.replays (s : State) : Bool := s.slots.any fun x => x.2.cmd.any fun c => c.rlog == 2

/-- Points that hold a candidate have held it for so many ticks more; the others hold none. -/
def State.holdOn (s : State) (ticks : Nat) : Sparse LogPos :=
  if !s.replays then s.schedLog
  else
    let keys := s.heldPoints.map fun p => logKey p.1 p.2
    let kept := s.schedLog.map fun e => if keys.contains e.1 then e else (e.1, { e.2 with held := 0 })
    keys.eraseDups.foldl (fun t k => setAt t k { look {} t k with held := (look {} t k).held + ticks }) kept

/-- Time passes (R19, R20). -/
def State.elapse (s : State) (ticks cycles : Nat) : State :=
  { s with
    tick := s.tick + BitVec.ofNat 64 ticks
    cycles := s.cycles + BitVec.ofNat 64 cycles
    life := s.countSeconds ticks
    schedLog := s.holdOn ticks }

/-- REPLAY_ABANDON (R356): a point of a command that replays has held for 10,000,000 ticks. -/
def execReplayAbandon (q : Nat) (s : State) : Out :=
  if s.schedLog.any fun e => e.1 / 2 ^ 12 == q && decide (10000000 ≤ e.2.held) then
    .next (s.onCmd q fun c => if c.rlog = 2 then { c with rlog := 3 } else c)
  else .next s

end Sys2Proof.Machine
end

