-- ==== Sys2Proof/Machine/Dispatch.lean ====
section
/-! DEFINITION. One arm per constructor of `Instr`. -/

namespace Sys2Proof.Machine

def exec (i : Instr) (s : State) : Host.Outcome State Fault Refusal :=
  match i with
  | .nop h => Sys2Proof.Machine.execNop h s
  | .brk h c => Sys2Proof.Machine.execBrk h c s
  | .trap h c => Sys2Proof.Machine.execTrap h c s
  | .iret h => Sys2Proof.Machine.execIret h s
  | .yield h => Sys2Proof.Machine.execYield h s
  | .done h => Sys2Proof.Machine.execDone h s
  | .setc h c => Sys2Proof.Machine.execSetc h c s
  | .add h d a b => Sys2Proof.Machine.execAdd h d a b s
  | .sub h d a b => Sys2Proof.Machine.execSub h d a b s
  | .and h d a b => Sys2Proof.Machine.execAnd h d a b s
  | .or h d a b => Sys2Proof.Machine.execOr h d a b s
  | .xor h d a b => Sys2Proof.Machine.execXor h d a b s
  | .andn h d a b => Sys2Proof.Machine.execAndn h d a b s
  | .orn h d a b => Sys2Proof.Machine.execOrn h d a b s
  | .sll h d a b => Sys2Proof.Machine.execSll h d a b s
  | .srl h d a b => Sys2Proof.Machine.execSrl h d a b s
  | .sra h d a b => Sys2Proof.Machine.execSra h d a b s
  | .ror h d a b => Sys2Proof.Machine.execRor h d a b s
  | .slt h d a b => Sys2Proof.Machine.execSlt h d a b s
  | .sltu h d a b => Sys2Proof.Machine.execSltu h d a b s
  | .seq h d a b => Sys2Proof.Machine.execSeq h d a b s
  | .sne h d a b => Sys2Proof.Machine.execSne h d a b s
  | .min h d a b => Sys2Proof.Machine.execMin h d a b s
  | .max h d a b => Sys2Proof.Machine.execMax h d a b s
  | .minu h d a b => Sys2Proof.Machine.execMinu h d a b s
  | .maxu h d a b => Sys2Proof.Machine.execMaxu h d a b s
  | .sh1add h d a b => Sys2Proof.Machine.execSh1add h d a b s
  | .sh2add h d a b => Sys2Proof.Machine.execSh2add h d a b s
  | .sh3add h d a b => Sys2Proof.Machine.execSh3add h d a b s
  | .clz h d a => Sys2Proof.Machine.execClz h d a s
  | .ctz h d a => Sys2Proof.Machine.execCtz h d a s
  | .popc h d a => Sys2Proof.Machine.execPopc h d a s
  | .sextb h d a => Sys2Proof.Machine.execSextb h d a s
  | .sexth h d a => Sys2Proof.Machine.execSexth h d a s
  | .sextw h d a => Sys2Proof.Machine.execSextw h d a s
  | .zextb h d a => Sys2Proof.Machine.execZextb h d a s
  | .zexth h d a => Sys2Proof.Machine.execZexth h d a s
  | .zextw h d a => Sys2Proof.Machine.execZextw h d a s
  | .rev8 h d a => Sys2Proof.Machine.execRev8 h d a s
  | .mul h d a b => Sys2Proof.Machine.execMul h d a b s
  | .mulh h d a b => Sys2Proof.Machine.execMulh h d a b s
  | .mulhu h d a b => Sys2Proof.Machine.execMulhu h d a b s
  | .mulhsu h d a b => Sys2Proof.Machine.execMulhsu h d a b s
  | .div h d a b => Sys2Proof.Machine.execDiv h d a b s
  | .divu h d a b => Sys2Proof.Machine.execDivu h d a b s
  | .rem h d a b => Sys2Proof.Machine.execRem h d a b s
  | .remu h d a b => Sys2Proof.Machine.execRemu h d a b s
  | .addi h d a im => Sys2Proof.Machine.execAddi h d a im s
  | .andi h d a im => Sys2Proof.Machine.execAndi h d a im s
  | .ori h d a im => Sys2Proof.Machine.execOri h d a im s
  | .xori h d a im => Sys2Proof.Machine.execXori h d a im s
  | .slli h d a n => Sys2Proof.Machine.execSlli h d a n s
  | .srli h d a n => Sys2Proof.Machine.execSrli h d a n s
  | .srai h d a n => Sys2Proof.Machine.execSrai h d a n s
  | .rori h d a n => Sys2Proof.Machine.execRori h d a n s
  | .slti h d a im => Sys2Proof.Machine.execSlti h d a im s
  | .sltiu h d a im => Sys2Proof.Machine.execSltiu h d a im s
  | .lui h d im => Sys2Proof.Machine.execLui h d im s
  | .lil h d im => Sys2Proof.Machine.execLil h d im s
  | .lb h d a im => Sys2Proof.Machine.execLb h d a im s
  | .lh h d a im => Sys2Proof.Machine.execLh h d a im s
  | .lw h d a im => Sys2Proof.Machine.execLw h d a im s
  | .ld h d a im => Sys2Proof.Machine.execLd h d a im s
  | .lbu h d a im => Sys2Proof.Machine.execLbu h d a im s
  | .lhu h d a im => Sys2Proof.Machine.execLhu h d a im s
  | .lwu h d a im => Sys2Proof.Machine.execLwu h d a im s
  | .sb h d a im => Sys2Proof.Machine.execSb h d a im s
  | .sh h d a im => Sys2Proof.Machine.execSh h d a im s
  | .sw h d a im => Sys2Proof.Machine.execSw h d a im s
  | .sd h d a im => Sys2Proof.Machine.execSd h d a im s
  | .vld h d a im => Sys2Proof.Machine.execVld h d a im s
  | .vst h d a im => Sys2Proof.Machine.execVst h d a im s
  | .vldx h d a b k w => Sys2Proof.Machine.execVldx h d a b k w s
  | .vstx h d a b k w => Sys2Proof.Machine.execVstx h d a b k w s
  | .vlds h d a b k w => Sys2Proof.Machine.execVlds h d a b k w s
  | .vsts h d a b k w => Sys2Proof.Machine.execVsts h d a b k w s
  | .get h d a im => Sys2Proof.Machine.execGet h d a im s
  | .thr h d a b n => Sys2Proof.Machine.execThr h d a b n s
  | .bolt h a b => Sys2Proof.Machine.execBolt h a b s
  | .clear h a b => Sys2Proof.Machine.execClear h a b s
  | .brel h a => Sys2Proof.Machine.execBrel h a s
  | .ctype h d a => Sys2Proof.Machine.execCtype h d a s
  | .bdecl h a b => Sys2Proof.Machine.execBdecl h a b s
  | .fence h m => Sys2Proof.Machine.execFence h m s
  | .fenceSys h m => Sys2Proof.Machine.execFenceSys h m s
  | .beq h a b o => Sys2Proof.Machine.execBeq h a b o s
  | .bne h a b o => Sys2Proof.Machine.execBne h a b o s
  | .blt h a b o => Sys2Proof.Machine.execBlt h a b o s
  | .bge h a b o => Sys2Proof.Machine.execBge h a b o s
  | .bltu h a b o => Sys2Proof.Machine.execBltu h a b o s
  | .bgeu h a b o => Sys2Proof.Machine.execBgeu h a b o s
  | .brp h p t o => Sys2Proof.Machine.execBrp h p t o s
  | .j h o => Sys2Proof.Machine.execJ h o s
  | .jal h o => Sys2Proof.Machine.execJal h o s
  | .jalr h d a im => Sys2Proof.Machine.execJalr h d a im s
  | .loop h l a n => Sys2Proof.Machine.execLoop h l a n s
  | .loopi h l c n => Sys2Proof.Machine.execLoopi h l c n s
  | .peq h d a b => Sys2Proof.Machine.execPeq h d a b s
  | .pne h d a b => Sys2Proof.Machine.execPne h d a b s
  | .plt h d a b => Sys2Proof.Machine.execPlt h d a b s
  | .pge h d a b => Sys2Proof.Machine.execPge h d a b s
  | .pltu h d a b => Sys2Proof.Machine.execPltu h d a b s
  | .pgeu h d a b => Sys2Proof.Machine.execPgeu h d a b s
  | .pand h d a b => Sys2Proof.Machine.execPand h d a b s
  | .por h d a b => Sys2Proof.Machine.execPor h d a b s
  | .pxor h d a b => Sys2Proof.Machine.execPxor h d a b s
  | .pnot h d a => Sys2Proof.Machine.execPnot h d a s
  | .pmovx h d a => Sys2Proof.Machine.execPmovx h d a s
  | .movpx h d a => Sys2Proof.Machine.execMovpx h d a s
  | .spawn h a => Sys2Proof.Machine.execSpawn h a s
  | .spawnat h a => Sys2Proof.Machine.execSpawnat h a s
  | .join h a b => Sys2Proof.Machine.execJoin h a b s
  | .cancel h a => Sys2Proof.Machine.execCancel h a s
  | .bar h a => Sys2Proof.Machine.execBar h a s
  | .bara h a => Sys2Proof.Machine.execBara h a s
  | .barw h a => Sys2Proof.Machine.execBarw h a s
  | .chbind h n a b => Sys2Proof.Machine.execChbind h n a b s
  | .fork h e o => Sys2Proof.Machine.execFork h e o s
  | .hcall h d a e n w => Sys2Proof.Machine.execHcall h d a e n w s
  | .hret h a => Sys2Proof.Machine.execHret h a s
  | .send h a b => Sys2Proof.Machine.execSend h a b s
  | .mfs h d im => Sys2Proof.Machine.execMfs h d im s
  | .mts h a im => Sys2Proof.Machine.execMts h a im s
  | .rep h n im d a b => Sys2Proof.Machine.execRep h n im d a b s
  | .fmt a b d r t c x => Sys2Proof.Machine.execFmt a b d r t c x s
  | .qwr h q a => Sys2Proof.Machine.execQwr h q a s
  | .qrd h d q => Sys2Proof.Machine.execQrd h d q s
  | .qwrv h q a => Sys2Proof.Machine.execQwrv h q a s
  | .qrdv h d q => Sys2Proof.Machine.execQrdv h d q s
  | .qcnt h d q => Sys2Proof.Machine.execQcnt h d q s
  | .vadd h d a b k => Sys2Proof.Machine.execVadd h d a b k s
  | .vsub h d a b k => Sys2Proof.Machine.execVsub h d a b k s
  | .vmul h d a b k => Sys2Proof.Machine.execVmul h d a b k s
  | .vfma h d a b k => Sys2Proof.Machine.execVfma h d a b k s
  | .vfms h d a b k => Sys2Proof.Machine.execVfms h d a b k s
  | .vfnma h d a b k => Sys2Proof.Machine.execVfnma h d a b k s
  | .vmin h d a b k => Sys2Proof.Machine.execVmin h d a b k s
  | .vmax h d a b k => Sys2Proof.Machine.execVmax h d a b k s
  | .vabs h d a k => Sys2Proof.Machine.execVabs h d a k s
  | .vneg h d a k => Sys2Proof.Machine.execVneg h d a k s
  | .vdiv h d a b k => Sys2Proof.Machine.execVdiv h d a b k s
  | .vsqrt h d a k => Sys2Proof.Machine.execVsqrt h d a k s
  | .vrcp h d a k => Sys2Proof.Machine.execVrcp h d a k s
  | .vrsq h d a k => Sys2Proof.Machine.execVrsq h d a k s
  | .vexp2 h d a k => Sys2Proof.Machine.execVexp2 h d a k s
  | .vlog2 h d a k => Sys2Proof.Machine.execVlog2 h d a k s
  | .viadd h d a b k => Sys2Proof.Machine.execViadd h d a b k s
  | .visub h d a b k => Sys2Proof.Machine.execVisub h d a b k s
  | .vimul h d a b k => Sys2Proof.Machine.execVimul h d a b k s
  | .vimin h d a b k => Sys2Proof.Machine.execVimin h d a b k s
  | .vimax h d a b k => Sys2Proof.Machine.execVimax h d a b k s
  | .viminu h d a b k => Sys2Proof.Machine.execViminu h d a b k s
  | .vimaxu h d a b k => Sys2Proof.Machine.execVimaxu h d a b k s
  | .vand h d a b k => Sys2Proof.Machine.execVand h d a b k s
  | .vor h d a b k => Sys2Proof.Machine.execVor h d a b k s
  | .vxor h d a b k => Sys2Proof.Machine.execVxor h d a b k s
  | .vsll h d a b k => Sys2Proof.Machine.execVsll h d a b k s
  | .vsrl h d a b k => Sys2Proof.Machine.execVsrl h d a b k s
  | .vsra h d a b k => Sys2Proof.Machine.execVsra h d a b k s
  | .viabs h d a k => Sys2Proof.Machine.execViabs h d a k s
  | .vsadd h d a b k => Sys2Proof.Machine.execVsadd h d a b k s
  | .vdot4 h d a b k => Sys2Proof.Machine.execVdot4 h d a b k s
  | .vceq h d a b k => Sys2Proof.Machine.execVceq h d a b k s
  | .vcne h d a b k => Sys2Proof.Machine.execVcne h d a b k s
  | .vclt h d a b k => Sys2Proof.Machine.execVclt h d a b k s
  | .vcle h d a b k => Sys2Proof.Machine.execVcle h d a b k s
  | .vcltu h d a b k => Sys2Proof.Machine.execVcltu h d a b k s
  | .vcleu h d a b k => Sys2Proof.Machine.execVcleu h d a b k s
  | .vfeq h d a b k => Sys2Proof.Machine.execVfeq h d a b k s
  | .vfne h d a b k => Sys2Proof.Machine.execVfne h d a b k s
  | .vflt h d a b k => Sys2Proof.Machine.execVflt h d a b k s
  | .vfle h d a b k => Sys2Proof.Machine.execVfle h d a b k s
  | .vbcast h d a k => Sys2Proof.Machine.execVbcast h d a k s
  | .vsel h d a b k => Sys2Proof.Machine.execVsel h d a b k s
  | .vshuf h d a b k => Sys2Proof.Machine.execVshuf h d a b k s
  | .vsldn h d a b k => Sys2Proof.Machine.execVsldn h d a b k s
  | .vslup h d a b k => Sys2Proof.Machine.execVslup h d a b k s
  | .vext h d a b => Sys2Proof.Machine.execVext h d a b s
  | .vins h d a b k => Sys2Proof.Machine.execVins h d a b k s
  | .vzip h d a b k => Sys2Proof.Machine.execVzip h d a b k s
  | .vunzip h d a b k => Sys2Proof.Machine.execVunzip h d a b k s
  | .vrev h d a k => Sys2Proof.Machine.execVrev h d a k s
  | .vcvt h d a k t => Sys2Proof.Machine.execVcvt h d a k t s
  | .vrsum h d a k => Sys2Proof.Machine.execVrsum h d a k s
  | .vrmax h d a k => Sys2Proof.Machine.execVrmax h d a k s
  | .vrmin h d a k => Sys2Proof.Machine.execVrmin h d a k s
  | .vror h d a k => Sys2Proof.Machine.execVror h d a k s
  | .vrand h d a k => Sys2Proof.Machine.execVrand h d a k s
  | .vrisum h d a k => Sys2Proof.Machine.execVrisum h d a k s
  | .kand h d a b => Sys2Proof.Machine.execKand h d a b s
  | .kor h d a b => Sys2Proof.Machine.execKor h d a b s
  | .kxor h d a b => Sys2Proof.Machine.execKxor h d a b s
  | .knot h d a => Sys2Proof.Machine.execKnot h d a s
  | .kmovx h d a => Sys2Proof.Machine.execKmovx h d a s
  | .xmovk h d a => Sys2Proof.Machine.execXmovk h d a s
  | .kpopc h d a => Sys2Proof.Machine.execKpopc h d a s
  | .kfirst h d a => Sys2Proof.Machine.execKfirst h d a s
  | .gzero h d => Sys2Proof.Machine.execGzero h d s
  | .gacc h d a k => Sys2Proof.Machine.execGacc h d a k s
  | .gadd h d a => Sys2Proof.Machine.execGadd h d a s
  | .gsub h d a => Sys2Proof.Machine.execGsub h d a s
  | .gsch h d a k => Sys2Proof.Machine.execGsch h d a k s
  | .gdmp h d a b => Sys2Proof.Machine.execGdmp h d a b s
  | .gmean h d a k => Sys2Proof.Machine.execGmean h d a k s
  | .gsnd h d a => Sys2Proof.Machine.execGsnd h d a s
  | .grcv h d a => Sys2Proof.Machine.execGrcv h d a s
  | .akey h => Sys2Proof.Machine.execAkey h s
  | .arel h => Sys2Proof.Machine.execArel h s
  | .mma h a => Sys2Proof.Machine.execMma h a s
  | .mgang h a b => Sys2Proof.Machine.execMgang h a b s
  | .mres h => Sys2Proof.Machine.execMres h s
  | .mzero h => Sys2Proof.Machine.execMzero h s
  | .rrow h => Sys2Proof.Machine.execRrow h s
  | .rdrop h => Sys2Proof.Machine.execRdrop h s
  | .mstat h d => Sys2Proof.Machine.execMstat h d s
  | .nbcfg h a b => Sys2Proof.Machine.execNbcfg h a b s
  | .nbrun h a => Sys2Proof.Machine.execNbrun h a s
  | .nbget h d a => Sys2Proof.Machine.execNbget h d a s
  | .nbrel h a => Sys2Proof.Machine.execNbrel h a s
  | .cpy h a => Sys2Proof.Machine.execCpy h a s
  | .cpyx h a => Sys2Proof.Machine.execCpyx h a s
  | .cstat h d => Sys2Proof.Machine.execCstat h d s
  | .taskFailure core ctx => Sys2Proof.Machine.execTaskFailure core ctx s
  | .kick q tail => Sys2Proof.Machine.execKick q tail s
  | .qtab base count => Sys2Proof.Machine.execQtab base count s
  | .qcreate q => Sys2Proof.Machine.execQcreate q s
  | .slots count ageing => Sys2Proof.Machine.execSlots count ageing s
  | .ccreate q session => Sys2Proof.Machine.execCcreate q session s
  | .info => Sys2Proof.Machine.execInfo s
  | .sample tick host len => Sys2Proof.Machine.execSample tick host len s
  | .replay q mode log len => Sys2Proof.Machine.execReplay q mode log len s
  | .twin q on => Sys2Proof.Machine.execTwin q on s
  | .chknow q host => Sys2Proof.Machine.execChknow q host s
  | .mboxlim q limit => Sys2Proof.Machine.execMboxlim q limit s
  | .bar2WindowBase v => Sys2Proof.Machine.execBar2WindowBase v s
  | .bar2Read off len => Sys2Proof.Machine.execBar2Read off len s
  | .bar2Write off bytes => Sys2Proof.Machine.execBar2Write off bytes s
  | .registerWrite off v => Sys2Proof.Machine.execRegisterWrite off v s
  | .firmwareStart patchOk failed => Sys2Proof.Machine.execFirmwareStart patchOk failed s
  | .launch slot => Sys2Proof.Machine.execLaunch slot s
  | .gang slot => Sys2Proof.Machine.execGang slot s
  | .copyh slot => Sys2Proof.Machine.execCopyh slot s
  | .boltPacket slot => Sys2Proof.Machine.execBoltPacket slot s
  | .clearPacket slot => Sys2Proof.Machine.execClearPacket slot s
  | .fencePacket slot => Sys2Proof.Machine.execFencePacket slot s
  | .signal slot => Sys2Proof.Machine.execSignal slot s
  | .destroy slot => Sys2Proof.Machine.execDestroy slot s
  | .chkpt slot => Sys2Proof.Machine.execChkpt slot s
  | .ib slot => Sys2Proof.Machine.execIb slot s
  | .packetComplete slot => Sys2Proof.Machine.execPacketComplete slot s
  | .ageingBoundary => Sys2Proof.Machine.execAgeingBoundary s
  | .energySample charges => Sys2Proof.Machine.execEnergySample charges s
  | .periodBoundary q => Sys2Proof.Machine.execPeriodBoundary q s
  | .arm slot pkg status => Sys2Proof.Machine.execArm slot pkg status s
  | .gangDecide slot => Sys2Proof.Machine.execGangDecide slot s
  | .gangDecision slot status => Sys2Proof.Machine.execGangDecision slot status s
  | .gangStart slot => Sys2Proof.Machine.execGangStart slot s
  | .terminationWave slot => Sys2Proof.Machine.execTerminationWave slot s
  | .gangWaveResult slot pkg idle dirty sum => Sys2Proof.Machine.execGangWaveResult slot pkg idle dirty sum s
  | .gangFenceReport slot pkg status fclass cancel => Sys2Proof.Machine.execGangFenceReport slot pkg status fclass cancel s
  | .taskStart core => Sys2Proof.Machine.execTaskStart core s
  | .taskRetire core ctx => Sys2Proof.Machine.execTaskRetire core ctx s
  | .stealRequest n => Sys2Proof.Machine.execStealRequest n s
  | .stolenRecord n => Sys2Proof.Machine.execStolenRecord n s
  | .stealRefusal n => Sys2Proof.Machine.execStealRefusal n s
  | .stealBackoff core => Sys2Proof.Machine.execStealBackoff core s
  | .spawnatWalk n => Sys2Proof.Machine.execSpawnatWalk n s
  | .spill core => Sys2Proof.Machine.execSpill core s
  | .cancelRequest n => Sys2Proof.Machine.execCancelRequest n s
  | .resultArrival n => Sys2Proof.Machine.execResultArrival n s
  | .wake n => Sys2Proof.Machine.execWake n s
  | .storeApply n => Sys2Proof.Machine.execStoreApply n s
  | .joinApply n => Sys2Proof.Machine.execJoinApply n s
  | .joinCombine a b => Sys2Proof.Machine.execJoinCombine a b s
  | .loadServe n => Sys2Proof.Machine.execLoadServe n s
  | .getServe n => Sys2Proof.Machine.execGetServe n s
  | .thrServe n => Sys2Proof.Machine.execThrServe n s
  | .latchRetry n => Sys2Proof.Machine.execLatchRetry n s
  | .boltApply n => Sys2Proof.Machine.execBoltApply n s
  | .boltAck n => Sys2Proof.Machine.execBoltAck n s
  | .clearCheck n => Sys2Proof.Machine.execClearCheck n s
  | .clearApply n => Sys2Proof.Machine.execClearApply n s
  | .fillWrite n => Sys2Proof.Machine.execFillWrite n s
  | .brelApply n => Sys2Proof.Machine.execBrelApply n s
  | .bdeclApply n => Sys2Proof.Machine.execBdeclApply n s
  | .copyCommandRun core ctx => Sys2Proof.Machine.execCopyCommandRun core ctx s
  | .copyComplete core ctx => Sys2Proof.Machine.execCopyComplete core ctx s
  | .keyGrant quad => Sys2Proof.Machine.execKeyGrant quad s
  | .arrayKstep quad => Sys2Proof.Machine.execArrayKstep quad s
  | .arrayDrainRow quad => Sys2Proof.Machine.execArrayDrainRow quad s
  | .rowHandlerStart core => Sys2Proof.Machine.execRowHandlerStart core s
  | .nbBind n => Sys2Proof.Machine.execNbBind n s
  | .nbRun unit => Sys2Proof.Machine.execNbRun unit s
  | .nbUnbind unit => Sys2Proof.Machine.execNbUnbind unit s
  | .hingeCallArrival n => Sys2Proof.Machine.execHingeCallArrival n s
  | .hingeHandlerStart core => Sys2Proof.Machine.execHingeHandlerStart core s
  | .hingeStatusArrival n => Sys2Proof.Machine.execHingeStatusArrival n s
  | .hingeReplyTimeout id => Sys2Proof.Machine.execHingeReplyTimeout id s
  | .channelPacketArrival n => Sys2Proof.Machine.execChannelPacketArrival n s
  | .channelResend n => Sys2Proof.Machine.execChannelResend n s
  | .reductionRound core => Sys2Proof.Machine.execReductionRound core s
  | .barrierRelease b => Sys2Proof.Machine.execBarrierRelease b s
  | .barrierArrivalFlit pkg b => Sys2Proof.Machine.execBarrierArrivalFlit pkg b s
  | .barrierReleaseFlit b => Sys2Proof.Machine.execBarrierReleaseFlit b s
  | .flitReceive link flit => Sys2Proof.Machine.execFlitReceive link flit s
  | .linkRetrain link => Sys2Proof.Machine.execLinkRetrain link s
  | .linkFailTimeout link => Sys2Proof.Machine.execLinkFailTimeout link s
  | .clockStep up => Sys2Proof.Machine.execClockStep up s
  | .debugHalt core => Sys2Proof.Machine.execDebugHalt core s
  | .singleStep core ctx => Sys2Proof.Machine.execSingleStep core ctx s
  | .debugResume core => Sys2Proof.Machine.execDebugResume core s
  | .samplePulse => Sys2Proof.Machine.execSamplePulse s
  | .scrub => Sys2Proof.Machine.execScrub s
  | .uncorrectableError kind place => Sys2Proof.Machine.execUncorrectableError kind place s
  | .lifetimeRecordWrite => Sys2Proof.Machine.execLifetimeRecordWrite s
  | .powerDown => Sys2Proof.Machine.execPowerDown s
  | .replayAbandon slot => Sys2Proof.Machine.execReplayAbandon slot s
  | .twinDigest n => Sys2Proof.Machine.execTwinDigest n s
  | .chkptBlockAck slot => Sys2Proof.Machine.execChkptBlockAck slot s
  | .linkRetrainComplete link => Sys2Proof.Machine.execLinkRetrainComplete link s
  | .walkComplete n => Sys2Proof.Machine.execWalkComplete n s
  | .mailboxServe n => Sys2Proof.Machine.execMailboxServe n s
  | .mailboxReply n => Sys2Proof.Machine.execMailboxReply n s
  | .channelPacketReply n => Sys2Proof.Machine.execChannelPacketReply n s
  | .powerFailure => Sys2Proof.Machine.execPowerFailure s

end Sys2Proof.Machine
end

