-- ==== Sys2Proof/Machine/Issue.lean ====
section
/-! DEFINITION. Issue: fetching a word (R86-R91), replaying a REP (R129-R131), and one issue of the context
that is chosen. -/

namespace Sys2Proof.Machine

/-- What a fetch answers. -/
inductive Fetched where
  | word (w : Insn)
  | bad (cause : Nat) (tval : Word)
  /-- the word lies in another package (R91), at a VA: its package and physical number while nothing has been asked -/
  | away (va : Nat) (at_ : Option (Nat × Nat))
  deriving DecidableEq, Repr

/-- The leaf that maps local address `a` of the issuing context's code region (R65, R91). -/
def State.codeLeaf (s : State) (a : Nat) : Option TlbEntry :=
  match (s.slot s.ctx.slot).cmd.bind (·.code) with
  | none => none
  | some (base, _) => (s.walk s.ctx.slot (base + a)).toOption

/-- The session under whose key the code at local address `a` is encrypted (R38). -/
def State.codeKey (s : State) (a : Nat) : Option Word := (s.codeLeaf a).bind (s.keyOf s.ctx.slot)

/-- The block of the word that a stack core fetches is seen as its page says (R38). -/
def State.codeSeen (s : State) (a : Nat) : State :=
  if stackCore s.cur then match s.fetchPa a with
    | some pa => s.seen (s.codeKey a) pa
    | none => s
  else s

/-- A word that unfinished code loads write is read afresh at each issue (R90). -/
def State.freshFetch (s : State) : State := if s.me.loading.isEmpty then s else { s with free := s.free + 1 }

/-- The fetch of the word at `a` by the issuing context (R89, R91): its word, a fetch at or beyond xb, or
the end of a stack core's code. -/
def State.fetch (s : State) (a : Nat) : Fetched :=
  if stackCore s.cur then
    match s.codeAt s.ctx.slot a with
    | some (va, k, pa) =>
      if k = s.pkg then .word (s.insn a)
      else match s.farCode s.cur va with
        | some (some _) => .word (s.insn a)
        | some none => .away va none
        | none => .away va (some (k, pa))
    | none => .bad 0x23 (BitVec.ofNat 64 a)
  else if s.me.xb.toNat ≤ a then .bad 0x03 (BitVec.ofNat 64 a)
  else .word (s.insn a)

/-- The handler run of the issuing context, 0 for a task. -/
def State.runNumber (s : State) : Nat :=
  match s.ctx.role with
  | .row _ r | .hinge _ r => r
  | _ => 0

/-- A stack core asks another package for a word of its code (R91) (DESIGN CHOICE, log entry 79). -/
def State.askCode (s : State) (a va pkg pa : Nat) : State :=
  { s with fetched := s.fetched ++ [(codeCmd s.cur, va, none)] }.send
    { iss := s.issuer, more := [], pkg := pkg, home := homeOf pa, colour := 8, group := s.ctx.group, cmd := codeCmd s.cur,
      body := .load pa va 0xC 4 { base := pa, len := 4, width := 0 } false
        { isV := false, reg := va, handler := some (s.pkg, s.cur, s.runNumber) } 64
      key := s.codeKey a }

/-- The fetched word lies in poisoned memory (R358). -/
def State.badWord (s : State) (a : Nat) : Bool :=
  match s.fetchPa a with
  | none => match s.farWord a with
    | some (.fault ..) => true
    | _ => false
  | some pa => s.poisoned pa 4

/-- A poisoned word (R358): the report goes to the task, and what is fetched is a free value
(DEDUCED, log entry 20). -/
def State.fetchPoison (s : State) (a : Nat) : State × Insn :=
  let w := (Config.freeWord s.free).setWidth 32
  (({ s with free := s.free + 1 } : State).report s.issuer 0x28 s.ctx.colour (BitVec.ofNat 64 a), w)

/-- What follows the fetch of the word at `a`: its own issue, with a poisoned word's report and value, a trap, or a park until
the word comes. -/
def State.fetching (s : State) (a : Nat) (f : State → Insn → Out) : Out :=
  match s.fetch a with
  | .word w =>
    if s.badWord a then
      let r := s.fetchPoison a
      f r.1 r.2
    else f s w
  | .bad cause tval => .next (s.trap cause tval)
  | .away va none => .next (s.park (.code va))
  | .away va (some (pkg, pa)) => .next ((s.askCode a va pkg pa).park (.code va))

/-- A word decoded and executed; a word that R103 does not define is an illegal instruction (R104), whose prefix is gone. -/
def State.runWord (s : State) (w : Insn) : Out :=
  match decodeWord w with
  | .ok i => exec i s
  | .error _ => .next ((s.setCtx { s.ctx with pfx := none }).trapAt 0x01 (w.setWidth 64) s.ctx.pc s.instrPc)

/-- The ordinary issue of the word at the PC. -/
def State.issueWord (s : State) : Out := s.fetching s.ctx.pc.toNat State.runWord

/-- Which of rd, rs1 and rs2 of an arithmetic-class word name x or v registers (R103, R130). -/
def staggerFields (w : Insn) : Bool × Bool × Bool :=
  let maj := (w.extractLsb' 22 6).toNat
  let fn7 := (w.extractLsb' 0 7).toNat
  let fn4 := (w.extractLsb' 0 4).toNat
  match maj with
  | 0x01 => (true, true, decide (fn7 < 22))
  | 0x02 => (true, true, true)
  | 0x03 | 0x04 | 0x05 | 0x06 | 0x07 | 0x08 | 0x09 => (true, true, false)
  | 0x0A | 0x0B => (true, false, false)
  | 0x34 => (true, true, decide (fn4 < 8) || decide (fn4 = 10))
  | 0x35 => (true, true, decide (fn4 ≠ 13))
  | 0x36 => (false, true, true)
  | 0x37 => (true, true, decide (fn4 ≠ 0) && decide (fn4 ≠ 9))
  | 0x38 | 0x39 => (true, true, false)
  | 0x3A =>
    (decide (fn4 = 4) || decide (fn4 = 6) || decide (fn4 = 7), decide (fn4 = 5), false)
  | _ => (false, false, false)

/-- A captured word at iteration `j` with the three staggers (R130). -/
def staggered (w : Insn) (d a b j : Nat) : Insn :=
  let f := staggerFields w
  let at5 := fun (on : Bool) (lo st : Nat) (w : Insn) =>
    if on then
      let v := BitVec.ofNat 5 ((w.extractLsb' lo 5).toNat + j * st)
      (w &&& ~~~((0x1F#32) <<< lo)) ||| ((v.setWidth 32) <<< lo)
    else w
  at5 f.2.2 7 b (at5 f.2.1 12 a (at5 f.1 17 d w))

/-- The word at `a` lies beyond the last body word of an active loop (R129).  A loop that a trap has suspended does not count:
no rule says whether it is active for this check (DESIGN CHOICE, log entry 85). -/
def Ctx.beyondBody (c : Ctx) (a : Nat) : Bool :=
  (c.live 0 && decide (lcLast c.lc0 < a)) || (c.live 1 && decide (lcLast c.lc1 < a))

/-- An illegal captured word (R129): its tval is the word as it stands in memory (log entry 11). -/
def State.badCapture (s : State) (w : Insn) : Out := .next (s.trap 0x01 (w.setWidth 64))

/-- The captured word `w` at `a` of a REP, at the position that tstat holds (R130).  The word is read from memory for every
execution (DESIGN CHOICE, log entry 86); one that is illegal only once it has been staggered has the staggered word as its
tval (DESIGN CHOICE, log entry 11). -/
def State.replayWord (rep : Insn) (a : Nat) (s : State) (w : Insn) : Out :=
  if s.ctx.beyondBody a then s.badCapture w
  else s.runWord (staggered w (rep.extractLsb' 10 2).toNat (rep.extractLsb' 8 2).toNat
    (rep.extractLsb' 6 2).toNat s.ctx.riter)

/-- One execution of a replay (R130): a captured word, or an FMT with its consumer (R99).  Its position is what tstat holds,
a handler's own value also where it lies beyond the REP's n or iterations (DESIGN CHOICE, log entry 87). -/
def State.replay (s : State) (rep : Insn) : Out :=
  let a := s.captureEnd s.ctx.rslot (s.ctx.pc.toNat + 4)
  s.fetching a fun s w =>
    match decodeWord w with
    | .ok (.fmt ..) =>
      if s.ctx.beyondBody a || s.ctx.lastOfBody a then s.badCapture w
      else (s.setCtx { s.ctx with pfx := some (w.extractLsb' 0 22) }).fetching (a + 4) (State.replayWord rep (a + 4))
    | _ => State.replayWord rep a s w

/-- The word at the PC, or the replay that it stands for; a handler whose budget is used up traps (R255, R306). -/
def State.issueNext (s : State) : Out :=
  let s := s.freshFetch.codeSeen s.ctx.pc.toNat
  let c := s.ctx
  if c.spent then .next (s.trap 0x11 (BitVec.ofNat 64 s.instrPc))
  else if c.rep then
    s.fetching c.pc.toNat fun s w =>
      match decodeWord w with
      | .ok (.rep ..) => s.replay w
      | _ => (s.setCtx { s.ctx with rep := false }).runWord w
  else s.issueWord

/-- One issue of the issuing context, which is ready: the end of a marker's park and a fault that is delivered
there (R128, R195), the end of a hinge handler that trapped (R309), or an instruction. -/
def State.issueOne (s : State) : Out :=
  let c := s.ctx
  let t := s.setCtx { c with wait := .none }
  match c.wait with
  | .marker a => match t.delivered a with
    | some u => .next u
    | none => t.issueNext
  | .hfail cause =>
    match c.role with
    | .hinge k _ => .next (t.endHinge k (.failed cause))
    | _ => t.issueNext
  | _ => t.issueNext

/-- The first arrival of core `n` can start its handler now (R74): the handler context is free, and neither the core nor the
arrival's command is held. -/
def State.handlerDue (s : State) (n : Nat) : Bool :=
  let c := s.core n
  !(c.ctx 4).busy && !s.defers n && (match c.nextArrival with
    | some (.row j, _) => !s.preempted j.arr.iss.task.slot
    | some (.hinge k, _) => !(decide (n < 2048) && s.preempted k.slot)
    | none => false)

/-- The handler of the first arrival starts. -/
def State.startHandler (s : State) (n : Nat) : Out :=
  match (s.core n).nextArrival with
  | some (.row _, _) => execRowHandlerStart n s
  | _ => execHingeHandlerStart n s

/-- Core `n` issues one instruction of the context that R74 chooses, once no handler is due to start there; without a ready
one nothing issues. -/
def State.issueCore (s : State) (n : Nat) : Out :=
  if s.handlerDue n then s.startHandler n
  else match s.choose n with
    | some i => (s.select n i).issueOne
    | none => .next s

/-- A core halts again behind a single step (R349); its handlers run on while the array is busy when the debugger asked
for that (R266). -/
def haltAgain (n : Nat) (r : Out) : Out :=
  match r with
  | .next s =>
    let c := s.core n
    .next (s.setCore n { c with halted := true, stepping := c.completeOnStep })
  | .fault f => .fault f
  | .refused q => .refused q

/-- A single step of a context of a halted core (R349); a context at a BRK goes on behind it. -/
def State.issueSingle (s : State) (n i : Nat) : Out :=
  let c := s.core n
  let c' := c.passBrk i
  let t := s.setCore n { c' with halted := false, stepping := false }
  if c.halted && t.ctxReady n i then haltAgain n (t.select n i).issueOne else .next s

/-- What the debugger leaves of a context (R348): its registers and status registers as given; reserved bits are not written
(R3), and a replay goes on where tstat[4] stays set (DEDUCED, log entry 70). -/
def Ctx.debugged (c x : Ctx) : Ctx :=
  { c with
    pc := x.pc &&& 0x3FFFFC, x := x.x, v := x.v, p := x.p ||| 1, k := x.k, tstat := x.tstat &&& 0x7FFFF
    tpc := x.tpc &&& 0x3FFFFC, tcause := x.tcause &&& 0xFF, tval := x.tval, fpre := x.fpre &&& 0x3FFFFF
    lc0 := x.lc0 &&& ~~~0x100000000, lc1 := x.lc1 &&& ~~~0x100000000, fflags := x.fflags &&& 0x3F3F, frm := x.frm &&& 7
    fseed := x.fseed, hst := x.hst &&& 0xFFFF3FFF00000000, chb := x.chb &&& 0xC3C3C3C3, gtol := x.gtol &&& 0xFFFFFFFF
    gdmp := x.gdmp &&& 0xFF, rep := c.rep && x.tstat.getLsbD 4 }

/-- A core's tvec and xb as the debugger gives them, where MTS would take them (R87, R88, R124). -/
def CoreSt.debugged (c : CoreSt) (tvec xb : Word) : CoreSt :=
  { c with
    tvec := if (tvec &&& 0xFFFFFC).toNat < 0x100000 then tvec &&& 0xFFFFFC else c.tvec
    xb := if xb.toNat % 4096 = 0 ∧ 0x1000 ≤ xb.toNat ∧ xb.toNat ≤ 0x100000 then xb else c.xb }

/-- The debugger writes a context of a halted core, which is none of a confidential context (R62, R348); a context that it
moves stands at its BRK no longer. -/
def State.debugWrite (s : State) (n i : Nat) (x : Ctx) (tvec xb : Word) : State :=
  let c := s.core n
  if !c.halted || (match c.slot with
      | some q => qcbConf (s.slot q).qcb
      | none => false) then s
  else
    let y := (c.ctx i).debugged x
    s.setCore n { (c.debugged tvec xb).setCtx i y with
      atBrk := if y.pc = (c.ctx i).pc then c.atBrk else c.atBrk.filter (· != i) }

/-- What takes message `n` where it is going. -/
def Body.serve (b : Body) (n : Nat) : State → Out :=
  match b with
  | .store .. => execStoreApply n
  | .join .. => execJoinApply n
  | .fill .. => execFillWrite n
  | .load .. => execLoadServe n
  | .want _ _ _ _ w _ => match w with
    | .get _ => execGetServe n
    | .thr _ | .join _ => execThrServe n
    | .gsnd | .grcv | .gdmp => execMailboxServe n
  | .result .. => execResultArrival n
  | .wake .. => execWake n
  | .mreply _ => execMailboxReply n
  | .bolt .. => execBoltApply n
  | .boltAck => execBoltAck n
  | .clearCheck .. => execClearCheck n
  | .clearApply .. => execClearApply n
  | .brel .. => execBrelApply n
  | .bdecl .. => execBdeclApply n
  | .hcall _ => execHingeCallArrival n
  | .hnote .. => execHingeStatusArrival n
  | .packet _ => execChannelPacketArrival n
  | .packetNote .. => execChannelPacketReply n
  | .nb u op => match op with
    | .bind _ => execNbBind n
    | .run .. => execNbRun u
    | .rel => execNbUnbind u
  | .steal .. => execStealRequest n
  | .stolen .. => execStolenRecord n
  | .refusal _ => execStealRefusal n
  | .walk .. => execSpawnatWalk n
  | .cancel .. => execCancelRequest n
  | .digest .. => execTwinDigest n
  | .ack _ | .report .. | .flags _ | .control .. | .init .. | .wipe .. | .unlatch => .next

/-- The steps of a context that is ending. -/
def Ctx.ends (x : Ctx) (core i : Nat) : List (State → Out) :=
  match x.wait with
  | .failing _ => [execTaskFailure core i]
  | .doneWrites | .cancelling => [execTaskRetire core i]
  | _ => []

/-- What may move when no turn is given: messages, walks, engines, arrays, handlers, tasks that end or start. -/
def State.movers (s : State) : List (State → Out) :=
  ((List.range s.net.length).zip s.net).map (fun (p : Nat × Msg) => p.2.body.serve p.1) ++
  (List.range s.walks.length).map execWalkComplete ++
  s.cores.flatMap (fun (c : Nat × CoreSt) =>
    [0, 1, 2, 3].flatMap (fun i => [execCopyCommandRun c.1 i, execCopyComplete c.1 i] ++ (c.2.ctx i).ends c.1 i) ++
    [execRowHandlerStart c.1, execHingeHandlerStart c.1, execTaskStart c.1]) ++
  s.quads.flatMap (fun (q : Nat × Quad) => [execKeyGrant q.1, execArrayKstep q.1, execArrayDrainRow q.1])

/-- An outcome that is another state than `s`. -/
def State.moved (s : State) (r : Out) : Bool :=
  match r with
  | .next t => decide (t ≠ s)
  | _ => true

/-- The first step that changes something, else nothing happens. -/
def State.firstMove (s : State) : List (State → Out) → Out
  | [] => .next s
  | f :: r => if s.moved (f s) then f s else s.firstMove r

/-- When no turn is given and nothing can issue on the current core: the first of the moves that are due. -/
def State.idle (s : State) : Out := s.firstMove s.movers

/-- Messages `n` and `n + 1` change places where no order holds them (R13). -/
def State.overtake (s : State) (n : Nat) : State :=
  match s.net[n]?, s.net[n + 1]? with
  | some a, some b =>
    if mustWait a b || sameOrder a b then s else { s with net := replaceAt (replaceAt s.net n b) (n + 1) a }
  | _, _ => s

/-- One turn. -/
def State.takeTurn (s : State) : Turn → Out
  | .event e => exec e s
  | .core n => s.issueCore n
  | .single n i => s.issueSingle n i
  | .elapse ticks cycles => .next (s.elapse ticks cycles)
  | .deliver m => .next (s.deliver m)
  | .overtake n => .next (s.overtake n)
  | .hostWrite a bs => .next { s with hostMem := writeBytes s.hostMem a bs }
  | .debugWrite n i x tvec xb => .next (s.debugWrite n i x tvec xb)
  | .debugMode n b e => .next (s.setCore n { s.core n with haltOnBrk := b, completeOnStep := e })
  | .remoteApplied n reports => .next (s.remoteDone n reports)
  | .registerRead off => .next (s.registerRead off)
  | .resizeBar2 n => .next (s.resizeBar2 n)
  | .sendFlit link n => .next (s.sendFlit link n)
  | .linkFlit link tick => .next (s.linkFlit link tick)
  | .streamFlit link => .next (s.streamFlit link)
  | .replayRequest link last => .next (s.replayRequest link last)
  | .power w => .next { s with watts := w }
  | .corrected e => .next (s.bump (scrubCounter e))

/-- The machine without a turn given: a handler that is due on the current core starts, or it issues, or something in flight moves
(DESIGN CHOICE, log entry 4). -/
def State.advance (s : State) : Out :=
  if s.handlerDue s.cur then s.startHandler s.cur
  else match s.choose s.cur with
    | some i => (s.select s.cur i).issueOne
    | none => s.idle

/-- A turn that power-on begins with (R63). -/
def Turn.powersOn : Turn → Bool
  | .event (.firmwareStart ..) => true
  | _ => false

/-- A task runs on the current context, and the word stands at its PC (DESIGN CHOICE, log entry 5). -/
def State.placeWord (s : State) (w : Nat) : State :=
  let c := s.ctx
  let s := { s with
    turns := []
    powered := true
    mem := writeBytes s.mem (localPa s.cur c.pc.toNat) (natBytes 4 w) }
  s.setCtx { c with role := if c.role = .free then .task else c.role }

end Sys2Proof.Machine
end

