-- ==== Sys2Proof/Machine/Step.lean ====
section
/-! DEFINITION. One step of the machine, and the state in which a given word is the next one it fetches. -/

namespace Sys2Proof.Machine

/-- One step: the next turn, or, when none is given, the current core's next instruction.  Without power
only power-on is a step (R63, R361). -/
def step (s : State) : Out :=
  match s.turns with
  | t :: rest =>
    if s.powered || t.powersOn then State.takeTurn { s with turns := rest } t else .fault .noPower
  | [] => if s.powered then s.advance else .fault .noPower

/-- The state with an instruction of `nbits` bits stored where the next step fetches. -/
def State.withFetchWord (s : State) (_nbits w : Nat) : State := s.placeWord w

end Sys2Proof.Machine
end

