-- ==== Sys2Proof/Safety.lean ====
section
/-! DEFINITION. What a safe run is, in the terms that claims use: the canonical form of memories, when an
instruction's own effect happens, and what it leaves unchanged. -/

namespace Sys2Proof.Machine

/-- Both memories are in canonical form. -/
def State.memOk (s : State) : Bool := Memory.wf s.mem && Memory.wf s.hostMem

/-- A step that does not stop. -/
def State.goesOn (s : State) : Prop := ∃ t, step s = .next t

/-- The checks of R105 that stand before an instruction's own effect pass in the issuing context: it is one of a
core's five, its budget is not used up, a prefix stands only before a consumer, the class of the instruction is
allowed there, the guard holds, and no register among `uses` is pending (R127) or, outside a trap handler, faulted (R195). -/
structure Clear (s : State) (k : Cls) (h : Head) (uses : List Nat) : Prop where
  here : s.curCtx < 5
  budget : s.ctx.spent = false
  pfx : s.ctx.pfx = none ∨ k.fmt = true
  allowed : s.ctx.legal k = true
  guard : s.ctx.guard h.g = true
  ready : ∀ n ∈ uses, n ≠ 0 → s.ctx.pending.getLsbD n = false
  whole : ∀ n ∈ uses, n ≠ 0 → s.ctx.inh = true ∨ ∀ e ∈ s.ctx.faulted, e.1 ≠ n

/-- The word at the PC is the last of a running loop's body (R142). -/
def Ctx.endsBody (c : Ctx) : Bool := c.lastOfBody c.pc.toNat

/-- What an instruction may write: x, v, p and k registers, status registers by their index, and the channel
ports that it pops. -/
structure Writes where
  x : List Reg := []
  v : List Reg := []
  p : List (BitVec 3) := []
  k : List (BitVec 3) := []
  sr : List Nat := []
  ports : List Nat := []

/-- The status registers that an instruction leaves alone unless it writes them by name (R119).  tstat, lc0 and lc1,
which replays and loops also change, and the counters hbud, tick and cyc have clauses of their own. -/
def keptStatus : List Nat :=
  [0x001, 0x002, 0x003, 0x004, 0x005, 0x006, 0x020, 0x021, 0x022, 0x030, 0x031, 0x032, 0x033, 0x040, 0x050, 0x051,
   0x060, 0x061, 0x070, 0x071, 0x080]

/-- From `s` to `t` nothing but what `w` lists is written: every other register of the issuing context, every
special register, every other context of the part, the arrays with their keys, the near-bank units and the barriers
are as they were.  tstat[15:4] moves only in a replay, lc0 and lc1 only at the end of a body. -/
structure Frame (w : Writes) (s t : State) : Prop where
  issuing : t.cur = s.cur ∧ t.curCtx = s.curCtx
  x : ∀ r, r ∉ w.x → t.ctx.rx r = s.ctx.rx r
  v : ∀ r, r ∉ w.v → t.ctx.rv r = s.ctx.rv r
  p : ∀ n, n ∉ w.p → t.ctx.rp n = s.ctx.rp n
  k : ∀ n, n ∉ w.k → t.ctx.rk n = s.ctx.rk n
  status : ∀ n ∈ keptStatus, n ∉ w.sr → t.readStatus n = s.readStatus n
  tstat : 0x000 ∉ w.sr →
    t.ctx.tstat &&& ~~~0xFFF0#64 = s.ctx.tstat &&& ~~~0xFFF0#64 ∧ (s.ctx.rep = false → t.ctx.tstat = s.ctx.tstat)
  loops : 0x010 ∉ w.sr → s.ctx.rep = false → s.ctx.endsBody = false →
    t.ctx.lc0 = s.ctx.lc0 ∧ t.ctx.lc1 = s.ctx.lc1
  contexts : ∀ n i, ¬(n = s.cur ∧ i = s.curCtx) → t.ctxOf n i = s.ctxOf n i
  ports : ∀ n, n ∉ w.ports → t.me.port n = s.me.port n
  units : t.quads = s.quads ∧ t.units = s.units ∧ t.bars = s.bars

/-- Every byte of memory outside the `n` bytes from `lo` upward reads as before. -/
def MemKept (s t : State) (lo n : Nat) : Prop :=
  ∀ a, ¬(lo ≤ a ∧ a < lo + n) → readByte t.mem a = readByte s.mem a

/-- Nothing of the package outside the issuing core has changed: no memory, no message, no array, no other core; and
of that core only its contexts, its channel ports and what its scheduler counts. -/
structure Inside (s t : State) : Prop where
  rest : t = { s with cores := t.cores, walkFails := t.walkFails }
  memory : MemKept s t 0 0
  others : ∀ n, n ≠ s.cur → t.core n = s.core n
  own : t.me = { s.me with ctxs := t.me.ctxs, ports := t.me.ports, stamps := t.me.stamps, switch := t.me.switch }

/-- An instruction has completed without a transfer: outside a replay and a loop's end the PC stands behind it. -/
def Advanced (s t : State) : Prop :=
  s.ctx.rep = false → s.ctx.endsBody = false → t.ctx.pc = s.ctx.pc + 4

/-! What the spec says of the results of register instructions, for the statements to name. -/

/-- An instruction that writes one x register: its head, its class, the registers it uses, and the value. -/
structure XCase where
  h : Head
  cls : Cls := clsArith
  d : Reg
  uses : List Nat
  value : Ctx → Word

/-- A three-register case over the unsigned and signed integers of its operands. -/
def xCase3 (h : Head) (d a b : Reg) (f : Word → Word → Word) : XCase :=
  { h := h, d := d, uses := [ux a, ux b, ux d], value := fun c => f (c.rx a) (c.rx b) }

/-- A two-register case. -/
def xCase2 (h : Head) (d a : Reg) (f : Word → Word) : XCase :=
  { h := h, d := d, uses := [ux a, ux d], value := fun c => f (c.rx a) }

/-- A truth value as 0 or 1. -/
def truth (p : Prop) [Decidable p] : Word := if p then 1 else 0

/-- The results of R132 (ALU), R133 (MULDIV), R134 and R135 (immediates) R136 (MOVPX) and R190 (KMOVX,
KPOPC, KFIRST), over the integers that
the registers stand for. -/
def scalarCase : Instr → Option XCase
  | .add h d a b => some (xCase3 h d a b fun x y => .ofNat 64 (x.toNat + y.toNat))
  | .sub h d a b => some (xCase3 h d a b fun x y => .ofInt 64 (x.toInt - y.toInt))
  | .and h d a b => some (xCase3 h d a b fun x y => x &&& y)
  | .or h d a b => some (xCase3 h d a b fun x y => x ||| y)
  | .xor h d a b => some (xCase3 h d a b fun x y => x ^^^ y)
  | .andn h d a b => some (xCase3 h d a b fun x y => x &&& ~~~y)
  | .orn h d a b => some (xCase3 h d a b fun x y => x ||| ~~~y)
  | .sll h d a b => some (xCase3 h d a b fun x y => .ofNat 64 (x.toNat * 2 ^ (y.toNat % 64)))
  | .srl h d a b => some (xCase3 h d a b fun x y => .ofNat 64 (x.toNat / 2 ^ (y.toNat % 64)))
  | .sra h d a b => some (xCase3 h d a b fun x y => .ofInt 64 (x.toInt / 2 ^ (y.toNat % 64)))
  | .ror h d a b => some (xCase3 h d a b fun x y => (x >>> (y.toNat % 64)) ||| (x <<< (64 - y.toNat % 64)))
  | .slt h d a b => some (xCase3 h d a b fun x y => truth (x.toInt < y.toInt))
  | .sltu h d a b => some (xCase3 h d a b fun x y => truth (x.toNat < y.toNat))
  | .seq h d a b => some (xCase3 h d a b fun x y => truth (x = y))
  | .sne h d a b => some (xCase3 h d a b fun x y => truth (x ≠ y))
  | .min h d a b => some (xCase3 h d a b fun x y => .ofInt 64 (Min.min x.toInt y.toInt))
  | .max h d a b => some (xCase3 h d a b fun x y => .ofInt 64 (Max.max x.toInt y.toInt))
  | .minu h d a b => some (xCase3 h d a b fun x y => .ofNat 64 (Min.min x.toNat y.toNat))
  | .maxu h d a b => some (xCase3 h d a b fun x y => .ofNat 64 (Max.max x.toNat y.toNat))
  | .sh1add h d a b => some (xCase3 h d a b fun x y => .ofNat 64 (2 * x.toNat + y.toNat))
  | .sh2add h d a b => some (xCase3 h d a b fun x y => .ofNat 64 (4 * x.toNat + y.toNat))
  | .sh3add h d a b => some (xCase3 h d a b fun x y => .ofNat 64 (8 * x.toNat + y.toNat))
  | .clz h d a => some (xCase2 h d a leadingZeros)
  | .ctz h d a => some (xCase2 h d a trailingZeros)
  | .popc h d a => some (xCase2 h d a popCount)
  | .sextb h d a => some (xCase2 h d a fun x => .ofInt 64 (x.setWidth 8).toInt)
  | .sexth h d a => some (xCase2 h d a fun x => .ofInt 64 (x.setWidth 16).toInt)
  | .sextw h d a => some (xCase2 h d a fun x => .ofInt 64 (x.setWidth 32).toInt)
  | .zextb h d a => some (xCase2 h d a fun x => .ofNat 64 (x.toNat % 2 ^ 8))
  | .zexth h d a => some (xCase2 h d a fun x => .ofNat 64 (x.toNat % 2 ^ 16))
  | .zextw h d a => some (xCase2 h d a fun x => .ofNat 64 (x.toNat % 2 ^ 32))
  | .rev8 h d a => some (xCase2 h d a byteReverse)
  | .mul h d a b => some (xCase3 h d a b fun x y => .ofInt 64 (x.toInt * y.toInt))
  | .mulh h d a b => some (xCase3 h d a b fun x y => .ofInt 64 (x.toInt * y.toInt / 2 ^ 64))
  | .mulhu h d a b => some (xCase3 h d a b fun x y => .ofNat 64 (x.toNat * y.toNat / 2 ^ 64))
  | .mulhsu h d a b => some (xCase3 h d a b fun x y => .ofInt 64 (x.toInt * (y.toNat : Int) / 2 ^ 64))
  | .div h d a b => some (xCase3 h d a b fun x y => if y = 0 then .ofInt 64 (-1) else .ofInt 64 (x.toInt.tdiv y.toInt))
  | .divu h d a b => some (xCase3 h d a b fun x y => if y = 0 then .ofInt 64 (-1) else .ofNat 64 (x.toNat / y.toNat))
  | .rem h d a b => some (xCase3 h d a b fun x y => if y = 0 then x else .ofInt 64 (x.toInt.tmod y.toInt))
  | .remu h d a b => some (xCase3 h d a b fun x y => if y = 0 then x else .ofNat 64 (x.toNat % y.toNat))
  | .addi h d a i => some (xCase2 h d a fun x => .ofInt 64 (x.toInt + i.toInt))
  | .andi h d a i => some (xCase2 h d a fun x => x &&& .ofInt 64 i.toInt)
  | .ori h d a i => some (xCase2 h d a fun x => x ||| .ofInt 64 i.toInt)
  | .xori h d a i => some (xCase2 h d a fun x => x ^^^ .ofInt 64 i.toInt)
  | .slli h d a n => some (xCase2 h d a fun x => .ofNat 64 (x.toNat * 2 ^ n.toNat))
  | .srli h d a n => some (xCase2 h d a fun x => .ofNat 64 (x.toNat / 2 ^ n.toNat))
  | .srai h d a n => some (xCase2 h d a fun x => .ofInt 64 (x.toInt / 2 ^ n.toNat))
  | .rori h d a n => some (xCase2 h d a fun x => (x >>> n.toNat) ||| (x <<< (64 - n.toNat)))
  | .slti h d a i => some (xCase2 h d a fun x => truth (x.toInt < i.toInt))
  | .sltiu h d a i => some (xCase2 h d a fun x => truth (x.toNat < (BitVec.ofInt 64 i.toInt).toNat))
  | .lui h d i => some { h := h, d := d, uses := [ux d], value := fun _ => .ofInt 64 (BitVec.ofNat 32 (i.toNat * 2 ^ 15)).toInt }
  | .lil h d i => some (xCase2 h d d fun x => x ||| .ofNat 64 i.toNat)
  | .kmovx h d a => some { h := h, cls := clsMask, d := d, uses := [ux d], value := fun c => c.rk a }
  | .kpopc h d a => some { h := h, cls := clsMask, d := d, uses := [ux d], value := fun c => popCount (c.rk a) }
  | .kfirst h d a => some { h := h, cls := clsMask, d := d, uses := [ux d], value := fun c => trailingZeros (c.rk a) }
  | .movpx h d a => some { h := h, cls := clsPlain, d := d, uses := [ux d], value := fun c => truth (c.rp a = true) }
  | _ => none

/-- An instruction that writes one predicate: its head, the registers it uses, and the truth of R136. -/
structure PCase where
  h : Head
  d : BitVec 3
  uses : List Nat
  value : Ctx → Prop

/-- The predicates of R136. -/
def predCase : Instr → Option PCase
  | .peq h d a b => some ⟨h, d, [ux a, ux b], fun c => c.rx a = c.rx b⟩
  | .pne h d a b => some ⟨h, d, [ux a, ux b], fun c => c.rx a ≠ c.rx b⟩
  | .plt h d a b => some ⟨h, d, [ux a, ux b], fun c => (c.rx a).toInt < (c.rx b).toInt⟩
  | .pge h d a b => some ⟨h, d, [ux a, ux b], fun c => (c.rx b).toInt ≤ (c.rx a).toInt⟩
  | .pltu h d a b => some ⟨h, d, [ux a, ux b], fun c => (c.rx a).toNat < (c.rx b).toNat⟩
  | .pgeu h d a b => some ⟨h, d, [ux a, ux b], fun c => (c.rx b).toNat ≤ (c.rx a).toNat⟩
  | .pand h d a b => some ⟨h, d, [], fun c => c.rp a = true ∧ c.rp b = true⟩
  | .por h d a b => some ⟨h, d, [], fun c => c.rp a = true ∨ c.rp b = true⟩
  | .pxor h d a b => some ⟨h, d, [], fun c => c.rp a ≠ c.rp b⟩
  | .pnot h d a => some ⟨h, d, [], fun c => c.rp a = false⟩
  | .pmovx h d a => some ⟨h, d, [ux a], fun c => c.rx a ≠ 0⟩
  | _ => none

/-- A conditional branch (R137, R138): its head, the registers it uses, its offset in words and its condition. -/
structure BCase where
  h : Head
  uses : List Nat
  off : BitVec 12
  taken : Ctx → Prop

/-- The branches of R137 and R138. -/
def branchCase : Instr → Option BCase
  | .beq h a b o => some ⟨h, [ux a, ux b], o, fun c => c.rx a = c.rx b⟩
  | .bne h a b o => some ⟨h, [ux a, ux b], o, fun c => c.rx a ≠ c.rx b⟩
  | .blt h a b o => some ⟨h, [ux a, ux b], o, fun c => (c.rx a).toInt < (c.rx b).toInt⟩
  | .bge h a b o => some ⟨h, [ux a, ux b], o, fun c => (c.rx b).toInt ≤ (c.rx a).toInt⟩
  | .bltu h a b o => some ⟨h, [ux a, ux b], o, fun c => (c.rx a).toNat < (c.rx b).toNat⟩
  | .bgeu h a b o => some ⟨h, [ux a, ux b], o, fun c => (c.rx b).toNat ≤ (c.rx a).toNat⟩
  | .brp h p t o => some ⟨h, [], o, fun c => c.rp p = t.getLsbD 0⟩
  | _ => none

/-- An instruction that writes one mask: its head, the registers it uses, and the mask of R190. -/
structure KCase where
  h : Head
  d : BitVec 3
  uses : List Nat
  value : Ctx → Word

/-- The mask operations of R190 that write a k register. -/
def maskCase : Instr → Option KCase
  | .kand h d a b => some ⟨h, d, [], fun c => c.rk a &&& c.rk b⟩
  | .kor h d a b => some ⟨h, d, [], fun c => c.rk a ||| c.rk b⟩
  | .kxor h d a b => some ⟨h, d, [], fun c => c.rk a ^^^ c.rk b⟩
  | .knot h d a => some ⟨h, d, [], fun c => ~~~(c.rk a)⟩
  | .xmovk h d a => some ⟨h, d, [ux a], fun c => c.rx a⟩
  | _ => none

/-- What MTS makes of a status register (R120, R121, R124, R141): the bits of the old value that stay, and the bits of
the operand that are written. -/
def statusBits : Nat → Option (Word × Word)
  | 0x000 => some (~~~0xFFFF#64, 0xFFFF#64)
  | 0x001 => some (0, 0x3FFFFC#64)
  | 0x002 => some (0, 0xFF#64)
  | 0x003 => some (0, BitVec.allOnes 64)
  | 0x004 => some (0, 0xFFFFFC#64)
  | 0x005 => some (0, BitVec.allOnes 64)
  | 0x006 => some (0, 0x3FFFFF#64)
  | 0x010 => some (~~~0xFFFFFFFF#64, 0xFFFFFFFF#64)
  | 0x011 => some (~~~0xFFFFFFFF#64, 0xFFFFFFFF#64)
  | 0x020 => some (0, 0x3F3F#64)
  | 0x021 => some (0, 0x7#64)
  | 0x022 => some (0, BitVec.allOnes 64)
  | 0x060 => some (0, 0xFFFFFFFF#64)
  | 0x061 => some (0, 0xFF#64)
  | _ => none

/-- The operands that MTS takes without a trap (R88, R124, R141): tvec below 1 MiB, xb a multiple of 4 KiB from 4 KiB
to 1 MiB, and a loop counter only while its loop is inactive. -/
def statusTakes (s : State) (idx : Nat) (v : Word) : Prop :=
  (idx = 0x004 → (v &&& 0xFFFFFC#64).toNat < 0x100000) ∧
  (idx = 0x005 → v.toNat % 4096 = 0 ∧ 0x1000 ≤ v.toNat ∧ v.toNat ≤ 0x100000) ∧
  (idx = 0x010 → lcAct s.ctx.lc0 = false) ∧
  (idx = 0x011 → lcAct s.ctx.lc1 = false)

/-- A message has been sent, under the number that its lane gives it (R13): to a home of this package into the network, to
another package into the outbox. -/
def Sent (s t : State) (m : Msg) : Prop :=
  if m.pkg = s.pkg then t.net = s.net ++ [s.stamp m] ∧ t.outbox = s.outbox
  else t.outbox = s.outbox ++ [s.stamp m] ∧ t.net = s.net

/-- A scalar load: its head, destination, base, offset, bytes, and whether it extends the sign (R191, R192). -/
structure LoadCase where
  h : Head
  d : Reg
  a : Reg
  off : BitVec 12
  bytes : Nat
  signed : Bool

/-- The loads of R192. -/
def loadCase : Instr → Option LoadCase
  | .lb h d a i => some ⟨h, d, a, i, 1, true⟩
  | .lh h d a i => some ⟨h, d, a, i, 2, true⟩
  | .lw h d a i => some ⟨h, d, a, i, 4, true⟩
  | .ld h d a i => some ⟨h, d, a, i, 8, false⟩
  | .lbu h d a i => some ⟨h, d, a, i, 1, false⟩
  | .lhu h d a i => some ⟨h, d, a, i, 2, false⟩
  | .lwu h d a i => some ⟨h, d, a, i, 4, false⟩
  | _ => none

/-- The value of `n` bytes as a signed or an unsigned integer. -/
def bytesValue (signed : Bool) (n v : Nat) : Word :=
  if signed then BitVec.ofInt 64 (BitVec.ofNat (8 * n) v).toInt else BitVec.ofNat 64 v

/-- A scalar store: its head, data register, base, offset and bytes (R193). -/
structure StoreCase where
  h : Head
  d : Reg
  a : Reg
  off : BitVec 12
  bytes : Nat

/-- The scalar stores of R193. -/
def storeCase : Instr → Option StoreCase
  | .sb h d a i => some ⟨h, d, a, i, 1⟩
  | .sh h d a i => some ⟨h, d, a, i, 2⟩
  | .sw h d a i => some ⟨h, d, a, i, 4⟩
  | .sd h d a i => some ⟨h, d, a, i, 8⟩
  | _ => none

/-- An access of `n` bytes at a local address passes its checks (R27, R43) and meets no poison (R358). -/
def LocalOk (s : State) (va n : Nat) (store : Bool) : Prop :=
  va < 0x400000 ∧ s.localOk va n store = true ∧ va % n = 0 ∧ s.poisoned (localPa s.cur va) n = false

/-- A cached translation lets an access of `n` bytes at `va` through to the checks of its type (R43, steps 1 to 3): it is
aligned, the page's group or owner allows it, and the page has bytes. -/
def Reaches (s : State) (va n : Nat) (store : Bool) (e : TlbEntry) : Prop :=
  0x400000 ≤ va ∧ s.lookup 0 s.cur s.curCtx s.ctx.slot va = .hit e ∧ va % n = 0 ∧
    e.allows s.ctx.group (s.twinTile s.ctx.slot s.ownTile) (if store then .own else .anyGroup) = true ∧ (e.spot va).isSome = true

/-- The bytes that a store to a lattice page must have (R32, R193): a cell, a key or an image of a KSET, a 64-byte tile. -/
def StoreFits (e : TlbEntry) (n : Nat) : Prop :=
  if e.ctype = 8 then n = 64 ∧ e.width = 0 else if e.ctype = 0xA then n = 8 ∨ n = 64 else n = 2 ^ e.width

/-- The cause and the tval with which an access of `n` bytes at `va` traps at issue, a store with its data (R43 steps 1 to 4,
with R27, R32, R33, R44, R192, R193, R215 and R307): the first check that fails. -/
inductive AccessTrap (s : State) (va n : Nat) (data : Option (List Byte)) : Nat → Word → Prop
  /-- the rights of the local window -/
  | localRight : va < 0x400000 → s.localOk va n data.isSome = false →
      AccessTrap s va n data 0x05 (BitVec.ofNat 64 (5 * 2 ^ 48 + va))
  | localAlign : va < 0x400000 → s.localOk va n data.isSome = true → va % n ≠ 0 →
      AccessTrap s va n data 0x04 (BitVec.ofNat 64 va)
  /-- a failed translation, by its reason -/
  | translation (r : Nat) : 0x400000 ≤ va → s.lookup 0 s.cur s.curCtx s.ctx.slot va = .bad r →
      AccessTrap s va n data 0x05 (BitVec.ofNat 64 (r * 2 ^ 48 + va % 2 ^ 48))
  | align (e : TlbEntry) : 0x400000 ≤ va → s.lookup 0 s.cur s.curCtx s.ctx.slot va = .hit e → va % n ≠ 0 →
      AccessTrap s va n data 0x04 (BitVec.ofNat 64 va)
  | group (e : TlbEntry) : 0x400000 ≤ va → s.lookup 0 s.cur s.curCtx s.ctx.slot va = .hit e → va % n = 0 →
      e.allows s.ctx.group (s.twinTile s.ctx.slot s.ownTile) (if data.isSome then .own else .anyGroup) = false →
      AccessTrap s va n data 0x0F (BitVec.ofNat 64 va)
  /-- the entry names no bytes of the package -/
  | hole (e : TlbEntry) : 0x400000 ≤ va → s.lookup 0 s.cur s.curCtx s.ctx.slot va = .hit e → va % n = 0 →
      e.allows s.ctx.group (s.twinTile s.ctx.slot s.ownTile) (if data.isSome then .own else .anyGroup) = true → e.spot va = none →
      AccessTrap s va n data 0x05 (BitVec.ofNat 64 (4 * 2 ^ 48 + va % 2 ^ 48))
  /-- CODE, and for a hinge handler BUF: the access kind -/
  | kind (e : TlbEntry) : Reaches s va n data.isSome e → (e.ctype = 0xC ∨ (s.inHinge = true ∧ e.ctype = 0xB)) →
      AccessTrap s va n data 0x05 (BitVec.ofNat 64 (5 * 2 ^ 48 + va % 2 ^ 48))
  /-- a store to a BUF page -/
  | buffer (e : TlbEntry) : Reaches s va n true e → data.isSome = true → e.ctype = 0xB → s.inHinge = false →
      AccessTrap s va n data 0x10 (BitVec.ofNat 64 va)
  /-- a store of another width than the cell's -/
  | width (e : TlbEntry) : Reaches s va n true e → data.isSome = true → isLattice e.ctype = true → ¬StoreFits e n →
      AccessTrap s va n data 0x08 (BitVec.ofNat 64 va)
  /-- a malformed KSET image -/
  | image (e : TlbEntry) (bs : List Byte) : Reaches s va 64 true e → n = 64 → data = some bs → e.ctype = 0xA →
      ksetOk (bytesWords bs) = false → AccessTrap s va n data 0x0B (BitVec.ofNat 64 va)

/-- An access waits for its translation (R43): no walk for it has ended, and no entry is cached. -/
def Misses (s : State) (va : Nat) : Prop := 0x400000 ≤ va ∧ s.lookup 0 s.cur s.curCtx s.ctx.slot va = .miss

/-- An access passes every check of its issue. -/
def Passes (s : State) (va n : Nat) (data : Option (List Byte)) : Prop :=
  (∀ cause tval, ¬AccessTrap s va n data cause tval) ∧ ¬Misses s va

/-- The walk that the issuing context has asked for at `va` is under way (R40, R41). -/
def Walking (s t : State) (va : Nat) : Prop :=
  ∃ w ∈ t.walks, w.die = coreDie s.cur ∧ w.slot = s.ctx.slot ∧ w.va = va / 2 ^ 17 * 2 ^ 17 ∧
    { kind := 0, place := s.cur, ctx := s.curCtx } ∈ w.askers

/-- The operands of a vector instruction as its lanes see them: lane `n` of a source, at the lane format's width. -/
abbrev LaneFn := Pfx → Rnd → (Reg → Nat → Nat) → Nat → Nat × FlagSet

/-- A vector instruction that computes lane by lane (R176): its head, destination, sources, mask, default prefix, the
prefixes that it accepts (R177), whether it rounds, and lane `n` of its result from the lanes of v registers. -/
structure LaneCase where
  h : Head
  d : Reg
  srcs : List Reg
  k : BitVec 3
  dflt : BitVec 22
  ok : Pfx → Bool
  rounds : Bool
  width : Pfx → Nat := fun p => fmtWidth p.a
  lane : LaneFn

/-- A rounded exact result of VFA: `f` of the decoded lanes of a, b and d (R180). -/
def vfaLane (h : Head) (d a b : Reg) (srcs : List Reg) (k : BitVec 3) (f : Bool → FVal → FVal → FVal → FVal × FlagSet) : LaneCase :=
  { h := h, d := d, srcs := srcs, k := k, dflt := plainBody, ok := okVfa, rounds := true
    lane := fun p r v n =>
      let x := fun q => p.fmtA.decode (v q n)
      let e := f r.down (x a) (x b) (x d)
      let u := p.fmtA.round { r with idx := n } p.sat e.1
      (u.1, e.2 ||| u.2) }

/-- A VFA operation on encodings, which raises no flag (R180, R181). -/
def vfaBitsLane (h : Head) (d a b : Reg) (srcs : List Reg) (k : BitVec 3) (f : FFmt → Nat → Nat → Nat) : LaneCase :=
  { h := h, d := d, srcs := srcs, k := k, dflt := plainBody, ok := okVfa, rounds := true
    lane := fun p _ v n => (f p.fmtA (v a n) (v b n), 0) }

/-- A VIA operation on lanes (R182): the lanes' width, whether sat is set, and the lanes of a and b. -/
def viaLane (h : Head) (d a b : Reg) (srcs : List Reg) (k : BitVec 3) (ok : Pfx → Bool) (f : Pfx → Nat → Nat → Nat → Nat × FlagSet) : LaneCase :=
  { h := h, d := d, srcs := srcs, k := k, dflt := viaBody, ok := ok, rounds := false
    lane := fun p _ v n => f p (fmtWidth p.a) (v a n) (v b n) }

/-- The lane instructions of R180 to R183. -/
def laneCase : Instr → Option LaneCase
  | .vadd h d a b k => some (vfaLane h d a b [a, b] k fun dn x y _ => x.add dn y)
  | .vsub h d a b k => some (vfaLane h d a b [a, b] k fun dn x y _ => x.add dn y.neg)
  | .vmul h d a b k => some (vfaLane h d a b [a, b] k fun _ x y _ => x.mul y)
  | .vfma h d a b k => some (vfaLane h d a b [a, b] k fun dn x y z => FVal.fma dn x y z)
  | .vfms h d a b k => some (vfaLane h d a b [a, b] k fun dn x y z => FVal.fma dn x y z.neg)
  | .vfnma h d a b k => some (vfaLane h d a b [a, b] k fun dn x y z => FVal.fma dn x.neg y z)
  | .vmin h d a b k => some (vfaBitsLane h d a b [a, b] k minBits)
  | .vmax h d a b k => some (vfaBitsLane h d a b [a, b] k maxBits)
  | .vabs h d a k => some (vfaBitsLane h d a a [a] k fun f x _ => signBits f (fun _ => false) x)
  | .vneg h d a k => some (vfaBitsLane h d a a [a] k fun f x _ => signBits f (fun b => !b) x)
  | .vdiv h d a b k => some (vfaLane h d a b [a, b] k fun _ x y _ => x.div y)
  | .vsqrt h d a k => some (vfaLane h d a a [a] k fun _ x _ _ => x.sqrt)
  | .vrcp h d a k => some (vfaLane h d a a [a] k fun _ x _ _ => x.rcp)
  | .vrsq h d a k => some (vfaLane h d a a [a] k fun _ x _ _ => x.rsq)
  | .vexp2 h d a k => some (vfaLane h d a a [a] k fun _ x _ _ => x.exp2)
  | .vlog2 h d a k => some (vfaLane h d a a [a] k fun _ x _ _ => x.log2)
  | .viadd h d a b k => some (viaLane h d a b [a, b] k okIntRns fun p w x y =>
      if p.a = 8 then (rnsOp (fun x y => x + y) x y, 0) else satInt w p.sat (toSigned w x + toSigned w y))
  | .visub h d a b k => some (viaLane h d a b [a, b] k okIntRns fun p w x y =>
      if p.a = 8 then (rnsOp (fun x y => x - y) x y, 0) else satInt w p.sat (toSigned w x - toSigned w y))
  | .vimul h d a b k => some (viaLane h d a b [a, b] k okIntRns fun p w x y =>
      if p.a = 8 then (rnsOp (fun x y => x * y) x y, 0) else satInt w p.sat (toSigned w x * toSigned w y))
  | .vimin h d a b k => some (viaLane h d a b [a, b] k okInt fun _ w x y =>
      (if toSigned w x ≤ toSigned w y then x else y, 0))
  | .vimax h d a b k => some (viaLane h d a b [a, b] k okInt fun _ w x y =>
      (if toSigned w y ≤ toSigned w x then x else y, 0))
  | .viminu h d a b k => some (viaLane h d a b [a, b] k okInt fun _ _ x y => (Min.min x y, 0))
  | .vimaxu h d a b k => some (viaLane h d a b [a, b] k okInt fun _ _ x y => (Max.max x y, 0))
  | .vand h d a b k => some (viaLane h d a b [a, b] k okInt fun _ _ x y => (x &&& y, 0))
  | .vor h d a b k => some (viaLane h d a b [a, b] k okInt fun _ _ x y => (x ||| y, 0))
  | .vxor h d a b k => some (viaLane h d a b [a, b] k okInt fun _ _ x y => (x ^^^ y, 0))
  | .vsll h d a b k => some (viaLane h d a b [a, b] k okInt fun _ w x y => (x * 2 ^ (y % w) % 2 ^ w, 0))
  | .vsrl h d a b k => some (viaLane h d a b [a, b] k okInt fun _ w x y => (x / 2 ^ (y % w), 0))
  | .vsra h d a b k => some (viaLane h d a b [a, b] k okInt fun _ w x y => (wrapInt w (toSigned w x / 2 ^ (y % w)), 0))
  | .viabs h d a k => some (viaLane h d a a [a] k okInt fun p w x _ => satInt w p.sat (toSigned w x).natAbs)
  | .vsadd h d a b k => some (viaLane h d a b [a, b] k okInt fun _ w x y => satInt w true (toSigned w x + toSigned w y))
  | _ => none

/-- VDOT4 (R183): destination lane `j` of 32 bits from four byte products. -/
def dotLane (va vb vd : Vec) (sat : Bool) (j : Nat) : Nat × FlagSet :=
  let x := fun (v : Vec) (n : Nat) => toSigned 8 (laneOf v 8 (4 * j + n))
  satInt 32 sat (toSigned 32 (laneOf vd 32 j) +
    (x va 0 * x vb 0 + x va 1 * x vb 1 + x va 2 * x vb 2 + x va 3 * x vb 3))

/-- A prefix consumer issues with the prefix that stands before it, or with its default, and knows its rounding
(R98, R101, R177). -/
def Prefixed (s : State) (dflt : BitVec 22) (ok : Pfx → Bool) (rounds : Bool) (p : Pfx) (r : Rnd) : Prop :=
  p = pfxOf (s.ctx.pfx.getD dflt) ∧ ok p = true ∧
    (if rounds then p.rnd ≠ 7 ∧ s.ctx.rounding p.rnd = .ok r else r = rneMode)

/-- Every bound channel among the sources holds a packet, none is a destination, and none is a source in a capture
(R118, R129, R179). -/
def ChannelsReady (s : State) (dsts srcs : List Reg) : Prop :=
  s.ctx.channelsLegal dsts srcs = true ∧ ∀ q ∈ s.ctx.channelPorts srcs, (s.me.port q).ready = true

/-- The channels named are popped once each (R179). -/
def Popped (s t : State) (srcs : List Reg) : Prop :=
  ∀ q ∈ s.ctx.channelPorts srcs, q < 4 → t.me.port q = (s.me.port q).pop

/-- A comparison of lanes (R184): its head, destination mask, sources, mask, accepted prefixes, and its truth. -/
structure CmpCase where
  h : Head
  d : BitVec 3
  a : Reg
  b : Reg
  k : BitVec 3
  ok : Pfx → Bool
  holds : Pfx → Nat → Nat → Prop

/-- The comparisons of R184. -/
def cmpCase : Instr → Option CmpCase
  | .vceq h d a b k => some ⟨h, d, a, b, k, okAny, fun p x y => if p.a = 8 then rnsToInt x = rnsToInt y else x = y⟩
  | .vcne h d a b k => some ⟨h, d, a, b, k, okAny, fun p x y => ¬(if p.a = 8 then rnsToInt x = rnsToInt y else x = y)⟩
  | .vclt h d a b k => some ⟨h, d, a, b, k, okBits, fun p x y => toSigned (fmtWidth p.a) x < toSigned (fmtWidth p.a) y⟩
  | .vcle h d a b k => some ⟨h, d, a, b, k, okBits, fun p x y => toSigned (fmtWidth p.a) x ≤ toSigned (fmtWidth p.a) y⟩
  | .vcltu h d a b k => some ⟨h, d, a, b, k, okBits, fun _ x y => x < y⟩
  | .vcleu h d a b k => some ⟨h, d, a, b, k, okBits, fun _ x y => x ≤ y⟩
  | .vfeq h d a b k => some ⟨h, d, a, b, k, okFloat, fun p x y => (p.fmtA.decode x).eqv (p.fmtA.decode y) = true⟩
  | .vfne h d a b k => some ⟨h, d, a, b, k, okFloat, fun p x y => (p.fmtA.decode x).eqv (p.fmtA.decode y) = false⟩
  | .vflt h d a b k => some ⟨h, d, a, b, k, okFloat, fun p x y => (p.fmtA.decode x).lt false (p.fmtA.decode y) = true⟩
  | .vfle h d a b k => some ⟨h, d, a, b, k, okFloat, fun p x y =>
      (p.fmtA.decode x).lt false (p.fmtA.decode y) = true ∨ (p.fmtA.decode x).eqv (p.fmtA.decode y) = true⟩
  | _ => none

/-- A move of lanes (R185): its head, destination, v sources, every register that it uses, its mask, and lane `n` of
the result by the lanes of the sources, at width `w`; VSEL writes every lane, so its mask here is k0. -/
structure PermCase where
  h : Head
  d : Reg
  srcs : List Reg
  uses : List Nat
  k : BitVec 3
  lane : Ctx → Nat → (Reg → Nat → Nat) → Nat → Nat

/-- The moves of R185. -/
def permCase : Instr → Option PermCase
  | .vbcast h d a k => some ⟨h, d, [], [ux a, uv d], k, fun c w _ _ => (c.rx a).toNat % 2 ^ w⟩
  | .vsel h d a b k => some ⟨h, d, [a, b], [uv a, uv b, uv d], 0, fun c _ v n =>
      if (c.rk k).getLsbD n then v a n else v b n⟩
  | .vshuf h d a b k => some ⟨h, d, [a, b], [uv a, uv b, uv d], k, fun _ w v n =>
      if v b n < 512 / w then v a (v b n) else 0⟩
  | .vsldn h d a b k => some ⟨h, d, [a], [uv a, ux b, uv d], k, fun c w v n =>
      if n + (c.rx b).toNat < 512 / w then v a (n + (c.rx b).toNat) else 0⟩
  | .vslup h d a b k => some ⟨h, d, [a], [uv a, ux b, uv d], k, fun c _ v n =>
      if (c.rx b).toNat ≤ n then v a (n - (c.rx b).toNat) else 0⟩
  | .vzip h d a b k => some ⟨h, d, [a, b], [uv a, uv b, uv d], k, fun _ _ v n =>
      if n % 2 = 0 then v a (n / 2) else v b (n / 2)⟩
  | .vunzip h d a b k => some ⟨h, d, [a, b], [uv a, uv b, uv d], k, fun _ w v n =>
      if n < 512 / w / 2 then v a (2 * n) else v b (2 * (n - 512 / w / 2))⟩
  | .vrev h d a k => some ⟨h, d, [a], [uv a, uv d], k, fun _ w v n => v a (512 / w - 1 - n)⟩
  | _ => none

/-- A reduction (R189): its head, destination, source, mask, accepted prefixes, whether it rounds, and the result with
its flags from the values of the active lanes, in ascending order, and from all lanes with their mask bits. -/
structure RedCase where
  h : Head
  d : Reg
  a : Reg
  k : BitVec 3
  ok : Pfx → Bool
  rounds : Bool
  value : Pfx → Rnd → List Nat → List (Nat × Bool) → Nat × FlagSet

/-- The least signed integer of `w` bits, as its bits. -/
def lowInt (w : Nat) : Nat := 2 ^ (w - 1)
/-- The greatest. -/
def highInt (w : Nat) : Nat := 2 ^ (w - 1) - 1

/-- The reductions of R189: sums are pairwise trees over all lanes with zero for inactive ones (R165). -/
def redCase : Instr → Option RedCase
  | .vrsum h d a k => some ⟨h, d, a, k, okSum, true, fun p r _ l =>
      sumTree ((floatFmt p.d).getD fmtF32) r p.sat (l.map fun x => if x.2 then p.fmtA.decode x.1 else .fin true 0 0)⟩
  | .vrmax h d a k => some ⟨h, d, a, k, okMax, false, fun p _ xs _ =>
      (if p.a ≤ 2 then xs.foldl (maxBits p.fmtA) (p.fmtA.infinity true)
        else xs.foldl (fun x y => if toSigned (fmtWidth p.a) x < toSigned (fmtWidth p.a) y then y else x) (lowInt (fmtWidth p.a)), 0)⟩
  | .vrmin h d a k => some ⟨h, d, a, k, okMax, false, fun p _ xs _ =>
      (if p.a ≤ 2 then xs.foldl (minBits p.fmtA) (p.fmtA.infinity false)
        else xs.foldl (fun x y => if toSigned (fmtWidth p.a) y < toSigned (fmtWidth p.a) x then y else x) (highInt (fmtWidth p.a)), 0)⟩
  | .vror h d a k => some ⟨h, d, a, k, okAny, false, fun _ _ xs _ => (xs.foldl (fun x y => x ||| y) 0, 0)⟩
  | .vrand h d a k => some ⟨h, d, a, k, okAny, false, fun p _ xs _ => (xs.foldl (fun x y => x &&& y) (2 ^ fmtWidth p.a - 1), 0)⟩
  | .vrisum h d a k => some ⟨h, d, a, k, okISum, false, fun p _ _ l =>
      let t := treeSum (fun _ _ x y => satInt 32 p.sat (toSigned 32 x + toSigned 32 y)) l.length.log2 0
        (l.map fun x => if x.2 then wrapInt 32 (toSigned (fmtWidth p.a) x.1) else 0)
      (t.1.headD 0, t.2)⟩
  | _ => none

/-! What the statements about memory, tasks and units say. -/

/-- As `Frame`, of the issuing context's registers alone: what the rest of the part does is said elsewhere. -/
structure Regs (w : Writes) (s t : State) : Prop where
  issuing : t.cur = s.cur ∧ t.curCtx = s.curCtx
  x : ∀ r, r ∉ w.x → t.ctx.rx r = s.ctx.rx r
  v : ∀ r, r ∉ w.v → t.ctx.rv r = s.ctx.rv r
  p : ∀ n, n ∉ w.p → t.ctx.rp n = s.ctx.rp n
  k : ∀ n, n ∉ w.k → t.ctx.rk n = s.ctx.rk n
  status : ∀ n ∈ keptStatus, n ∉ w.sr → t.readStatus n = s.readStatus n

/-- A message is in the network, or on its way to another package, under the number that its lane has given it (R13). -/
def OnWay (t : State) (m : Msg) : Prop := ∃ l, { m with seq := l } ∈ t.net ∨ { m with seq := l } ∈ t.outbox

/-- A message of an issuer that belongs to no engine command. -/
def msgOf (iss : Issuer) (pkg home colour group : Nat) (b : Body) : Msg :=
  { iss := iss, more := [], pkg := pkg, home := home, colour := colour, group := group, cmd := 0, body := b }

/-- The instruction has parked: its context waits for `w`, the PC stands at it, and no register, no byte of memory and
no other context has changed. -/
structure Parked (s t : State) (w : Wait) : Prop where
  wait : t.ctx.wait = w
  pc : t.ctx.pc = s.ctx.pc
  frame : Frame {} s t
  memory : MemKept s t 0 0

/-- An element-wise access (R197): its head, data register, mask, v sources, the registers that it uses, its element
width in bits and the address of element `n`, by the lanes of v registers. -/
structure ElemCase where
  h : Head
  d : Reg
  k : BitVec 3
  srcs : List Reg
  uses : List Nat
  w : Nat
  addr : Ctx → (Reg → Nat → Nat) → Nat → Word

/-- VLDX and VLDS (R197, R198). -/
def gatherCase : Instr → Option ElemCase
  | .vldx h d a b k w => some ⟨h, d, k, [b], [ux a, uv b, uv d], 8 * 2 ^ w.toNat, fun c v n =>
      c.rx a + BitVec.ofNat 64 (v b n * 2 ^ w.toNat)⟩
  | .vlds h d a b k w => some ⟨h, d, k, [], [ux a, ux b, uv d], 8 * 2 ^ w.toNat, fun c _ n =>
      c.rx a + BitVec.ofNat 64 n * c.rx b⟩
  | _ => none

/-- VSTX and VSTS (R197, R198). -/
def scatterCase : Instr → Option ElemCase
  | .vstx h d a b k w => some ⟨h, d, k, [b, d], [ux a, uv b, uv d], 8 * 2 ^ w.toNat, fun c v n =>
      c.rx a + BitVec.ofNat 64 (v b n * 2 ^ w.toNat)⟩
  | .vsts h d a b k w => some ⟨h, d, k, [d], [ux a, ux b, uv d], 8 * 2 ^ w.toNat, fun c _ n =>
      c.rx a + BitVec.ofNat 64 n * c.rx b⟩
  | _ => none

/-- Block `i` of `n` blocks from `a` belongs to lattice pages that the tile may change (R210). -/
def BlocksOk (s : State) (a n : Nat) : Prop :=
  a % 4096 = 0 ∧ 1 ≤ n ∧ n ≤ 65536 ∧
    ∀ i, i < n → 0x400000 ≤ a + 4096 * i ∧ ∃ p, s.check (a + 4096 * i) (fun _ => 1) .own = .ok p ∧ isLattice p.e.ctype = true

/-- The records waiting on a core, newest first: its deque and the overflow area (R76). -/
def CoreSt.queued (c : CoreSt) : List Rec := c.deque ++ c.overflow

/-- An instruction on G-blocks may go on: no block holds a bound channel and its prefix, if any, is plain f32 (R321). -/
def BlocksReady (s : State) (blocks : List Reg) : Prop :=
  s.ctx.blocksLegal blocks = true ∧ okGbp (pfxOf (s.ctx.pfx.getD plainBody)) = true

/-- The six registers of a block (R320). -/
def blockRegs (r : Reg) : List Reg := (List.range 6).map fun i => regPlus r i

/-- Task `T` is held, and its state has been changed by `f`. -/
def Told (s t : State) (T : TaskId) (f : Ctx → Ctx) : Prop := ∀ c, s.taskCtx T = some c → t.taskCtx T = some (f c)

/-- `new` is the join of `old` and `v` in a scalar cell of `w` bits (R28): greatest unsigned or signed number, least
number, greatest by the key of R29, bitwise OR, or the bounded sum. -/
def isJoin (ty w old v new : Nat) : Prop :=
  match ty with
  | 1 | 9 => new = Max.max old v
  | 2 => toSigned w new = Max.max (toSigned w old) (toSigned w v) ∧ new < 2 ^ w
  | 3 => new = Min.min old v
  | 4 => (new = old ∨ new = v) ∧ fmaxKey w old ≤ fmaxKey w new ∧ fmaxKey w v ≤ fmaxKey w new
  | 5 => new = old ||| v
  | 6 => new = Min.min (old + v) (2 ^ w - 1)
  | _ => False

/-- The canonical form of memories and tables: memory lists no empty byte, and blocks, ONCE states, mailbox counters,
near-bank units and plain BAR0 registers list no entry at its default. -/
def State.formOk (s : State) : Bool :=
  s.memOk && wfFrom {} 0 s.blocks && wfFrom 0 0 s.once && wfFrom {} 0 s.mboxes && wfFrom {} 0 s.units && wfFrom 0 0 s.bar0

/-- The firmware has answered an admin command (R52): vector 0, and response byte 0 exactly where `ok` holds. -/
def Responded (t : State) (ok : Prop) : Prop := t.interrupts.getLast? = some 0 ∧ (t.response = 0 ↔ ok)

/-- A mapped queue has fetched a packet of an opcode, whose effect is due (R55, R57). -/
def Due (s : State) (q op : Nat) (c : Cmd) : Prop :=
  (s.slot q).cmd = some c ∧ c.op = op ∧ c.phase = .fetched ∧ (s.slot q).hw.isSome = true

/-- The queue's command stands as `c`. -/
def Runs (t : State) (q : Nat) (c : Cmd) : Prop := (t.slot q).cmd = some c

/-- No queue waits for a slot (R59). -/
def NoneWaiting (s : State) : Prop := ∀ x ∈ s.queues, x.2.waiting = false

/-- The next step is one of the context that R74 chooses on a core, in state `x`; no handler is due to start there.  The core
is the one that the next turn names or, when no turn is given, the current one. -/
def Chosen (s x : State) : Prop :=
  s.powered = true ∧ ∃ (u : State) (n k : Nat),
    ((s.turns = [] ∧ u = s ∧ n = s.cur) ∨ ∃ rest, s.turns = .core n :: rest ∧ u = { s with turns := rest }) ∧
    u.handlerDue n = false ∧ u.choose n = some k ∧ x = u.select n k

/-- That context is about to issue an instruction, in state `v`: no fault that it has met is delivered at the end of its park,
its handler has not failed, and its budget lasts. -/
def Issues (s v : State) : Prop :=
  ∃ x, Chosen s x ∧
    let y := x.setCtx { x.ctx with wait := .none }
    v = y.freshFetch.codeSeen y.ctx.pc.toNat ∧
    (∀ a, x.ctx.wait = .marker a → x.ctx.inh = true ∨ x.ctx.faulted = []) ∧ (∀ c, x.ctx.wait ≠ .hfail c) ∧
    v.ctx.spent = false

/-- The tval of a fault that a home has answered to register `n` of R127's numbering, at an address (R195). -/
def faultTval (n va : Nat) : Word := BitVec.ofNat 64 ((if 32 ≤ n then 2 ^ 61 else 0) + n % 32 * 2 ^ 56 + va % 2 ^ 48)

/-- The context runs a handler. -/
def Ctx.handles (c : Ctx) : Prop := (∃ j run, c.role = .row j run) ∨ ∃ k run, c.role = .hinge k run

/-- What stands behind an instruction that has completed without a transfer, its guard's failure included: no prefix (R99), one
instruction less in a handler's budget (R307), and a park where its switch marker is set while a register is pending (R94,
R128). -/
structure Behind (s t : State) (h : Head) : Prop where
  pfx : t.ctx.pfx = none
  budget : (s.ctx.handles → t.ctx.hbud = s.ctx.hbud - 1) ∧ (¬s.ctx.handles → t.ctx.hbud = s.ctx.hbud)
  parks : h.sw = true → s.ctx.pending ≠ 0 → s.ctx.flagged = false → t.ctx.wait = .marker s.instrPc
  goesOn : (h.sw = false ∨ s.ctx.pending = 0) → t.ctx.wait = .none

/-- A home's fault stands at a register: outside a trap handler an instruction that names it traps (R195). -/
def FaultAt (c : Ctx) (n : Nat) : Prop := n ≠ 0 ∧ c.inh = false ∧ ∃ e ∈ c.faulted, e.1 = n

/-! Hardware loops, for the statements (R140-R142). -/

/-- A loop of `len` words may open on counter `n` (R140): the counter is inactive, and the body of the other loop, when that
is live, does not end before it. -/
def MayOpen (c : Ctx) (n len : Nat) : Prop :=
  lcAct (c.lc n) = false ∧ ¬(c.live (1 - n) = true ∧ lcLast (c.lc (1 - n)) < c.pc.toNat + 4 * len)

/-- A live loop whose last body word stands at `a`. -/
def EndsAt (c : Ctx) (n a : Nat) : Prop := c.live n = true ∧ lcLast (c.lc n) = a

/-- A counter at the end of its loop's body (R142): one iteration fewer, and inactive behind the last one. -/
structure Counted (w w' : Word) : Prop where
  len : lcLen w' = lcLen w
  start : lcStart w' = lcStart w
  count : lcCount w' = lcCount w - 1
  act : lcAct w' = decide (lcCount w ≠ 1)

/-- Where the PC goes at the end of a body (R142): to its first word, or behind it when the last iteration is done. -/
def bodyPc (w : Word) : Word := BitVec.ofNat 64 (if lcCount w = 1 then lcStart w + 4 * lcLen w else lcStart w)

/-- The word at `a` has completed without a taken transfer (R142), from context `c` to `d`: the PC is `next` where it ends no
live loop's body; else its loop is counted, and of two loops the one that was opened later comes first, the other one only
when that one has ended. -/
def AfterBody (c d : Ctx) (a : Nat) (next : Word) : Prop :=
  (∀ n, n < 2 → EndsAt c n a → 1 ≤ lcCount (c.lc n)) →
  let first := if c.laterLc1 then 1 else 0
  (¬EndsAt c 0 a → ¬EndsAt c 1 a → d.pc = next ∧ d.lc 0 = c.lc 0 ∧ d.lc 1 = c.lc 1) ∧
  (∀ n, n < 2 → EndsAt c n a → ¬EndsAt c (1 - n) a →
    Counted (c.lc n) (d.lc n) ∧ d.lc (1 - n) = c.lc (1 - n) ∧ d.pc = bodyPc (c.lc n)) ∧
  (EndsAt c 0 a → EndsAt c 1 a → Counted (c.lc first) (d.lc first) ∧
    (lcCount (c.lc first) ≠ 1 → d.lc (1 - first) = c.lc (1 - first) ∧ d.pc = bodyPc (c.lc first)) ∧
    (lcCount (c.lc first) = 1 → Counted (c.lc (1 - first)) (d.lc (1 - first)) ∧ d.pc = bodyPc (c.lc (1 - first))))

/-- A transfer to `t` has been taken (R142): every live loop whose body does not hold `t` is inactive and keeps its count, and
every other counter is as it was. -/
def CutBy (c d : Ctx) (t : Nat) : Prop :=
  d.pc = BitVec.ofNat 64 t ∧ ∀ n, n < 2 →
    let w := c.lc n
    let leaves := c.live n = true ∧ ¬(lcStart w ≤ t ∧ t < lcStart w + 4 * lcLen w)
    (leaves → lcAct (d.lc n) = false ∧ lcLen (d.lc n) = lcLen w ∧ lcStart (d.lc n) = lcStart w ∧ lcCount (d.lc n) = lcCount w) ∧
    (¬leaves → d.lc n = w)

/-! Replays, for the statements (R129-R131). -/

/-- The context replays the REP at its PC, of `n` captured instructions, `m` iterations and staggers `d`, `a` and `b` (R129). -/
def Replays (s : State) (n m d a b : Nat) : Prop :=
  s.ctx.rep = true ∧ ∃ (h : Head) (n' : BitVec 4) (m' : BitVec 6) (d' a' b' : BitVec 2),
    decodeWord (s.insn s.ctx.pc.toNat) = .ok (.rep h n' m' d' a' b') ∧
    n = n'.toNat + 1 ∧ m = m'.toNat + 1 ∧ d = d'.toNat ∧ a = a'.toNat ∧ b = b'.toNat

/-- An execution of a replay has completed, from `s` to `t` (R130): the position moves to the next captured instruction, or
to the first one of the next iteration; behind the last one the replay ends, the PC goes behind the last captured word, and
that word ends the bodies of its loops. -/
def Replayed (s t : State) (n m : Nat) : Prop :=
  let j := s.ctx.riter
  let end_ := s.captureEnd n (s.ctx.pc.toNat + 4)
  (s.ctx.rslot + 1 < n → t.ctx.rep = true ∧ t.ctx.rslot = s.ctx.rslot + 1 ∧ t.ctx.riter = j ∧ t.ctx.pc = s.ctx.pc ∧
    t.ctx.lc0 = s.ctx.lc0 ∧ t.ctx.lc1 = s.ctx.lc1) ∧
  (n ≤ s.ctx.rslot + 1 → j + 1 < m → t.ctx.rep = true ∧ t.ctx.rslot = 0 ∧ t.ctx.riter = j + 1 ∧ t.ctx.pc = s.ctx.pc ∧
    t.ctx.lc0 = s.ctx.lc0 ∧ t.ctx.lc1 = s.ctx.lc1) ∧
  (n ≤ s.ctx.rslot + 1 → m ≤ j + 1 → t.ctx.rep = false ∧ t.ctx.inrep = false ∧
    AfterBody s.ctx t.ctx (end_ - 4) (BitVec.ofNat 64 end_))

/-- A word lies beyond the last body word of an active loop (R129). -/
def BeyondLoop (c : Ctx) (a : Nat) : Prop := ∃ n, n < 2 ∧ c.live n = true ∧ lcLast (c.lc n) < a

/-- The word at `a` is fetched as it stands in the core's own slice (R86): below xb, unpoisoned, and with no code load
that still writes there. -/
def FetchOk (s : State) (a : Nat) : Prop :=
  a < s.me.xb.toNat ∧ s.poisoned (localPa s.cur a) 4 = false ∧ ∀ e ∈ s.me.loading, e.1 ≠ a

/-- An instruction whose checks `IssueChecks` states: its head, its class and the registers that it uses. -/
def checkedCase (i : Instr) : Option (Head × Cls × List Nat) :=
  match scalarCase i, predCase i, maskCase i, branchCase i with
  | some c, _, _, _ => some (c.h, c.cls, c.uses)
  | _, some c, _, _ => some (c.h, clsPlain, c.uses)
  | _, _, some c, _ => some (c.h, clsMask, c.uses)
  | _, _, _, some c => some (c.h, clsPlain, c.uses)
  | _, _, _, _ => none

end Sys2Proof.Machine
end

