-- ==== Sys2Proof/Certificates/Slice0/Obligations.lean ====
section
/-! DEFINITION. Statements for the provers. -/

open Sys2Proof Sys2Proof.Machine

/-- R132-R135, R136 (MOVPX), R190 (KMOVX, KPOPC, KFIRST): every scalar instruction whose checks pass completes and
writes x[rd] with the value that `scalarCase` gives for its operands; a write to x0 is discarded (R117).  Beyond it
nothing changes, no byte of memory among it.
R132: what CLZ, CTZ and POPC count, and REV8 reverses. -/
def Obligations.ScalarResults : Prop :=
  (∀ (i : Instr) (c : XCase) (s : State), scalarCase i = some c → Clear s c.cls c.h c.uses →
      ∃ t, exec i s = .next t ∧ t.ctx.rx c.d = (if c.d = 0 then 0 else c.value s.ctx) ∧
        Frame { x := [c.d] } s t ∧ Inside s t ∧ Advanced s t) ∧
  (∀ x : Word,
      ((leadingZeros x).toNat ≤ 64 ∧ (∀ i, i < 64 → 64 - (leadingZeros x).toNat ≤ i → x.getLsbD i = false) ∧
        ((leadingZeros x).toNat < 64 → x.getLsbD (63 - (leadingZeros x).toNat) = true)) ∧
      ((trailingZeros x).toNat ≤ 64 ∧ (∀ i, i < (trailingZeros x).toNat → x.getLsbD i = false) ∧
        ((trailingZeros x).toNat < 64 → x.getLsbD (trailingZeros x).toNat = true)) ∧
      popCount x = BitVec.ofNat 64 ((List.range 64).filter fun i => x.getLsbD i).length ∧
      (∀ i j, i < 8 → j < 8 → (byteReverse x).getLsbD (8 * i + j) = x.getLsbD (8 * (7 - i) + j)))

/-- R136: every predicate instruction whose checks pass completes and writes p[pd] with the truth that `predCase`
gives; a write to p0 is discarded (R117).  Beyond it nothing changes.
R190: KAND, KOR, KXOR, KNOT and XMOVK complete and write k[kd]; a write to k0 is discarded (R117). -/
def Obligations.PredicateMaskResults : Prop :=
  (∀ (i : Instr) (c : PCase) (s : State), predCase i = some c → Clear s clsPlain c.h c.uses →
     ∃ t, exec i s = .next t ∧ (t.ctx.rp c.d = true ↔ c.d = 0 ∨ c.value s.ctx) ∧
       Frame { p := [c.d] } s t ∧ Inside s t ∧ Advanced s t) ∧
  (∀ (i : Instr) (c : KCase) (s : State), maskCase i = some c → Clear s clsMask c.h c.uses →
     ∃ t, exec i s = .next t ∧ t.ctx.rk c.d = (if c.d = 0 then BitVec.allOnes 64 else c.value s.ctx) ∧
       Frame { k := [c.d] } s t ∧ Inside s t ∧ Advanced s t)

/-- R137, R138, R139: a branch whose condition does not hold completes and only advances; one whose condition holds
and whose target lies in the local window completes with the PC at the instruction's own address plus the offset in
words.  No register changes. -/
def Obligations.BranchResults : Prop :=
  ∀ (i : Instr) (c : BCase) (s : State), branchCase i = some c → Clear s clsPlain c.h c.uses →
    (¬c.taken s.ctx → ∃ t, exec i s = .next t ∧ Frame {} s t ∧ Inside s t ∧ Advanced s t) ∧
    (c.taken s.ctx → (s.ctx.pc + BitVec.ofInt 64 (4 * c.off.toInt)).toNat < 0x400000 →
      ∃ t, exec i s = .next t ∧ t.ctx.pc = s.ctx.pc + BitVec.ofInt 64 (4 * c.off.toInt) ∧
        Frame { sr := [0x010] } s t ∧ Inside s t)

/-- R139, R89: J, JAL and JALR complete with the PC at a target in the local window; JAL links in x1 and JALR in
x[rd], and the target of JALR is computed from the old base.
R139, R89: a taken branch, J, JAL or JALR whose target lies outside the local window takes the trap 0x03 with the
target as tval, and JALR to a misaligned target in the window the trap 0x04; nothing is linked.  That a target which is both
takes 0x03 is the model's choice: log entry 91. -/
def Obligations.JumpResults : Prop :=
  (∀ (s : State) (h : Head),
     (∀ o : BitVec 22, Clear s clsPlain h [] → (s.ctx.pc + BitVec.ofInt 64 (4 * o.toInt)).toNat < 0x400000 →
       ∃ t, exec (.j h o) s = .next t ∧ t.ctx.pc = s.ctx.pc + BitVec.ofInt 64 (4 * o.toInt) ∧
         Frame { sr := [0x010] } s t ∧ Inside s t) ∧
     (∀ o : BitVec 22, Clear s clsPlain h [1] → (s.ctx.pc + BitVec.ofInt 64 (4 * o.toInt)).toNat < 0x400000 →
       ∃ t, exec (.jal h o) s = .next t ∧ t.ctx.pc = s.ctx.pc + BitVec.ofInt 64 (4 * o.toInt) ∧
         t.ctx.rx 1 = s.ctx.pc + 4 ∧ Frame { x := [1], sr := [0x010] } s t ∧ Inside s t) ∧
     (∀ (d a : Reg) (i : BitVec 12), Clear s clsPlain h [ux a, ux d] →
       (s.ctx.rx a + BitVec.ofInt 64 i.toInt).toNat < 0x400000 → (s.ctx.rx a + BitVec.ofInt 64 i.toInt).toNat % 4 = 0 →
       ∃ t, exec (.jalr h d a i) s = .next t ∧ t.ctx.pc = s.ctx.rx a + BitVec.ofInt 64 i.toInt ∧
         t.ctx.rx d = (if d = 0 then 0 else s.ctx.pc + 4) ∧ Frame { x := [d], sr := [0x010] } s t ∧ Inside s t)) ∧
  (∀ (s : State) (h : Head),
     (∀ (i : Instr) (c : BCase), branchCase i = some c → Clear s clsPlain c.h c.uses → c.taken s.ctx →
       0x400000 ≤ (s.ctx.pc + BitVec.ofInt 64 (4 * c.off.toInt)).toNat →
       exec i s = .next ((s.setCtx s.ctx.charge).settle.trap 0x03 (s.ctx.pc + BitVec.ofInt 64 (4 * c.off.toInt)))) ∧
     (∀ o : BitVec 22, let target := s.ctx.pc + BitVec.ofInt 64 (4 * o.toInt)
       0x400000 ≤ target.toNat →
       (Clear s clsPlain h [] → exec (.j h o) s = .next ((s.setCtx s.ctx.charge).settle.trap 0x03 target)) ∧
       (Clear s clsPlain h [1] → exec (.jal h o) s = .next ((s.setCtx s.ctx.charge).settle.trap 0x03 target))) ∧
     (∀ (d a : Reg) (i : BitVec 12), Clear s clsPlain h [ux a, ux d] →
       let target := s.ctx.rx a + BitVec.ofInt 64 i.toInt
       (0x400000 ≤ target.toNat → exec (.jalr h d a i) s = .next ((s.setCtx s.ctx.charge).settle.trap 0x03 target)) ∧
       (target.toNat < 0x400000 → target.toNat % 4 ≠ 0 →
         exec (.jalr h d a i) s = .next ((s.setCtx s.ctx.charge).settle.trap 0x04 target))))

/-- R140, R141: LOOP and LOOPI with a count from 1 to 2^32 − 1 complete and open their loop behind themselves: ACT is set,
LEN, START and COUNT are the body's length, its first word and the count, and it is the loop opened later.
R140, R142: with the count 0 they complete with the PC behind the body; when the body's last word is also that of an
enclosing live loop, the skip counts as its completion.
R140: a count of 2^32 or more takes 0x0B with the count as tval, and an active counter, or a body that ends behind that of
the other live loop, 0x01 with the word.
R142: an instruction whose checks pass, or whose guard fails, and which takes no transfer completes with the end-of-body
step of every live loop whose last word it is, the loop opened later first; a taken branch, J, JAL or JALR ends every live
loop whose body does not hold its target and leaves the others. -/
def Obligations.LoopResults : Prop :=
  (∀ (s : State) (h : Head) (l : BitVec 1) (len : BitVec 12), len ≠ 0 → MayOpen s.ctx l.toNat len.toNat →
     let opens := fun (t : State) (count : Nat) =>
       Frame { sr := [0x010] } s t ∧ Inside s t ∧
       (s.ctx.pc.toNat % 4 = 0 → s.ctx.pc.toNat + 4 < 0x100000 →
         t.ctx.pc = s.ctx.pc + 4 ∧ lcAct (t.ctx.lc l.toNat) = true ∧ lcLen (t.ctx.lc l.toNat) = len.toNat ∧
         lcStart (t.ctx.lc l.toNat) = s.ctx.pc.toNat + 4 ∧ lcCount (t.ctx.lc l.toNat) = count ∧
         t.ctx.lc (1 - l.toNat) = s.ctx.lc (1 - l.toNat) ∧ (t.ctx.laterLc1 = true ↔ l = 1))
     let skips := fun (t : State) =>
       Frame { sr := [0x010] } s t ∧ Inside s t ∧
       (s.ctx.pc.toNat + 4 < 0x100000 →
         AfterBody s.ctx t.ctx (s.ctx.pc.toNat + 4 * len.toNat) (s.ctx.pc + BitVec.ofNat 64 (4 * (len.toNat + 1))))
     (∀ a : Reg, Clear s clsPlain h [ux a] → s.ctx.rx a ≠ 0 → (s.ctx.rx a).toNat < 2 ^ 32 →
       ∃ t, exec (.loop h l a len) s = .next t ∧ opens t (s.ctx.rx a).toNat) ∧
     (∀ a : Reg, Clear s clsPlain h [ux a] → s.ctx.rx a = 0 → ∃ t, exec (.loop h l a len) s = .next t ∧ skips t) ∧
     (∀ a : Reg, Clear s clsPlain h [ux a] → 2 ^ 32 ≤ (s.ctx.rx a).toNat →
       exec (.loop h l a len) s = .next ((s.setCtx s.ctx.charge).settle.trap 0x0B (s.ctx.rx a))) ∧
     (∀ k : BitVec 9, Clear s clsPlain h [] → k ≠ 0 → ∃ t, exec (.loopi h l k len) s = .next t ∧ opens t k.toNat) ∧
     (∀ k : BitVec 9, Clear s clsPlain h [] → k = 0 → ∃ t, exec (.loopi h l k len) s = .next t ∧ skips t)) ∧
  (∀ (s : State) (h : Head) (l : BitVec 1) (len : BitVec 12), s.ctx.spent = false → s.ctx.pfx = none →
     ¬MayOpen s.ctx l.toNat len.toNat →
     (∀ a : Reg, exec (.loop h l a len) s =
       .next ((s.setCtx s.ctx.charge).trap 0x01 ((Instr.loop h l a len).wordOf.setWidth 64))) ∧
     (∀ k : BitVec 9, exec (.loopi h l k len) s =
       .next ((s.setCtx s.ctx.charge).trap 0x01 ((Instr.loopi h l k len).wordOf.setWidth 64)))) ∧
  (∀ (i : Instr) (h : Head) (k : Cls) (uses : List Nat) (s : State),
     (checkedCase i = some (h, k, uses) ∨ (i = .nop h ∧ k = clsPlain ∧ uses = [])) → s.ctx.rep = false →
     (Clear s k h uses → (∀ c, branchCase i = some c → ¬c.taken s.ctx) →
       ∃ t, exec i s = .next t ∧ AfterBody s.ctx t.ctx s.ctx.pc.toNat (s.ctx.pc + 4)) ∧
     (s.curCtx < 5 → s.ctx.spent = false → s.ctx.legal k = true → (s.ctx.pfx = none ∨ k.fmt = true) →
       s.ctx.guard h.g = false → ∃ t, exec i s = .next t ∧ AfterBody s.ctx t.ctx s.ctx.pc.toNat (s.ctx.pc + 4))) ∧
  (∀ (s : State) (h : Head),
     (∀ (i : Instr) (c : BCase), branchCase i = some c → Clear s clsPlain c.h c.uses → c.taken s.ctx →
       let target := (s.ctx.pc + BitVec.ofInt 64 (4 * c.off.toInt)).toNat
       target < 0x400000 → ∃ t, exec i s = .next t ∧ CutBy s.ctx t.ctx target) ∧
     (∀ o : BitVec 22, let target := (s.ctx.pc + BitVec.ofInt 64 (4 * o.toInt)).toNat
       target < 0x400000 →
       (Clear s clsPlain h [] → ∃ t, exec (.j h o) s = .next t ∧ CutBy s.ctx t.ctx target) ∧
       (Clear s clsPlain h [1] → ∃ t, exec (.jal h o) s = .next t ∧ CutBy s.ctx t.ctx target)) ∧
     (∀ (d a : Reg) (i : BitVec 12), Clear s clsPlain h [ux a, ux d] →
       let target := (s.ctx.rx a + BitVec.ofInt 64 i.toInt).toNat
       target < 0x400000 → target % 4 = 0 → ∃ t, exec (.jalr h d a i) s = .next t ∧ CutBy s.ctx t.ctx target))

/-- R143, R145: NOP completes and does nothing; SETC completes and sets the current colour, tstat[3:1], to its number and
no other bit; YIELD completes, in a task context that is not flagged it makes the core choose again and puts the context
last, and in the handler context it does nothing. -/
def Obligations.MiscResults : Prop :=
  ∀ (s : State) (h : Head),
    (Clear s clsPlain h [] → ∃ t, exec (.nop h) s = .next t ∧ Frame {} s t ∧ Inside s t ∧ Advanced s t) ∧
    (∀ c : BitVec 5, c.toNat < 8 → Clear s clsPlain h [] →
      ∃ t, exec (.setc h c) s = .next t ∧ t.ctx.colour = c.toNat ∧
        t.ctx.tstat &&& ~~~0xE#64 = s.ctx.tstat &&& ~~~0xE#64 ∧ Frame { sr := [0x000] } s t ∧ Inside s t ∧ Advanced s t) ∧
    (Clear s clsMisc h [] → s.curCtx < 4 → s.ctx.flagged = false →
      ∃ t, exec (.yield h) s = .next t ∧ t.me.switch = true ∧ t.me.yielded = true ∧ Frame {} s t ∧ MemKept s t 0 0 ∧
        Advanced s t) ∧
    (Clear s clsMisc h [] → s.curCtx = 4 → ∃ t, exec (.yield h) s = .next t ∧ Frame {} s t ∧ Inside s t ∧ Advanced s t)

/-- R336: a precise cause in a task context that is in no handler, on a core whose tvec is not 0, saves the PC in tpc, the
cause in tcause and its value in tval, notes a prefix and the active loops in tstat, and goes to tvec in trap state.
R338: without a handler (tvec is 0), or inside one, the same cause fails the task: the failure holds the cause, its
value and the address of the instruction, and says whether it was a second one.
R339, R309: a precise cause ends a row handler at once: its row counts as drained, its context is free, and the task is told
0x26 with the cause and the row.  It ends a hinge handler too, which waits for its messages and is then free: the mailbox
entry goes, a waiting caller gets status 2 with the cause, and a posted call's caller is told 0x23 with the cause and the
target. Model's choices in it: log entry 14. -/
def Obligations.TrapTaking : Prop :=
  (∀ (s : State) (cause : Nat) (v : Word), s.curCtx < 5 → s.ctx.role = .task → s.ctx.inh = false → s.me.tvec ≠ 0 →
      let c := s.ctx
      let d := (s.trap cause v).ctx
      d.pc = s.me.tvec ∧ d.tpc = c.pc &&& 0x3FFFFC#64 ∧ d.tcause = BitVec.ofNat 64 cause ∧ d.tval = v ∧ d.inh = true ∧
        d.tstat.getLsbD 0 = (if c.rep then false else c.pfx.isSome) ∧ d.tstat.getLsbD 17 = lcAct c.lc0 ∧ d.tstat.getLsbD 18 = lcAct c.lc1 ∧
        (∀ b, c.rep = false → c.pfx = some b → d.fpre = b.setWidth 64) ∧ d.pfx = none ∧ d.rep = false ∧
        d.tstat &&& ~~~0x70001#64 = c.tstat &&& ~~~0x70001#64 ∧
        Frame { sr := [0x000, 0x001, 0x002, 0x003, 0x006] } s (s.trap cause v) ∧ MemKept s (s.trap cause v) 0 0) ∧
  (∀ (s : State) (cause : Nat) (v : Word), s.curCtx < 5 → s.ctx.role = .task → (s.ctx.inh = true ∨ s.me.tvec = 0) →
      (s.trap cause v).ctx.wait = .failing { cause := cause, tval := v, pc := s.instrPc, double := s.ctx.inh } ∧
        Frame {} s (s.trap cause v) ∧ MemKept s (s.trap cause v) 0 0) ∧
  (∀ (s : State) (cause : Nat) (v : Word) (j : RowJob) (run : Nat), s.curCtx < 5 → cause < 256 → s.ctx.role = .row j run →
      let t := s.trap cause v
      t.ctx = {} ∧
        (∀ o, (s.quad j.quad).cur = some o → o.cmd.id = j.arr.id →
          (t.quad j.quad).cur = some { o with rowsOut := o.rowsOut - 1, rows := o.rows + 1 }) ∧
        ∀ c, s.taskCtx j.arr.iss.task = some c → ∃ d, t.taskCtx j.arr.iss.task = some d ∧ d.faults = c.faults.add 0x26 j.arr.colour
          (BitVec.ofNat 64 (cause * 2 ^ 52 + 0xF * 2 ^ 48 + (j.arr.row0 + j.row) % 2 ^ 16))) ∧
  (∀ (s : State) (cause : Nat) (v : Word) (k : Call) (run : Nat), s.curCtx < 5 → s.ctx.role = .hinge k run →
      let t := s.trap cause v
      t.ctx = { s.ctx with wait := .hfail cause, pfx := none, rep := false } ∧ Frame {} s t ∧ MemKept s t 0 0) ∧
  (∀ (s x : State) (cause : Nat) (k : Call) (run : Nat), Chosen s x → x.ctx.role = .hinge k run → x.ctx.wait = .hfail cause →
      ∃ t, step s = .next t ∧ t.ctxOf x.cur x.curCtx = {} ∧ (∀ j ∈ (t.core x.cur).mailbox, j.id ≠ k.id) ∧
        (k.w = true ∨ k.back.1 ≠ x.pkg →
          OnWay t (msgOf k.caller k.back.1 k.back.2 k.colour k.group (.hnote k (.failed cause)))) ∧
        (k.w = false → k.back.1 = x.pkg → ∀ c, x.taskCtx k.caller.task = some c →
          ∃ d, t.taskCtx k.caller.task = some d ∧ d.faults = c.faults.add 0x23 k.colour
            (BitVec.ofNat 64 (cause * 2 ^ 56 + k.target % 2 ^ 48))))

/-- R143: TRAP raises 0x0C and BRK 0x0D, with the code as tval: in a task with a handler they complete by entering it. -/
def Obligations.SoftwareTraps : Prop :=
  ∀ (s : State) (h : Head) (c : BitVec 5), Clear s clsMisc h [] → s.ctx.role = .task → s.ctx.inh = false → s.me.tvec ≠ 0 →
    (∃ t, exec (.trap h c) s = .next t ∧ t.ctx.pc = s.me.tvec ∧ t.ctx.tpc = s.ctx.pc &&& 0x3FFFFC#64 ∧
      t.ctx.tcause = 0x0C#64 ∧ t.ctx.tval = c.setWidth 64 ∧ t.ctx.inh = true ∧
      Frame { sr := [0x000, 0x001, 0x002, 0x003, 0x006] } s t ∧ MemKept s t 0 0) ∧
    (s.me.haltOnBrk = false → ∃ t, exec (.brk h c) s = .next t ∧ t.ctx.pc = s.me.tvec ∧
      t.ctx.tpc = s.ctx.pc &&& 0x3FFFFC#64 ∧ t.ctx.tcause = 0x0D#64 ∧ t.ctx.tval = c.setWidth 64 ∧ t.ctx.inh = true ∧
      Frame { sr := [0x000, 0x001, 0x002, 0x003, 0x006] } s t ∧ MemKept s t 0 0) ∧
    (s.me.haltOnBrk = true → ∃ t, exec (.brk h c) s = .next t ∧ t.me.halted = true ∧ t.ctx.pc = s.ctx.pc ∧
      Frame {} s t ∧ MemKept s t 0 0)

/-- R144, R337: IRET in a trap handler completes: the PC is tpc, tstat[16], [18:17] and [0] clear, the prefix that fpre
holds is pending again when tstat[0] was set, and a replay goes on when tstat[4] is set.
R144: IRET outside a trap handler is illegal: it takes 0x01 with its own word as tval.
Model's choices in it: log entry 13. -/
def Obligations.IretResults : Prop :=
  (∀ (s : State) (h : Head), Clear s clsMisc h [] → s.ctx.inh = true →
      ∃ t, exec (.iret h) s = .next t ∧ t.ctx.pc = s.ctx.tpc ∧ t.ctx.inh = false ∧
        t.ctx.tstat &&& ~~~0x70001#64 = s.ctx.tstat &&& ~~~0x70001#64 ∧ t.ctx.tstat &&& 0x70001#64 = 0 ∧
        t.ctx.pfx = (if s.ctx.tstat.getLsbD 0 then some (s.ctx.fpre.setWidth 22) else none) ∧
        t.ctx.rep = s.ctx.tstat.getLsbD 4 ∧ t.ctx.lc0 = s.ctx.lc0 ∧ t.ctx.lc1 = s.ctx.lc1 ∧
        Frame { sr := [0x000] } s t ∧ Inside s t) ∧
  (∀ (s : State) (h : Head), s.ctx.spent = false → s.ctx.pfx = none → s.ctx.inh = false →
      exec (.iret h) s = .next ((s.setCtx s.ctx.charge).trap 0x01 ((Instr.iret h).wordOf.setWidth 64)))

/-- R129, R130, R97: REP completes and begins its replay at position (0, 0) with the PC on it; FMT completes and holds its
body for the next word, but is illegal, 0x01 with its word, as the last word of a live loop's body.
R130: while a replay is under way, a step of a tile's context runs the captured instruction at the position that tstat
holds: the word behind the REP that the position names, with the x and v registers of its fields staggered; an FMT goes with
its consumer behind it.
R129: a captured word beyond the last body word of an active loop takes 0x01 with the word, and one that decodes to no
instruction 0x01 with the word that was to run.
R130: a completed execution, the guard's failure among them, moves the position, and the last one ends the replay, with one
end-of-body step where the last captured word ends a loop's body.
R130: what staggering makes of words of each form: fields of x and v registers, and neither k registers nor numbers.
The position that a handler has written beyond the REP's n or iterations is taken as it is, which is the model's choice
(log entry 87). Model's choices in it: log entries 11, 85, 86 and 87. -/
def Obligations.CaptureResults : Prop :=
  (∀ (s : State) (h : Head),
    (∀ (n : BitVec 4) (it : BitVec 6) (d a b : BitVec 2), Clear s clsCapture h [] →
      ∃ t, exec (.rep h n it d a b) s = .next t ∧ t.ctx.rep = true ∧ t.ctx.inrep = true ∧ t.ctx.rslot = 0 ∧
        t.ctx.riter = 0 ∧ t.ctx.pc = s.ctx.pc ∧ t.ctx.tstat &&& ~~~0xFFF0#64 = s.ctx.tstat &&& ~~~0xFFF0#64 ∧
        Frame { sr := [0x000] } s t ∧ Inside s t) ∧
    (∀ (a b : BitVec 4) (d r : BitVec 3) (u : BitVec 1) (c : BitVec 2) (x : BitVec 1),
      (Clear s clsCapture Head.plain [] → s.ctx.endsBody = false →
        ∃ t, exec (.fmt a b d r u c x) s = .next t ∧ t.ctx.pfx = some (bodyFmt a b d r u c x) ∧ t.ctx.pc = s.ctx.pc + 4 ∧
          Frame {} s t ∧ Inside s t) ∧
      (s.ctx.spent = false → s.ctx.pfx = none → s.ctx.endsBody = true →
        exec (.fmt a b d r u c x) s =
          .next ((s.setCtx s.ctx.charge).trap 0x01 ((Instr.fmt a b d r u c x).wordOf.setWidth 64))))) ∧
  (∀ (s v : State) (n m d a b : Nat), Issues s v → Replays v n m d a b → v.cur < 2048 → FetchOk v v.ctx.pc.toNat →
    let p := v.captureEnd v.ctx.rslot (v.ctx.pc.toNat + 4)
    let runs := fun (u : State) (w : Insn) =>
      let w' := staggered w d a b v.ctx.riter
      (∀ i, decodeWord w' = .ok i → step s = exec i u) ∧
      (∀ e, decodeWord w' = .error e →
        step s = .next ((u.setCtx { u.ctx with pfx := none }).trapAt 0x01 (w'.setWidth 64) u.ctx.pc u.instrPc))
    FetchOk v p →
    (BeyondLoop v.ctx p → step s = .next (v.trap 0x01 ((v.insn p).setWidth 64))) ∧
    (¬BeyondLoop v.ctx p →
      (isFmtWord (v.insn p) = false ∨ (∃ e, decodeWord (v.insn p) = .error e) → runs v (v.insn p)) ∧
      (∀ fa fb fd fr ft fc fx, decodeWord (v.insn p) = .ok (.fmt fa fb fd fr ft fc fx) →
        let u := v.setCtx { v.ctx with pfx := some (bodyFmt fa fb fd fr ft fc fx) }
        (v.ctx.lastOfBody p = true → step s = .next (v.trap 0x01 ((v.insn p).setWidth 64))) ∧
        (v.ctx.lastOfBody p = false → FetchOk v (p + 4) →
          (BeyondLoop v.ctx (p + 4) → step s = .next (u.trap 0x01 ((v.insn (p + 4)).setWidth 64))) ∧
          (¬BeyondLoop v.ctx (p + 4) → runs u (v.insn (p + 4))))))) ∧
  (∀ (i : Instr) (h : Head) (k : Cls) (uses : List Nat) (s : State) (n m d a b : Nat), checkedCase i = some (h, k, uses) →
     k.rep = true → s.cur < 2048 → Replays s n m d a b →
     (Clear s k h uses → ∃ t, exec i s = .next t ∧ Replayed s t n m) ∧
     (s.curCtx < 5 → s.ctx.spent = false → s.ctx.legal k = true → (s.ctx.pfx = none ∨ k.fmt = true) → s.ctx.faulted = [] →
       s.ctx.guard h.g = false → ∃ t, exec i s = .next t ∧ Replayed s t n m)) ∧
  (∀ (h : Head) (d a b : Reg) (k : BitVec 3) (sd sa sb j : Nat),
     let on := fun (i : Instr) => staggered i.wordOf sd sa sb j
     let d' := regPlus d (j * sd)
     let a' := regPlus a (j * sa)
     let b' := regPlus b (j * sb)
     on (.add h d a b) = (Instr.add h d' a' b').wordOf ∧
     on (.clz h d a) = (Instr.clz h d' a').wordOf ∧
     on (.mul h d a b) = (Instr.mul h d' a' b').wordOf ∧
     (∀ i, on (.addi h d a i) = (Instr.addi h d' a' i).wordOf) ∧
     (∀ i, on (.lui h d i) = (Instr.lui h d' i).wordOf) ∧
     on (.vadd h d a b k) = (Instr.vadd h d' a' b' k).wordOf ∧
     on (.vabs h d a k) = (Instr.vabs h d' a' k).wordOf ∧
     on (.viadd h d a b k) = (Instr.viadd h d' a' b' k).wordOf ∧
     (∀ e : BitVec 3, on (.vceq h e a b k) = (Instr.vceq h e a' b' k).wordOf) ∧
     on (.vext h d a b) = (Instr.vext h d' a' b').wordOf ∧
     (∀ t, on (.vcvt h d a k t) = (Instr.vcvt h d' a' k t).wordOf) ∧
     on (.vrsum h d a k) = (Instr.vrsum h d' a' k).wordOf ∧
     (∀ e : BitVec 3, on (.kmovx h d e) = (Instr.kmovx h d' e).wordOf) ∧
     (∀ e : BitVec 3, on (.xmovk h e a) = (Instr.xmovk h e a').wordOf) ∧
     (∀ e f g : BitVec 3, on (.kand h e f g) = (Instr.kand h e f g).wordOf))

/-- R124, R119: MFS of every status register completes and writes x[rd] with the register's value at issue.
R124, R119: MTS to a register that the context may write, with an operand that the register takes, completes and
writes the bits that the register holds, and no other register; an MTS to one loop counter leaves the other, unless it is the
last word of a loop's body (R142).
R124, R307: MTS to a register that the context may not write is illegal: 0x01 with the word as tval.
R124, R88, R141: MTS of a value that tvec or xb does not take traps with 0x0B, and MTS to an active loop counter with 0x0E, the
value as tval; nothing is written. -/
def Obligations.StatusRegisters : Prop :=
  (∀ (s : State) (h : Head) (d : Reg) (idx : BitVec 12), Clear s clsPlain h [ux d] → idx.toNat ∈ statusIndices →
     ∃ t, exec (.mfs h d idx) s = .next t ∧
       t.ctx.rx d = (if d = 0 then 0 else (s.setCtx s.ctx.charge).readStatus idx.toNat) ∧
       Frame { x := [d] } s t ∧ Inside s t ∧ Advanced s t) ∧
  ((∀ (s : State) (h : Head) (a : Reg) (idx : BitVec 12) (keep bits : Word), Clear s clsPlain h [ux a] →
       s.ctx.mtsLegal idx.toNat = true → statusBits idx.toNat = some (keep, bits) →
       statusTakes s idx.toNat (s.ctx.rx a) →
       ∃ t, exec (.mts h a idx) s = .next t ∧
         t.readStatus idx.toNat = (s.readStatus idx.toNat &&& keep) ||| (s.ctx.rx a &&& bits) ∧
         (s.ctx.endsBody = false → (idx.toNat ≠ 0x010 → t.ctx.lc0 = s.ctx.lc0) ∧ (idx.toNat ≠ 0x011 → t.ctx.lc1 = s.ctx.lc1)) ∧
         Frame { sr := idx.toNat :: (if idx.toNat = 0x011 then [0x010] else []) } s t ∧ MemKept s t 0 0 ∧ Advanced s t) ∧
   (∀ (s : State) (h : Head) (a : Reg) (idx : BitVec 12), Clear s clsPlain h [ux a] → s.ctx.mtsLegal idx.toNat = true →
       let v := s.ctx.rx a
       let stops := fun (cause : Nat) => exec (.mts h a idx) s = .next ((s.setCtx s.ctx.charge).settle.trap cause v)
       (idx.toNat = 0x004 → 0x100000 ≤ (v &&& 0xFFFFFC#64).toNat → stops 0x0B) ∧
       (idx.toNat = 0x005 → v.toNat % 4096 ≠ 0 ∨ v.toNat < 0x1000 ∨ 0x100000 < v.toNat → stops 0x0B) ∧
       (idx.toNat = 0x010 → lcAct s.ctx.lc0 = true → stops 0x0E) ∧ (idx.toNat = 0x011 → lcAct s.ctx.lc1 = true → stops 0x0E)) ∧
   (∀ (s : State) (h : Head) (a : Reg) (idx : BitVec 12), s.ctx.spent = false → s.ctx.pfx = none →
       s.ctx.mtsLegal idx.toNat = false →
       exec (.mts h a idx) s = .next ((s.setCtx s.ctx.charge).trap 0x01 ((Instr.mts h a idx).wordOf.setWidth 64))))

/-- R192, R27: a load of the local window whose checks pass completes at once: x[rd] gets the little-endian bytes at
x[rs1] plus the offset, sign-extended or zero-extended.
R192, R126: a load of the global window whose checks pass completes at issue: its request goes to the home of the
address, x[rd] becomes pending, and no register changes its value.
R43, R44, R192: a load that fails a check at issue traps with the cause and value of the first one that fails; one whose
translation is not cached parks for the walk, with reason translation.  Neither changes a register. -/
def Obligations.ScalarLoads : Prop :=
  (∀ (i : Instr) (c : LoadCase) (s : State), loadCase i = some c → Clear s clsPlain c.h [ux c.a, ux c.d] →
      LocalOk s (s.ctx.rx c.a + BitVec.ofInt 64 c.off.toInt).toNat c.bytes false →
      ∃ t, exec i s = .next t ∧
        t.ctx.rx c.d = (if c.d = 0 then 0 else bytesValue c.signed c.bytes
          (readNat s.mem (localPa s.cur (s.ctx.rx c.a + BitVec.ofInt 64 c.off.toInt).toNat) c.bytes)) ∧
        Frame { x := [c.d] } s t ∧ Inside s t ∧ Advanced s t) ∧
  (∀ (i : Instr) (c : LoadCase) (s : State) (p : Spot), loadCase i = some c → Clear s clsPlain c.h [ux c.a, ux c.d] →
      let va := (s.ctx.rx c.a + BitVec.ofInt 64 c.off.toInt).toNat
      0x400000 ≤ va → s.check va (fun _ => c.bytes) .anyGroup = .ok p → p.e.loadTrap va s.inHinge = none →
      ∃ t, exec i s = .next t ∧ t.ctx.pending.getLsbD c.d.toNat = true ∧
        Sent s t (s.msgTo p (.load p.pa va p.e.ctype c.bytes p.chain c.signed (s.dest false c.d.toNat) 64)) ∧
        Frame {} s t ∧ MemKept s t 0 0 ∧ Advanced s t) ∧
  (∀ (i : Instr) (c : LoadCase) (s : State), loadCase i = some c → Clear s clsPlain c.h [ux c.a, ux c.d] →
      let va := (s.ctx.rx c.a + BitVec.ofInt 64 c.off.toInt).toNat
      (∀ cause tval, AccessTrap s va c.bytes none cause tval →
        exec i s = .next ((s.setCtx s.ctx.charge).settle.trap cause tval)) ∧
      (Misses s va → s.ctx.flagged = false →
        ∃ t, exec i s = .next t ∧ Parked s t (.xlate (va / 2 ^ 17 * 2 ^ 17)) ∧ Walking s t va))

/-- R193, R27: a store to the local window whose checks pass completes at once: the low bytes of x[rd] stand at the
address, and every other byte of memory reads as before.
R193: a store to the global window whose checks pass completes at issue: a store message goes to the home of a PRIV
page and a join message to that of a lattice page; no byte of memory and no register changes yet.
R43, R44, R193: a store that fails a check at issue traps with the cause and value of the first one that fails, 0x05, 0x04,
0x0F, 0x08, 0x0B or 0x10; one whose translation is not cached parks for the walk.  Nothing is stored or sent. -/
def Obligations.ScalarStores : Prop :=
  (∀ (i : Instr) (c : StoreCase) (s : State), storeCase i = some c → Clear s clsPlain c.h [ux c.a, ux c.d] →
      let va := (s.ctx.rx c.a + BitVec.ofInt 64 c.off.toInt).toNat
      LocalOk s va c.bytes true → Memory.wf s.mem = true →
      ∃ t, exec i s = .next t ∧
        readNat t.mem (localPa s.cur va) c.bytes = (s.ctx.rx c.d).toNat % 2 ^ (8 * c.bytes) ∧
        MemKept s t (localPa s.cur va) c.bytes ∧ Frame {} s t ∧ Advanced s t) ∧
  (∀ (i : Instr) (c : StoreCase) (s : State) (p : Spot), storeCase i = some c → Clear s clsPlain c.h [ux c.a, ux c.d] →
      let va := (s.ctx.rx c.a + BitVec.ofInt 64 c.off.toInt).toNat
      let data := natBytes c.bytes (s.ctx.rx c.d).toNat
      0x400000 ≤ va → s.check va (fun _ => c.bytes) .own = .ok p → p.e.storeTrap va c.bytes data s.inHinge = none →
      ∃ t, exec i s = .next t ∧
        Sent s t (s.msgTo p (if p.e.ctype = 0 then .store p.pa p.va data else .join p.pa p.va p.e.ctype p.e.width data false)) ∧
        Frame {} s t ∧ MemKept s t 0 0 ∧ Advanced s t) ∧
  (∀ (i : Instr) (c : StoreCase) (s : State), storeCase i = some c → Clear s clsPlain c.h [ux c.a, ux c.d] →
      let va := (s.ctx.rx c.a + BitVec.ofInt 64 c.off.toInt).toNat
      (∀ cause tval, AccessTrap s va c.bytes (some (natBytes c.bytes (s.ctx.rx c.d).toNat)) cause tval →
        exec i s = .next ((s.setCtx s.ctx.charge).settle.trap cause tval)) ∧
      (Misses s va → s.ctx.flagged = false →
        ∃ t, exec i s = .next t ∧ Parked s t (.xlate (va / 2 ^ 17 * 2 ^ 17)) ∧ Walking s t va))

/-- R176, R180-R183: VADD, VSUB, VMUL, VFMA, VFMS, VFNMA, VMIN, VMAX, VABS, VNEG, VDIV, VSQRT, VRCP, VRSQ, VEXP2, VLOG2,
VIADD, VISUB, VIMUL, VIMIN, VIMAX, VIMINU, VIMAXU, VAND, VOR, VXOR, VSLL, VSRL, VSRA, VIABS and VSADD with an accepted
prefix and no enabled exception complete: every active lane of v[vd] gets its result, every inactive one is kept, and
fflags gets the flags of the active lanes; the channels read are popped.  R99: no prefix stands behind them; R307: a handler's
budget falls by one. -/
def Obligations.VectorLanes : Prop :=
  ∀ (i : Instr) (c : LaneCase) (s : State) (p : Pfx) (r : Rnd), laneCase i = some c →
    Clear s clsVec c.h (c.srcs.map uv ++ [uv c.d]) → ChannelsReady s [c.d] c.srcs → Prefixed s c.dflt c.ok c.rounds p r →
    let w := c.width p
    let lane := c.lane p r fun q m => laneOf (s.sourceV q) w m
    (∀ n, n < 512 / w → (s.ctx.rk c.k).getLsbD n = true → (lane n).2 &&& s.ctx.enables = 0) →
    ∃ t, exec i s = .next t ∧
      (∀ n, n < 512 / w → laneOf (t.ctx.rv c.d) w n =
        if (s.ctx.rk c.k).getLsbD n then (lane n).1 % 2 ^ w else laneOf (s.ctx.rv c.d) w n) ∧
      (∀ j, j < 64 → (t.ctx.fflags.getLsbD j = true ↔ s.ctx.fflags.getLsbD j = true ∨
        ∃ n, n < 512 / w ∧ (s.ctx.rk c.k).getLsbD n = true ∧ (lane n).2.getLsbD j = true)) ∧
      Popped s t c.srcs ∧ Frame { v := [c.d], sr := [0x020], ports := s.ctx.channelPorts c.srcs } s t ∧ Inside s t ∧
      Advanced s t ∧ Behind s t c.h

/-- R172, R176: when an active lane of one of these instructions raises a flag whose trap is enabled, nothing is
written and the trap 0x12 is taken, with the flags of all active lanes as tval.
R98, R177: a lane instruction, a comparison or a move of lanes whose prefix is not accepted takes the format fault
0x0B with the prefix body as tval; so does a rounding instruction with code 7.  Such a prefix, and the rounding code 7, can
only come from an MTS to fpre, and what its consumer then does is the model's reading: log entry 17.  Dynamic rounding (R101)
with frm 6 or 7 is no part of this statement. Model's choices in it: log entries 17 and 24. -/
def Obligations.VectorFaults : Prop :=
  (∀ (i : Instr) (c : LaneCase) (s : State) (p : Pfx) (r : Rnd), laneCase i = some c →
      Clear s clsVec c.h (c.srcs.map uv ++ [uv c.d]) → ChannelsReady s [c.d] c.srcs → Prefixed s c.dflt c.ok c.rounds p r →
      let w := c.width p
      let lane := c.lane p r fun q m => laneOf (s.sourceV q) w m
      (∃ n, n < 512 / w ∧ (s.ctx.rk c.k).getLsbD n = true ∧ (lane n).2 &&& s.ctx.enables ≠ 0) →
      ∃ f : FlagSet, exec i s = .next ((s.setCtx s.ctx.charge).settle.trap 0x12 (f.setWidth 64)) ∧
        ∀ j, (f.getLsbD j = true ↔ ∃ n, n < 512 / w ∧ (s.ctx.rk c.k).getLsbD n = true ∧ (lane n).2.getLsbD j = true)) ∧
  (∀ (i : Instr) (s : State),
      (∀ c : LaneCase, laneCase i = some c → Clear s clsVec c.h (c.srcs.map uv ++ [uv c.d]) → ChannelsReady s [c.d] c.srcs →
        let p := pfxOf (s.ctx.pfx.getD c.dflt)
        (c.ok p = false ∨ (c.rounds = true ∧ p.rnd = 7)) →
        exec i s = .next ((s.setCtx s.ctx.charge).settle.trap 0x0B (p.body.setWidth 64))) ∧
      (∀ c : CmpCase, cmpCase i = some c → Clear s clsVec c.h [uv c.a, uv c.b] → ChannelsReady s [] [c.a, c.b] →
        let p := pfxOf (s.ctx.pfx.getD plainBody)
        c.ok p = false → exec i s = .next ((s.setCtx s.ctx.charge).settle.trap 0x0B (p.body.setWidth 64))) ∧
      (∀ c : PermCase, permCase i = some c → Clear s clsVec c.h c.uses → ChannelsReady s [c.d] c.srcs →
        let p := pfxOf (s.ctx.pfx.getD plainBody)
        okAny p = false → exec i s = .next ((s.setCtx s.ctx.charge).settle.trap 0x0B (p.body.setWidth 64))))

/-- R183: VDOT4 adds four products of bytes to each active 32-bit lane of v[vd], with one clamp or wrap, and fflags gets the
flags of the active lanes.
R172, R176: when an active lane raises a flag whose trap is enabled, nothing is written and the trap 0x12 is taken, with the
flags of all active lanes as tval. -/
def Obligations.VdotResults : Prop :=
  ∀ (s : State) (h : Head) (d a b : Reg) (k : BitVec 3) (p : Pfx), Clear s clsVec h [uv a, uv b, uv d] →
    ChannelsReady s [d] [a, b] → Prefixed s viaBody okDot false p rneMode →
    let lane := dotLane (s.sourceV a) (s.sourceV b) (s.ctx.rv d) p.sat
    let active := fun n => n < 16 ∧ (s.ctx.rk k).getLsbD n = true
    ((∀ n, active n → (lane n).2 &&& s.ctx.enables = 0) →
      ∃ t, exec (.vdot4 h d a b k) s = .next t ∧
        (∀ n, n < 16 → laneOf (t.ctx.rv d) 32 n =
          if (s.ctx.rk k).getLsbD n then (lane n).1 % 2 ^ 32 else laneOf (s.ctx.rv d) 32 n) ∧
        (∀ j, j < 64 → (t.ctx.fflags.getLsbD j = true ↔ s.ctx.fflags.getLsbD j = true ∨
          ∃ n, active n ∧ (lane n).2.getLsbD j = true)) ∧
        Popped s t [a, b] ∧ Frame { v := [d], sr := [0x020], ports := s.ctx.channelPorts [a, b] } s t ∧ Inside s t ∧
        Advanced s t) ∧
    ((∃ n, active n ∧ (lane n).2 &&& s.ctx.enables ≠ 0) →
      ∃ f : FlagSet, exec (.vdot4 h d a b k) s = .next ((s.setCtx s.ctx.charge).settle.trap 0x12 (f.setWidth 64)) ∧
        ∀ j, (f.getLsbD j = true ↔ ∃ n, active n ∧ (lane n).2.getLsbD j = true))

/-- R184: VCEQ, VCNE, VCLT, VCLE, VCLTU, VCLEU, VFEQ, VFNE, VFLT and VFLE complete and write the whole mask k[kd]: bit n
is one where lane n is active and its comparison holds, and zero elsewhere; no flag is raised.
Model's choices in it: log entry 24. -/
def Obligations.CompareResults : Prop :=
  ∀ (i : Instr) (c : CmpCase) (s : State) (p : Pfx), cmpCase i = some c → Clear s clsVec c.h [uv c.a, uv c.b] →
    ChannelsReady s [] [c.a, c.b] → Prefixed s plainBody c.ok false p rneMode →
    let w := fmtWidth p.a
    ∃ t, exec i s = .next t ∧
      (c.d ≠ 0 → ∀ n, n < 64 → ((t.ctx.rk c.d).getLsbD n = true ↔ n < 512 / w ∧ (s.ctx.rk c.k).getLsbD n = true ∧
        c.holds p (laneOf (s.sourceV c.a) w n) (laneOf (s.sourceV c.b) w n))) ∧
      Popped s t [c.a, c.b] ∧ Frame { k := [c.d], ports := s.ctx.channelPorts [c.a, c.b] } s t ∧ Inside s t ∧ Advanced s t

/-- R185: VBCAST, VSEL, VSHUF, VSLDN, VSLUP, VZIP, VUNZIP and VREV complete and move lanes into the active lanes of
v[vd]; VSEL selects by its mask and writes every lane.
R186: VEXT and VINS with a lane number in range complete: VEXT zero-extends one lane into x[rd], VINS writes one
active lane of v[vd]; a lane number out of range takes the format fault 0x0B with that number as tval.
Model's choices in it: log entry 24. -/
def Obligations.LaneMoves : Prop :=
  (∀ (i : Instr) (c : PermCase) (s : State) (p : Pfx), permCase i = some c → Clear s clsVec c.h c.uses →
     ChannelsReady s [c.d] c.srcs → Prefixed s plainBody okAny false p rneMode →
     let w := fmtWidth p.a
     ∃ t, exec i s = .next t ∧
       (∀ n, n < 512 / w → laneOf (t.ctx.rv c.d) w n =
         if (s.ctx.rk c.k).getLsbD n then c.lane s.ctx w (fun q m => laneOf (s.sourceV q) w m) n
         else laneOf (s.ctx.rv c.d) w n) ∧
       Popped s t c.srcs ∧ Frame { v := [c.d], ports := s.ctx.channelPorts c.srcs } s t ∧ Inside s t ∧ Advanced s t) ∧
  (∀ (s : State) (h : Head) (d a b : Reg) (k : BitVec 3) (p : Pfx), Prefixed s plainBody okAny false p rneMode →
     let w := fmtWidth p.a
     let n := (s.ctx.rx b).toNat
     (Clear s clsVec h [uv a, ux b, ux d] → ChannelsReady s [] [a] →
       (n < 512 / w → ∃ t, exec (.vext h d a b) s = .next t ∧
         t.ctx.rx d = (if d = 0 then 0 else BitVec.ofNat 64 (laneOf (s.sourceV a) w n)) ∧ Popped s t [a] ∧
         Frame { x := [d], ports := s.ctx.channelPorts [a] } s t ∧ Inside s t ∧ Advanced s t) ∧
       (512 / w ≤ n → exec (.vext h d a b) s = .next ((s.setCtx s.ctx.charge).settle.trap 0x0B (s.ctx.rx b)))) ∧
     (Clear s clsVec h [ux a, ux b, uv d] → ChannelsReady s [d] [] →
       (n < 512 / w → ∃ t, exec (.vins h d a b k) s = .next t ∧
         (∀ m, m < 512 / w → laneOf (t.ctx.rv d) w m =
           if m = n ∧ (s.ctx.rk k).getLsbD m = true then (s.ctx.rx a).toNat % 2 ^ w else laneOf (s.ctx.rv d) w m) ∧
         Frame { v := [d] } s t ∧ Inside s t ∧ Advanced s t) ∧
       (512 / w ≤ n → exec (.vins h d a b k) s = .next ((s.setCtx s.ctx.charge).settle.trap 0x0B (s.ctx.rx b)))))

/-- R187: VCVT without block scaling completes: each active lane that both formats have is converted, an inactive one
is kept, and the lanes beyond are zero; fflags gets the flags of the active lanes.
R188: VCVT with block scaling completes: 32 values, of one register or for f32 of two, become a packed block, the scale in byte
63 and every other byte zero; or a packed block becomes 32 values.
R172, R176: a conversion that raises a flag whose trap is enabled writes nothing and takes the trap 0x12 with all its flags as
tval.
R187, R188: a combination that the two rules do not list takes 0x0B with the prefix body as tval, and so does a block form that
needs the register behind v31. Model's choices in it: log entries 24 and 93. -/
def Obligations.ConvertResults : Prop :=
  (∀ (s : State) (h : Head) (d a : Reg) (k : BitVec 3) (u : BitVec 4) (p : Pfx) (r : Rnd), Clear s clsVec h [uv a, uv d] →
    ChannelsReady s [d] [a] → Prefixed s plainBody (okVcvt u.toNat k) true p r → p.scale = 0 →
      let w := fmtWidth u.toNat
      let n := min (512 / fmtWidth p.a) (512 / w)
      let lane := fun i => convertElem p.a u.toNat { r with idx := i } p.sat (laneOf (s.sourceV a) (fmtWidth p.a) i)
      let active := fun i => i < n ∧ (s.ctx.rk k).getLsbD i = true
      ((∀ i, active i → (lane i).2 &&& s.ctx.enables = 0) →
        ∃ t, exec (.vcvt h d a k u) s = .next t ∧
          (∀ i, i < 512 / w → laneOf (t.ctx.rv d) w i =
            if n ≤ i then 0 else if (s.ctx.rk k).getLsbD i then (lane i).1 % 2 ^ w else laneOf (s.ctx.rv d) w i) ∧
          (∀ j, j < 64 → (t.ctx.fflags.getLsbD j = true ↔ s.ctx.fflags.getLsbD j = true ∨
            ∃ i, active i ∧ (lane i).2.getLsbD j = true)) ∧
          Popped s t [a] ∧ Frame { v := [d], sr := [0x020], ports := s.ctx.channelPorts [a] } s t ∧ Inside s t ∧ Advanced s t) ∧
      ((∃ i, active i ∧ (lane i).2 &&& s.ctx.enables ≠ 0) →
        ∃ f : FlagSet, exec (.vcvt h d a k u) s = .next ((s.setCtx s.ctx.charge).settle.trap 0x12 (f.setWidth 64)) ∧
          ∀ j, (f.getLsbD j = true ↔ ∃ i, active i ∧ (lane i).2.getLsbD j = true))) ∧
  (∀ (s : State) (h : Head) (d a : Reg) (u : BitVec 4) (p : Pfx) (r : Rnd),
    let src := if p.a = 0 then [a, regPlus a 1] else [a]
    let dst := if u = 0 then [d, regPlus d 1] else [d]
    let w := fmtWidth u.toNat
    let i := Instr.vcvt h d a 0 u
    (p.a = 0 → a.toNat ≤ 30) → (u = 0 → d.toNat ≤ 30) → Clear s clsVec h ((src ++ dst).map uv) → ChannelsReady s dst src →
    Prefixed s plainBody (okVcvt u.toNat 0) true p r → p.scale = 1 →
      let done := fun (t : State) (f : FlagSet) => t.ctx.fflags = s.ctx.fflags ||| f.setWidth 64 ∧ Popped s t src ∧
        Frame { v := dst, sr := [0x020], ports := s.ctx.channelPorts src } s t ∧ Inside s t ∧ Advanced s t
      let stops := fun (f : FlagSet) => exec i s = .next ((s.setCtx s.ctx.charge).settle.trap 0x12 (f.setWidth 64))
      (p.a ≤ 2 →
        let value := fun n => if p.a = 0 then fmtF32.decode (laneOf (s.sourceV (if n < 16 then a else regPlus a 1)) 32 (n % 16))
          else p.fmtA.decode (laneOf (s.sourceV a) 16 n)
        let b := mxQuantise u.toNat r ((List.range 32).map value)
        (b.2.2 &&& s.ctx.enables = 0 → ∃ t, exec i s = .next t ∧ done t b.2.2 ∧ laneOf (t.ctx.rv d) 8 63 = b.1 ∧
          (∀ n, n < 32 → laneOf (t.ctx.rv d) w n = b.2.1.getD n 0 % 2 ^ w) ∧
          ∀ n, 32 * w ≤ 8 * n → n < 63 → laneOf (t.ctx.rv d) 8 n = 0) ∧
        (b.2.2 &&& s.ctx.enables ≠ 0 → stops b.2.2)) ∧
      (2 < p.a →
        let v := s.sourceV a
        let lane := fun n => ((floatFmt u.toNat).getD fmtF32).round { r with idx := n } p.sat
          (mxValue p.a (laneOf v 8 63) (laneOf v (fmtWidth p.a) n))
        let f := (List.range 32).foldl (fun g n => g ||| (lane n).2) 0
        (f &&& s.ctx.enables = 0 → ∃ t, exec i s = .next t ∧ done t f ∧ ∀ n, n < 32 →
          (if u = 0 then laneOf (t.ctx.rv (if n < 16 then d else regPlus d 1)) 32 (n % 16) else laneOf (t.ctx.rv d) 16 n) =
            (lane n).1 % 2 ^ w) ∧
        (f &&& s.ctx.enables ≠ 0 → stops f))) ∧
  (∀ (s : State) (h : Head) (d a : Reg) (k : BitVec 3) (u : BitVec 4), Clear s clsVec h [uv a, uv d] → ChannelsReady s [d] [a] →
    let p := pfxOf (s.ctx.pfx.getD plainBody)
    let refused := exec (.vcvt h d a k u) s = .next ((s.setCtx s.ctx.charge).settle.trap 0x0B (p.body.setWidth 64))
    (okVcvt u.toNat k p = false → refused) ∧
    (∀ r, Prefixed s plainBody (okVcvt u.toNat k) true p r → p.scale = 1 →
      (p.a = 0 ∧ a = 31) ∨ (u = 0 ∧ d = 31) → refused))

/-- R189: VRSUM, VRMAX, VRMIN, VROR, VRAND and VRISUM without an enabled exception complete: lane 0 of v[vd] gets the
reduction of the active lanes, and every other bit is zero; one that raises an enabled exception writes nothing and takes the
trap 0x12 with its flags as tval (R172). Model's choices in it: log entry 24. -/
def Obligations.ReductionResults : Prop :=
  ∀ (i : Instr) (c : RedCase) (s : State) (p : Pfx) (r : Rnd), redCase i = some c → Clear s clsVec c.h [uv c.a, uv c.d] →
    ChannelsReady s [c.d] [c.a] → Prefixed s plainBody c.ok c.rounds p r →
    let w := fmtWidth p.a
    let all := (List.range (512 / w)).map fun n => (laneOf (s.sourceV c.a) w n, (s.ctx.rk c.k).getLsbD n)
    let result := c.value p r ((all.filter (·.2)).map (·.1)) all
    (result.2 &&& s.ctx.enables = 0 →
      ∃ t, exec i s = .next t ∧ t.ctx.rv c.d = BitVec.ofNat 512 result.1 ∧
        t.ctx.fflags = s.ctx.fflags ||| result.2.setWidth 64 ∧
        Popped s t [c.a] ∧ Frame { v := [c.d], sr := [0x020], ports := s.ctx.channelPorts [c.a] } s t ∧ Inside s t ∧
        Advanced s t) ∧
    (result.2 &&& s.ctx.enables ≠ 0 →
      exec i s = .next ((s.setCtx s.ctx.charge).settle.trap 0x12 (result.2.setWidth 64)))

/-- R196: VLD and VST move 64 bytes.  In the local window they complete at once; in the global window their request, a
store or a join leaves for the home of the address, and v[vd] becomes pending.
R43, R44, R196: one that fails a check at issue traps with the cause and value of the first that fails, 0x04 where the address
is no multiple of 64; one whose translation is not cached parks for the walk. -/
def Obligations.VectorMemory : Prop :=
  ∀ (s : State) (h : Head) (d a : Reg) (i : BitVec 12), Clear s clsMisc h [ux a, uv d] →
    let va := (s.ctx.rx a + BitVec.ofInt 64 (64 * i.toInt)).toNat
    let bs := vecBytes (s.sourceV d)
    (ChannelsReady s [d] [] → LocalOk s va 64 false →
      ∃ t, exec (.vld h d a i) s = .next t ∧ t.ctx.rv d = bytesVec (readBytes s.mem (localPa s.cur va) 64) ∧
        Frame { v := [d] } s t ∧ Inside s t ∧ Advanced s t) ∧
    (∀ p, ChannelsReady s [d] [] → 0x400000 ≤ va → s.check va (fun _ => 64) .anyGroup = .ok p →
      p.e.loadTrap va s.inHinge = none →
      ∃ t, exec (.vld h d a i) s = .next t ∧ t.ctx.pending.getLsbD (32 + d.toNat) = true ∧
        Sent s t (s.msgTo p (.load p.pa va p.e.ctype 64 p.chain false (s.dest true d.toNat) 64)) ∧
        Frame {} s t ∧ MemKept s t 0 0 ∧ Advanced s t) ∧
    (ChannelsReady s [] [d] → LocalOk s va 64 true → Memory.wf s.mem = true →
      ∃ t, exec (.vst h d a i) s = .next t ∧ readBytes t.mem (localPa s.cur va) 64 = bs ∧
        MemKept s t (localPa s.cur va) 64 ∧ Popped s t [d] ∧ Frame { ports := s.ctx.channelPorts [d] } s t ∧ Advanced s t) ∧
    (∀ p, ChannelsReady s [] [d] → 0x400000 ≤ va → s.check va (fun _ => 64) .own = .ok p →
      p.e.storeTrap va 64 bs s.inHinge = none →
      ∃ t, exec (.vst h d a i) s = .next t ∧
        Sent s t (s.msgTo p (if p.e.ctype = 0 then .store p.pa p.va bs else .join p.pa p.va p.e.ctype p.e.width bs false)) ∧
        Popped s t [d] ∧ Frame { ports := s.ctx.channelPorts [d] } s t ∧ MemKept s t 0 0 ∧ Advanced s t) ∧
    (∀ (i' : Instr) (data : Option (List Byte)),
      ((i' = .vld h d a i ∧ data = none ∧ ChannelsReady s [d] []) ∨ (i' = .vst h d a i ∧ data = some bs ∧ ChannelsReady s [] [d])) →
      (∀ cause tval, AccessTrap s va 64 data cause tval →
        exec i' s = .next ((s.setCtx s.ctx.charge).settle.trap cause tval)) ∧
      (Misses s va → s.ctx.flagged = false →
        ∃ t, exec i' s = .next t ∧ Parked s t (.xlate (va / 2 ^ 17 * 2 ^ 17)) ∧ Walking s t va))

/-- R198, R197: VLDX and VLDS whose active lanes all pass their checks complete.  With every active lane in the local
window the elements of those lanes are loaded and the others kept; with some lane elsewhere each such lane's request
leaves, v[vd] becomes pending and keeps its value.
R198, R43: the first active lane, in ascending order, that fails a check at issue makes the instruction trap with its cause and
value, or park for the walk of its translation; nothing is issued then. Model's choices in it: log entry 18. -/
def Obligations.GatherResults : Prop :=
  ∀ (i : Instr) (c : ElemCase) (s : State), gatherCase i = some c → Clear s clsMisc c.h c.uses →
    ChannelsReady s [c.d] c.srcs →
    let va := fun n => (c.addr s.ctx (fun q m => laneOf (s.sourceV q) c.w m) n).toNat
    let active := fun n => n < 512 / c.w ∧ (s.ctx.rk c.k).getLsbD n = true
    let near := fun n => LocalOk s (va n) (c.w / 8) false
    let far := fun n p => 0x400000 ≤ va n ∧ s.check (va n) (fun _ => c.w / 8) .anyGroup = .ok p ∧ p.e.loadTrap (va n) s.inHinge = none
    ((∀ n, active n → near n ∨ ∃ p, far n p) →
      ∃ t, exec i s = .next t ∧ Popped s t c.srcs ∧ Frame { v := [c.d], ports := s.ctx.channelPorts c.srcs } s t ∧
        MemKept s t 0 0 ∧ Advanced s t ∧
        ((∀ n, active n → near n) → ∀ n, n < 512 / c.w → laneOf (t.ctx.rv c.d) c.w n =
          if (s.ctx.rk c.k).getLsbD n then readNat s.mem (localPa s.cur (va n)) (c.w / 8) else laneOf (s.ctx.rv c.d) c.w n) ∧
        (∀ n p, active n → far n p → t.ctx.pending.getLsbD (32 + c.d.toNat) = true ∧ t.ctx.rv c.d = s.ctx.rv c.d ∧
          OnWay t (s.msgTo p (.load p.pa (va n) p.e.ctype (c.w / 8) p.chain false (s.dest true c.d.toNat) n)))) ∧
    (∀ n, active n → (∀ m, m < n → active m → Passes s (va m) (c.w / 8) none) →
      (∀ cause tval, AccessTrap s (va n) (c.w / 8) none cause tval →
        exec i s = .next ((s.setCtx s.ctx.charge).settle.trap cause tval)) ∧
      (Misses s (va n) → s.ctx.flagged = false →
        ∃ t, exec i s = .next t ∧ Parked s t (.xlate (va n / 2 ^ 17 * 2 ^ 17)) ∧ Walking s t (va n)))

/-- R198, R197: VSTX and VSTS whose active lanes all pass their checks complete.  An element in the local window stands
at its address, where no later lane has written; one elsewhere leaves as a store or a join; all other bytes of memory
read as before.
R198, R43: the first active lane, in ascending order, that fails a check at issue makes the instruction trap with its cause and
value, or park for the walk of its translation; nothing is stored or sent then. -/
def Obligations.ScatterResults : Prop :=
  ∀ (i : Instr) (c : ElemCase) (s : State), scatterCase i = some c → Clear s clsMisc c.h c.uses →
    ChannelsReady s [] c.srcs → Memory.wf s.mem = true →
    let va := fun n => (c.addr s.ctx (fun q m => laneOf (s.sourceV q) c.w m) n).toNat
    let pa := fun n => localPa s.cur (va n)
    let bytes := fun n => natBytes (c.w / 8) (laneOf (s.sourceV c.d) c.w n)
    let active := fun n => n < 512 / c.w ∧ (s.ctx.rk c.k).getLsbD n = true
    let near := fun n => LocalOk s (va n) (c.w / 8) true
    let far := fun n p => 0x400000 ≤ va n ∧ s.check (va n) (fun _ => c.w / 8) .own = .ok p ∧
      p.e.storeTrap (va n) (c.w / 8) (bytes n) s.inHinge = none
    ((∀ n, active n → near n ∨ ∃ p, far n p) →
      ∃ t, exec i s = .next t ∧ Popped s t c.srcs ∧ Frame { ports := s.ctx.channelPorts c.srcs } s t ∧ Advanced s t ∧
        (∀ n, active n → near n →
          (∀ m, n < m → active m → near m → pa m + c.w / 8 ≤ pa n ∨ pa n + c.w / 8 ≤ pa m) →
          readBytes t.mem (pa n) (c.w / 8) = bytes n) ∧
        (∀ a, (∀ n, active n → near n → ¬(pa n ≤ a ∧ a < pa n + c.w / 8)) → readByte t.mem a = readByte s.mem a) ∧
        (∀ n p, active n → far n p →
          OnWay t (s.msgTo p (if p.e.ctype = 0 then .store p.pa p.va (bytes n)
            else .join p.pa p.va p.e.ctype p.e.width (bytes n) false)))) ∧
    (∀ n, active n → (∀ m, m < n → active m → Passes s (va m) (c.w / 8) (some (bytes m))) →
      (∀ cause tval, AccessTrap s (va n) (c.w / 8) (some (bytes n)) cause tval →
        exec i s = .next ((s.setCtx s.ctx.charge).settle.trap cause tval)) ∧
      (Misses s (va n) → s.ctx.flagged = false →
        ∃ t, exec i s = .next t ∧ Parked s t (.xlate (va n / 2 ^ 17 * 2 ^ 17)) ∧ Walking s t (va n)))

/-- R201, R202, R204, R214: GET of a fill-once cell and THR with a legal tumbler set complete at issue: x[rd] is pending
and the request goes to the cell's home; CTYPE's answer is on its way to x[rd].  That CTYPE is answered at issue, an
uncached translation included, is the model's choice (log entry 42). -/
def Obligations.ThresholdRequests : Prop :=
  ∀ (s : State) (h : Head) (d a : Reg) (p : Spot), d ≠ 0 →
    (∀ i : BitVec 12, Clear s clsTaskOnly h [ux a, ux d] →
      let va := (s.ctx.rx a + BitVec.ofInt 64 i.toInt).toNat
      0x400000 ≤ va → s.check va TlbEntry.getAlign .anyGroup = .ok p → (p.e.ctype = 7 ∨ p.e.ctype = 8) →
      ∃ t, exec (.get h d a i) s = .next t ∧ t.ctx.pending.getLsbD d.toNat = true ∧
        Sent s t (s.msgTo p (.want p.pa p.va p.e.ctype p.e.width (.get (if p.e.ctype = 7 then 2 ^ p.e.width else 8)) d.toNat)) ∧
        Frame {} s t ∧ MemKept s t 0 0 ∧ Advanced s t) ∧
    (∀ (b : Reg) (n : BitVec 3), Clear s clsTaskOnly h [ux a, uv b, ux d] → ChannelsReady s [] [b] →
      let va := (s.ctx.rx a).toNat
      let ts := (List.range (n.toNat + 1)).map fun i => laneOf (s.sourceV b) (8 * p.e.thrBytes) i
      0x400000 ≤ va → s.check va TlbEntry.thrBytes .anyGroup = .ok p → thresholdType p.e.ctype = true →
      badMember p.e.ctype ts = none →
      ∃ t, exec (.thr h d a b n) s = .next t ∧ t.ctx.pending.getLsbD d.toNat = true ∧
        Sent s t (s.msgTo p (.want p.pa p.va p.e.ctype p.e.width (.thr ts) d.toNat)) ∧ Popped s t [b] ∧
        Frame { ports := s.ctx.channelPorts [b] } s t ∧ MemKept s t 0 0 ∧ Advanced s t) ∧
    (Clear s clsPlain h [ux a, ux d] →
      ∃ t w, exec (.ctype h d a) s = .next t ∧ t.ctx.pending.getLsbD d.toNat = true ∧
        t.net = s.net ++ [s.selfResult (s.dest false d.toNat) (.word w)] ∧
        ((s.ctx.rx a).toNat < 0x400000 → w = 0x4000000000000000) ∧
        (∀ e, 0x400000 ≤ (s.ctx.rx a).toNat → s.lookup 0 s.cur s.curCtx s.ctx.slot (s.ctx.rx a).toNat = .hit e → w = e.report) ∧
        Frame {} s t ∧ MemKept s t 0 0 ∧ Advanced s t)

/-- R291, R342: FENCE and FENCE_SYS with an empty mask, or once nothing of the masked colours is outstanding and no report
is open, complete; while something is outstanding they park; with an open report they take its cause, the lowest one,
with the report's tval, and go on behind the fence on return.  A task without a handler, which such a report fails (R338), is no
part of this statement.  That FENCE_SYS waits for no more than FENCE, host visibility
being immediate, is the model's choice (log entry 10). Model's choices in it: log entries 10 and 15. -/
def Obligations.FenceResults : Prop :=
  ∀ (s : State) (h : Head) (m : BitVec 8) (i : Instr), (i = .fence h m ∨ i = .fenceSys h m) → Clear s clsTaskOnly h [] →
    let owes := s.owes (ofTask s.myTask) m.toNat
    let opens := s.ctx.faults.openIn (m.toNat % 256 + 256)
    ((m = 0 ∨ (owes = false ∧ (s.ctx.inh = true ∨ opens = []))) →
      ∃ t, exec i s = .next t ∧ Frame {} s t ∧ Inside s t ∧ Advanced s t) ∧
    (m ≠ 0 → owes = true → s.ctx.flagged = false →
      ∃ t b, exec i s = .next t ∧ Parked s t (.fence m.toNat b)) ∧
    (∀ cause row r, m ≠ 0 → owes = false → s.ctx.inh = false → s.me.tvec ≠ 0 → opens = (cause, row) :: r →
      ∃ t, exec i s = .next t ∧ t.ctx.pc = s.me.tvec ∧ t.ctx.tpc = (s.ctx.pc + 4) &&& 0x3FFFFC#64 ∧
        t.ctx.tcause = BitVec.ofNat 64 cause ∧ t.ctx.tval = row.low ∧ t.ctx.inh = true ∧
        Frame { sr := [0x000, 0x001, 0x002, 0x003, 0x006] } s t ∧ MemKept s t 0 0)

/-- R211, R213: BOLT fences every colour, sends a bolt to the home of each of its blocks and parks for the answers; CLEAR on
the leader sends a check for each block, then, with no block refused, a clear for each, and parks for the answers; with
the last answers both complete. -/
def Obligations.BlockRequests : Prop :=
  ∀ (s : State) (h : Head) (a b : Reg), Clear s clsTaskOnly h [ux a, ux b] →
    let base := (s.ctx.rx a).toNat
    let n := (s.ctx.rx b).toNat
    BlocksOk s base n → s.ctx.flagged = false →
    (s.ctx.phase ≤ n → s.owes (ofTask s.myTask) 0xFF = false →
      ∃ t, exec (.bolt h a b) s = .next t ∧ Parked s t .acks ∧ t.ctx.phase = n + 1 ∧
        t.ctx.acks = (s.blockSpots base n).length ∧
        ∀ p ∈ s.blockSpots base n, OnWay t (s.msgTo p (.bolt p.pa p.va p.e.group))) ∧
    (s.ctx.phase ≤ n → s.owes (ofTask s.myTask) 0xFF = true →
      ∃ t, exec (.bolt h a b) s = .next t ∧ Parked s t (.fence 0xFF false) ∧ t.ctx.phase = n) ∧
    (s.ctx.phase = n + 1 → ∃ t, exec (.bolt h a b) s = .next t ∧ Frame {} s t ∧ Inside s t ∧ Advanced s t) ∧
    (s.ctx.phase ≤ n → s.isLeader s.ctx.group = true →
      ∃ t, exec (.clear h a b) s = .next t ∧ Parked s t .acks ∧ t.ctx.phase = n + 1 ∧
        t.ctx.acks = (s.blockSpots base n).length ∧
        ∀ p ∈ s.blockSpots base n, OnWay t (s.msgTo p (.clearCheck p.pa p.va p.e.group p.e.ctype p.e.width))) ∧
    (s.ctx.phase = n + 1 → s.ctx.notes = [] →
      ∃ t, exec (.clear h a b) s = .next t ∧ Parked s t .acks ∧ t.ctx.phase = n + 2 ∧
        t.ctx.acks = (s.blockSpots base n).length ∧
        ∀ p ∈ s.blockSpots base n, OnWay t (s.msgTo p (.clearApply p.pa p.va p.e.ctype p.e.width))) ∧
    (s.ctx.phase = n + 2 → ∃ t, exec (.clear h a b) s = .next t ∧ Frame {} s t ∧ Inside s t ∧ Advanced s t)

/-- R223, R224: BREL and BDECL at a buffer header send their request to its home and park for the answer; with an answer
that is no fault they complete. -/
def Obligations.HeaderRequests : Prop :=
  ∀ (s : State) (h : Head) (a b : Reg) (i : Instr) (w : Word),
    ((i = .brel h a ∧ Clear s clsTaskOnly h [ux a]) ∨
      (i = .bdecl h a b ∧ Clear s clsTaskOnly h [ux a, ux b] ∧ w = s.ctx.rx b ∧ Word.field w 7 0 ≠ 0 ∧ Word.field w 15 8 = 0)) →
    let va := (s.ctx.rx a).toNat
    (∀ p, s.ctx.phase = 0 → s.ctx.flagged = false → va % 64 = 0 → 0x400000 ≤ va →
      s.check va (fun _ => 64) .own = .ok p → p.e.ctype = 0xB →
      ∃ t, exec i s = .next t ∧ Parked s t .acks ∧ t.ctx.phase = 1 ∧ t.ctx.acks = 1 ∧
        OnWay t (s.msgTo p (if i = .brel h a then .brel p.pa p.va p.chain else .bdecl p.pa p.va p.chain w))) ∧
    (s.ctx.phase = 1 → (s.ctx.reply = none ∨ s.ctx.reply = some .pass) →
      ∃ t, exec i s = .next t ∧ Frame {} s t ∧ Inside s t ∧ Advanced s t)

/-- R147, R148, R76: SPAWN of a sound record in the local window and FORK to a target below 1 MiB push their record at the
owner end of a deque with room, and complete; FORK's record holds the target, the group and priority of the task, the
exit cell and x10 to x15.
R147, R79: SPAWNAT of a sound record that its own tile may start starts it on the lowest free context, with its PC at
the record's entry and x10 to x15 from it; one that it may not start leaves for the next tile towards its hint, X first;
while the tile's deque arbiter has served a cancel in this cycle (R77), or a replay holds the record (R356), it waits there.
Always it completes. Model's choices in it: log entries 28, 68 and 80. -/
def Obligations.SpawnResults : Prop :=
  (∀ (s : State) (h : Head) (a : Reg), s.isFlagged = false →
      s.me.queued.length + (s.me.saved.map (·.deque.length)).getD 0 < 1280 →
      (∀ r : Rec, Clear s clsSpawn h [ux a] → LocalOk s (s.ctx.rx a).toNat 64 false →
        r = { words := bytesWords (readBytes s.mem (localPa s.cur (s.ctx.rx a).toNat) 64), slot := s.ctx.slot } →
        r.ok = true → (s.me.groupSlot r.group).isSome = true →
        ∃ t, exec (.spawn h a) s = .next t ∧ t.me.queued = r :: s.me.queued ∧ Frame {} s t ∧ MemKept s t 0 0 ∧ Advanced s t) ∧
      (∀ o : BitVec 17, Clear s clsTaskOnly h [ux a, 10, 11, 12, 13, 14, 15] →
        let target := (s.ctx.pc + BitVec.ofInt 64 (4 * o.toInt)).toNat
        target < 0x100000 → (s.ctx.rx a).toNat < 2 ^ 48 →
        ∃ t, exec (.fork h a o) s = .next t ∧
          t.me.queued = { words := [BitVec.ofNat 64 (s.ctx.prio % 2 ^ 8 * 2 ^ 40 + s.ctx.group * 2 ^ 32 + target), s.ctx.rx a,
              s.ctx.rx 10, s.ctx.rx 11, s.ctx.rx 12, s.ctx.rx 13, s.ctx.rx 14, s.ctx.rx 15], slot := s.ctx.slot } :: s.me.queued ∧
          Frame {} s t ∧ MemKept s t 0 0 ∧ Advanced s t)) ∧
  (∀ (s : State) (h : Head) (a : Reg) (r : Rec), Clear s clsTaskOnly h [ux a] → s.ctx.role = .task → s.ctx.flagged = false →
      LocalOk s (s.ctx.rx a).toNat 64 false → s.mayChoose s.ctx.slot s.cur 2 0 = true →
      r = { words := bytesWords (readBytes s.mem (localPa s.cur (s.ctx.rx a).toNat) 64), slot := s.ctx.slot } →
      r.ok = true → (s.me.groupSlot r.group).isSome = true →
      let now := s.arbitrates s.cur 2 = true ∧ s.walkHeld s.cur s.issuer r = false
      (∀ i, now → s.walkEligible s.cur s.cur r = true → s.me.freeCtx = some i →
        ∃ t, exec (.spawnat h a) s = .next t ∧ (t.ctxOf s.cur i).role = .task ∧
          (t.ctxOf s.cur i).pc = BitVec.ofNat 64 r.entry ∧ (t.ctxOf s.cur i).rx 10 = wordAt r.words 2 ∧
          (t.ctxOf s.cur i).rx 15 = wordAt r.words 7 ∧ Regs {} s t ∧ Advanced s t) ∧
      (¬now → ∃ t, exec (.spawnat h a) s = .next t ∧
        t.net = s.net ++ [(msgOf s.issuer s.pkg s.cur 8 s.ctx.group (.walk r s.cur))] ∧ Frame {} s t ∧ MemKept s t 0 0 ∧ Advanced s t) ∧
      (now → s.walkEligible s.cur s.cur r = false → s.hintTile r s.cur ≠ s.cur →
        let next := towards s.cur (s.hintTile r s.cur)
        ∃ t, exec (.spawnat h a) s = .next t ∧
          t.net = s.net ++ [(msgOf s.issuer s.pkg next 8 s.ctx.group (.walk r next))] ∧ Frame {} s t ∧ MemKept s t 0 0 ∧ Advanced s t))

/-- R149, R150, R146: JOIN of a counter with count 0 completes, with a count that the cell can hold it sends its request
and parks for the answer, and with the answer it completes; CANCEL names its exit cell to every member tile of its
command and completes; DONE with a pending register parks for it, with a faulted one traps with the fault's cause (R195),
and else parks until its writes are applied. -/
def Obligations.TaskRequests : Prop :=
  ∀ (s : State) (h : Head) (a b : Reg), s.ctx.flagged = false →
    (∀ p, Clear s clsTaskOnly h [ux a, ux b] →
      let va := (s.ctx.rx a).toNat
      let c := s.ctx.rx b
      s.ctx.phase = 0 → 0x400000 ≤ va → s.check va TlbEntry.cellAlign .anyGroup = .ok p → p.e.ctype = 6 →
      (c = 0 → ∃ t, exec (.join h a b) s = .next t ∧ Frame {} s t ∧ Inside s t ∧ Advanced s t) ∧
      (c ≠ 0 → c.toNat < 2 ^ (8 * 2 ^ p.e.width) →
        ∃ t, exec (.join h a b) s = .next t ∧ Parked s t .answer ∧ t.ctx.phase = 1 ∧
          OnWay t (s.msgTo p (.want p.pa p.va 6 p.e.width (.join c.toNat) 32)))) ∧
    (Clear s clsTaskOnly h [ux a, ux b] → s.ctx.phase = 1 → s.ctx.reply = some .pass →
      ∃ t, exec (.join h a b) s = .next t ∧ Frame {} s t ∧ Inside s t ∧ Advanced s t) ∧
    (Clear s clsTaskOnly h [ux a] → s.ctx.rx a ≠ 0 → (s.ctx.rx a).toNat < 2 ^ 48 →
      ∃ t, exec (.cancel h a) s = .next t ∧ Frame {} s t ∧ MemKept s t 0 0 ∧ Advanced s t ∧
        ∀ n ∈ s.cmdTiles s.ctx.slot, OnWay t (msgOf s.issuer s.pkg n 8 0 (.cancel (s.ctx.rx a).toNat s.ctx.slot n))) ∧
    (Clear s clsTaskOnly h [] →
      (s.ctx.pending ≠ 0 → ∃ t, exec (.done h) s = .next t ∧ Parked s t .doneRegs) ∧
      (s.ctx.pending = 0 → (s.ctx.inh = true ∨ s.ctx.faulted = []) → ∃ t, exec (.done h) s = .next t ∧ Parked s t .doneWrites) ∧
      (∀ n f l, s.ctx.pending = 0 → s.ctx.inh = false → s.ctx.faulted = (n, f) :: l →
        exec (.done h) s = .next ((s.setCtx s.ctx.charge).settle.trap f.cause (faultTval n f.va))))

/-- R300, R297: BAR arrives at a bound barrier below 15 pending arrivals and parks for the release that consumes its
arrival, and completes with it; BARA arrives, keeps the ticket and completes; at 15 pending arrivals both park; BARW
completes when its ticket's generation has been reached, and else parks for it, or for the next one without a ticket. -/
def Obligations.BarrierResults : Prop :=
  ∀ (s : State) (h : Head) (a : Reg) (b : Nat), Clear s clsTaskOnly h [ux a] → (s.ctx.rx a).toNat = b → b ≤ 127 →
    s.me.binds b = true → s.ctx.flagged = false →
    let n := s.me.pendOf b
    let g := (s.bar b).gen
    let own := (g + n + 1) % 2 ^ 32
    (s.ctx.phase = 0 → n < 15 →
      (∃ t, exec (.bar h a) s = .next t ∧ Parked s t (.bar b own) ∧ t.ctx.phase = 1 ∧ t.me.pendOf b = n + 1 ∧ t.ctx.ticket = none) ∧
      (∃ t, exec (.bara h a) s = .next t ∧ t.me.pendOf b = n + 1 ∧ t.ctx.ticket = some (b, own) ∧ Frame {} s t ∧
        MemKept s t 0 0 ∧ Advanced s t)) ∧
    (s.ctx.phase = 0 → 15 ≤ n →
      (∃ t, exec (.bar h a) s = .next t ∧ Parked s t (.barFull b g)) ∧
      (∃ t, exec (.bara h a) s = .next t ∧ Parked s t (.barFull b g))) ∧
    (s.ctx.phase = 1 → ∃ t, exec (.bar h a) s = .next t ∧ Frame {} s t ∧ Inside s t ∧ Advanced s t) ∧
    (∀ k, s.ctx.phase = 0 → s.ctx.ticket = some (b, k) →
      (genReached g k = true → ∃ t, exec (.barw h a) s = .next t ∧ t.ctx.ticket = none ∧ Frame {} s t ∧ Inside s t ∧ Advanced s t) ∧
      (genReached g k = false → ∃ t, exec (.barw h a) s = .next t ∧ t.ctx.ticket = none ∧ Parked s t (.bar b k))) ∧
    (s.ctx.phase = 0 → (∀ k, s.ctx.ticket ≠ some (b, k)) →
      ∃ t, exec (.barw h a) s = .next t ∧ Parked s t (.bar b ((g + 1) % 2 ^ 32)))

/-- R312, R313: CHBIND with mode 0 frees its channel register, with another mode it binds the register to a port that no
other context and no server uses; SEND of a legal route to a member sends its 64 bytes when no packet of the task to that
port is under way.  Both complete. -/
def Obligations.ChannelResults : Prop :=
  ∀ (s : State) (h : Head) (a b : Reg),
    (∀ n : BitVec 2, Clear s clsTaskOnly h [ux a, ux b] →
      let p := (s.ctx.rx a).toNat
      let w := s.ctx.rx b
      modeOk w = true → p < 4 →
      (Word.field w 1 0 = 0 → ∃ t, exec (.chbind h n a b) s = .next t ∧ t.ctx.bound (28 + n.toNat) = false ∧
        Frame { sr := [0x050], ports := [0, 1, 2, 3] } s t ∧ Inside s t ∧ Advanced s t) ∧
      (Word.field w 1 0 ≠ 0 → s.me.serverPort p = false → (s.me.port p).bound = none →
        ∃ t, exec (.chbind h n a b) s = .next t ∧ t.ctx.bound (28 + n.toNat) = true ∧ t.ctx.portOf (28 + n.toNat) = p ∧
          t.me.port p = { s.me.port p with bound := some (s.curCtx, n.toNat, Word.field w 1 0 == 2, Word.field w 15 8), next := 0 } ∧
          Frame { sr := [0x050], ports := [0, 1, 2, 3] } s t ∧ Inside s t ∧ Advanced s t)) ∧
    (Clear s clsTaskOnly h [ux a, uv b] → ChannelsReady s [] [b] →
      let r := s.ctx.rx a
      let far := s.routeTo r s.ctx.slot s.cur
      let port := Word.field r 15 14
      routeOk r (s.gangSize s.ctx.slot) = true → (s.membersOf s.ctx.slot s.ctx.group s.cur).contains far.2 = true →
      s.packetOut s.issuer far.1 far.2 port = false →
      ∃ t p, exec (.send h a b) s = .next t ∧
        OnWay t { msgOf s.issuer far.1 far.2 s.ctx.colour s.ctx.group (.packet p) with lane := s.lane } ∧
        p.data = s.sourceV b ∧ p.rank = Word.field r 11 0 ∧ p.rfmt = Word.field r 13 12 ∧ p.tile = far.2 ∧ p.port = port ∧
        Popped s t [b] ∧ Frame { ports := s.ctx.channelPorts [b] } s t ∧ MemKept s t 0 0 ∧ Advanced s t)

/-- R302, R308: HCALL ships its entry, its target and its payload to the unit that handles the target's home, and completes
with x[rd], and for a waiting call the next register too, pending; HRET once everything the handler sent is applied and no
register is pending sends the reply to the context that called and frees its own context, and parks before that; a load of
the handler that has received a fault ends it with that cause instead. Model's choices in it: log entry 33. -/
def Obligations.HingeInstructions : Prop :=
  ∀ (s : State) (h : Head),
    (∀ (d a : Reg) (e : BitVec 8) (n : BitVec 3) (w : BitVec 1) (pkg unit : Nat),
      let regs := (List.range (n.toNat + 1)).map fun i => regPlus d (i + 1)
      Clear s (clsHcall w) h ([ux a, ux d] ++ regs.map ux) → d ≠ 0 → d.toNat + (n.toNat + 1) ≤ 31 →
      let va := (s.ctx.rx a).toNat
      ((va < 0x400000 ∧ s.localOk va 1 false = true ∧ pkg = s.pkg ∧ unit = s.cur) ∨
        (0x400000 ≤ va ∧ ∃ p, s.check va (fun _ => 1) .anyGroup = .ok p ∧ pkg = p.pkg ∧ unit = unitOf p.home)) →
      ∃ t k, exec (.hcall h d a e n w) s = .next t ∧
        OnWay t { msgOf s.issuer pkg unit s.ctx.colour s.ctx.group (.hcall k) with lane := s.lane } ∧
        k.entry = e.toNat ∧ k.payload = regs.map s.ctx.rx ∧ k.target = va ∧ k.w = (w == 1) ∧
        t.ctx.pending.getLsbD d.toNat = true ∧ (w = 1 → t.ctx.pending.getLsbD (d.toNat + 1) = true) ∧
        Frame {} s t ∧ MemKept s t 0 0 ∧ Advanced s t) ∧
    (∀ (a : Reg) (k : Call) (run : Nat), Clear s clsHingeOnly h [ux a] → s.ctx.role = .hinge k run →
      (s.ctx.pending = 0 → s.owes (ofRun run) 0x1FF = false → s.ctx.faulted = [] → ∃ t, exec (.hret h a) s = .next t ∧ t.ctx = {} ∧
        OnWay t (msgOf k.caller k.back.1 k.back.2 k.colour k.group (.hnote k (.ended (s.ctx.rx a)))) ∧
        (∀ j ∈ t.me.mailbox, j.id ≠ k.id)) ∧
      (∀ n f l, s.ctx.pending = 0 → s.owes (ofRun run) 0x1FF = false → s.ctx.faulted = (n, f) :: l →
        exec (.hret h a) s = .next ((s.setCtx s.ctx.charge).settle.trap f.cause (faultTval n f.va))) ∧
      (s.ctx.pending ≠ 0 ∨ s.owes (ofRun run) 0x1FF = true → ∃ t, exec (.hret h a) s = .next t ∧ Parked s t (.hret (s.ctx.rx a))))

/-- R217, R225, R237: QWR and QWRV that leave a command unfinished keep their words in the queue's buffer; the QWR that
finishes a plain copy command hands it to the copy engine, and one that writes RUN to q4 sends the run; QRD and QRDV take
the oldest element, which is then on its way, or wait for one, with the register pending; QCNT and CSTAT read their
counts; CPY and CPYX hand a sound descriptor to a copy engine with room.  All complete. -/
def Obligations.QueueResults : Prop :=
  ∀ (s : State) (h : Head) (d a : Reg) (q : BitVec 3),
    (∀ (i : Instr) (ws : List Word),
      ((i = .qwr h q a ∧ ws = [s.ctx.rx a] ∧ Clear s (clsQueue q) h [ux a]) ∨
        (i = .qwrv h q a ∧ ws = bytesWords (vecBytes (s.sourceV a)) ∧ Clear s (clsQueue q) h [uv a] ∧ ChannelsReady s [] [a])) →
      writeQueue q = true → s.ctx.phase = 0 →
      let all := s.ctx.asm q.toNat ++ ws
      (all.length < queueWords q.toNat (wordAt all 0) →
        ∃ t, exec i s = .next t ∧ t.ctx.asm q.toNat = all ∧ (i = .qwrv h q a → Popped s t [a]) ∧
          Frame { ports := s.ctx.channelPorts [a] } s t ∧ MemKept s t 0 0 ∧ Advanced s t) ∧
      (q = 0 → all.length = queueWords 0 (wordAt all 0) → copyOk all = true → copyCvt all = false → copyCode all = false →
        copyStat all = false → s.me.copyRoom = true →
        ∃ t k, exec i s = .next t ∧ t.ctx.asm 0 = [] ∧ t.me.copyQ = s.me.copyQ ++ [k] ∧ k.desc = all ∧ k.ctx = s.curCtx ∧
          k.n = 0 ∧ k.ended = none ∧ t.ctx.copyOut = s.ctx.copyOut + 1 ∧ Frame { ports := s.ctx.channelPorts [a] } s t ∧
          MemKept s t 0 0 ∧ Advanced s t)) ∧
    (Clear s (clsQueue 4) h [ux a] → s.ctx.phase = 0 → s.ctx.asm4 = [] → Word.field (s.ctx.rx a) 63 60 = 1 →
      Word.field (s.ctx.rx a) 59 16 = 0 → Word.field (s.ctx.rx a) 5 0 = 0 → s.nbRoom s.cur = true →
      ∃ t m, exec (.qwr h 4 a) s = .next t ∧ t.net = s.net ++ [m] ∧
        (∃ frm seed, m.body = .nb (s.unitFor s.ctx.slot s.cur (unitNumber (s.ctx.rx a).toNat)) (.run 33 frm seed)) ∧
        Frame {} s t ∧ MemKept s t 0 0 ∧ Advanced s t) ∧
    (Clear s clsTaskOnly h [ux d] → d ≠ 0 → (q = 1 ∨ q = 5) →
      let l := fun (c : Ctx) => if q = 1 then c.q1 else c.q5
      (∀ w r, l s.ctx = w :: r → ∃ t, exec (.qrd h d q) s = .next t ∧ l t.ctx = r ∧
        t.net = s.net ++ [s.selfResult (s.dest false d.toNat) (.word w)] ∧ t.ctx.pending.getLsbD d.toNat = true ∧
        Frame {} s t ∧ MemKept s t 0 0 ∧ Advanced s t) ∧
      (l s.ctx = [] → ∃ t, exec (.qrd h d q) s = .next t ∧ t.ctx.pops = s.ctx.pops ++ [(q.toNat, s.dest false d.toNat)] ∧
        t.ctx.pending.getLsbD d.toNat = true ∧ Frame {} s t ∧ Inside s t ∧ Advanced s t)) ∧
    (Clear s clsTaskOnly h [uv d] → ChannelsReady s [d] [] → (∀ e ∈ s.ctx.pops, e.1 ≠ 3) →
      (∀ v r b l, s.ctx.q3 = v :: r → s.ctx.q3rows = b :: l → ∃ t, exec (.qrdv h d 3) s = .next t ∧ t.ctx.q3 = r ∧
        t.net = s.net ++ [s.selfResult (s.dest true d.toNat) (.vec v)] ∧ t.ctx.pending.getLsbD (32 + d.toNat) = true ∧
        Frame {} s t ∧ MemKept s t 0 0 ∧ Advanced s t) ∧
      (s.ctx.q3 = [] → ∃ t, exec (.qrdv h d 3) s = .next t ∧ t.ctx.pops = s.ctx.pops ++ [(3, s.dest true d.toNat)] ∧
        t.ctx.pending.getLsbD (32 + d.toNat) = true ∧ Frame {} s t ∧ Inside s t ∧ Advanced s t)) ∧
    (∀ (i : Instr) (w : Nat), Clear s clsMisc h [ux d] →
      ((i = .qcnt h d q ∧ q.toNat ≤ 5 ∧ w = s.queueCount q.toNat) ∨
        (i = .cstat h d ∧ w = s.ctx.copyOut % 2 ^ 16 * 2 ^ 48 + s.ctx.q1.length % 256 * 2 ^ 32 + s.ctx.ltag % 2 ^ 12 * 2 ^ 20 +
          s.ctx.lcause % 256 * 2 ^ 12)) →
      ∃ t, exec i s = .next t ∧ t.ctx.rx d = (if d = 0 then 0 else BitVec.ofNat 64 w) ∧ Frame { x := [d] } s t ∧ Inside s t ∧
        Advanced s t) ∧
    (∀ (i : Instr) (n kind : Nat), ((i = .cpy h a ∧ n = 128 ∧ kind = 1) ∨ (i = .cpyx h a ∧ n = 256 ∧ kind = 2)) →
      Clear s clsTaskOnly h [ux a] → s.ctx.phase = 0 →
      let va := (s.ctx.rx a).toNat
      let ws := bytesWords (readBytes s.mem (localPa s.cur va) n)
      LocalOk s va n false → copyKind ws = kind → copyOk ws = true → copyCvt ws = false → copyCode ws = false →
      copyStat ws = false → s.me.copyRoom = true →
      ∃ t k, exec i s = .next t ∧ t.me.copyQ = s.me.copyQ ++ [k] ∧ k.desc = ws ∧ k.ctx = s.curCtx ∧ k.n = 0 ∧ k.ended = none ∧
        t.ctx.copyOut = s.ctx.copyOut + 1 ∧ Frame {} s t ∧ MemKept s t 0 0 ∧ Advanced s t)

/-- R323-R325, R331: the block instructions whose checks pass and that raise no enabled exception complete.  GZERO clears
every lane; GADD and GSUB add and subtract lane by lane; GACC adds a message over the dimensions of its mask; GSCH packs
what its pivots leave; GMEAN solves back from its last pivot; GDMP with delta from gdmp blends.  A singular pivot takes
0x0A, and a mask with a bit above 11 takes 0x0B.  No other register changes. Model's choices in it: log entry 36. -/
def Obligations.BlockArithmetic : Prop :=
  ∀ (s : State) (h : Head) (d a : Reg) (k : BitVec 3), BlocksReady s [a, d] →
    let bd := s.ctx.gblock d
    let ba := s.ctx.gblock a
    let e := maskDims (s.ctx.rk k)
    let quiet := fun (f : FlagSet) => f &&& s.ctx.enables = 0
    let done := fun (i : Instr) (f : FlagSet) (out : List Nat → Prop) =>
      ∃ t, exec i s = .next t ∧ out (t.ctx.gblock d) ∧ t.ctx.fflags = s.ctx.fflags ||| f.setWidth 64 ∧
        Frame { v := blockRegs d, sr := [0x020] } s t ∧ Inside s t ∧ Advanced s t
    (Clear s clsGbp h (ug d) → done (.gzero h d) 0 fun b => ∀ l, l < 96 → laneIn b l = 0) ∧
    (Clear s clsGbp h (ug a ++ ug d) →
      (∀ (i : Instr) (f : FVal → FVal), ((i = .gadd h d a ∧ f = id) ∨ (i = .gsub h d a ∧ f = FVal.neg)) →
        let lane := fun l => gRound ((valIn bd l).add false (f (valIn ba l)))
        (∀ l, l < 96 → quiet (lane l).2) →
        ∃ g, done i g fun b => ∀ l, l < 96 → laneIn b l = (lane l).1 % 2 ^ 32) ∧
      ((s.ctx.rk k).toNat < 2 ^ 12 → e ≠ [] → e.length ≤ 6 → quiet (accumulate bd ba e).2 →
        ∃ g, done (.gacc h d a k) g fun b =>
          (∀ i, i < e.length → laneIn b (e.getD i 0) = (gRound ((valIn bd (e.getD i 0)).add false (valIn ba i))).1 % 2 ^ 32) ∧
          (∀ i j, i ≤ j → j < e.length →
            let l := lamLane (e.getD i 0) (e.getD j 0)
            laneIn b l = (gRound ((valIn bd l).add false (valIn ba (lamLane i j)))).1 % 2 ^ 32)) ∧
      (∀ g, (s.ctx.rk k).toNat < 2 ^ 12 → tolerance s.ctx.gtol = some g →
        let bound := singularBound g ba
        let keep := fun p => (List.range 12).filter fun i => decide (p < i) || !e.contains i
        (∀ b f l, pivotAll bound.1 keep e ba bound.2 [] = .ok b f l → quiet f →
          done (.gsch h d a k) f fun r => ∀ i, i < 96 →
            laneIn r i = laneIn (packMarginal b ((List.range 12).filter fun i => !e.contains i)) i % 2 ^ 32) ∧
        (∀ p q, pivotAll bound.1 keep e ba bound.2 [] = .bad p q →
          exec (.gsch h d a k) s = .next ((s.setCtx s.ctx.charge).settle.trap 0x0A (singularTval p q))) ∧
        (∀ b f l, pivotAll bound.1 (fun p => e.filter fun i => decide (p < i)) e ba bound.2 [] = .ok b f l →
          let r := l.foldl backStep ([], 0)
          quiet (f ||| r.2) → done (.gmean h d a k) (f ||| r.2) fun b =>
            ∀ i, i < r.1.length → laneIn b i = (r.1.map (·.2)).getD i 0 % 2 ^ 32)) ∧
      (2 ^ 12 ≤ (s.ctx.rk k).toNat → ∀ i, (i = .gacc h d a k ∨ i = .gsch h d a k ∨ i = .gmean h d a k) →
        exec i s = .next ((s.setCtx s.ctx.charge).settle.trap 0x0B (s.ctx.rk k)))) ∧
    (Clear s clsGbp h (ug a ++ ux 0 :: ug d) →
      let delta := Word.field s.ctx.gdmp 7 0
      (delta = 0 → done (.gdmp h d a 0) 0 fun b => b = bd) ∧
      (delta ≠ 0 → quiet (dampBlock delta bd ba).2 → done (.gdmp h d a 0) (dampBlock delta bd ba).2 fun b =>
        ∀ l, l < 96 → laneIn b l =
          (gRound (FVal.fma false (.fin false delta (-8))
            (fmtF32.decode (gRound ((valIn ba l).add false (valIn bd l).neg)).1) (valIn bd l))).1 % 2 ^ 32))

/-- R329-R331: GSND, GRCV and GDMP with a mailbox send their request to the header's home and park; with the home's reply
GSND hands the slot's image to the copy engine, GRCV unpacks the slot into v[vd], and GDMP blends, and they complete.
Model's choices in it: log entries 36 and 37. -/
def Obligations.MailboxInstructions : Prop :=
  ∀ (s : State) (h : Head) (d a b : Reg), BlocksReady s [d] →
    (∀ (i : Instr) (r : Reg) (w : Want) (k : AKind) (p : Spot),
      ((i = .gsnd h d a ∧ r = a ∧ w = .gsnd ∧ k = .own ∧ Clear s clsGbpTask h (ux a :: ug d)) ∨
        (i = .grcv h d a ∧ r = a ∧ w = .grcv ∧ k = .own ∧ Clear s clsGbpTask h (ux a :: ug d)) ∨
        (i = .gdmp h d a b ∧ b ≠ 0 ∧ r = b ∧ w = .gdmp ∧ k = .anyGroup ∧ s.ctx.role = .task ∧ BlocksReady s [a, d] ∧
          Clear s clsGbp h (ug a ++ ux b :: ug d))) →
      s.ctx.phase = 0 → s.ctx.flagged = false →
      let va := (s.ctx.rx r).toNat
      va % 128 = 0 → 0x400000 ≤ va → s.check va (fun _ => 128) k = .ok p → p.e.ctype = 8 → p.e.width = 1 →
      ∃ t, exec i s = .next t ∧ Parked s t .answer ∧ t.ctx.phase = 1 ∧ OnWay t (s.msgTo p (.want p.pa p.va 8 1 w 0))) ∧
    (Clear s clsGbpTask h (ux a :: ug d) → s.ctx.phase = 1 →
      (∀ v n depth, s.ctx.reply = some (.version v n depth) → s.me.copyRoom = true →
        ∃ t c, exec (.gsnd h d a) s = .next t ∧ t.me.copyQ = s.me.copyQ ++ [c] ∧ c.ctx = s.curCtx ∧ c.colour = s.ctx.colour ∧
          c.image = some ((s.ctx.rx a).toNat + 128 * (1 + v % depth), slotImage (s.ctx.gblock d) v n) ∧
          Frame {} s t ∧ MemKept s t 0 0 ∧ Advanced s t) ∧
      (∀ bs, s.ctx.reply = some (.slot bs) →
        ∃ t, exec (.grcv h d a) s = .next t ∧ t.ctx.gblock d = slotBlock bs ∧ Frame { v := blockRegs d } s t ∧ Inside s t ∧
          Advanced s t)) ∧
    (∀ delta, BlocksReady s [a, d] → Clear s clsGbp h (ug a ++ ux b :: ug d) → b ≠ 0 → s.ctx.role = .task → s.ctx.phase = 1 →
      s.ctx.reply = some (.damp delta) → delta ≠ 0 → (dampBlock delta (s.ctx.gblock d) (s.ctx.gblock a)).2 &&& s.ctx.enables = 0 →
      ∃ t, exec (.gdmp h d a b) s = .next t ∧
        (∀ l, l < 96 → laneIn (t.ctx.gblock d) l =
          laneIn (dampBlock delta (s.ctx.gblock d) (s.ctx.gblock a)).1 l % 2 ^ 32) ∧
        Frame { v := blockRegs d, sr := [0x020] } s t ∧ Inside s t ∧ Advanced s t)

/-- R241-R243, R259, R260: AKEY completes with the key and else asks for it and parks; AREL gives the key back and completes;
MRES lets the held operations of its task run on; MZERO with the array settled makes the set a zero one.  All complete.
Model's choices in it: log entry 45. -/
def Obligations.ArrayKey : Prop :=
  ∀ (s : State) (h : Head), Clear s clsArray h [] →
    let me := s.myTask
    let n := quadOf s.cur
    (s.hasKey me = true → ∃ t, exec (.akey h) s = .next t ∧ Frame {} s t ∧ Inside s t ∧ Advanced s t) ∧
    (s.hasKey me = false → s.ctx.flagged = false → ∃ t, exec (.akey h) s = .next t ∧ t.ctx.wait = .key ∧ t.ctx.pc = s.ctx.pc ∧
      me ∈ (t.quad n).requests ∧ Regs { sr := [0x071] } s t) ∧
    (s.hasKey me = false → ∃ t, exec (.arel h) s = .next t ∧ Frame {} s t ∧ Inside s t ∧ Advanced s t) ∧
    (s.hasKey me = true → (s.quad n).heldOf me = [] →
      ∃ t, exec (.arel h) s = .next t ∧ (t.quad n).holder = none ∧ (t.quad n).lastPos = quadPos s.cur ∧
        Regs { sr := [0x070, 0x071] } s t ∧ Advanced s t) ∧
    (s.heldOps me ≠ [] → ∃ t, exec (.mres h) s = .next t ∧ Regs { sr := [0x070] } s t ∧ MemKept s t 0 0 ∧ Advanced s t ∧
      ∀ q o, (s.quad q).cur = some o → o.held = true → o.cmd.iss.task = me → (o.cmd.gang.isSome = true ∨ s.hasKey me = true) →
        (t.quad q).cur = some { o with held := false, hcause := 0 }) ∧
    (s.arraySettled me = true → s.ctx.role = .task →
      ∃ t, exec (.mzero h) s = .next t ∧ t.ctx.aset.live = true ∧ t.ctx.aset.zeroed = true ∧ t.ctx.aset.last = none ∧
        Regs { sr := [0x070, 0x071] } s t ∧ Advanced s t)

/-- R250, R261, R263: MMA of a sound descriptor by the key's holder, with an unused lease and room, puts its command at the
end of the array's queue and counts it against the lease; MGANG of a sound descriptor and grid by the leader posts one
block to the free gang slot of each draining tile's quad; MSTAT writes x[rd].  All complete.
Model's choices in it: log entry 47. -/
def Obligations.ArrayCommands : Prop :=
  ∀ (s : State) (h : Head) (a b d : Reg),
    let n := quadOf s.cur
    let q := s.quad n
    let va := (s.ctx.rx a).toNat
    let ws := bytesWords (readBytes s.mem (localPa s.cur va) 64)
    let pre := s.ctx.pfx.getD plainBody
    let p := pfxOf pre
    (∀ rnd, Clear s clsArrayFmt h [ux a] → s.hasKey s.myTask = true → s.ctx.phase = 0 → LocalOk s va 64 false →
      p.arrayOk = true → p.axisOk (arrBtr ws) = true → s.ctx.resolve p.rnd = .ok rnd → arrDescOk ws p false = true →
      s.ctx.aset.continues ws p = true → q.used < 16 → q.room = true →
      ∃ t k, exec (.mma h a) s = .next t ∧ (t.quad n).queue = q.queue ++ [k] ∧ (t.quad n).used = q.used + 1 ∧
        (t.quad n).holder = q.holder ∧ k.desc = ws ∧ k.pre = pre ∧ k.rnd = rnd ∧ k.iss = s.issuer ∧ k.gang = none ∧
        Regs { sr := [0x071] } s t ∧ MemKept s t 0 0 ∧ Advanced s t) ∧
    (∀ rnd r ts, Clear s clsArrayFmt h [ux a, ux b] → s.isLeader s.ctx.group = true → s.ctx.phase = 0 → s.ctx.gangPosted = 0 →
      LocalOk s va 64 false → p.arrayOk = true → p.axisOk (arrBtr ws) = true → s.ctx.resolve p.rnd = .ok rnd →
      arrDescOk ws p true = true → gridOf (s.ctx.rx b) = some r →
      r.tiles (s.membersOf s.ctx.slot s.ctx.group s.cur) = some ts → (∀ x ∈ ts, (s.quad (quadOf x)).gangSlot = none) →
      ∃ t, exec (.mgang h a b) s = .next t ∧ Regs { sr := [0x071] } s t ∧ MemKept s t 0 0 ∧ Advanced s t ∧
        ∀ i x, ts[i]? = some x → ∃ k, (t.quad (quadOf x)).gangSlot = some k ∧ k.desc = ws ∧ k.pre = pre ∧ k.rnd = rnd ∧
          k.gang = some (r.block i x)) ∧
    (Clear s clsMisc h [ux d] → ∃ t, exec (.mstat h d) s = .next t ∧ t.ctx.rx d = (if d = 0 then 0 else s.arrayStatus) ∧
      Frame { x := [d] } s t ∧ Inside s t ∧ Advanced s t)

/-- R256: RDROP in a row handler counts its row as drained and frees the context; RROW writes the row that its registers
hold and does the same. -/
def Obligations.RowHandlers : Prop :=
  ∀ (s : State) (h : Head) (j : RowJob) (run : Nat), s.ctx.role = .row j run →
    (Clear s clsRowOnly h [] → ∃ t, exec (.rdrop h) s = .next t ∧ t.ctx = {} ∧
      (∀ o, (s.quad j.quad).cur = some o → o.cmd.id = j.arr.id →
        (t.quad j.quad).cur = some { o with rowsOut := o.rowsOut - 1, rows := o.rows + 1 })) ∧
    (∀ u past closed o, Clear s clsRowOnly h (([24, 25, 26, 27] : List Reg).map uv) →
      (s.setCtx s.ctx.charge).writeRow j.quad j.arr j.row s.ctx.rowLanes = .ok u past closed →
      (s.quad j.quad).cur = some o → o.cmd.id = j.arr.id →
      ∃ t, exec (.rrow h) s = .next t ∧ t.ctx = {} ∧ t.net = u.net ∧
        (t.quad j.quad).cur = some { o with rowsOut := o.rowsOut - 1, rows := o.rows + 1, past := past, closed := closed })

/-- R278, R279: NBCFG of a sound block whose streams all translate sends its binding to the unit; NBRUN and NBGET with room
in q4 send a run, NBGET with x[rd] pending, and NBREL sends an unbind.  All complete.
Model's choices in it: log entry 48. -/
def Obligations.NearBankInstructions : Prop :=
  ∀ (s : State) (h : Head) (d a b : Reg),
    (Clear s clsTaskOnly h [ux a, ux b] → s.ctx.phase = 0 →
      let va := (s.ctx.rx a).toNat
      let blk := bytesWords (readBytes s.mem (localPa s.cur va) 256)
      let u := s.unitFor s.ctx.slot s.cur (unitNumber (s.ctx.rx b).toNat)
      ∀ ps, unitWordOk (s.ctx.rx b) = true → LocalOk s va 256 false → nbBlockOk blk = true →
      s.nbStreams blk u [0, 1, 2, 3] = .ok ps →
      ∃ t x m, exec (.nbcfg h a b) s = .next t ∧ t.net = s.net ++ [m] ∧ m.body = .nb u (.bind x) ∧ x.block = blk ∧
        x.iss = s.issuer ∧ x.colour = nbColour blk ∧ Frame {} s t ∧ MemKept s t 0 0 ∧ Advanced s t) ∧
    (unitWordOk (s.ctx.rx a) = true →
      let u := s.unitFor s.ctx.slot s.cur (unitNumber (s.ctx.rx a).toNat)
      let sent := fun (t : State) (op : NbOp) => ∃ m, t.net = s.net ++ [m] ∧ m.iss = s.issuer ∧ m.body = .nb u op
      let kept := fun (t : State) => Frame {} s t ∧ MemKept s t 0 0 ∧ Advanced s t
      (Clear s clsTaskOnly h [ux a] → s.nbRoom s.cur = true → ∃ t, exec (.nbrun h a) s = .next t ∧
        sent t (.run 33 (Word.field s.ctx.frm 2 0) s.ctx.fseed) ∧ kept t) ∧
      (Clear s clsTaskOnly h [ux a, ux d] → d ≠ 0 → s.nbRoom s.cur = true → ∃ t, exec (.nbget h d a) s = .next t ∧
        sent t (.run d.toNat (Word.field s.ctx.frm 2 0) s.ctx.fseed) ∧ t.ctx.pending.getLsbD d.toNat = true ∧ kept t) ∧
      (Clear s clsTaskOnly h [ux a] → ∃ t, exec (.nbrel h a) s = .next t ∧ sent t .rel ∧ kept t))

/-- R194, R199, R211, R213, R221, R223, R224: what a home does with a message whose turn it is.  STORE_APPLY puts its
bytes; JOIN_APPLY joins into an open cell and reports 0x20 at a bolted block; FILL_WRITE extends its buffer, or is held at a full one; BREL_APPLY counts a release, the last one empties the buffer;
BDECL_APPLY redeclares; BOLT_APPLY bolts and acknowledges; CLEAR_CHECK says whether the block's barrier has moved on;
CLEAR_APPLY makes the block bottom and open.  No other byte changes. Model's choices in it: log entry 41. -/
def Obligations.HomeMemory : Prop :=
  ∀ (s : State) (n : Nat) (m : Msg), s.due n = some m → Memory.wf s.mem = true →
    let u := s.take n m
    let T := m.iss.task
    u.net = removeAt s.net n ∧ (s.logOf T.slot = none → s.enc = [] → m.key = none → u.mem = s.mem) ∧
    (∀ pa va bytes, m.body = .store pa va bytes →
      ∃ t, exec (.storeApply n) s = .next t ∧ t.net = u.net ∧ readBytes t.mem pa bytes.length = bytes ∧
        MemKept u t pa bytes.length) ∧
    (∀ pa va ty width data e, m.body = .join pa va ty width data e →
      let k := cellBytes ty width
      let cell := cellBase ty width pa
      let u := (s.unmerged n m).take n m
      ((u.block pa).bolted = true → m.more = [] → ∃ t, exec (.joinApply n) s = .next t ∧ t.net = u.net ∧ t.mem = u.mem ∧
        Told u t T fun c => { c with faults := c.faults.add 0x20 m.colour (BitVec.ofNat 64 (cellVa ty width va)) }) ∧
      ((u.block pa).bolted = false → u.poisoned cell k = false → (∀ l ∈ u.latches, l.want.mailbox = false) → data.length = k →
        ((ty ∈ [1, 2, 3, 4, 5, 6, 9] ∧ width ≤ 3) → ∃ t, exec (.joinApply n) s = .next t ∧ MemKept u t cell k ∧
          isJoin ty (8 * k) (readNat u.mem cell k) (bytesNat data) (readNat t.mem cell k)) ∧
        ((ty = 7 ∨ ty = 8) → u.onceAt cell = 0 → ∃ t, exec (.joinApply n) s = .next t ∧ MemKept u t cell k ∧
          t.onceAt cell = 1 ∧ readBytes t.mem cell k = data) ∧
        ((ty = 7 ∨ ty = 8) → u.onceAt cell = 1 → readBytes u.mem cell k ≠ data → ∃ t, exec (.joinApply n) s = .next t ∧
          MemKept u t cell k ∧ t.onceAt cell = 2 ∧ readBytes t.mem cell k = List.replicate k 0xFF))) ∧
    (∀ pa va ch bytes close h, m.body = .fill pa va ch bytes close → u.bufOf ch pa = some h → h + 64 ≤ pa →
      let b := (u.bufBits h).drained
      let len := bytes.length
      (b.st = 2 → ∃ t, exec (.fillWrite n) s = .next t ∧ t.heldFills = u.heldFills ++ [m] ∧ t.mem = u.mem) ∧
      (b.st ≠ 2 → pa = h + 64 + (if b.st = 0 then 0 else b.wp) → pa + len ≤ h + 64 + b.size →
        ∃ t, exec (.fillWrite n) s = .next t ∧ readBytes t.mem pa len = bytes ∧ (t.bufBits h).wp = pa + len - (h + 64) ∧
          (t.bufBits h).st = (if pa + len = h + 64 + b.size ∨ close = true then 2 else 1) ∧
          (t.bufBits h).gen = b.gen ∧ ∀ a, ¬(h ≤ a ∧ a < h + 32) → ¬(pa ≤ a ∧ a < pa + len) → readByte t.mem a = readByte u.mem a)) ∧
    (∀ pa va ch, m.body = .brel pa va ch →
      let b := u.bufBits pa
      (u.isBuf ch pa = true → b.st = 2 → b.rel + 1 < b.cons → ∃ t, exec (.brelApply n) s = .next t ∧
        t.bufBits pa = { b with rel := b.rel + 1 } ∧ MemKept u t pa 32 ∧ Told u t T fun c => { c with acks := c.acks - 1 }) ∧
      (u.isBuf ch pa = true → b.st = 2 → b.rel + 1 = b.cons → u.heldFills = [] → ∃ t, exec (.brelApply n) s = .next t ∧
        t.bufBits pa = { b with st := 0, wp := 0, rel := 0, gen := (b.gen + 1) % 2 ^ 64 } ∧ MemKept u t pa 32 ∧
        Told u t T fun c => { c with acks := c.acks - 1 }) ∧
      ((u.isBuf ch pa = false ∨ b.st ≠ 2 ∨ b.cons < b.rel + 1) → ∃ t, exec (.brelApply n) s = .next t ∧ t.mem = u.mem ∧
        Told u t T fun c => { c with acks := c.acks - 1, notes := c.notes ++ [va], reply := some (.fault 0x10 va 0) })) ∧
    (∀ pa va ch w, m.body = .bdecl pa va ch w →
      let b := u.bufBits pa
      (u.isBuf ch pa = true → b.st = 0 → b.rel = 0 → ∃ t, exec (.bdeclApply n) s = .next t ∧
        t.bufBits pa = { b with cons := Word.field w 7 0, fcell := Word.field w 63 16 } ∧ MemKept u t pa 32 ∧
        Told u t T fun c => { c with acks := c.acks - 1 }) ∧
      ((u.isBuf ch pa = false ∨ b.st ≠ 0 ∨ b.rel ≠ 0) → ∃ t, exec (.bdeclApply n) s = .next t ∧ t.mem = u.mem ∧
        Told u t T fun c => { c with acks := c.acks - 1, notes := c.notes ++ [va], reply := some (.fault 0x10 va 0) })) ∧
    (∀ pa va g, m.body = .bolt pa va g →
      ∃ t, exec (.boltApply n) s = .next t ∧ t.mem = u.mem ∧
        t.block pa = (if (u.block pa).bolted then u.block pa else { bolted := true, gen := u.boltGen T.slot g, sent := false }) ∧
        OnWay t (m.toward T.pkg T.core .boltAck)) ∧
    (∀ pa va g ty width, m.body = .clearCheck pa va g ty width →
      let moved := (u.block pa).bolted = true ∧ ∃ k i, (u.block pa).gen = some (k, i) ∧ (u.bar k).gen ≠ i
      ∃ t, exec (.clearCheck n) s = .next t ∧ t.mem = u.mem ∧
        (moved → Told u t T fun c => { c with acks := c.acks - 1 }) ∧
        (¬moved → Told u t T fun c => { c with acks := c.acks - 1, notes := c.notes ++ [va], reply := some (.fault 0x0B va 0) })) ∧
    (∀ pa va ty width, m.body = .clearApply pa va ty width → width ≤ 3 → s.formOk = true →
      ∃ t, exec (.clearApply n) s = .next t ∧ readBytes t.mem (pa / 4096 * 4096) 4096 = bottomBlock ty width ∧
        MemKept u t (pa / 4096 * 4096) 4096 ∧ t.block pa = {} ∧ (∀ e ∈ t.once, e.1 / 4096 ≠ pa / 4096) ∧
        (∀ e ∈ t.mboxes, e.1 / 4096 ≠ pa / 4096) ∧ Told u t T fun c => { c with acks := c.acks - 1 })

/-- R208: two joins of one scalar type for one cell, next to each other in the network, of one colour and group, of at most
four issuers together, neither come over a Teord link, become one message of all their issuers that carries the join of their
data; where both hold numbers of one lane, the later ones follow the earlier ones (R13).
Model's choices in it: log entry 39. -/
def Obligations.JoinCombining : Prop :=
  ∀ (s : State) (a : Nat) (x y : Msg) (pa va qa wa ty w v : Nat) (d d' : List Byte) (e e' : Bool),
    s.net[a]? = some x → s.net[a + 1]? = some y → x.body = .join pa va ty w d e → y.body = .join qa wa ty v d' e' →
    ty ∈ [1, 2, 3, 4, 5, 6, 9] → w ≤ 3 → cellBase ty w pa = cellBase ty w qa → d.length = 2 ^ w → d'.length = 2 ^ w →
    x.colour = y.colour → x.group = y.group → x.key = y.key → (x.more ++ y.senders).length ≤ 3 →
    x.crossed = false → y.crossed = false → chained (x.senders ++ y.senders) = true → s.mayChoose x.iss.task.slot (logTile x.home) 5 1 = true →
    ∃ t z m, exec (.joinCombine a (a + 1)) s = .next t ∧ m = { x with more := x.more ++ y.senders, body := .join pa va ty w z e } ∧
      t.net = removeAt (replaceAt s.net a m) (a + 1) ∧ z.length = 2 ^ w ∧ isJoin ty (8 * 2 ^ w) (bytesNat d) (bytesNat d') (bytesNat z)

/-- R126, R192, R195, R201, R204-R206, R211, R329-R331: what homes answer, and what answers do.  A load is answered with its
bytes or with its fault; GET, THR, JOIN and the mailbox requests are answered when their cell allows it and are latched when
it does not; a join that lets a latch pass sends its wake; an answer lands in its register or at its parked instruction, and
x0 stays pending while another load into it is out (log entry 88).
R40-R44: a walk that ends fills the TLB of every requester, or its failure is kept for each one that waits for it; all its
levels are one step, which is the model's choice (log entry 72).  R357: a digest that agrees with the mirror's block changes
nothing, and one that differs is reported to the task as 0x2A; when the blocks are compared is the model's choice (log entry
69). Model's choices in it: log entries 18, 20, 69, 72 and 88. -/
def Obligations.Answers : Prop :=
  (∀ (s : State) (n : Nat) (m : Msg), s.due n = some m → s.formOk = true →
    let u := s.take n m
    let T := m.iss.task
    let dst := fun (d : Dest) => match d.handler with
      | some (p, c, _) => (p, c)
      | none => (T.pkg, T.core)
    let back := fun (t : State) (d : Dest) (a : Answer) => OnWay t (m.toward (dst d).1 (dst d).2 (.result d a))
    (∀ pa va ty size ch sg d lane, m.body = .load pa va ty size ch sg d lane → u.poisoned pa size = false →
      let bytes := u.readCells pa ty ch.width size
      let ok := ty = 0 ∨ ty = 0xC ∨ (ty ≠ 0xB ∧ (u.block pa).bolted = true) ∨ (ty = 0xB ∧ u.bufReads ch pa size = true)
      ∃ t, exec (.loadServe n) s = .next t ∧ t.mem = u.mem ∧
        (ok → back t d (if lane < 64 then .lane lane (bytesNat bytes) else if d.isV then .vec (bytesVec bytes)
          else .word (bytesValue sg size (bytesNat bytes)))) ∧
        (¬ok → back t d (.fault (if ty = 0xB then 0x10 else 0x06) va lane))) ∧
    (∀ pa va ty width w reg, m.body = .want pa va ty width w reg → u.wantDead m.iss = true → ∀ i,
      i ∈ [Instr.getServe n, .thrServe n, .mailboxServe n] → exec i s = .next u ∨ exec i s = .next s) ∧
    (∀ pa va ty width w reg, m.body = .want pa va ty width w reg → u.wantDead m.iss = false →
      u.poisoned (cellBase ty width pa) (cellBytes ty width) = false →
      let cell := cellBase ty width pa
      let bolted := (u.block pa).bolted
      let woken := fun (t : State) (a : Answer) => t.mem = u.mem ∧ t.latches = u.latches ∧
        OnWay t (msgOf m.iss T.pkg T.core 8 m.group (.wake { isV := false, reg := reg } a))
      let waits := fun (t : State) => t.mem = u.mem ∧ (if bolted then woken t (.fault 0x09 va 0) else
        ∃ l, t.latches = u.latches ++ [l] ∧ l.iss = m.iss ∧ l.home = m.home ∧ l.pa = pa ∧ l.va = va ∧ l.ty = ty ∧
          l.width = width ∧ l.want = w ∧ l.reg = reg ∧ l.place = u.latchPlace m.home)
      (∀ size, w = .get size → ∃ t, exec (.getServe n) s = .next t ∧
        (u.onceAt cell = 1 → woken t (.word (BitVec.ofNat 64 (readNat u.mem pa size)))) ∧
        (u.onceAt cell = 2 → woken t (.fault 0x13 va 0)) ∧ (u.onceAt cell = 0 → waits t)) ∧
      (∀ ts, w = .thr ts → (ty ≠ 7 ∨ u.onceAt cell ≠ 2) → ∃ t, exec (.thrServe n) s = .next t ∧
        (∀ i x, ts[i]? = some x → u.cellPasses ty width cell x = true →
          (∀ j y, j < i → ts[j]? = some y → u.cellPasses ty width cell y = false) → woken t (.word (BitVec.ofNat 64 i))) ∧
        ((∀ x ∈ ts, u.cellPasses ty width cell x = false) → waits t)) ∧
      (∀ c, w = .join c → ∃ t, exec (.thrServe n) s = .next t ∧
        (u.cellPasses ty width cell c = true → woken t .pass) ∧ (u.cellPasses ty width cell c = false → waits t)) ∧
      (∀ hd, u.mboxHead pa = some hd → (∀ l ∈ u.latches, l.want ≠ .gsnd) →
        let k := look {} u.mboxes pa
        let sent := fun (t : State) (a : Answer) => OnWay t (msgOf m.iss T.pkg T.core 8 m.group (.mreply a))
        let slot := pa + 128 * (1 + k.cv % hd.depth)
        (w = .gsnd → bolted = false → (k.pv + 2 ^ 32 - k.cv) % 2 ^ 32 < hd.depth → ∃ t, exec (.mailboxServe n) s = .next t ∧
          sent t (.version k.pv hd.dim hd.depth) ∧ look {} t.mboxes pa = { k with pv := (k.pv + 1) % 2 ^ 32 } ∧ t.mem = u.mem) ∧
        (w = .grcv → bolted = false → u.onceAt slot = 1 → u.poisoned slot 128 = false →
          Word.field (BitVec.ofNat 64 (readNat u.mem slot 8)) 63 32 = k.cv →
          Word.field (BitVec.ofNat 64 (readNat u.mem slot 8)) 2 0 = hd.dim → ∃ t, exec (.mailboxServe n) s = .next t ∧
          sent t (.slot (readBytes u.mem slot 128)) ∧ look {} t.mboxes pa = { k with cv := (k.cv + 1) % 2 ^ 32 } ∧
          t.onceAt slot = 0 ∧ readBytes t.mem slot 128 = List.replicate 128 0 ∧ MemKept u t slot 128) ∧
        (w = .gdmp → ∃ t, exec (.mailboxServe n) s = .next t ∧ sent t (.damp hd.damp) ∧ t.mem = u.mem))) ∧
    (∀ pa va ty width data e l ts i x, m.body = .join pa va ty width data e → ty ∈ [1, 2, 3, 4, 5, 6, 9] →
      let u := (s.unmerged n m).take n m
      (u.block pa).bolted = false → u.poisoned (cellBase ty width pa) (cellBytes ty width) = false →
      (∀ l ∈ u.latches, l.want.mailbox = false) → l ∈ u.latches → l.place ≠ 2 → l.ty = ty → l.width = width →
      cellBase ty width l.pa = cellBase ty width pa → l.want = .thr ts →
      ∃ t, exec (.joinApply n) s = .next t ∧
        (ts[i]? = some x → t.cellPasses ty width (cellBase ty width pa) x = true →
          (∀ j y, j < i → ts[j]? = some y → t.cellPasses ty width (cellBase ty width pa) y = false) →
          OnWay t (msgOf l.iss l.iss.task.pkg l.iss.task.core 8 l.group (.wake { isV := false, reg := l.reg } (.word (BitVec.ofNat 64 i)))))) ∧
    (∀ d a, m.body = .result d a →
      let mark := fun (c : Ctx) => if u.moreX0 m d then { c with pending := c.pending ||| 1 } else c
      ∃ t, exec (.resultArrival n) s = .next t ∧
      (d.reg < 32 → d.handler = none → Told u t T fun c => mark (c.land d a)) ∧
      (∀ p core run, d.reg < 32 → d.handler = some (p, core, run) → (u.ctxOf core 4).isRun run = true →
        t.ctxOf core 4 = mark ((u.ctxOf core 4).land d a)) ∧
      (∀ w, d.reg = 32 → a = .word w → Told u t T fun c => ({ c with q5res := c.q5res - 1 }.deliverWord 5 w).1) ∧
      (64 ≤ d.reg → ∀ b, (m.cmd, d.reg, b) ∈ u.fetched → (m.cmd, d.reg, some a) ∈ t.fetched)) ∧
    (∀ d a, m.body = .wake d a → ∃ t, exec (.wake n) s = .next t ∧
      (∀ w, d.reg < 32 → a = .word w → Told u t T fun c => c.land d a) ∧
      (∀ cause va lane, d.reg < 32 → a = .fault cause va lane → Told u t T fun c => c.landFault false d.reg cause va) ∧
      (d.reg = 32 → Told u t T fun c => { c with reply := some a })) ∧
    (∀ a, m.body = .mreply a → ∃ t, exec (.mailboxReply n) s = .next t ∧ Told u t T fun c => { c with reply := some a }) ∧
    (m.body = .boltAck → ∃ t, exec (.boltAck n) s = .next t ∧ Told u t T fun c => { c with acks := c.acks - 1 }) ∧
    (∀ pa va crc p, m.body = .digest pa va crc → u.spotOf T.slot va = some p →
      ((s.block pa).bolted = false → exec (.twinDigest n) s = .next s) ∧
      ((s.block pa).bolted = true → u.digest pa p.e.ctype p.e.width = crc → exec (.twinDigest n) s = .next u) ∧
      ((s.block pa).bolted = true → u.digest pa p.e.ctype p.e.width ≠ crc → ∃ t, exec (.twinDigest n) s = .next t ∧
        Told u t T fun c => { c with faults := c.faults.add 0x2A 8 (BitVec.ofNat 64 va) }))) ∧
  (∀ (c : Ctx) (d : Dest), d.reg < 32 →
    let r : Reg := BitVec.ofNat 5 d.reg
    (∀ w, (c.land d (.word w)).rx r = (if r = 0 then 0 else w) ∧ (c.land d (.word w)).pending.getLsbD d.reg = false ∧
      (∀ q, q ≠ r → (c.land d (.word w)).rx q = c.rx q) ∧ (c.land d (.word w)).v = c.v) ∧
    (∀ v, (c.land d (.vec v)).rv r = v ∧ (c.land d (.vec v)).pending.getLsbD (32 + d.reg) = false ∧
      (∀ q, q ≠ r → (c.land d (.vec v)).rv q = c.rv q) ∧ (c.land d (.vec v)).x = c.x) ∧
    (∀ cause va, d.isV = false → (c.land d (.fault cause va 64)).rx r = 0 ∧
      (c.land d (.fault cause va 64)).pending.getLsbD d.reg = false ∧
      look { cause := 0, va := 0 } (c.land d (.fault cause va 64)).faulted d.reg = { cause := cause, va := va })) ∧
  (∀ (s : State) (n : Nat) (l : Latch), s.latches[n]? = some l → l.place = 2 →
    let u := s.seen l.key l.pa
    (∀ c cell, l.want = .join c → cell = cellBase l.ty l.width l.pa → u.poisoned cell (cellBytes l.ty l.width) = false →
      (u.cellPasses l.ty l.width cell c = true → ∃ t, exec (.latchRetry n) s = .next t ∧ t.latches = removeAt s.latches n ∧
        OnWay t (msgOf l.iss l.iss.task.pkg l.iss.task.core 8 l.group (.wake { isV := false, reg := l.reg } .pass))) ∧
      (u.cellPasses l.ty l.width cell c = false → (u.block l.pa).bolted = false → s.latchPlace l.home ≠ 2 →
        ∃ t, exec (.latchRetry n) s = .next t ∧ t.latches = removeAt s.latches n ++ [{ l with place := s.latchPlace l.home }]))) ∧
  (∀ (s : State) (n : Nat) (w : Walk), s.walks[n]? = some w → s.walkRuns n w = true →
    ∃ t, exec (.walkComplete n) s = .next t ∧ t.walks = removeAt s.walks n ∧
      (∀ e, s.walkBy w.die w.slot w.va = .ok e → t.walkFails = s.walkFails ∧ ∀ a ∈ w.askers,
        (a.kind = 0 → e ∈ (t.core a.place).tlb) ∧ (a.kind = 1 → e ∈ (t.core a.place).copyTlb) ∧
        (a.kind = 2 → e ∈ (t.quad a.place).tlb)) ∧
      (∀ r, s.walkBy w.die w.slot w.va = .error r → t.cores = s.cores ∧ t.quads = s.quads ∧
        ∀ a ∈ w.askers, (a.kind = 0 → (s.ctxOf a.place a.ctx).slot = w.slot ∧ (s.ctxOf a.place a.ctx).wait = .xlate w.va) →
          { asker := a, slot := w.slot, va := w.va, reason := r } ∈ t.walkFails))

/-- R69-R71, R75, R76, R78-R80, R84, R122, R338, R342, R345: the steps of tasks.  TASK_START gives the newest record a free
context with the registers of R70, or restores a spilled task; TASK_RETIRE frees the context, counts and bumps the exit
cell, surfaces what is open first, or ends a cancelled task; TASK_FAILURE records the failure; on a halted core neither takes
place (R348); the steal steps carry the oldest record that qualifies; SPAWNAT_WALK starts, passes on or enqueues, or waits
where a replay holds it (R356); SPILL makes room; CANCEL_REQUEST flags.
Model's choices in it: log entries 25 to 30, 68 and 80. -/
def Obligations.TaskSteps : Prop :=
  (∀ (s : State) (n i : Nat), s.held n = false →
    (∀ r d, (s.core n).firstRestore = none → (s.core n).freeCtx = some i → (s.core n).deque = r :: d → s.arbitrates n 0 = true →
      ∃ t, exec (.taskStart n) s = .next t ∧ t.mem = s.mem ∧ (t.core n).queued = d ++ (s.core n).overflow ∧
        let x := t.ctxOf n i
        x.role = .task ∧ x.pc = BitVec.ofNat 64 r.entry ∧ x.rx 2 = BitVec.ofNat 64 (0x100000 + i * 0x20000) ∧
        (∀ c, (s.slot r.slot).cmd = some c → x.rx 3 = c.x3) ∧
        (∀ j, j < 6 → x.rx (BitVec.ofNat 5 (10 + j)) = wordAt r.words (2 + j)) ∧
        (∀ q : Reg, q.toNat ∉ [2, 3, 10, 11, 12, 13, 14, 15] → x.rx q = 0) ∧ x.group = r.group ∧
        x.exitc = BitVec.ofNat 64 r.exit ∧ x.tid = tidWord ((s.core n).serial + 1) n i ∧ x.tstat = 0 ∧ x.pending = 0 ∧
        x.flagged = r.flagged) ∧
    (∀ k p, (s.core n).firstRestore = some (i, k) → (s.core n).spilled[k]? = some p →
      ∃ t, exec (.taskStart n) s = .next t ∧ t.ctxOf n i = p.ctx ∧ (t.core n).spilled = removeAt (s.core n).spilled k ∧
        (t.core n).queued = (s.core n).queued ∧
        ((∀ o ∈ p.poison, o < 0x20000) → ∀ w, w ∈ t.poison ↔
          ((∃ o ∈ p.poison, w = framePa n i + o) ∨ (w ∈ s.poison ∧ ¬(framePa n i ≤ w ∧ w < framePa n i + 0x20000)))))) ∧
  (∀ (s : State) (n i : Nat), i < 4 →
    let x := s.ctxOf n i
    let T := s.idOf n i x
    ((s.owes (ofTask T) 0x1FF = true ∨ (s.core n).halted = true) →
      exec (.taskRetire n i) s = .next s ∧ exec (.taskFailure n i) s = .next s) ∧
    (s.owes (ofTask T) 0x1FF = false → (s.core n).halted = false → x.role = .task →
      (x.wait = .doneWrites → (x.inh = true ∨ x.faults.openIn 0x1FF = [] ∨ (s.core n).tvec = 0) →
        ∃ t, exec (.taskRetire n i) s = .next t ∧ t.ctxOf n i = {} ∧ t.mem = s.mem ∧
          (∀ c, (s.slot x.slot).cmd = some c → s.inMirror x.slot n = false →
            ∃ d, (t.slot x.slot).cmd = some d ∧ d.west.retired = min (c.west.retired + 1) (2 ^ 32 - 1)) ∧
          (x.exitc = 0 → t.net = s.net ∧ t.outbox = s.outbox) ∧
          (∀ p, 0x400000 ≤ x.exitc.toNat → p.e.ctype = 6 →
            s.checkWalk x.slot x.group n x.exitc.toNat TlbEntry.exitAlign .own = .ok p →
            OnWay t { msgOf { task := T, via := 0 } p.pkg p.home x.colour x.group
              (.join p.pa x.exitc.toNat 6 p.e.width (natBytes (2 ^ p.e.width) 1) false) with
                lane := laneNumber s.pkg n i 0, key := s.keyOf x.slot p.e })) ∧
      (∀ cause row l, x.wait = .doneWrites → x.inh = false → x.faults.openIn 0x1FF = (cause, row) :: l → (s.core n).tvec ≠ 0 →
        ∃ t, exec (.taskRetire n i) s = .next t ∧ (t.ctxOf n i).pc = (s.core n).tvec ∧
          (t.ctxOf n i).tcause = BitVec.ofNat 64 cause ∧ (t.ctxOf n i).tval = row.low ∧ (t.ctxOf n i).inh = true) ∧
      (x.wait = .cancelling → ∃ t, exec (.taskRetire n i) s = .next t ∧ t.ctxOf n i = {} ∧ t.mem = s.mem ∧
        (∀ m ∈ t.net, m ∈ s.net) ∧ (∀ m ∈ s.net, m ∉ t.net → m.iss = { task := T, via := 0 } ∧ m.body.fenced = false) ∧
        (∀ l ∈ t.latches, l.iss ≠ { task := T, via := 0 }) ∧
        ∀ p ∈ s.others x.slot, OnWay t (msgOf { task := T, via := 0 } p 8192 8 0 .unlatch)) ∧
      (∀ f, x.wait = .failing f → ∃ t, exec (.taskFailure n i) s = .next t ∧ t.ctxOf n i = {} ∧ t.net = s.net ∧ t.mem = s.mem ∧
        ∀ c, (s.slot x.slot).cmd = some c → s.inMirror x.slot n = false →
          ∃ d, (t.slot x.slot).cmd = some d ∧ d.west.failed = min (c.west.failed + 1) (2 ^ 16 - 1) ∧
            d.west.worst = worseFailure c.west.worst (some f)))) ∧
  (∀ (s : State) (n d v : Nat), (s.core n).stealOut = false → s.stealIdle n = true →
    s.nextDir n (s.core n).stealDir = some d → neighbour n d = some v →
    ∃ t, exec (.stealBackoff n) s = .next t ∧ t.net = s.net ++ [s.stealMsg n v (.steal n v d s.cycles.toNat)] ∧
      (t.core n).stealOut = true ∧ (t.core n).stealDir = (d + 1) % 4 ∧ t.mem = s.mem) ∧
  (∀ (s : State) (j : Nat) (m : Msg), s.due j = some m →
    let u := s.take j m
    (∀ thief v d k, m.body = .steal thief v d k → s.held v = false → s.servedBefore v ((d + 2) % 4) k = false →
      s.arbitrates v 1 = true →
      let good := fun (r : Rec) => (s.core thief).slot = some r.slot ∧ ((s.core thief).groupSlot r.group).isSome = true ∧ r.local_ = false
      (∀ l r l', (s.core v).queued = l ++ r :: l' → good r → (∀ q ∈ l', ¬good q) →
        s.mayChoose (s.slotOf v) v 1 (2 * ((d + 2) % 4) + 1) = true → ∃ t, exec (.stealRequest j) s = .next t ∧
          (t.core v).queued = l ++ l' ∧ (t.core v).lastServed = (d + 2) % 4 ∧
          OnWay t (s.stealMsg v thief (.stolen thief r s.cycles.toNat))) ∧
      ((∀ q ∈ (s.core v).queued, ¬good q) → s.mayChoose (s.slotOf v) v 1 (2 * ((d + 2) % 4)) = true →
        ∃ t, exec (.stealRequest j) s = .next t ∧ (t.core v).queued = (s.core v).queued ∧
          (t.core v).lastServed = (d + 2) % 4 ∧ OnWay t (s.stealMsg v thief (.refusal thief)))) ∧
    (∀ thief v d k w e, m.body = .steal thief v d k → (∃ x ∈ s.net, x.body = .steal w v e k) →
      s.serveOrder v ((e + 2) % 4) < s.serveOrder v ((d + 2) % 4) → exec (.stealRequest j) s = .next s) ∧
    (∀ thief r k, m.body = .stolen thief r k → u.held thief = false → ∃ t, exec (.stolenRecord j) s = .next t ∧
      (t.core thief).stealOut = false ∧ (t.core thief).backoff = 64 ∧
      (∀ i, (u.core thief).freeCtx = some i → (t.ctxOf thief i).role = .task ∧ (t.ctxOf thief i).pc = BitVec.ofNat 64 r.entry ∧
        (t.core thief).queued = (u.core thief).queued) ∧
      ((u.core thief).freeCtx = none → (u.core thief).saved = none → (u.core thief).queued.length < 1280 → (t.core thief).queued = r :: (u.core thief).queued)) ∧
    (∀ thief, m.body = .refusal thief → ∃ t, exec (.stealRefusal j) s = .next t ∧ (t.core thief).stealOut = false ∧
      (t.core thief).refusals = (u.core thief).refusals + 1 ∧ t.mem = u.mem) ∧
    (∀ r place, m.body = .walk r place → (s.arbitrates place 2 = false ∨ s.walkHeld place m.iss r = true) →
      exec (.spawnatWalk j) s = .next s) ∧
    (∀ r place, m.body = .walk r place → s.arbitrates place 2 = true → s.walkHeld place m.iss r = false →
      let hint := u.hintTile r m.iss.task.core
      (∀ i, u.walkEligible place m.iss.task.core r = true → u.mayChoose r.slot place 2 (manhattan m.iss.task.core place) = true →
        (u.core place).freeCtx = some i → ∃ t, exec (.spawnatWalk j) s = .next t ∧ (t.ctxOf place i).role = .task ∧
          (t.ctxOf place i).pc = BitVec.ofNat 64 r.entry) ∧
      (u.walkEligible place m.iss.task.core r = false → place ≠ hint → ∃ t, exec (.spawnatWalk j) s = .next t ∧
        t.net = u.net ++ [msgOf m.iss s.pkg (towards place hint) 8 m.group (.walk r (towards place hint))]) ∧
      (u.walkEligible place m.iss.task.core r = false → place = hint → u.takesGroup place m.iss.task.core r = true →
        (u.core place).saved = none → (u.core place).queued.length < 1280 → ∃ t, exec (.spawnatWalk j) s = .next t ∧
          (t.core place).queued = r :: (u.core place).queued)) ∧
    (∀ exit slot n, m.body = .cancel exit slot n → n ≠ allTiles → s.arbitrates n 3 = true →
      let named := fun (e : Nat) => 2 ^ 48 ≤ exit ∨ e = exit
      ∃ t, exec (.cancelRequest j) s = .next t ∧
        (∀ r ∈ (t.core n).queued, ¬(r.slot = slot ∧ named r.exit)) ∧
        (∀ i, i < 4 → (u.ctxOf n i).role = .task → (u.ctxOf n i).slot = slot → named (u.ctxOf n i).exitc.toNat →
          (t.ctxOf n i).flagged = true ∧ ((u.ctxOf n i).wait = .none → (t.ctxOf n i).wait = .none) ∧
          ((u.ctxOf n i).wait = .answer → (u.ctxOf n i).reply = none → (∀ k ∈ u.net, ∀ a, k.body ≠ .mreply a) →
            (t.ctxOf n i).wait = .cancelling)) ∧
        (∀ i, i < 5 → ((u.ctxOf n i).slot ≠ slot ∨ ¬named (u.ctxOf n i).exitc.toNat) → t.ctxOf n i = u.ctxOf n i))) ∧
  (∀ (s : State) (n i : Nat), s.wantsSpill n = true → s.spillChoice n = some i →
    (∀ k r d, (s.core n).freePlace = some k → (s.core n).deque = r :: d → ∃ t, exec (.spill n) s = .next t ∧
      (t.core n).spilled = (s.core n).spilled ++
        [{ ctx := s.ctxOf n i, num := i, place := k, frame := cellsOf s.mem (framePa n i) 0x20000,
           poison := poisonOf s.poison (framePa n i) 0x20000, ready := none }] ∧
      (t.ctxOf n i).role = .task ∧ (t.ctxOf n i).pc = BitVec.ofNat 64 r.entry ∧ (t.core n).queued = d ++ (s.core n).overflow) ∧
    ((s.core n).freePlace = none → ∃ t, exec (.spill n) s = .next t ∧ t.mem = s.mem ∧
      Told s t (s.idOf n i (s.ctxOf n i)) fun c => { c with faults := c.faults.add 0x29 8 0x1A0000 }))

/-- R225-R237: COPY_COMMAND_RUN ends the walk behind the last element; else it moves one element, from local memory into
local memory or into a message, or stops its command with a fault; a replay may hold an element at the home that it reads
(R356); COPY_COMPLETE takes a command whose walk has ended and
whose writes are applied out of the engine and tells its context. Model's choices in it: log entries 43 and 44. -/
def Obligations.CopySteps : Prop :=
  (∀ (s : State) (core ctx : Nat) (c : CopyCmd), s.copyReady core ctx = some c → s.copyTurn core = some ctx →
    c.image = none → c.tile = none → c.fillBuf = none → c.after = [] → c.destsDone = 0 → c.value = none →
    let ws := c.desc
    let e := copyElement ws c.n
    let k := copySrcBytes ws
    let src := localPa core e.1
    let dst := localPa core e.2.1
    let u := s.orFlags c.iss 0
    (boxSize ws ≤ c.n → ∃ t d, exec (.copyCommandRun core ctx) s = .next t ∧ t.mem = s.mem ∧ t.net = s.net ∧
      d ∈ (t.core core).copyQ ∧ d.id = c.id ∧ d.ended = some 0) ∧
    (c.n < boxSize ws → e.2.2 = true → copyCvt ws = false → copyCode ws = false → copyMask ws = 0 → copySwz ws = 0 →
      e.1 < 0x400000 → s.engineLocal (c.agent core) e.1 k false = true → e.1 % k = 0 → s.poisoned src k = false →
      (e.2.1 < 0x400000 → s.engineLocal (c.agent core) e.2.1 k true = true → e.2.1 % k = 0 → Memory.wf s.mem = true →
        ∃ t d, exec (.copyCommandRun core ctx) s = .next t ∧ readBytes t.mem dst k = readBytes s.mem src k ∧ MemKept u t dst k ∧
          d ∈ (t.core core).copyQ ∧ d.id = c.id ∧ d.n = c.n + 1 ∧ d.ended = c.ended) ∧
      (∀ m, u.engineWrite (c.agent core) e.2.1 (readBytes s.mem src k) (copyRed ws) false true = .ok (.msg m) →
        ∃ t d, exec (.copyCommandRun core ctx) s = .next t ∧ OnWay t m ∧ t.mem = u.mem ∧
          d ∈ (t.core core).copyQ ∧ d.id = c.id ∧ d.n = c.n + 1)) ∧
    (∀ cause tval, c.n < boxSize ws → e.2.2 = true → s.engineRead (c.agent core) e.1 k (copyCode ws) = .stop cause tval →
      (∀ p, s.copyServes (c.agent core) c e.1 true = .error p →
        ∃ t, exec (.copyCommandRun core ctx) s = .next t ∧ t.mem = s.mem ∧ (t.core core).copyQ = (s.core core).copyQ) ∧
      ∀ v, s.copyServes (c.agent core) c e.1 true = .ok v →
      ∃ t d, exec (.copyCommandRun core ctx) s = .next t ∧ t.mem = v.mem ∧ d ∈ (t.core core).copyQ ∧ d.id = c.id ∧
        d.ended = some cause ∧ d.n = c.n ∧
        Told s t c.iss.task fun x => { x with faults := x.faults.add cause c.colour tval })) ∧
  (∀ (s : State) (core ctx : Nat) (c : CopyCmd), c.image = none →
    ((s.core core).copyQ.find? fun d => d.ctx == ctx && d.ended.isSome && !s.copyOwes d.id) = some c →
    ∃ t, exec (.copyComplete core ctx) s = .next t ∧ (t.core core).copyQ = (s.core core).copyQ.filter (·.id != c.id) ∧
      (∀ e ∈ (t.core core).loading, e.2.1 ≠ c.id) ∧
      (copyStat c.desc = false → Told s t c.iss.task fun x =>
        { x with copyOut := x.copyOut - 1, ltag := copyTag c.desc, lcause := c.ended.getD 0 }) ∧
      (copyStat c.desc = true → ∀ x, s.taskCtx c.iss.task = some x → (∀ e ∈ x.pops, e.1 ≠ 1) →
        t.taskCtx c.iss.task = some { x with
          copyOut := x.copyOut - 1, ltag := copyTag c.desc, lcause := c.ended.getD 0, q1res := x.q1res - 1
          q1 := x.q1 ++ [BitVec.ofNat 64 (copyTag c.desc * 2 ^ 52 + c.ended.getD 0 % 256 * 2 ^ 44 + c.n % 2 ^ 44)] }))

/-- R243, R251-R257, R259: KEY_GRANT gives a free key to the next position that asks; ARRAY_KSTEP starts the next command,
adds one step of products to every element, or holds the operation on an operand fault, and waits where a replay holds one of
its reads (R356); ARRAY_DRAIN_ROW hands a row to a
handler, to q3 or to memory, and ends the drain behind the last one; ROW_HANDLER_START gives the handler its registers.
Model's choices in it: log entry 46. -/
def Obligations.ArraySteps : Prop :=
  (∀ (s : State) (n p d : Nat) (T : TaskId) (l l' : List TaskId),
    let q := s.quad n
    let asks := fun (p : Nat) (x : TaskId) => quadPos x.core = p ∧ s.preempted x.slot = false
    q.holder = none → 1 ≤ d → d ≤ 5 → p = (q.lastPos + d) % 5 → p < 4 → q.requests = l ++ T :: l' → asks p T →
    (∀ x ∈ l, ¬asks p x) →
    (∀ e, 1 ≤ e → e < d → let r := (q.lastPos + e) % 5
      (r = 4 → s.gangRequest q = none) ∧ ∀ x ∈ q.requests, r ≠ 4 → ¬asks r x) →
    s.mayChoose T.slot (quadTile n 0) 3 (p + 8 * T.ctx) = true →
    ∃ t, exec (.keyGrant n) s = .next t ∧ (t.quad n).holder = some T ∧ (t.quad n).lastPos = p ∧ (t.quad n).used = 0 ∧
      (t.quad n).requests = q.requests.erase T) ∧
  (∀ (s : State) (n : Nat) (k : ArrCmd), (s.quad n).cur = none → (s.quad n).displaced = [] →
    s.nextArray (s.quad n) = some k →
    ∃ t o, exec (.arrayKstep n) s = .next t ∧ (t.quad n).cur = some o ∧ (t.quad n).queue = (s.quad n).queue.erase k ∧
      o.cmd = k ∧ o.steps = 0 ∧ o.rows = 0 ∧ o.held = false ∧ o.drainOn = false ∧ (arrAcc k.desc = 0 → o.acc = [])) ∧
  (∀ (s : State) (n : Nat) (o : ArrOp), (s.quad n).cur = some o →
    let k := o.cmd
    let p := k.pfx
    let a := k.agent n
    let ks := k.stepKs o.steps
    let rowsA := s.arrayLines a p.a (p.scale == 1) ((List.range k.mv).map fun i => (ks, k.readsA o.steps i))
    let colsB := s.arrayLines a p.b (p.scale == 1)
      ((List.range k.nv).map fun j => (if arrBtr k.desc then ks else ks.map fun _ => k.col0 + j, k.readsB o.steps j))
    ((o.held = true ∨ o.drainOn = true) → exec (.arrayKstep n) s = .next s) ∧
    (∀ e, o.held = false → o.drainOn = false → s.stepServes n o = .error e → exec (.arrayKstep n) s = .next s) ∧
    (∀ v, o.held = false → o.drainOn = false → s.stepServes n o = .ok v →
      (∀ as bs, rowsA = .ok as → colsB = .ok bs → k.nv ≤ 64 → wfFrom 0 0 o.acc = true →
        (o.steps + 1 < k.depth ∨ arrDrain k.desc = true) →
        ∃ t acc, exec (.arrayKstep n) s = .next t ∧
          (t.quad n).cur = some { o with acc := acc, steps := o.steps + 1, drainOn := !decide (o.steps + 1 < k.depth) } ∧
          ∀ i j, i < k.mv → j < k.nv → look 0 acc (64 * i + j) =
            (sumStep p (as.getD i default) (bs.getD j default) (look 0 o.acc (64 * i + j))).1) ∧
      (∀ cause tval, rowsA = .stop cause tval → ∃ t, exec (.arrayKstep n) s = .next t ∧ t.mem = v.mem ∧
        (t.quad n).cur = some { o with held := true, hcause := if cause = 0x25 then 0x05 else cause })) ∧
    (o.drainOn = true →
      let i := o.rows + o.rowsOut
      let lanes := (List.range k.nv).map fun j => look 0 o.acc (64 * i + j)
      let outs := (List.range k.nv).map fun j => k.output i j (lanes.getD j 0)
      (k.mv ≤ o.rows → arrClose k.desc = false → ∃ t, exec (.arrayDrainRow n) s = .next t ∧ (t.quad n).cur = none) ∧
      (i < k.mv → arrHen k.desc = true → s.rowsWaiting n k.drainCore < 4 → s.mayChoose k.iss.task.slot k.drainCore 8 0 = true →
        ∃ t, exec (.arrayDrainRow n) s = .next t ∧ (t.quad n).cur = some { o with rowsOut := o.rowsOut + 1 } ∧
          (t.core k.drainCore).arrivals =
            (s.core k.drainCore).arrivals ++ [.row { quad := n, row := i, lanes := lanes, arr := k }]) ∧
      (i < k.mv → arrHen k.desc = false → arrPop k.desc = true → ∀ x, s.taskCtx k.iss.task = some x → x.q3rows.length < 4 →
        x.discardsRows = false → (∀ e ∈ x.pops, e.1 ≠ 3) →
        let bytes := outs.flatMap fun y => natBytes k.outBytes y.1
        ∃ t y, exec (.arrayDrainRow n) s = .next t ∧ (t.quad n).cur = some { o with rows := o.rows + 1 } ∧
          t.taskCtx k.iss.task = some y ∧ y.q3 = x.q3 ++ (chunks 64 bytes.length bytes).map bytesVec) ∧
      (i < k.mv → arrHen k.desc = false → arrPop k.desc = true → ∀ x, s.taskCtx k.iss.task = some x → x.discardsRows = true →
        ∃ t y, exec (.arrayDrainRow n) s = .next t ∧ (t.quad n).cur = some { o with rows := o.rows + 1 } ∧
          t.taskCtx k.iss.task = some y ∧ y.q3 = x.q3) ∧
      (i < k.mv → arrHen k.desc = false → arrPop k.desc = false → ∀ u past closed,
        s.writeRow n k i lanes = .ok u past closed →
        ∃ t, exec (.arrayDrainRow n) s = .next t ∧ t.net = u.net ∧
          (t.quad n).cur = some { o with rows := o.rows + 1, past := past, closed := closed }))) ∧
  (∀ (s : State) (n : Nat) (j : RowJob) (l : List Arrival), (s.core n).arrivals = .row j :: l →
    (s.ctxOf n 4).busy = false → s.defers n = false → s.preempted j.arr.iss.task.slot = false →
    ∃ t, exec (.rowHandlerStart n) s = .next t ∧ (t.core n).arrivals = l ∧ t.mem = s.mem ∧
      let c := t.ctxOf n 4
      c.role = .row j s.fresh ∧ c.pc = BitVec.ofNat 64 (4 * arrHent j.arr.desc) ∧ c.hbud = 64 ∧ c.rx 2 = 0x180000 ∧
      c.rx 10 = BitVec.ofNat 64 j.row ∧ c.rx 11 = BitVec.ofNat 64 (j.arr.row0 * 2 ^ 32 + j.arr.col0) ∧
      c.colour = j.arr.colour % 8 ∧
      ∀ r m, r < 4 → m < 16 → laneOf (c.rv (BitVec.ofNat 5 (24 + r))) 32 m = (j.lanes.getD (16 * r + m) 0).toNat)

/-- R278-R280, R283: a unit binds for a task unless another holds it, runs with its binding and sends its output stores and
its reply, rejects a run of another task with status 1, and unbinds for the task that bound it.
Model's choices in it: log entry 48. -/
def Obligations.UnitSteps : Prop :=
  (∀ (s : State) (n u : Nat) (m : Msg) (b : Binding), s.due n = some m → m.body = .nb u (.bind b) →
    let v := s.take n m
    ((∀ o, (s.unit u).bound = some o → o.iss.task = b.iss.task) →
      ∃ t, exec (.nbBind n) s = .next t ∧ (t.unit u).bound = some b ∧ t.net = v.net ∧ t.mem = v.mem) ∧
    (∀ o, (s.unit u).bound = some o → o.iss.task ≠ b.iss.task →
      ∃ t, exec (.nbBind n) s = .next t ∧ t.unit u = s.unit u ∧ t.mem = v.mem ∧ Told v t m.iss.task fun c =>
        { c with faults := c.faults.add 0x27 m.colour (BitVec.ofNat 64 (2 * 2 ^ 56 + s.unitName m u)) })) ∧
  (∀ (s : State) (n u reg frm : Nat) (fseed : Word) (m : Msg), m.body = .nb u (.run reg frm fseed) →
    (s.unitDue u fun op => match op with
      | .run .. => true
      | _ => false) = some (n, m) →
    let v := (s.take n m).banks
    let reply := fun (t : State) (status rows : Nat) => ∃ x w, OnWay t x ∧ x.iss = m.iss ∧
      x.body = .result { isV := false, reg := reg } (.word w) ∧ Word.field w 63 56 = status ∧ Word.field w 47 32 = rows % 65536
    (∀ b, (s.unit u).bound = some b → b.iss.task = m.iss.task → nbCrosses b.block = false →
      let r : NbRun := { b := b.block, bases := b.bases, vas := b.vas, cells := b.cells, g := u % 4 }
      v.nbOpen r b.lattice = false → (nbRnd b.block = 6 → frm < 6) → (∀ i, i < nbRows b.block → v.nbPoison r i = none) →
      let rnd : Rnd := { mode := rmode (if nbRnd b.block = 6 then frm else nbRnd b.block), seed := fseed }
      let rows := (List.range (nbRows b.block)).map fun i => (v.nbRow r rnd i).map (·.1)
      ∃ t, exec (.nbRun u) s = .next t ∧
        (∀ c ∈ nbOutput b.block rows, ∃ x, OnWay t x ∧ x.iss = m.iss ∧ x.colour = b.colour ∧
          x.body = .store (r.pa 3 c.1) (r.va 3 c.1) c.2) ∧
        (reg ≠ 33 → reply t 0 rows.length)) ∧
    (((s.unit u).bound = none ∨ ∃ b, (s.unit u).bound = some b ∧ b.iss.task ≠ m.iss.task) →
      ∃ t, exec (.nbRun u) s = .next t ∧ t.mem = v.mem ∧ (reg ≠ 33 → reply t 1 0) ∧ Told v t m.iss.task fun c =>
        { c with faults := c.faults.add 0x27 m.colour (BitVec.ofNat 64 (2 ^ 56 + s.unitName m u)) })) ∧
  (∀ (s : State) (n u : Nat) (m : Msg) (b : Binding), s.formOk = true →
    (s.unitDue u fun op => decide (op = .rel)) = some (n, m) → (s.unit u).bound = some b →
    ∃ t, exec (.nbUnbind u) s = .next t ∧ t.mem = (s.take n m).mem ∧
      (t.unit u).bound = (if b.iss.task = m.iss.task then none else some b))

/-- R302-R310: HINGE_CALL_ARRIVAL accepts a call while its unit has room and refuses it else; HINGE_HANDLER_START gives the
handler its registers, or fails the call; HINGE_STATUS_ARRIVAL brings the caller its status and reply, ACCEPT completes a
posted call; HINGE_REPLY_TIMEOUT ends a call on a lost link that has not completed with status 3. Model's choices in it: log entries 33 and 34. -/
def Obligations.HingeSteps : Prop :=
  (∀ (s : State) (n : Nat) (m : Msg) (k : Call), s.due n = some m →
    let u := s.take n m
    let note := fun (t : State) (x : HingeNote) => OnWay t (msgOf k.caller k.back.1 k.back.2 k.colour k.group (.hnote k x))
    (m.body = .hcall k →
      let c := s.core m.home
      (s.mailboxRoom m.home k = true → s.mayChoose k.slot (logTile m.home) 4 (k.choice true) = true →
        ∃ t, exec (.hingeCallArrival n) s = .next t ∧ (t.core m.home).mailbox = c.mailbox ++ [k] ∧
          (t.core m.home).arrivals = c.arrivals ++ [.hinge k] ∧ note t .accept) ∧
      (s.mailboxRoom m.home k = false → s.mayChoose k.slot (logTile m.home) 4 (k.choice false) = true →
        (∀ j ∈ c.mailbox, j.id ≠ k.id) →
        ∃ t, exec (.hingeCallArrival n) s = .next t ∧ (t.core m.home).mailbox = c.mailbox ∧
          (t.core m.home).arrivals = c.arrivals ∧ note t .refuse)) ∧
    (∀ x, m.body = .hnote k x →
      (u.lostCalls.contains k.id = true → exec (.hingeStatusArrival n) s =
        .next (if x = .accept then u else { s with net := removeAt s.net n })) ∧
      (u.lostCalls.contains k.id = false → ∃ t, exec (.hingeStatusArrival n) s = .next t ∧
        (k.dst.handler = none → (∀ rc, x = .failed rc → k.w = true) → Told u t k.caller.task fun c => c.landNote k x) ∧
        (∀ p core run, k.dst.handler = some (p, core, run) → (u.ctxOf core 4).isRun run = true →
          t.ctxOf core 4 = (u.ctxOf core 4).landNote k x) ∧
        (∀ rc, x = .failed rc → k.w = false → Told u t k.caller.task fun c =>
          { c with faults := c.faults.add 0x23 k.colour (BitVec.ofNat 64 (rc % 256 * 2 ^ 56 + k.target % 2 ^ 48)) }) ∧
        (x ≠ .accept → ∀ j ∈ t.remoteCalls, j.id ≠ k.id) ∧
        (x = .accept → t.remoteCalls =
          if k.w then s.remoteCalls else s.remoteCalls.map fun j => if j.id = k.id then { j with accepted := true } else j)))) ∧
  (∀ (c : Ctx) (k : Call) (v : Word) (rc : Nat), k.rd ≠ 0 → k.rd < 31 →
    let d : Reg := BitVec.ofNat 5 k.rd
    let e : Reg := BitVec.ofNat 5 (k.rd + 1)
    let word := fun (st rc : Nat) =>
      BitVec.ofNat 64 (st * 2 ^ 56 + rc % 256 * 2 ^ 48 + k.w.toNat * 2 ^ 45 + k.rd % 32 * 2 ^ 40 + k.entry % 256 * 2 ^ 32)
    let got := fun (x : Ctx) (reply st : Word) => x.hst = st ∧ x.pending.getLsbD k.rd = false ∧
      (if k.w then x.rx d = reply ∧ x.rx e = st ∧ x.pending.getLsbD (k.rd + 1) = false else x.rx d = st)
    (k.w = false → got (c.landNote k .accept) 0 (word 0 0) ∧ c.landNote k (.ended v) = c) ∧
    (k.w = true → c.landNote k .accept = c ∧ got (c.landNote k (.ended v)) v (word 0 0) ∧ got (c.landNote k (.failed rc)) 0 (word 2 rc)) ∧
    got (c.landNote k .refuse) 0 (word 1 0) ∧ got (c.landNote k .lost) 0 (word 3 0)) ∧
  (∀ (s : State) (n : Nat) (k : Call) (l : List Arrival), (s.core n).arrivals = .hinge k :: l → (s.ctxOf n 4).busy = false →
    s.defers n = false → (n < 2048 → s.preempted k.slot = false) →
    (∀ w, s.entryFor k = some w → k.payload.length ≤ 8 →
      ∃ t, exec (.hingeHandlerStart n) s = .next t ∧ t.mem = s.mem ∧ (t.core n).arrivals = l ∧
        let c := t.ctxOf n 4
        c.role = .hinge k s.fresh ∧ c.pc = BitVec.ofNat 64 (Word.field w 23 0) ∧
        c.hbud = (if Word.field w 47 32 = 0 then 256 else BitVec.ofNat 64 (Word.field w 47 32)) ∧ c.rx 2 = 0x180000 ∧
        c.rx 9 = BitVec.ofNat 64 k.target ∧ c.tid = k.tid ∧ c.grp = k.grp ∧ c.exitc = k.exitc ∧ c.colour = k.colour % 8 ∧
        ∀ i x, k.payload[i]? = some x → c.rx (BitVec.ofNat 5 (10 + i)) = x) ∧
    (s.entryFor k = none → ∃ t, exec (.hingeHandlerStart n) s = .next t ∧ t.mem = s.mem ∧ (t.core n).arrivals = l ∧
      (∀ j ∈ (t.core n).mailbox, j.id ≠ k.id) ∧
      (k.w = true ∨ k.back.1 ≠ s.pkg → OnWay t (msgOf k.caller k.back.1 k.back.2 k.colour k.group (.hnote k (.failed 0x23)))) ∧
      (k.w = false → k.back.1 = s.pkg → Told s t k.caller.task fun c =>
        { c with faults := c.faults.add 0x23 k.colour (BitVec.ofNat 64 (0x23 * 2 ^ 56 + k.target % 2 ^ 48)) }))) ∧
  (∀ (s : State) (id : Nat), (∀ j ∈ s.remoteCalls, j.id = id → j.accepted = true) → exec (.hingeReplyTimeout id) s = .next s) ∧
  (∀ (s : State) (id : Nat) (k : Call), (s.remoteCalls.find? fun j => j.id == id && !j.accepted) = some k →
    ((∀ l ∈ Config.linksTo k.pkg, s.linkDown l = false) → exec (.hingeReplyTimeout id) s = .next s) ∧
    ((∃ l ∈ Config.linksTo k.pkg, s.linkDown l = true) → ∃ t, exec (.hingeReplyTimeout id) s = .next t ∧ k.id ∈ t.lostCalls ∧
      (∀ j ∈ t.remoteCalls, j.id ≠ k.id) ∧ (k.dst.handler = none → Told s t k.caller.task fun c =>
        ({ c with faults := c.faults.add 0x24 k.colour (BitVec.ofNat 64 (k.target % 2 ^ 48)) } : Ctx).landNote k .lost)))

/-- R313-R316: CHANNEL_PACKET_ARRIVAL places a packet in its port, refuses it at a full one, or drops an unknown rank;
CHANNEL_PACKET_REPLY keeps a refused packet to send it again, each time twice as late; CHANNEL_RESEND sends it;
REDUCTION_ROUND forwards the sum of a full round, at the root into port 2. Model's choices in it: log entry 35. -/
def Obligations.ChannelSteps : Prop :=
  (∀ (s : State) (n : Nat) (m : Msg) (p : Packet), s.due n = some m →
    let u := s.take n m
    (m.body = .packet p → p.port < 4 → s.mayChoose m.iss.task.slot p.tile 7 p.choice = true →
      let q := (u.core p.tile).port p.port
      let serves := p.port = 3 ∧ (u.core p.tile).rtree.getLsbD 63 = true ∧ u.held p.tile = false
      let back := m.toward m.iss.task.pkg m.iss.task.core (.packetNote p true)
      let refused := m.toward m.iss.task.pkg m.iss.task.core (.packetNote { p with seq := m.seq } false)
      let there := fun (t : State) => (¬serves → (t.core p.tile).port p.port = { q with pkts := q.pkts ++ [p] }) ∧ OnWay t back
      ∃ t, exec (.channelPacketArrival n) s = .next t ∧
        ((∀ i c k, q.bound ≠ some (i, c, true, k)) →
          (q.pkts.length < 32 → there t) ∧
          (32 ≤ q.pkts.length → (t.core p.tile).port p.port = q ∧ OnWay t refused)) ∧
        (∀ i c k, q.bound = some (i, c, true, k) →
          let next := if q.next + 1 < k then q.next + 1 else 0
          (k ≤ p.rank → (t.core p.tile).port p.port = q ∧ OnWay t back ∧
            Told u t p.iss.task fun x => { x with faults := x.faults.add 0x23 p.colour p.route }) ∧
          (p.rank < k → q.pkts.length < (if p.rank = q.next then 32 else 31) → there t) ∧
          (serves → p.rank = q.next → q.next < k → q.pkts.length < 32 → q.taken.length ≤ treeChildren (u.core p.tile).rtree →
            (∀ e ∈ q.pkts, e.rank ≠ q.next ∧ e.rank ≠ next) →
            (t.core p.tile).port p.port = { q with taken := q.taken ++ [p], next := next }) ∧
          (p.rank < k → (if p.rank = q.next then 32 else 31) ≤ q.pkts.length →
            (t.core p.tile).port p.port = q ∧ OnWay t refused))) ∧
    (∀ placed, m.body = .packetNote p placed → ∃ t, exec (.channelPacketReply n) s = .next t ∧ t.mem = u.mem ∧
      (t.core p.iss.task.core).resend = (u.core p.iss.task.core).resend ++
        (if placed then [] else [({ p with wait := min 4096 (2 * p.wait) }, p.wait)]))) ∧
  (∀ (s : State) (n w : Nat) (p : Packet) (l : List (Packet × Nat)), (s.core n).resend = (p, w) :: l →
    ∃ t m, exec (.channelResend n) s = .next t ∧ (t.core n).resend = l ∧ t.mem = s.mem ∧ (m ∈ t.net ∨ m ∈ t.outbox) ∧
      m.body = .packet p ∧ m.seq = p.seq ∧ m.iss = p.iss ∧ m.home = p.tile ∧ m.colour = p.colour) ∧
  (∀ (s : State) (n : Nat), (s.core n).rtree.getLsbD 63 = true → s.held n = false → s.serverOut n = false →
    let u := s.serverTakes n
    let q := (u.core n).port 3
    let w := (s.core n).rtree
    (q.taken.length ≠ treeChildren w + 1 → exec (.reductionRound n) s = .next u) ∧
    (q.taken.length = treeChildren w + 1 → treeRoot w = false → ∃ t m p, exec (.reductionRound n) s = .next t ∧ OnWay t m ∧
      m.body = .packet p ∧ p.data = (reduceRound q.taken).1 ∧ p.rank = treeIndex w + 1 ∧ p.port = 3 ∧ p.server = true ∧
      (q.head = none → (t.core n).port 3 = { q with taken := [] })) ∧
    (q.taken.length = treeChildren w + 1 → treeRoot w = true → ((u.core n).port 2).pkts.length < 32 →
      (∀ i c k, ((u.core n).port 2).bound ≠ some (i, c, true, k)) →
      u.mayChoose ((s.core n).slot.getD 0) n 7 (tileWord n * 4) = true →
      ∃ t p, exec (.reductionRound n) s = .next t ∧ (q.head = none → (t.core n).port 3 = { q with taken := [] }) ∧
        ((t.core n).port 2).pkts = ((u.core n).port 2).pkts ++ [p] ∧ p.data = (reduceRound q.taken).1 ∧ p.rank = 0 ∧ p.rfmt = 0)) ∧
  (∀ (fmt : Nat) (a b : Vec) (i : Nat), i < (if fmt = 1 then 32 else 16) →
    let w := if fmt = 1 then 16 else 32
    laneOf (reduceVec fmt a b) w i = reduceLane fmt (laneOf a w i) (laneOf b w i) % 2 ^ w)

/-- R297-R299: a barrier whose every arrival line is asserted releases: its generation goes up and every member's pend goes
down by one; in a gang the package sends its arrival to package 0 first, which orders the release once it holds one of
every package. -/
def Obligations.BarrierSteps : Prop :=
  ∀ (s : State) (b sl g : Nat) (ms : List Nat), (s.bar b).bound = some (sl, g, ms) → ms.Nodup →
    let x := s.bar b
    let pends := fun (t : State) => ∀ n ∈ ms, wfFrom 0 0 (s.core n).pend = true → (t.core n).pendOf b = (s.core n).pendOf b - 1
    let gone := fun (t : State) => (t.bar b).gen = (x.gen + 1) % 2 ^ 32 ∧ (t.bar b).sent = false ∧ (t.bar b).bound = x.bound ∧ pends t
    let flit := fun (t : State) (p : Nat) (ws : List Nat) => OnWay t (msgOf (frontEnd s.pkg 4096) p 8192 8 0 (.control 5 ws))
    let up := ∀ n ∈ ms, 0 < (s.core n).pendOf b
    ((¬up ∨ x.sent = true) → exec (.barrierRelease b) s = .next s) ∧
    (up → x.sent = false → x.gangn ≤ 1 → ∃ t, exec (.barrierRelease b) s = .next t ∧ gone t) ∧
    (up → x.sent = false → 1 < x.gangn → s.pkg ≠ 0 → ∃ t, exec (.barrierRelease b) s = .next t ∧ t.bar b = { x with sent := true } ∧
      t.mem = s.mem ∧ flit t 0 [b, s.pkg]) ∧
    (up → x.sent = false → 1 < x.gangn → s.pkg = 0 → x.heldFrom = [] → ∃ t, exec (.barrierRelease b) s = .next t ∧
      t.bar b = { x with sent := true, heldFrom := [0] } ∧ t.mem = s.mem) ∧
    (∀ p, s.pkg = 0 → x.heldFrom.contains p = false →
      ((∀ k, k < x.gangn → k = p ∨ k ∈ x.heldFrom) → ∃ t, exec (.barrierArrivalFlit p b) s = .next t ∧ gone t ∧
        ∀ k, 0 < k → k < x.gangn → flit t k [b]) ∧
      (∀ k, k < x.gangn → k ≠ p → k ∉ x.heldFrom → ∃ t, exec (.barrierArrivalFlit p b) s = .next t ∧
        t.bar b = { x with heldFrom := p :: x.heldFrom } ∧ t.mem = s.mem)) ∧
    (s.pkg ≠ 0 → (x.sent = false → exec (.barrierReleaseFlit b) s = .next s) ∧
      (x.sent = true → ∃ t, exec (.barrierReleaseFlit b) s = .next t ∧ gone t))

/-- R52-R54, R353, R360, R361, R367: after ready every admin command completes, answered 0 with its effect, or refused
with another byte and no effect; KICK stores the tail of a queue that takes kicks, and counts any other; before ready all
are ignored (R63).
R50, R51: the host's registers and its BAR2 window.
R63: FIRMWARE_START ends with ready, unless a router or die edge failed; failed tiles are fenced.
The model's choices in it: a kick's tail is taken modulo the ring's size (log entry 51), QCREATE keeps what REPLAY, TWIN and
MBOXLIM have set (52), the codes of the admin mailbox and of its response (104), the width of a BAR0 access (103), what FIRMWARE_START clears (76), and
BAR2 reads of other packages (84). Model's choices in it: log entries 51, 52, 54, 67, 73, 76, 84, 103 and 104. -/
def Obligations.AdminSteps : Prop :=
  (∀ (s : State) (q count ageing mode len on limit off : Nat) (tail : BitVec 16) (base session log lg tick host v : Word),
    s.ready = false →
    exec (.kick q tail) s = .next s ∧ exec (.qtab base count) s = .next s ∧ exec (.qcreate q) s = .next s ∧
    exec (.slots count ageing) s = .next s ∧ exec (.ccreate q session) s = .next s ∧ exec .info s = .next s ∧
    exec (.sample tick host len) s = .next s ∧ exec (.replay q mode log lg) s = .next s ∧ exec (.twin q on) s = .next s ∧
    exec (.mboxlim q limit) s = .next s ∧ exec (.chknow q host) s = .next s ∧ exec (.bar2WindowBase v) s = .next s ∧
    exec (.registerWrite off v) s = .next s) ∧
  (∀ (s : State) (q : Nat), s.ready = true →
    (∀ tail : BitVec 16,
      (s.kickable q = false → exec (.kick q tail) s = .next (s.bump 0xCF0)) ∧
      (s.kickable q = true → ∃ t, exec (.kick q tail) s = .next t ∧ (t.queue q).tail = tail.toNat % qcbSize (s.qcb q))) ∧
    (∀ (base : Word) (count : Nat),
      let ok := base.toNat % 4096 = 0 ∧ 1 ≤ count ∧ count ≤ 4096
      ∃ t, exec (.qtab base count) s = .next t ∧ Responded t ok ∧ (ok → t.qtab = some (base.toNat, count)) ∧
        (s.formOk = true → Word.field (look 0 t.bar0 0x1040) 7 0 = t.response) ∧
        (¬ok → t.qtab = s.qtab)) ∧
    (let ok := (s.qcbAddr q).isSome = true ∧ qcbOk (s.hostQcb q) = true ∧ (s.slot q).hw = none ∧
        (s.slot q).cmd = none ∧ (s.slot q).outer = none;
      ∃ t, exec (.qcreate q) s = .next t ∧ Responded t ok ∧ (¬ok → t.queues = s.queues ∧ t.hostMem = s.hostMem) ∧
        (ok → (t.queue q).created = true ∧ (t.queue q).destroyed = false ∧
          (t.queue q).tail = Word.field (wordAt (s.hostQcb q) 1) 31 16 ∧ (t.queue q).mbox = (s.queue q).mbox ∧
          (t.queue q).twin = (s.queue q).twin ∧ (t.queue q).replay = (s.queue q).replay)) ∧
    (∀ count ageing : Nat,
      let ok := 1 ≤ count ∧ count ≤ 32
      ∃ t, exec (.slots count ageing) s = .next t ∧ Responded t ok ∧ (¬ok → t.slotCount = s.slotCount ∧ t.slots = s.slots) ∧
        (ok → t.slotCount = count ∧ t.ageing = (if ageing = 0 then 1000 else ageing) ∧ t.ageBase = s.tick.toNat)) ∧
    (∃ t, exec .info s = .next t ∧ Responded t True ∧ t.info.1 = BitVec.ofNat 64 (crc64 s.mapBytes)) ∧
    (∀ (tick host : Word) (len : Nat),
      let ok := 33280 ≤ len ∧ host.toNat % 64 = 0 ∧ (tick = 0 ∨ s.tick.toNat < tick.toNat)
      ∃ t, exec (.sample tick host len) s = .next t ∧ Responded t ok ∧ (¬ok → t.sampling = s.sampling) ∧
        (ok → ∃ n, s.tick.toNat < n ∧ (tick ≠ 0 → n = tick.toNat) ∧
          t.sampling = s.sampling ++ [{ tick := n, host := host.toNat, len := len }])) ∧
    (let free := s.live q = true ∧ (s.slot q).cmd = none ∧ (s.slot q).outer = none;
      (∀ session : Word, ∃ t, exec (.ccreate q session) s = .next t ∧ Responded t free ∧ (¬free → t.queues = s.queues) ∧
        (free → (t.queue q).session = some session ∧
          ((s.slot q).hw.isSome = true → 5 < (s.slot q).qcb.length → qcbConf (t.slot q).qcb = true))) ∧
      (∀ (mode : Nat) (log len : Word),
        let ok := free ∧ mode ≤ 2 ∧ (mode = 0 ∨ (log.toNat % 2 ^ 21 = 0 ∧ len.toNat % 2 ^ 21 = 0 ∧ log.toNat / 2 ^ 39 = s.pkg ∧
          (physOf 0 (log.toNat % 2 ^ 39)).isSome = true ∧ len ≠ 0))
        ∃ t, exec (.replay q mode log len) s = .next t ∧ Responded t ok ∧ (¬ok → t.queues = s.queues) ∧
          (ok → (t.queue q).replay = (mode, log, len))) ∧
      (∀ on : Nat, let ok := free ∧ on ≤ 1
        ∃ t, exec (.twin q on) s = .next t ∧ Responded t ok ∧ (¬ok → t.queues = s.queues) ∧
          (ok → ((t.queue q).twin = true ↔ on = 1))) ∧
      (∀ limit : Nat, let ok := free ∧ limit ≤ 64
        ∃ t, exec (.mboxlim q limit) s = .next t ∧ Responded t ok ∧ (¬ok → t.queues = s.queues) ∧
          (ok → (t.queue q).mbox = (if limit = 0 then 64 else limit)))) ∧
    (∀ host : Word,
      let p := wholePacket fun n => readBytes s.hostMem host.toNat (64 * n)
      let ok := (s.slot q).hw.isSome = true ∧ (s.slot q).side = none ∧ (∀ c, (s.slot q).cmd = some c → c.phase = .running) ∧
        pkOp p = 9 ∧ pkCrcOk p = true ∧ pkOk p = true
      ∃ t, exec (.chknow q host) s = .next t ∧ Responded t ok ∧ (¬ok → t.slots = s.slots) ∧
        (ok → ∃ k, (t.slot q).side = some k ∧ k.op = 9 ∧ k.phase = .fetched ∧ k.packet = p)) ∧
    (∀ v : Word, exec (.bar2WindowBase v) s = .next { s with bar2 := v &&& 0xFFFFFC0000003 }) ∧
    (∀ (off : Nat) (v : Word), s.formOk = true →
      let write := exec (.registerWrite off v) s
      (plainRegister off = true → ∃ b, write = .next { s with bar0 := b } ∧
        ∀ o, look 0 b o = if o = off then v else look 0 s.bar0 o) ∧
      (off = 0x10000 → write = exec (.bar2WindowBase v) s) ∧
      (∀ n, n < 4096 → off = 0x100000 + 8 * n → write = exec (.kick n (v.setWidth 16)) s) ∧
      (off = 0x1080 →
        let mail := (List.range 8).flatMap fun i => natBytes 8 (look 0 s.bar0 (0x1000 + 8 * i)).toNat
        (∀ base count, Config.adminCommand mail = [1, base, count] → write = exec (.qtab (BitVec.ofNat 64 base) count) s) ∧
        (∀ n, Config.adminCommand mail = [2, n] → write = exec (.qcreate n) s) ∧
        (Config.adminCommand mail = [5] → write = exec .info s) ∧
        (Config.adminCommand mail = [] → ∃ t, write = .next t ∧ Responded t False)) ∧
      (plainRegister off = false → off ≠ 0x1080 → off ≠ 0x10000 → ¬(0x100000 ≤ off ∧ off < 0x108000) → write = .next s))) ∧
  (∀ (s : State) (off : Nat) (l : List Turn), s.powered = true → s.ready = true → s.turns = .registerRead off :: l →
    ∃ w, step s = .next { s with turns := l, bar0Read := w } ∧ (off = 0x10 → w = 1) ∧ (off = 0x10000 → w = s.bar2) ∧
      ((off = 0x1080 ∨ (0x100000 ≤ off ∧ off < 0x108000)) → w = 0) ∧
      (plainRegister off = true → w = look 0 s.bar0 off)) ∧
  (∀ (s : State) (off len : Nat),
    let u := s.bar2Seen off len
    (s.enc = [] → u = s) ∧
    ∃ bs, exec (.bar2Read off len) s = .next { u with bar2Read := bs } ∧ bs.length = len ∧
      ∀ i, i < len →
        (∀ k, s.bar2Byte (off + i) = some k → bs.getD i 0 = readByte u.mem k) ∧
        (s.bar2Byte (off + i) = none → bs.getD i 0 = 0xFF)) ∧
  (∀ (s : State) (off : Nat) (b : Byte), s.memOk = true →
    let u := s.bar2Seen off 1
    (s.bar2Size ≤ off → s.bar2Byte off = none) ∧
    (s.bar2Byte off = none → exec (.bar2Write off [b]) s = .next s) ∧
    (∀ k, s.bar2Byte off = some k → ∃ t, exec (.bar2Write off [b]) s = .next t ∧ readByte t.mem k = b ∧ MemKept u t k 1)) ∧
  (∀ (s : State) (west east : Bool) (failed : List Nat),
    (s.powered = true → s.ready = true → exec (.firmwareStart (west, east) failed) s = .next s) ∧
    (s.powered = false ∨ s.ready = false → ∃ t, exec (.firmwareStart (west, east) failed) s = .next t ∧
      (t.ready = true ↔ ∀ n ∈ failed, n < 2048) ∧ (∀ n ∈ failed, n < 2048 → n ∈ t.fenced) ∧
      t.hubs.1.patches = (if west then s.hubs.1.table.take 64 else []) ∧
      t.hubs.2.patches = (if east then s.hubs.2.table.take 64 else []) ∧
      t.life.powerOns = min ((if s.powered then s.life else s.newestCopy.life).powerOns + 1) (2 ^ 64 - 1) ∧
      t.links = [] ∧ t.hostMem = s.hostMem ∧ (s.powered = false → t.powered = true ∧ t.mem = [] ∧ t.slots = [])))

/-- R55-R58: a slot's front end takes the next packet of its ring: a bad CRC halts the queue, a malformed packet completes
with status 2, and the packet of its own step is fetched; PACKET_COMPLETE ends a finished packet with its interrupt, and
head advances over it.
R56, R57: FENCE, SIGNAL, BOLT, CLEAR, COPYH, IB, DESTROY and CHKPT (R359) start their work, or are rejected with a status.
R61: a DESTROY that follows the packet in progress, in its indirect buffer or in the ring, an IB being one packet of the ring,
drains the queue and with cancel cancels that packet and the rest of the indirect buffer that it stands behind (the model's
choice, log entry 64); a record in another package is awaited as a join (log entry 65), and blocks of another package stream as
free values (log entry 90). Model's choices in it: log entries 52, 53, 61, 62, 64, 65 and 90. -/
def Obligations.PacketSteps : Prop :=
  (∀ (s : State) (q : Nat) (p : List Byte), s.peek q = some p → (s.slot q).outer = none → pkOp p = 6 →
    (pkCrcOk p = false → ∃ t, exec (.fencePacket q) s = .next t ∧ (t.queue q).halted = true ∧ (t.slot q).cmd = none) ∧
    (pkCrcOk p = true → pkOk p = false → ∃ t, exec (.fencePacket q) s = .next t ∧ Runs t q (s.newCmd q p .finished 2)) ∧
    (pkCrcOk p = true → pkOk p = true → ∃ t, exec (.fencePacket q) s = .next t ∧ Runs t q (s.newCmd q p .working 0))) ∧
  (∀ (s : State) (q a left : Nat) (p : List Byte) (o : Cmd), s.peek q = some p → (s.slot q).outer = some o → o.ib = some (a, left) →
    o.cancel = true → pkCrcOk p = true → pkBeats p ≤ left → pkOk p = true →
    (pkOp p = 1 → ∃ t, exec (.launch q) s = .next t ∧ Runs t q { s.newCmd q p .finished 0 with cancel := true }) ∧
    (pkOp p = 2 → ∃ t, exec (.gang q) s = .next t ∧ Runs t q { s.newCmd q p .finished 0 with cancel := true })) ∧
  (∀ (s : State) (q : Nat) (c : Cmd),
    let p := c.packet
    let reject := fun (e : Instr) (status : Nat) => ∃ t, exec e s = .next t ∧ t.mem = s.mem ∧ t.net = s.net ∧
      Runs t q { c with phase := .finished, status := status }
    let works := fun (t : State) => Runs t q { c with phase := .working }
    let sends := fun (t : State) (x : Spot) (group colour : Nat) (b : Machine.Body) =>
      OnWay t { msgOf (frontEnd s.pkg q) x.pkg x.home colour group b with
        lane := frontLane s.pkg q, page := x.e.privPage, key := s.keyOf q x.e }
    (Due s q 6 c → ∃ t, exec (.fencePacket q) s = .next t ∧ works t ∧ t.mem = s.mem ∧ t.net = s.net) ∧
    (Due s q 7 c →
      let n := 2 ^ pkNat p 32 1
      let data := natBytes n (pkNat p 24 8)
      (∀ x, s.pageAt q (pkNat p 16 6) = some x → signalOk x (pkNat p 16 6) n (pkNat p 33 1) data = true →
        ∃ t, exec (.signal q) s = .next t ∧ works t ∧ t.mem = s.mem ∧
          sends t x (pkNat p 33 1) 0 (.join x.pa (pkNat p 16 6) x.e.ctype x.e.width data false)) ∧
      ((∀ x, s.pageAt q (pkNat p 16 6) = some x → signalOk x (pkNat p 16 6) n (pkNat p 33 1) data = false) →
        reject (.signal q) 8)) ∧
    (let group := pkNat p 32 1
      let blocks := s.packetBlocks q (pkNat p 16 6) (pkNat p 24 8) group
      (Due s q 4 c → (blocks = none → reject (.boltPacket q) 8) ∧
        ∀ xs, blocks = some xs → ∃ t, exec (.boltPacket q) s = .next t ∧ works t ∧ t.mem = s.mem ∧
          ∀ x ∈ xs, sends t x.2 group 8 (.bolt x.2.pa x.1 group)) ∧
      (Due s q 5 c → (blocks = none → reject (.clearPacket q) 8) ∧
        ∀ xs, blocks = some xs → ∃ t, exec (.clearPacket q) s = .next t ∧ works t ∧ t.mem = s.mem ∧
          ∀ x ∈ xs, sends t x.2 group 8 (.clearApply x.2.pa x.1 x.2.e.ctype x.2.e.width))) ∧
    (Due s q 3 c →
      let host := pkNat p 16 8
      let va := pkNat p 24 6
      let group := pkNat p 41 1
      let spots := s.copyhSpots q va (pkNat p 32 8) (pkNat p 40 1) group
      (spots = none → reject (.copyh q) 8) ∧
      (∀ xs, spots = some xs → pkNat p 40 1 ≠ 1 → ∃ t, exec (.copyh q) s = .next t ∧ works t ∧ t.mem = s.mem ∧
        ∀ x ∈ xs, ∀ m ∈ s.copyhMsgs q host va group (pkNat p 42 1) x.1 x.2, OnWay t m) ∧
      (let there := fun (t u : State) (x : (Nat × Nat) × Spot) => ∀ i, i < x.1.2 →
          readByte t.hostMem (host + (x.1.1 - va) + i) = (u.readCells x.2.pa x.2.e.ctype x.2.e.width x.1.2).getD i 0;
        (∀ xs, spots = some xs → pkNat p 40 1 = 1 → s.memOk = true → s.enc = [] →
          (∀ x ∈ xs, x.2.pkg = s.pkg ∧ s.poisoned x.2.pa x.1.2 = false ∧ s.keyOf q x.2.e = none) →
          ∃ t, exec (.copyh q) s = .next t ∧ works t ∧ t.mem = s.mem ∧ ∀ x ∈ xs, there t s x) ∧
        (∀ x, spots = some [x] → pkNat p 40 1 = 1 → s.memOk = true → x.2.pkg = s.pkg → s.poisoned x.2.pa x.1.2 = false →
          let u := s.seen (s.keyOf q x.2.e) x.2.pa
          ∃ t, exec (.copyh q) s = .next t ∧ works t ∧ t.mem = u.mem ∧ there t u x))) ∧
    (Due s q 10 c → ∃ t, exec (.ib q) s = .next t ∧ t.mem = s.mem ∧ (t.slot q).cmd = none ∧
      (t.slot q).outer = some { c with ib := some (pkNat p 16 8, pkNat p 24 4), phase := .working }) ∧
    (Due s q 8 c → 1 < (s.slot q).qcb.length → qcbConf (s.slot q).qcb = false →
      ∃ t, exec (.destroy q) s = .next t ∧ works t ∧ t.mem = s.mem ∧ qcbState (t.slot q).qcb = 2) ∧
    ((s.slot q).cmd = some c → c.op ≠ 8 → 1 < (s.slot q).qcb.length → qcbState (s.slot q).qcb ≠ 2 → ∀ b, s.behind q = some b →
      ∃ t, exec (.destroy q) s = .next t ∧ qcbState (t.slot q).qcb = 2 ∧
        (pkCancel b = false → Runs t q c) ∧
        (pkCancel b = true → c.phase = .fetched → Runs t q { c with cancel := true, phase := .finished }) ∧
        (pkCancel b = true → c.phase ≠ .fetched → c.phase = .preparing ∨ (c.op ≠ 1 ∧ c.op ≠ 2) → Runs t q { c with cancel := true }) ∧
        (∀ o, pkCancel b = true → (s.slot q).outer = some o → (∀ p, s.behindIb q = some p → pkOp p ≠ 8) →
          (t.slot q).outer = some { o with cancel := true }) ∧
        (pkCancel b = true → c.op = 1 ∨ c.op = 2 → c.phase = .running → Runs t q { c with cancel := true } ∧
          ∀ n ∈ c.members, OnWay t (msgOf (frontEnd s.pkg 4096) s.pkg n 8 0 (.cancel (2 ^ 48) q n)))) ∧
    (Due s q 9 c → (s.slot q).side = none →
      let store := pkNat p 34 2
      let links := maskLinks (pkNat p 32 2)
      let led := links ≠ [] ∧ ∀ l ∈ links, Config.linkLeadsTo l store = true
      let blocks := s.regionBlocks q (pkNat p 24 8) (pkNat p 16 6)
      (¬led → reject (.chkpt q) 2) ∧ (led → blocks = none → reject (.chkpt q) 8) ∧
      (∀ xs, led → blocks = some xs →
        let n := (xs.filter fun x => !s.skipsBlock store x.2).length
        ((∃ l ∈ links, (look {} s.links l : Link).failed = true) → ∃ t, exec (.chkpt q) s = .next t ∧ t.stream = s.stream ∧
          Runs t q { c with phase := .finished, link := true }) ∧
        ((∀ l ∈ links, (look {} s.links l : Link).failed = false) → ∃ t, exec (.chkpt q) s = .next t ∧ t.lastStore = some store ∧ t.mem = s.mem ∧
          t.stream.length = s.stream.length + n ∧ Runs t q { c with phase := .working, sent := n }))) ∧
    ((s.slot q).cmd = some c → (s.slot q).side = none → c.op = 9 → c.phase = .working → c.acked < c.sent →
      ∃ t, exec (.chkptBlockAck q) s = .next t ∧ Runs t q { c with acked := c.acked + 1 } ∧ t.mem = s.mem) ∧
    ((s.slot q).cmd = some c → (s.slot q).side = none → (s.slot q).hw.isSome = true →
      (c.phase = .finished → s.recordFar q c = true → ∃ t, exec (.packetComplete q) s = .next t ∧
        Runs t q { c with phase := .recording } ∧ t.interrupts = s.interrupts ∧ t.mem = s.mem) ∧
      (c.phase = .recording → s.frontOwes q = true → exec (.packetComplete q) s = .next s)) ∧
    ((s.slot q).cmd = some c → (s.slot q).side = none → (s.slot q).outer = none → (s.slot q).hw.isSome = true → c.op ≠ 8 →
      (c.phase = .finished ∧ s.recordFar q c = false) ∨ (c.phase = .recording ∧ s.frontOwes q = false) → ∃ t, exec (.packetComplete q) s = .next t ∧ (t.slot q).cmd = none ∧
        (pkIrq p = true → (wordAt (s.slot q).qcb 6).getLsbD 63 = true → Word.field (wordAt (s.slot q).qcb 6) 10 0 ∈ t.interrupts) ∧
        (let b := (s.slot q).qcb
          let h := (qcbHead b + c.beats) % qcbSize b
          1 < b.length → qcbSize b ≤ 65536 → h ≠ (s.queue q).tail → NoneWaiting s → qcbHead (t.slot q).qcb = h)))

/-- R64, R72: LAUNCH with a failing check completes with its status and changes no memory; else, once no other command
holds its tiles or barriers and other packages have initialised what they hold of its regions (R47), it runs and its root
record starts on its group's leader.
R73: GANG arms this package or says why not, and a held ABORT completes it; ARM collects at package 0 until tick T - M;
GANG_DECIDE decides from then on, where unequal member counts abort (R68), and GANG_DECISION carries the decision until tick T
and passes it on; what comes before the package's own packet is kept for it; GANG_START starts the command at its tick, or
completes it with link failure when no decision came.
Model's choices in it: log entries 57 and 58. -/
def Obligations.LaunchSteps : Prop :=
  (∀ (s : State) (q : Nat) (c : Cmd),
    let runs := fun (t : State) (gs : List Group) (root : Rec) (k : Cmd) => Runs t q k ∧ k.phase = .running ∧ k.tstart = s.tick ∧
      ∀ g, (gs.find? fun g => g.id == root.group) = some g →
        (c.phase = .fetched ∧ g.leader ∈ k.members) ∨ (s.core g.leader).freeCtx.isSome = true →
        ∃ i, i < 4 ∧ (t.ctxOf g.leader i).role = .task
    (Due s q 1 c →
      (∀ status ftval, s.checkLaunch q c = .error (status, ftval) → ∃ t, exec (.launch q) s = .next t ∧ t.mem = s.mem ∧
        Runs t q { c with phase := .finished, status := status, ftval := ftval }) ∧
      (∀ p, s.checkLaunch q c = .ok p → s.blockedBy q p = true → exec (.launch q) s = .next s) ∧
      (∀ p, s.checkLaunch q c = .ok p → s.blockedBy q p = false → ∃ t k, exec (.launch q) s = .next t ∧ Runs t q k ∧
        k.members = p.members ∧ k.groups = p.groups ∧
        ((s.prepare q c p).frontOwes q = true → k.phase = .preparing) ∧
        ((s.prepare q c p).frontOwes q = false → c.cancel = false → c.lostLink = false → runs t p.groups p.root k))) ∧
    ((s.slot q).cmd = some c → c.op = 1 → c.phase = .preparing → (s.slot q).hw.isSome = true → ∃ t k,
      exec (.launch q) s = .next t ∧ Runs t q k ∧ (s.frontOwes q = true → k = c) ∧
      (s.frontOwes q = false → (c.cancel = true ∨ c.lostLink = true → k = { c with phase := .finished }) ∧
        (c.cancel = false → c.lostLink = false → runs t c.groups (pkRoot q c.packet) k)))) ∧
  (∀ (s : State) (q : Nat) (c : Cmd), Due s q 2 c → c.gang = none →
    let g := s.newGang q c
    let k := { c with gang := some g }
    let u := (s.takeEarly q).setCmd q (some k)
    let arms := fun (t : State) (status : Nat) (counts : List (Nat × Nat)) =>
      (∃ x y, Runs t q x ∧ x.phase = .armed ∧ x.gang = some y ∧
        (s.pkg = 0 → y.arms = if g.arms.any (·.1 == 0) ∨ g.tick < s.tick.toNat + g.margin then g.arms else g.arms ++ [(0, status, counts)])) ∧
      (s.pkg ≠ 0 → OnWay t (msgOf (frontEnd s.pkg 4096) 0 8192 8 0 (.control 8
        ([Word.field (wordAt (s.slot q).qcb 5) 47 32, 0, s.pkg, status, g.tick] ++ counts.flatMap fun n => [n.1, n.2]))))
    ((s.queue q).arms = [] → g.arms = []) ∧ (∀ v, g.decision = some v ↔ (s.queue q).decision = some (v, g.tick)) ∧
    (g.tick < s.tick.toNat → ∃ t, exec (.gang q) s = .next t ∧ t.mem = s.mem ∧ Runs t q { c with phase := .finished, status := 4 }) ∧
    (∀ v, s.tick.toNat ≤ g.tick → g.decision = some v → v ≠ 0 → ∃ t, exec (.gang q) s = .next t ∧ t.mem = s.mem ∧
      Runs t q { k with phase := .finished, status := v }) ∧
    (s.tick.toNat ≤ g.tick → (g.decision = none ∨ g.decision = some 0) →
      (∀ status ftval, u.checkLaunch q k = .error (status, ftval) →
        ∃ t, exec (.gang q) s = .next t ∧ t.mem = s.mem ∧ arms t status []) ∧
      (∀ p, u.checkLaunch q k = .ok p → u.blockedBy q p = true → exec (.gang q) s = .next u) ∧
      (∀ p, u.checkLaunch q k = .ok p → u.blockedBy q p = false → ∃ t, exec (.gang q) s = .next t ∧
        ((u.prepare q k p).frontOwes q = true → ∃ x, Runs t q x ∧ x.phase = .preparing) ∧
        ((u.prepare q k p).frontOwes q = false → c.lostLink = false →
          arms t 0 (p.groups.map fun g => (g.id, g.members.length)))))) ∧
  (∀ (s : State) (q pkg start : Nat) (status : BitVec 8) (counts : List (Nat × Nat)),
    (∀ c g, (s.slot q).cmd = some c → c.gang = some g → g.tick ≠ start) →
    (s.pkg = 0 →
      (start < s.tick.toNat → exec (.arm q pkg (status, start, counts)) s = .next s) ∧
      (s.tick.toNat ≤ start → ∃ t, exec (.arm q pkg (status, start, counts)) s = .next t ∧ t.slots = s.slots ∧
        (t.queue q).arms = (s.queue q).arms ++
          [{ pkg := pkg, status := status.toNat, start := start, counts := counts, came := s.tick.toNat }])) ∧
    (s.pkg ≠ 0 → exec (.arm q pkg (status, start, counts)) s = .next s ∧
      (start < s.tick.toNat → exec (.gangDecision q (status, start)) s = .next s) ∧
      (s.tick.toNat ≤ start → (∀ v, (s.queue q).decision ≠ some (v, start)) →
        ∃ t, exec (.gangDecision q (status, start)) s = .next t ∧ t.slots = s.slots ∧
          (t.queue q).decision = some (status.toNat, start)))) ∧
  (∀ (s : State) (q pkg : Nat) (status : BitVec 8) (counts : List (Nat × Nat)) (c : Cmd) (g : Gang),
    (s.slot q).cmd = some c → c.gang = some g →
    (s.pkg = 0 → (∀ a ∈ g.arms, a.1 ≠ pkg) → ∃ t, exec (.arm q pkg (status, g.tick, counts)) s = .next t ∧ t.mem = s.mem ∧
      (s.tick.toNat + g.margin ≤ g.tick → Runs t q { c with gang := some { g with arms := g.arms ++ [(pkg, status.toNat, counts)] } }) ∧
      (g.tick < s.tick.toNat + g.margin → Runs t q c)) ∧
    (let decided := fun (t : State) (v : Nat) => ∃ x, Runs t q x ∧ x.gang = some { g with decision := some v } ∧
        (v = 0 → x.phase = c.phase) ∧ (v ≠ 0 → x.phase = .finished ∧ x.status = v);
      s.undecided q = some g →
      (s.tick.toNat + g.margin < g.tick → exec (.gangDecide q) s = .next s) ∧
      (s.pkg = 0 → g.tick ≤ s.tick.toNat + g.margin → ∃ t v, exec (.gangDecide q) s = .next t ∧ t.mem = s.mem ∧ decided t v ∧
        (v = 0 ↔ (∀ p, p < g.n → ∃ a ∈ g.arms, a.1 = p) ∧ (∀ a ∈ g.arms, a.2.1 = 0) ∧
          ∀ a ∈ g.arms, ∀ b ∈ g.arms, a.2.2 = b.2.2) ∧
        ((∀ a ∈ g.arms, a.2.1 = 0) → (∃ a ∈ g.arms, ∃ b ∈ g.arms, a.2.2 ≠ b.2.2) → v = 2) ∧
        ∀ p, 0 < p → p < g.n → OnWay t (msgOf (frontEnd 0 4096) p 8192 8 0
          (.control 8 [Word.field (wordAt (s.slot q).qcb 5) 47 32, 1, v, g.tick]))) ∧
      (s.pkg ≠ 0 → (g.tick < s.tick.toNat → exec (.gangDecision q (status, g.tick)) s = .next s) ∧
        (s.tick.toNat ≤ g.tick → ∃ t, exec (.gangDecision q (status, g.tick)) s = .next t ∧ t.mem = s.mem ∧
          decided t status.toNat ∧ ∀ p, 0 < p → p < s.gangCount q → p ≠ s.pkg → OnWay t (msgOf (frontEnd s.pkg 4096) p 8192 8 0
            (.control 8 [Word.field (wordAt (s.slot q).qcb 5) 47 32, 1, status.toNat, g.tick]))))) ∧
    (g.tick ≤ s.tick.toNat → c.phase = .armed ∨ c.phase = .fetched ∨ c.phase = .preparing →
      let starts := ∃ t k, exec (.gangStart q) s = .next t ∧ Runs t q k ∧ k.tstart = BitVec.ofNat 64 g.tick ∧
        ((s.slot q).hw.isSome = true → k.phase = .running) ∧ ((s.slot q).hw = none → k.phase = .preempted)
      (g.decision = some 0 → c.cancel = true → ∃ t, exec (.gangStart q) s = .next t ∧ Runs t q { c with phase := .fencing }) ∧
      (g.decision = some 0 → c.cancel = false → starts) ∧
      (g.decision = none → s.pkg = 0 → g.verdict = 0 → c.cancel = false → starts) ∧
      (g.decision = none → s.pkg = 0 → g.verdict ≠ 0 → ∃ t k, exec (.gangStart q) s = .next t ∧ Runs t q k ∧
        k.phase = .finished ∧ k.status = g.verdict) ∧
      (g.decision = none → s.pkg ≠ 0 → ∃ t k, exec (.gangStart q) s = .next t ∧ Runs t q k ∧ k.phase = .finished ∧
        k.status = 0 ∧ k.link = true)))

/-- R81-R83: a wave over a running command clears the dirty bits, and the second clean one in a row declares quiescence;
in a gang package 0 gathers the results, and its outcome reaches the others.  R360: a CHKNOW counts the waves in a row whose
sum is zero, of a gang the combined ones.
R294: a package's fence report stands until all have come.  R356: a replay of which a point has waited 10,000,000 ticks is
abandoned, which rlog shows.
R59, R60: AGEING_BOUNDARY, ENERGY_SAMPLE and PERIOD_BOUNDARY. Model's choices in it: log entries 26, 52, 56 and 97. -/
def Obligations.CommandSteps : Prop :=
  (∀ (s : State) (q : Nat) (c : Cmd), (s.slot q).cmd = some c →
    (c.phase = .running → c.gang = none →
      let sum := (c.members.map fun n => ((s.core n).sent : Int) - ((s.core n).recv : Int)).sum
      let clean := (∀ n ∈ c.members, s.tileIdle n = true ∧ (s.core n).dirty = false) ∧ sum = 0
      ∃ t, exec (.terminationWave q) s = .next t ∧
        (¬clean → Runs t q { c with clean := 0 } ∧ t.mem = s.mem ∧ ∀ n ∈ c.members, (t.core n).dirty = false) ∧
        (clean → c.clean = 0 → Runs t q { c with clean := 1 } ∧ t.mem = s.mem) ∧
        (clean → 1 ≤ c.clean → ∃ k, Runs t q k ∧ k.phase = .fencing) ∧
        (∀ d, ¬clean → (s.slot q).side = some d →
          (t.slot q).side = some { d with clean := if sum = 0 then d.clean + 1 else 0 })) ∧
    (c.phase = .running → ∀ g, c.gang = some g →
      (s.pkg ≠ 0 → (∃ t k, exec (.gangWaveResult q 0 true false 0) s = .next t ∧ Runs t q k ∧ k.phase = .fencing) ∧
        (∀ p idle dirty (sum : Int), p ≠ 0 → exec (.gangWaveResult q p idle dirty sum) s = .next s) ∧
        (∀ dirty (sum : Int) d, (s.slot q).side = some d → ∃ t, exec (.gangWaveResult q 0 false dirty sum) s = .next t ∧ Runs t q c ∧
          (t.slot q).side = some { d with clean := if sum = 0 then d.clean + 1 else 0 })) ∧
      (∀ pkg idle dirty (sum : Int), s.pkg = 0 → (∀ w ∈ g.waves, w.1 ≠ pkg) →
        (∃ p, p < g.n ∧ p ≠ pkg ∧ ∀ w ∈ g.waves, w.1 ≠ p) →
        ∃ t, exec (.gangWaveResult q pkg idle dirty sum) s = .next t ∧ t.mem = s.mem ∧
          Runs t q { c with gang := some { g with waves := (pkg, idle, dirty, sum) :: g.waves } })) ∧
    (∀ (g : Gang) (pkg : Nat) (status fclass : BitVec 8) (cancel : Bool), c.gang = some g → (∀ r ∈ g.reports, r.1 ≠ pkg) →
      ∃ t, exec (.gangFenceReport q pkg status fclass cancel) s = .next t ∧ t.mem = s.mem ∧
        Runs t q { c with gang := some { g with reports := g.reports ++ [(pkg, status.toNat, fclass.toNat, cancel)] } }) ∧
    (let waited := ∃ e ∈ s.schedLog, e.1 / 2 ^ 12 = q ∧ 10000000 ≤ e.2.held;
      (c.rlog = 2 → waited → ∃ t, exec (.replayAbandon q) s = .next t ∧ t.mem = s.mem ∧ Runs t q { c with rlog := 3 }) ∧
      (¬waited → exec (.replayAbandon q) s = .next s))) ∧
  (∀ s : State, s.slotCount ≠ 0 → s.ageBase + s.ageing * 1000 ≤ s.tick.toNat → ∃ t, exec .ageingBoundary s = .next t ∧
    t.ageBase = s.ageBase + s.ageing * 1000 ∧ ∀ q, t.queue q =
      (if (s.queue q).waiting = true ∧ (s.queue q).since ≤ s.ageBase then { s.queue q with eprio := min 255 ((s.queue q).eprio + 1) }
        else s.queue q)) ∧
  (∀ (s : State) (q : Nat), NoneWaiting s → (s.slot q).hw.isSome = true → 4 < (s.slot q).qcb.length →
    let b := (s.slot q).qcb
    let budget := Word.field (wordAt b 3) 63 32
    (∀ e, let charged := (wordAt b 4).toNat + e
      (budget = 0 ∨ charged < budget * 1000 → ∃ t, exec (.energySample [(q, e)]) s = .next t ∧ t.mem = s.mem ∧
        wordAt (t.slot q).qcb 4 = BitVec.ofNat 64 charged ∧
        ∀ c, (s.slot q).cmd = some c → Runs t q { c with energy := c.energy + e }) ∧
      (budget ≠ 0 → budget * 1000 ≤ charged →
        ∃ t, exec (.energySample [(q, e)]) s = .next t ∧ (t.queue q).held = true ∧ (t.slot q).hw = none ∧
          ∀ c, (s.slot q).cmd = some c → if c.phase = .running then t.preempted q = true
            else Runs t q { c with energy := c.energy + e })) ∧
    ((s.queue q).created = true → (s.queue q).period + qcbPeriod b ≤ s.tick.toNat → ∃ t, exec (.periodBoundary q) s = .next t ∧
      (t.queue q).held = false ∧ (t.queue q).period = (s.queue q).period + qcbPeriod b ∧ wordAt (t.slot q).qcb 4 = 0))

/-- R17: what the sending side of a link builds is a whole flit with the fields given to it, and takes the next number and a
place in the replay buffer, which an acknowledgement empties up to its number.
R17, R18: FLIT_RECEIVE takes whole flits in their sequence and delivers their messages; else it asks for a replay, and at the
eighth failed one in a row retrains; at the other side's request everything later is sent again.  LINK_RETRAIN,
LINK_RETRAIN_COMPLETE and LINK_FAIL_TIMEOUT move a link through its states.  Messages, checkpoint streams and idle and
tick-alignment flits leave over links in flits of their vnets; a message waits for those that it must not pass (R194).
R20: CLOCK_STEP.  R348, R349: DEBUG_HALT, the debugger's writes, SINGLE_STEP and DEBUG_RESUME.  R354: SAMPLE_PULSE.
R358, R362: SCRUB, corrected errors and UNCORRECTABLE_ERROR, which counts the error at its die and fences a tile at its fifth
SRAM error within 24 hours.  R361: the lifetime record, powered seconds and power.
The two copies in both hubs and the turns that bring corrected errors and power readings are the model's choice (log entry
66), so is what POWER_DOWN and POWER_FAILURE leave, a part without power (log entry 76), and what a lost latch, call or packet
leads to (log entry 89).
Model's choices in it: log entries 60, 66, 67, 70, 71, 76, 78, 89, 99, 100 and 101. -/
def Obligations.HealthSteps : Prop :=
  (∀ (k : Link) (ty vnet : Nat) (payload : List Byte), ty ≤ 5 → vnet ≤ 8 → payload.length ≤ 240 →
    (∃ f, (k.put ty vnet payload).wire = k.wire ++ [f] ∧ (k.put ty vnet payload).replayBuf = k.replayBuf ++ [f] ∧
      (k.put ty vnet payload).next = (k.next + 1) % 4096 ∧ flitOk f = true ∧ flitField f 63 60 = ty ∧ flitField f 59 56 = vnet ∧
      flitField f 55 44 = k.next % 4096 ∧ flitField f 43 32 = (k.expect + 4095) % 4096 ∧ flitPayload f = payload) ∧
    ∀ r, r ≤ k.replayBuf.length → k.replayBuf.length < 4096 → k.next < 4096 →
      (k.acked ((k.next + 4095 - r) % 4096)).replayBuf = k.replayBuf.drop (k.replayBuf.length - r)) ∧
  (∀ (s : State) (l : Nat) (f : List Byte), l < 12 →
    let k := look {} s.links l
    let link := fun (t : State) => look {} t.links l
    let n := if k.replayAsked then k.replays + 1 else k.replays
    (s.linkDown l = true → exec (.flitReceive l f) s = .next s) ∧
    (s.linkDown l = false → flitOk f = false → ∃ t, exec (.flitReceive l f) s = .next t ∧ t.flits = s.flits ∧ t.net = s.net ∧
      t.mem = s.mem ∧
      (n < 8 → link t = { k with replays := n, replayAsked := true }.put 2 0 []) ∧
      (8 ≤ n → (link t).retraining = true ∧ (link t).up = false ∧ (link t).retrains = k.retrains + 1 ∧
        look 0 t.life.counts (0x09D0 + 8 * l) = min (look 0 s.life.counts (0x09D0 + 8 * l) + 1) (2 ^ 64 - 1))) ∧
    (s.linkDown l = false → flitOk f = true → flitField f 55 44 ≠ k.expect → ∃ t, exec (.flitReceive l f) s = .next t ∧
      t.flits = s.flits ∧ t.net = s.net ∧ t.mem = s.mem ∧ (k.replayAsked = true → t = s) ∧
      (k.replayAsked = false → link t = { k with replayAsked := true }.put 2 0 [] ∨ 8 ≤ k.replays)) ∧
    (s.linkDown l = false → flitOk f = true → flitField f 55 44 = k.expect → ∃ u, u.net = s.net ∧ u.mem = s.mem ∧
      u.tick = s.tick ∧ (link u).expect = (k.expect + 1) % 4096 ∧ (link u).replays = 0 ∧ (link u).replayAsked = false ∧
      (link u).replayBuf = (k.acked (flitField f 43 32)).replayBuf ∧
      look 0 (link u).credits (flitField f 15 12) = look 0 k.credits (flitField f 15 12) + flitField f 31 16 ∧
      (let v := flitField f 59 56;
        (flitField f 63 60 = 1 ∨ flitField f 63 60 = 3 → u.flits = s.flits ++ [(v, flitPayload f)] ∧
          exec (.flitReceive l f) s = .next ((Config.messagesIn v (flitPayload f)).foldl State.deliver u)) ∧
        (flitField f 63 60 = 4 → u.flits = s.flits ∧ ∃ t, exec (.flitReceive l f) s = .next t ∧ t = { u with tick := t.tick } ∧
          s.tick.toNat ≤ t.tick.toNat) ∧
        (¬(flitField f 63 60 = 1 ∨ flitField f 63 60 = 3 ∨ flitField f 63 60 = 4) → u.flits = s.flits ∧
          exec (.flitReceive l f) s = .next u))) ∧
    (∀ (last : Nat) (rest : List Turn), s.turns = .replayRequest l last :: rest → s.powered = true → s.linkDown l = false →
      ∃ t, step s = .next t ∧ (link t).replayBuf = (k.acked last).replayBuf ∧
        (link t).wire = k.wire ++ (k.acked last).replayBuf) ∧
    (k.retraining = false → k.failed = false → ∃ t, exec (.linkRetrain l) s = .next t ∧ (link t).retraining = true ∧
      (link t).up = false ∧ (link t).retrains = k.retrains + 1) ∧
    (k.retraining = true → ∃ t, exec (.linkRetrainComplete l) s = .next t ∧
      link t = { k with up := true, retraining := false }.put 5 0 []) ∧
    (∀ (tick : Bool) (rest : List Turn), s.turns = .linkFlit l tick :: rest → s.powered = true →
      (s.linkFull l 1 = true → step s = .next { s with turns := rest }) ∧
      (s.linkFull l 1 = false → ∃ t, step s = .next t ∧ ∃ bs, (tick = false → bs = []) ∧
        link t = k.put (if tick then 4 else 0) 0 bs)) ∧
    (∀ (i : Nat) (bs : List Byte) (rest : List Turn), s.turns = .streamFlit l :: rest → s.powered = true →
      s.stream.findIdx? (·.1 == l) = some i → s.stream[i]? = some (l, bs) → s.linkFull l 1 = false →
      ∃ t, step s = .next t ∧ link t = k.put 1 7 (bs.take 240) ∧
        t.stream = (if bs.length ≤ 240 then removeAt s.stream i else replaceAt s.stream i (l, bs.drop 240))) ∧
    (∀ (n : Nat) (m : Msg) (rest : List Turn), s.turns = .sendFlit l n :: rest → s.powered = true → s.outbox[n]? = some m →
      ((m.wired.isSome = true ∨ l ∉ m.way ∨ (∃ e ∈ s.outbox.take n, e.wired = none ∧ e.pkg = m.pkg ∧ mustWait e m = true)) →
        step s = .next { s with turns := rest }) ∧
      ∀ t, m.body.vnet ≤ 8 → step s = .next t → t.outbox = s.outbox ∨
        (t.outbox = replaceAt s.outbox n { m with wired := some l } ∧ l ∈ m.way ∧ ∃ fs, (link t).wire = k.wire ++ fs ∧ fs ≠ [] ∧
          ∀ f ∈ fs, flitOk f = true ∧ flitField f 63 60 = m.body.flitType ∧ flitField f 59 56 = m.body.vnet)) ∧
    (k.retraining = true → k.failed = false → ∃ t, exec (.linkFailTimeout l) s = .next t ∧ (link t).failed = true ∧
      (link t).up = false ∧ (link t).failures = k.failures + 1)) ∧
  (∀ s : State, exec (.clockStep true) s = .next { s with clock := min 33 (s.clock + 1) } ∧
    exec (.clockStep false) s = .next { s with clock := max 16 (s.clock - 1) }) ∧
  (∀ (s : State) (n i : Nat),
    (∃ t, exec (.debugHalt n) s = .next t ∧ t = s.setCore n (t.core n) ∧ (t.core n).halted = true ∧
      (t.core n).haltCause = 0x41 ∧ (t.core n).ctxs = (s.core n).ctxs) ∧
    (∀ (x : Ctx) (tvec xb : Word) (rest : List Turn), s.turns = .debugWrite n i x tvec xb :: rest → s.powered = true → i < 5 →
      let conf := ∃ q, (s.core n).slot = some q ∧ qcbConf (s.slot q).qcb = true
      ((s.core n).halted = false ∨ conf → step s = .next { s with turns := rest }) ∧
      ((s.core n).halted = true → ¬conf → ∃ t, step s = .next t ∧ t = { s with turns := rest }.setCore n (t.core n) ∧
        (let c := t.ctxOf n i;
          c.x = x.x ∧ c.v = x.v ∧ c.k = x.k ∧ c.pc = x.pc &&& 0x3FFFFC ∧ c.tval = x.tval ∧ c.fseed = x.fseed ∧
          c.tstat = x.tstat &&& 0x7FFFF ∧ c.fpre = x.fpre &&& 0x3FFFFF ∧ c.fflags = x.fflags &&& 0x3F3F ∧ c.frm = x.frm &&& 7) ∧
        (∀ j, j ≠ i → t.ctxOf n j = s.ctxOf n j) ∧
        (xb.toNat % 4096 = 0 → 0x1000 ≤ xb.toNat → xb.toNat ≤ 0x100000 → (t.core n).xb = xb) ∧
        (tvec.toNat < 0x100000 → tvec.toNat % 4 = 0 → (t.core n).tvec = tvec))) ∧
    ((s.core n).halted = true →
      exec (.singleStep n i) s = .next { s with turns := .single n i :: s.turns } ∧
      ∃ t, exec (.debugResume n) s = .next t ∧ t = s.setCore n (t.core n) ∧ (t.core n).halted = false ∧
        ∀ j, j < 5 → (j ∈ (s.core n).atBrk → (s.core n).savedCtx j = none → (t.ctxOf n j).pc = (s.ctxOf n j).pc + 4) ∧
          (∀ x, j ∈ (s.core n).atBrk → (s.core n).savedCtx j = some x →
            ∃ y, (t.core n).savedCtx j = some y ∧ y.pc = x.pc + 4 ∧ t.ctxOf n j = s.ctxOf n j) ∧
          (j ∉ (s.core n).atBrk → t.ctxOf n j = s.ctxOf n j))) ∧
  (∀ (s : State) (a : SampleArm), (s.sampling.find? fun a => decide (a.tick ≤ s.tick.toNat)) = some a →
    ∃ t, exec .samplePulse s = .next t ∧ t.sampling = s.sampling.erase a ∧ t.mem = s.mem ∧
      ∀ n, n < 2048 → (t.core n).sample = s.sampleOf n) ∧
  (∀ (s : State) (place : Nat),
    let counted := fun (t : State) (die : Nat) => die < 18 →
      look 0 t.life.counts (0x0940 + 8 * die) = min (look 0 s.life.counts (0x0940 + 8 * die) + 1) (2 ^ 64 - 1)
    let sram := fun (t : State) (n : Nat) =>
      let recent := (look [] s.sramErrors n).filter fun k => decide (s.tick.toNat ≤ k + 86400000000000)
      (recent.length < 4 → t.fenced = s.fenced) ∧ (4 ≤ recent.length → n < 2048 → n ∈ t.fenced)
    exec .scrub s = .next s ∧
    (∀ die band kind rest, die < 18 → band < 8 → kind < 2 → s.turns = .corrected (die, band, kind) :: rest → s.powered = true →
      let off := 0x40 + 8 * (16 * die + 2 * band + kind)
      ∃ t, step s = .next t ∧ t = { s with turns := rest, life := t.life } ∧
        look 0 t.life.counts off = min (look 0 s.life.counts off + 1) (2 ^ 64 - 1)) ∧
    (∃ t, exec (.uncorrectableError 0 place) s = .next t ∧ poisonUnit place ∈ t.poison ∧ counted t (dieOf place) ∧
      (2 ^ 40 ≤ place → t.mem = s.mem ∧ place / 32 * 32 ∈ t.poison ∧ t.fenced = s.fenced) ∧
      (place < 2 ^ 40 → sram t (place / 2 ^ 22))) ∧
    (∃ t, exec (.uncorrectableError 2 place) s = .next t ∧ counted t (coreDie (place / 8)) ∧ sram t (place / 8) ∧
      ∀ p ∈ (s.core (place / 8)).spilled, p.place = place % 8 →
        ∃ p' ∈ (t.core (place / 8)).spilled, p'.place = p.place ∧ ∃ f, p'.ctx.wait = .failing f ∧ f.cause = 0x28) ∧
    (let n := place / 2048
      let k := place % 2048
      ∃ t, exec (.uncorrectableError 3 place) s = .next t ∧ counted t (coreDie n) ∧
        ((s.core n).inOverflow k = true → sram t n) ∧ ((s.core n).inOverflow k = false → t.fenced = s.fenced) ∧
        (k < (s.core n).queued.length → (s.core n).saved = none → (t.core n).queued = removeAt (s.core n).queued k)) ∧
    (∃ t, exec (.uncorrectableError 6 place) s = .next t ∧ counted t (coreDie (place / 8)) ∧
      ∀ x, (s.core (place / 8)).savedCtx (place % 8) = some x → x.role = .task → x.wait.ending = false →
        ∃ y f, (t.core (place / 8)).savedCtx (place % 8) = some y ∧ y.wait = .failing f ∧ f.cause = 0x28) ∧
    exec (.uncorrectableError 8 place) s = .next (s.setQuad place { s.quad place with tlb := [] }) ∧
    (∀ l, s.latches[place]? = some l → ∃ t, exec (.uncorrectableError 9 place) s = .next t ∧ counted t (tileDie (logTile l.home)) ∧
      Told s t l.iss.task fun c => { c with faults := c.faults.add 0x28 l.colour (BitVec.ofNat 64 l.va) }) ∧
    (∀ k, (s.core (place / 64)).mailbox[place % 64]? = some k → .hinge k ∈ (s.core (place / 64)).arrivals →
      ∃ t, exec (.uncorrectableError 10 place) s = .next t ∧ counted t (coreDie (place / 64)) ∧
        (∀ j ∈ (t.core (place / 64)).mailbox, j.id ≠ k.id) ∧
        (k.w = true ∨ k.back.1 ≠ s.pkg →
          OnWay t (msgOf k.caller k.back.1 k.back.2 k.colour k.group (.hnote k (.failed 0x28))))) ∧
    (let n := place / 256
      let q := place / 64 % 4
      ∀ p, ((s.core n).port q).pkts[place % 64]? = some p → ∃ t w, exec (.uncorrectableError 11 place) s = .next t ∧
        counted t (coreDie n) ∧ ((t.core n).port q).pkts = removeAt ((s.core n).port q).pkts (place % 64) ∧
        Told s t p.iss.task fun c => { c with faults := c.faults.add 0x28 p.colour w }) ∧
    (∃ t, exec (.uncorrectableError 4 place) s = .next t ∧ t = s.setCore place (t.core place) ∧ (t.core place).tlb = [] ∧
      (t.core place).copyTlb = [] ∧ (t.core place).ctxs = (s.core place).ctxs) ∧
    ((∀ i, i < 5 → (s.ctxOf place i).role = .task ∨ (s.ctxOf place i).role = .free) →
      (∀ i x, (s.core place).savedCtx i = some x → x.role = .task ∨ x.role = .free) →
      ∃ t, exec (.uncorrectableError 5 place) s = .next t ∧ t.mem = s.mem ∧ place ∈ t.fenced ∧ counted t (tileDie place) ∧
        (∀ i, i < 5 → (s.ctxOf place i).role = .task → (s.ctxOf place i).wait.ending = false →
          ∃ f, (t.ctxOf place i).wait = .failing f ∧ f.cause = 0x28) ∧
        ∀ i x, i < 5 → (s.core place).savedCtx i = some x → x.role = .task → x.wait.ending = false →
          ∃ y f, (t.core place).savedCtx i = some y ∧ y.wait = .failing f ∧ f.cause = 0x28)) ∧
  (∀ s : State,
    let kept := fun (t : State) =>
      (∀ h : Hub × Hub, (h = (s.hubs.1, t.hubs.1) ∨ h = (s.hubs.2, t.hubs.2)) →
        (∃ c, h.2.newest = some c ∧ c.life = s.life ∧ c.fenced = s.fenced ∧ c.log = s.fenceLog) ∧
        (if h.1.latest = 0 then h.2.copies.1 = h.1.copies.1 else h.2.copies.2 = h.1.copies.2) ∧
        h.2.table = h.1.table)
    (∃ t, exec .lifetimeRecordWrite s = .next t ∧ t = { s with hubs := t.hubs } ∧ kept t) ∧
    (∃ t, exec .powerDown s = .next t ∧ t = { s with hubs := t.hubs, powered := false, ready := false } ∧ kept t) ∧
    exec .powerFailure s = .next { s with powered := false, ready := false } ∧
    ∀ (ticks cycles : Nat) (rest : List Turn), s.turns = .elapse ticks cycles :: rest → s.powered = true →
      ∃ t, step s = .next t ∧ t.tick = s.tick + BitVec.ofNat 64 ticks ∧ t.mem = s.mem ∧
        (let n := (s.tick.toNat + ticks) / 10 ^ 9 - s.tick.toNat / 10 ^ 9;
          s.life.seconds + n < 2 ^ 64 → t.life.seconds = s.life.seconds + n))

/-- R93, R98, R104, R105, R127: the checks before the effect of a register instruction, in their order: a spent budget
traps with 0x11, a prefix before a word that takes none and a class that the context does not allow with 0x01; a failed
guard completes with no effect; the first pending or faulted register in the order of R127 traps, a pending one with 0x02 and
its number, a faulted one with its fault (R195).
R94, R99, R128, R307: behind an instruction that completes no prefix stands, a handler's budget has fallen by one, and a set
switch marker parks the context while a register is pending.
Model's choices in it: log entries 12 and 21. -/
def Obligations.IssueChecks : Prop :=
  (∀ (i : Instr) (h : Head) (k : Cls) (uses : List Nat) (s : State), checkedCase i = some (h, k, uses) → s.curCtx < 5 →
    let word := i.wordOf.setWidth 64
    let u := s.setCtx s.ctx.charge
    (s.ctx.spent = true → exec i s = .next (s.trap 0x11 (BitVec.ofNat 64 s.instrPc))) ∧
    (s.ctx.spent = false → s.ctx.pfx.isSome = true →
      exec i s = .next ((u.setCtx { u.ctx with pfx := none }).trapAt 0x01 word s.ctx.pc s.instrPc)) ∧
    (s.ctx.spent = false → s.ctx.pfx = none → s.ctx.legal k = false → exec i s = .next (u.trap 0x01 word)) ∧
    (s.ctx.spent = false → s.ctx.pfx = none → s.ctx.legal k = true →
      (s.ctx.guard h.g = false → ∃ t, exec i s = .next t ∧ Frame {} s t ∧ Inside s t ∧ Advanced s t ∧ Behind s t h) ∧
      (s.ctx.guard h.g = true → ∀ (pre post : List Nat) (n : Nat), uses = pre ++ n :: post → n ≠ 0 →
        (∀ m ∈ pre, m = 0 ∨ (s.ctx.pending.getLsbD m = false ∧ ¬FaultAt s.ctx m)) →
        (s.ctx.pending.getLsbD n = true → ¬FaultAt s.ctx n → exec i s = .next (u.trap 0x02 (BitVec.ofNat 64 n))) ∧
        (∀ f, s.ctx.inh = false → (s.ctx.faulted.find? fun e => e.1 == n) = some (n, f) →
          exec i s = .next (u.trap f.cause (faultTval n f.va))))) ∧
    (Clear s k h uses → (∀ c, branchCase i = some c → ¬c.taken s.ctx) → ∃ t, exec i s = .next t ∧ Behind s t h)) ∧
  (∀ (i : Instr) (c : LaneCase) (s : State), laneCase i = some c → s.curCtx < 5 → s.ctx.spent = false → s.ctx.legal clsVec = true →
    s.ctx.channelsLegal [c.d] c.srcs = true → s.ctx.guard c.h.g = false →
    ∃ t, exec i s = .next t ∧ Frame {} s t ∧ Inside s t ∧ Advanced s t ∧ Behind s t c.h)

/-- R86, R89, R90, R91, R104: a step at which a context issues runs the instruction that the four bytes at its PC decode to; a
word that decodes to none traps with 0x01 and the word as tval, a fetch at or beyond xb with 0x03, and one outside a stack
core's code with 0x23.
R90: a word that a code load still writes is the old one until all of it is written, then the old or the new one.
R91: a stack core asks another package for a word of its code that lies there, waits, and runs the word that comes.
R335, R358: a poisoned word is reported with 0x28 and the PC as tval, and the issue goes on.
R74: a handler that is due starts instead.  A turn that names an event runs that event.  Without power only power-on is a step.
R74, R128: a context that is chosen is ready, the handler context before the others and of those one of the highest priority,
and a parked one is ready once what it waits for has come.
R195: a fault that a home has answered is delivered at the end of a marker's park, with the word behind as the resume address.
Model's choices in it: log entries 4, 6, 15, 20, 76 and 79. -/
def Obligations.StepRunsDecoded : Prop :=
  (∀ s v : State, Issues s v → v.ctx.rep = false →
    let pc := v.ctx.pc.toNat
    let runs := fun (u : State) (w : Insn) =>
      (∀ i, decodeWord w = .ok i → step s = exec i u) ∧
      (∀ e, decodeWord w = .error e → step s = .next ((u.setCtx { u.ctx with pfx := none }).trapAt 0x01 (w.setWidth 64) u.ctx.pc pc))
    let poisoned := runs (({ v with free := v.free + 1 } : State).report v.issuer 0x28 v.ctx.colour (BitVec.ofNat 64 pc))
      ((Config.freeWord v.free).setWidth 32)
    (stackCore v.cur = false → v.me.xb.toNat ≤ pc → step s = .next (v.trap 0x03 v.ctx.pc)) ∧
    (stackCore v.cur = false → pc < v.me.xb.toNat →
      let pa := localPa v.cur pc
      let now : Insn := BitVec.ofNat 32 (readNat v.mem pa 4)
      (v.poisoned pa 4 = true → poisoned) ∧
      (v.poisoned pa 4 = false →
        ((∀ e ∈ v.me.loading, e.1 ≠ pc) → runs v now) ∧
        (∀ e, (v.me.loading.find? fun e => e.1 == pc) = some e → (e.2.2.2 ≠ 0xF#4 → runs v e.2.2.1) ∧
          (runs v e.2.2.1 ∨ runs v now)))) ∧
    (stackCore v.cur = true →
      (v.codeAt v.ctx.slot pc = none → step s = .next (v.trap 0x23 v.ctx.pc)) ∧
      (∀ va k pa, v.codeAt v.ctx.slot pc = some (va, k, pa) →
        (k = v.pkg → v.poisoned pa 4 = true → poisoned) ∧
        (k = v.pkg → v.poisoned pa 4 = false → runs v (BitVec.ofNat 32 (readNat v.mem pa 4))) ∧
        (k ≠ v.pkg → ∀ a, v.farCode v.cur va = some (some a) →
          (∀ w, a = .word w → runs v (w.setWidth 32)) ∧ (∀ c x l, a = .fault c x l → poisoned)) ∧
        (k ≠ v.pkg → v.farCode v.cur va = some none → step s = .next (v.park (.code va))) ∧
        (k ≠ v.pkg → v.farCode v.cur va = none → ∃ t m, step s = .next t ∧ t.mem = v.mem ∧ t.ctx.pc = v.ctx.pc ∧
          OnWay t m ∧ m.iss = v.issuer ∧ m.pkg = k ∧ (∃ acc d, m.body = .load pa va 0xC 4 acc false d 64) ∧
          t.farCode v.cur va = some none)))) ∧
  (∀ s : State, s.powered = true → (∀ rest, s.turns = .core s.cur :: rest → s.handlerDue s.cur = true →
      step s = State.startHandler { s with turns := rest } s.cur) ∧
    (s.turns = [] → s.handlerDue s.cur = true → step s = s.startHandler s.cur)) ∧
  (∀ (s : State) (e : Instr) (rest : List Turn), s.turns = .event e :: rest → s.powered = true →
    step s = exec e { s with turns := rest }) ∧
  (∀ (s x : State) (a n : Nat) (f : FaultMark) (l : List (Nat × FaultMark)), Chosen s x → x.ctx.wait = .marker a →
    x.ctx.inh = false → x.ctx.faulted = (n, f) :: l →
    step s = .next ((x.setCtx { x.ctx with wait := .none }).trapAt f.cause (faultTval n f.va)
      (if x.ctx.rep then x.ctx.pc else BitVec.ofNat 64 (a + 4)) a)) ∧
  (∀ (s : State) (n i : Nat), i < 5 → (s.core n).last < 4 →
    (s.ctxReady n i = true → ∃ k, s.choose n = some k) ∧ (s.ctxReady n 4 = true → s.choose n = some 4) ∧
    ∀ k, s.choose n = some k → s.ctxReady n k = true ∧
      ((s.core n).switch = true → (s.core n).yielded = false → k ≠ 4 → i < 4 → s.ctxReady n i = true →
        (s.ctxOf n i).prio ≤ (s.ctxOf n k).prio)) ∧
  (∀ (s : State) (n i : Nat), let c := s.ctxOf n i
    let T := s.idOf n i c
    let ready := s.ctxReady n i = true
    c.role = .task → c.stopped = false → (s.core n).halted = false → i ∉ (s.core n).atBrk →
    (c.wait = .none → ready) ∧ (∀ a, c.wait = .marker a → (ready ↔ c.pending = 0)) ∧
    (∀ va, c.wait = .xlate va → (ready ↔ ∀ w ∈ s.walks, w.slot = c.slot → w.va = va → ∀ a ∈ w.askers, a.kind = 0 → a.place ≠ n)) ∧
    (∀ p, c.wait = .chan p → (ready ↔ ((s.core n).port p).ready = true)) ∧
    (c.wait = .key → (ready ↔ (s.quad (quadOf n)).holder = some T)) ∧
    (∀ b g, c.wait = .bar b g → (ready ↔ genReached (s.bar b).gen g = true)) ∧
    (∀ b g, c.wait = .barFull b g → (ready ↔ (s.bar b).gen ≠ g)) ∧
    (∀ m b, c.wait = .fence m b → (ready ↔ s.owes (ofTask T) m = false)) ∧
    (c.wait = .acks → (ready ↔ c.acks = 0)) ∧ (c.wait = .answer → (ready ↔ c.reply ≠ none)) ∧
    (c.wait = .doneRegs → (ready ↔ c.pending = 0)) ∧
    (c.wait = .doneWrites ∨ c.wait = .cancelling ∨ (∃ f, c.wait = .failing f) → ¬ready)) ∧
  (∀ s : State, s.powered = false → (s.turns = [] → step s = .fault .noPower) ∧
    ∀ west east failed rest, s.turns = .event (.firmwareStart (west, east) failed) :: rest →
      step s = exec (.firmwareStart (west, east) failed) { s with turns := rest })

/-- R3, R19, R52, R63, R87, R117, R119: after reset ready is clear, no slot is configured, the counters are zero, and every
register of every context reads as zero but p0, xb as 1 MiB; both memories have their canonical form.  The value of a
register whose reset the spec leaves open is the model's choice (log entry 2), and so is that every byte of memory reads as
zero (log entry 3). -/
def Obligations.ResetState : Prop :=
  let s := State.reset
  s.powered = true ∧ s.ready = false ∧ s.slotCount = 0 ∧ s.tick = 0 ∧ s.cycles = 0 ∧ s.interrupts = [] ∧ s.qtab = none ∧
  s.memOk = true ∧ s.net = [] ∧ s.walks = [] ∧ (∀ a, readByte s.mem a = 0) ∧
  (∀ n i, i < 5 → let c := s.ctxOf n i
    c.pc = 0 ∧ (∀ r, c.rx r = 0) ∧ (∀ r, c.rv r = 0) ∧ (∀ r, c.rp r = decide (r = 0)) ∧
    c.tstat = 0 ∧ c.tpc = 0 ∧ c.tcause = 0 ∧ c.tval = 0 ∧ c.fpre = 0 ∧ c.lc0 = 0 ∧ c.lc1 = 0 ∧ c.fflags = 0 ∧ c.frm = 0 ∧
    c.fseed = 0 ∧ c.hst = 0 ∧ c.hbud = 0 ∧ c.chb = 0 ∧ c.gtol = 0 ∧ c.gdmp = 0 ∧ c.pending = 0) ∧
  ∀ n, (s.core n).xb = 0x100000 ∧ (s.core n).tvec = 0 ∧ (s.core n).rtree = 0

/-- R92-R104: an instruction encodes to a word and an event to none; the word of a well-formed instruction decodes to it,
with every operand at every value that its encoding admits; and a word that decodes is the encoding of what it decodes to,
which is well formed. -/
def Obligations.RoundTrip : Prop :=
  (∀ i : Instr, (encode i).isNone = i.isEvent) ∧
  (∀ (i : Instr) (w : Insn), encode i = some w → i.WellFormed → decodeWord w = .ok i) ∧
  (∀ (w : Insn) (i : Instr), decodeWord w = .ok i → encode i = some w ∧ i.WellFormed)

/-- R95, R97, R103: words of the worked listings of the spec, and the worked encodings of R132, R134, R136-R139, R184 and
R190, decode to the instructions that the spec names beside them. -/
def Obligations.DecodeWords : Prop :=
  let h := Head.plain
  decodeTableWord 32 0x028A0000 = some (.lui h 5 0) ∧ decodeTableWord 32 0x02CA1000 = some (.lil h 5 0x1000) ∧
  decodeTableWord 32 0x01CA500F = some (.slli h 5 5 15) ∧ decodeTableWord 32 0x00CC0007 = some (.addi h 6 0 7) ∧
  decodeTableWord 32 0x054C5000 = some (.sw h 6 5 0) ∧ decodeTableWord 32 0x00000005 = some (.done h) ∧
  decodeTableWord 32 0x0BF80002 = some (.mfs h 28 2) ∧ decodeTableWord 32 0x0C005004 = some (.mts h 5 4) ∧
  decodeTableWord 32 0x0DE85000 = some (.vbcast h 20 5 0) ∧ decodeTableWord 32 0x0D318A00 = some (.vadd h 24 24 20 0) ∧
  decodeTableWord 32 0x0C443500 = some (.rep h 1 3 1 1 0) ∧ decodeTableWord 32 0x0C888600 = some (.fmt 2 2 0 6 0 0 0) ∧
  decodeTableWord 32 0x0F00A002 = some (.mma h 10) ∧ decodeTableWord 32 0x07400001 = some (.fence h 1) ∧
  decodeTableWord 32 0x0701EF80 = some (.bolt h 30 31) ∧ decodeTableWord 32 0x00000003 = some (.iret h) ∧
  decodeTableWord 32 0x004A6016 = some (.clz h 5 6) ∧ decodeTableWord 32 0x01CA5803 = some (.srai h 5 5 3) ∧
  decodeTableWord 32 0x0A825300 = some (.peq h 1 5 6) ∧ decodeTableWord 32 0x078A600C = some (.beq h 5 6 12) ∧
  decodeTableWord 32 0x09061005 = some (.brp h 3 1 5) ∧ decodeTableWord 32 0x09800010 = some (.jal h 16) ∧
  decodeTableWord 32 0x09C01000 = some (.jalr h 0 1 0) ∧ decodeTableWord 32 0x0D844288 = some (.vflt h 2 4 5 0) ∧
  decodeTableWord 32 0x0E8A1006 = some (.kpopc h 5 1)

/-- The invariant of the model's memories: every step that goes on keeps both in canonical form, strictly rising addresses
and no byte at what an unlisted address reads as (log entry 3). -/
def Obligations.MemoryForm : Prop :=
  ∀ s t : State, s.memOk = true → step s = .next t → t.memOk = true
end

