-- ==== Sys2Proof/Laws/State.lean ====
section
/-! SUPPORT. What the updates of a record leave and change: one lemma per field per update. -/

namespace Sys2Proof.Machine

/-! A core, a quad and a slot of the state. -/

@[simp] theorem setCore_pkg (s : State) (n : Nat) (c : CoreSt) : (s.setCore n c).pkg = s.pkg := rfl
@[simp] theorem setCore_mem (s : State) (n : Nat) (c : CoreSt) : (s.setCore n c).mem = s.mem := rfl
@[simp] theorem setCore_hostMem (s : State) (n : Nat) (c : CoreSt) : (s.setCore n c).hostMem = s.hostMem := rfl
@[simp] theorem setCore_quads (s : State) (n : Nat) (c : CoreSt) : (s.setCore n c).quads = s.quads := rfl
@[simp] theorem setCore_units (s : State) (n : Nat) (c : CoreSt) : (s.setCore n c).units = s.units := rfl
@[simp] theorem setCore_blocks (s : State) (n : Nat) (c : CoreSt) : (s.setCore n c).blocks = s.blocks := rfl
@[simp] theorem setCore_once (s : State) (n : Nat) (c : CoreSt) : (s.setCore n c).once = s.once := rfl
@[simp] theorem setCore_mboxes (s : State) (n : Nat) (c : CoreSt) : (s.setCore n c).mboxes = s.mboxes := rfl
@[simp] theorem setCore_poison (s : State) (n : Nat) (c : CoreSt) : (s.setCore n c).poison = s.poison := rfl
@[simp] theorem setCore_enc (s : State) (n : Nat) (c : CoreSt) : (s.setCore n c).enc = s.enc := rfl
@[simp] theorem setCore_latches (s : State) (n : Nat) (c : CoreSt) : (s.setCore n c).latches = s.latches := rfl
@[simp] theorem setCore_heldFills (s : State) (n : Nat) (c : CoreSt) : (s.setCore n c).heldFills = s.heldFills := rfl
@[simp] theorem setCore_net (s : State) (n : Nat) (c : CoreSt) : (s.setCore n c).net = s.net := rfl
@[simp] theorem setCore_outbox (s : State) (n : Nat) (c : CoreSt) : (s.setCore n c).outbox = s.outbox := rfl
@[simp] theorem setCore_asked (s : State) (n : Nat) (c : CoreSt) : (s.setCore n c).asked = s.asked := rfl
@[simp] theorem setCore_seqOut (s : State) (n : Nat) (c : CoreSt) : (s.setCore n c).seqOut = s.seqOut := rfl
@[simp] theorem setCore_seqIn (s : State) (n : Nat) (c : CoreSt) : (s.setCore n c).seqIn = s.seqIn := rfl
@[simp] theorem setCore_fetched (s : State) (n : Nat) (c : CoreSt) : (s.setCore n c).fetched = s.fetched := rfl
@[simp] theorem setCore_remoteCalls (s : State) (n : Nat) (c : CoreSt) : (s.setCore n c).remoteCalls = s.remoteCalls := rfl
@[simp] theorem setCore_lostCalls (s : State) (n : Nat) (c : CoreSt) : (s.setCore n c).lostCalls = s.lostCalls := rfl
@[simp] theorem setCore_bars (s : State) (n : Nat) (c : CoreSt) : (s.setCore n c).bars = s.bars := rfl
@[simp] theorem setCore_walks (s : State) (n : Nat) (c : CoreSt) : (s.setCore n c).walks = s.walks := rfl
@[simp] theorem setCore_walkFails (s : State) (n : Nat) (c : CoreSt) : (s.setCore n c).walkFails = s.walkFails := rfl
@[simp] theorem setCore_pointers (s : State) (n : Nat) (c : CoreSt) : (s.setCore n c).pointers = s.pointers := rfl
@[simp] theorem setCore_slots (s : State) (n : Nat) (c : CoreSt) : (s.setCore n c).slots = s.slots := rfl
@[simp] theorem setCore_queues (s : State) (n : Nat) (c : CoreSt) : (s.setCore n c).queues = s.queues := rfl
@[simp] theorem setCore_links (s : State) (n : Nat) (c : CoreSt) : (s.setCore n c).links = s.links := rfl
@[simp] theorem setCore_flits (s : State) (n : Nat) (c : CoreSt) : (s.setCore n c).flits = s.flits := rfl
@[simp] theorem setCore_hubs (s : State) (n : Nat) (c : CoreSt) : (s.setCore n c).hubs = s.hubs := rfl
@[simp] theorem setCore_cur (s : State) (n : Nat) (c : CoreSt) : (s.setCore n c).cur = s.cur := rfl
@[simp] theorem setCore_curCtx (s : State) (n : Nat) (c : CoreSt) : (s.setCore n c).curCtx = s.curCtx := rfl
@[simp] theorem setCore_turns (s : State) (n : Nat) (c : CoreSt) : (s.setCore n c).turns = s.turns := rfl
@[simp] theorem setCore_tick (s : State) (n : Nat) (c : CoreSt) : (s.setCore n c).tick = s.tick := rfl
@[simp] theorem setCore_cycles (s : State) (n : Nat) (c : CoreSt) : (s.setCore n c).cycles = s.cycles := rfl
@[simp] theorem setCore_clock (s : State) (n : Nat) (c : CoreSt) : (s.setCore n c).clock = s.clock := rfl
@[simp] theorem setCore_ready (s : State) (n : Nat) (c : CoreSt) : (s.setCore n c).ready = s.ready := rfl
@[simp] theorem setCore_powered (s : State) (n : Nat) (c : CoreSt) : (s.setCore n c).powered = s.powered := rfl
@[simp] theorem setCore_qtab (s : State) (n : Nat) (c : CoreSt) : (s.setCore n c).qtab = s.qtab := rfl
@[simp] theorem setCore_slotCount (s : State) (n : Nat) (c : CoreSt) : (s.setCore n c).slotCount = s.slotCount := rfl
@[simp] theorem setCore_ageing (s : State) (n : Nat) (c : CoreSt) : (s.setCore n c).ageing = s.ageing := rfl
@[simp] theorem setCore_ageBase (s : State) (n : Nat) (c : CoreSt) : (s.setCore n c).ageBase = s.ageBase := rfl
@[simp] theorem setCore_bar2 (s : State) (n : Nat) (c : CoreSt) : (s.setCore n c).bar2 = s.bar2 := rfl
@[simp] theorem setCore_bar2Size (s : State) (n : Nat) (c : CoreSt) : (s.setCore n c).bar2Size = s.bar2Size := rfl
@[simp] theorem setCore_bar2Read (s : State) (n : Nat) (c : CoreSt) : (s.setCore n c).bar2Read = s.bar2Read := rfl
@[simp] theorem setCore_bar0Read (s : State) (n : Nat) (c : CoreSt) : (s.setCore n c).bar0Read = s.bar0Read := rfl
@[simp] theorem setCore_bar0 (s : State) (n : Nat) (c : CoreSt) : (s.setCore n c).bar0 = s.bar0 := rfl
@[simp] theorem setCore_response (s : State) (n : Nat) (c : CoreSt) : (s.setCore n c).response = s.response := rfl
@[simp] theorem setCore_info (s : State) (n : Nat) (c : CoreSt) : (s.setCore n c).info = s.info := rfl
@[simp] theorem setCore_interrupts (s : State) (n : Nat) (c : CoreSt) : (s.setCore n c).interrupts = s.interrupts := rfl
@[simp] theorem setCore_sampling (s : State) (n : Nat) (c : CoreSt) : (s.setCore n c).sampling = s.sampling := rfl
@[simp] theorem setCore_fenced (s : State) (n : Nat) (c : CoreSt) : (s.setCore n c).fenced = s.fenced := rfl
@[simp] theorem setCore_fenceLog (s : State) (n : Nat) (c : CoreSt) : (s.setCore n c).fenceLog = s.fenceLog := rfl
@[simp] theorem setCore_life (s : State) (n : Nat) (c : CoreSt) : (s.setCore n c).life = s.life := rfl
@[simp] theorem setCore_watts (s : State) (n : Nat) (c : CoreSt) : (s.setCore n c).watts = s.watts := rfl
@[simp] theorem setCore_sramErrors (s : State) (n : Nat) (c : CoreSt) : (s.setCore n c).sramErrors = s.sramErrors := rfl
@[simp] theorem setCore_lastStore (s : State) (n : Nat) (c : CoreSt) : (s.setCore n c).lastStore = s.lastStore := rfl
@[simp] theorem setCore_stream (s : State) (n : Nat) (c : CoreSt) : (s.setCore n c).stream = s.stream := rfl
@[simp] theorem setCore_schedLog (s : State) (n : Nat) (c : CoreSt) : (s.setCore n c).schedLog = s.schedLog := rfl
@[simp] theorem setCore_fresh (s : State) (n : Nat) (c : CoreSt) : (s.setCore n c).fresh = s.fresh := rfl
@[simp] theorem setCore_free (s : State) (n : Nat) (c : CoreSt) : (s.setCore n c).free = s.free := rfl

@[simp] theorem setCore_cores (s : State) (n : Nat) (c : CoreSt) : (s.setCore n c).cores = setAt s.cores n c := rfl
@[simp] theorem setCtxOf_pkg (s : State) (n i : Nat) (x : Ctx) : (s.setCtxOf n i x).pkg = s.pkg := rfl
@[simp] theorem setCtxOf_mem (s : State) (n i : Nat) (x : Ctx) : (s.setCtxOf n i x).mem = s.mem := rfl
@[simp] theorem setCtxOf_hostMem (s : State) (n i : Nat) (x : Ctx) : (s.setCtxOf n i x).hostMem = s.hostMem := rfl
@[simp] theorem setCtxOf_quads (s : State) (n i : Nat) (x : Ctx) : (s.setCtxOf n i x).quads = s.quads := rfl
@[simp] theorem setCtxOf_units (s : State) (n i : Nat) (x : Ctx) : (s.setCtxOf n i x).units = s.units := rfl
@[simp] theorem setCtxOf_blocks (s : State) (n i : Nat) (x : Ctx) : (s.setCtxOf n i x).blocks = s.blocks := rfl
@[simp] theorem setCtxOf_once (s : State) (n i : Nat) (x : Ctx) : (s.setCtxOf n i x).once = s.once := rfl
@[simp] theorem setCtxOf_mboxes (s : State) (n i : Nat) (x : Ctx) : (s.setCtxOf n i x).mboxes = s.mboxes := rfl
@[simp] theorem setCtxOf_poison (s : State) (n i : Nat) (x : Ctx) : (s.setCtxOf n i x).poison = s.poison := rfl
@[simp] theorem setCtxOf_enc (s : State) (n i : Nat) (x : Ctx) : (s.setCtxOf n i x).enc = s.enc := rfl
@[simp] theorem setCtxOf_latches (s : State) (n i : Nat) (x : Ctx) : (s.setCtxOf n i x).latches = s.latches := rfl
@[simp] theorem setCtxOf_heldFills (s : State) (n i : Nat) (x : Ctx) : (s.setCtxOf n i x).heldFills = s.heldFills := rfl
@[simp] theorem setCtxOf_net (s : State) (n i : Nat) (x : Ctx) : (s.setCtxOf n i x).net = s.net := rfl
@[simp] theorem setCtxOf_outbox (s : State) (n i : Nat) (x : Ctx) : (s.setCtxOf n i x).outbox = s.outbox := rfl
@[simp] theorem setCtxOf_asked (s : State) (n i : Nat) (x : Ctx) : (s.setCtxOf n i x).asked = s.asked := rfl
@[simp] theorem setCtxOf_seqOut (s : State) (n i : Nat) (x : Ctx) : (s.setCtxOf n i x).seqOut = s.seqOut := rfl
@[simp] theorem setCtxOf_seqIn (s : State) (n i : Nat) (x : Ctx) : (s.setCtxOf n i x).seqIn = s.seqIn := rfl
@[simp] theorem setCtxOf_fetched (s : State) (n i : Nat) (x : Ctx) : (s.setCtxOf n i x).fetched = s.fetched := rfl
@[simp] theorem setCtxOf_remoteCalls (s : State) (n i : Nat) (x : Ctx) : (s.setCtxOf n i x).remoteCalls = s.remoteCalls := rfl
@[simp] theorem setCtxOf_lostCalls (s : State) (n i : Nat) (x : Ctx) : (s.setCtxOf n i x).lostCalls = s.lostCalls := rfl
@[simp] theorem setCtxOf_bars (s : State) (n i : Nat) (x : Ctx) : (s.setCtxOf n i x).bars = s.bars := rfl
@[simp] theorem setCtxOf_walks (s : State) (n i : Nat) (x : Ctx) : (s.setCtxOf n i x).walks = s.walks := rfl
@[simp] theorem setCtxOf_walkFails (s : State) (n i : Nat) (x : Ctx) : (s.setCtxOf n i x).walkFails = s.walkFails := rfl
@[simp] theorem setCtxOf_pointers (s : State) (n i : Nat) (x : Ctx) : (s.setCtxOf n i x).pointers = s.pointers := rfl
@[simp] theorem setCtxOf_slots (s : State) (n i : Nat) (x : Ctx) : (s.setCtxOf n i x).slots = s.slots := rfl
@[simp] theorem setCtxOf_queues (s : State) (n i : Nat) (x : Ctx) : (s.setCtxOf n i x).queues = s.queues := rfl
@[simp] theorem setCtxOf_links (s : State) (n i : Nat) (x : Ctx) : (s.setCtxOf n i x).links = s.links := rfl
@[simp] theorem setCtxOf_flits (s : State) (n i : Nat) (x : Ctx) : (s.setCtxOf n i x).flits = s.flits := rfl
@[simp] theorem setCtxOf_hubs (s : State) (n i : Nat) (x : Ctx) : (s.setCtxOf n i x).hubs = s.hubs := rfl
@[simp] theorem setCtxOf_cur (s : State) (n i : Nat) (x : Ctx) : (s.setCtxOf n i x).cur = s.cur := rfl
@[simp] theorem setCtxOf_curCtx (s : State) (n i : Nat) (x : Ctx) : (s.setCtxOf n i x).curCtx = s.curCtx := rfl
@[simp] theorem setCtxOf_turns (s : State) (n i : Nat) (x : Ctx) : (s.setCtxOf n i x).turns = s.turns := rfl
@[simp] theorem setCtxOf_tick (s : State) (n i : Nat) (x : Ctx) : (s.setCtxOf n i x).tick = s.tick := rfl
@[simp] theorem setCtxOf_cycles (s : State) (n i : Nat) (x : Ctx) : (s.setCtxOf n i x).cycles = s.cycles := rfl
@[simp] theorem setCtxOf_clock (s : State) (n i : Nat) (x : Ctx) : (s.setCtxOf n i x).clock = s.clock := rfl
@[simp] theorem setCtxOf_ready (s : State) (n i : Nat) (x : Ctx) : (s.setCtxOf n i x).ready = s.ready := rfl
@[simp] theorem setCtxOf_powered (s : State) (n i : Nat) (x : Ctx) : (s.setCtxOf n i x).powered = s.powered := rfl
@[simp] theorem setCtxOf_qtab (s : State) (n i : Nat) (x : Ctx) : (s.setCtxOf n i x).qtab = s.qtab := rfl
@[simp] theorem setCtxOf_slotCount (s : State) (n i : Nat) (x : Ctx) : (s.setCtxOf n i x).slotCount = s.slotCount := rfl
@[simp] theorem setCtxOf_ageing (s : State) (n i : Nat) (x : Ctx) : (s.setCtxOf n i x).ageing = s.ageing := rfl
@[simp] theorem setCtxOf_ageBase (s : State) (n i : Nat) (x : Ctx) : (s.setCtxOf n i x).ageBase = s.ageBase := rfl
@[simp] theorem setCtxOf_bar2 (s : State) (n i : Nat) (x : Ctx) : (s.setCtxOf n i x).bar2 = s.bar2 := rfl
@[simp] theorem setCtxOf_bar2Size (s : State) (n i : Nat) (x : Ctx) : (s.setCtxOf n i x).bar2Size = s.bar2Size := rfl
@[simp] theorem setCtxOf_bar2Read (s : State) (n i : Nat) (x : Ctx) : (s.setCtxOf n i x).bar2Read = s.bar2Read := rfl
@[simp] theorem setCtxOf_bar0Read (s : State) (n i : Nat) (x : Ctx) : (s.setCtxOf n i x).bar0Read = s.bar0Read := rfl
@[simp] theorem setCtxOf_bar0 (s : State) (n i : Nat) (x : Ctx) : (s.setCtxOf n i x).bar0 = s.bar0 := rfl
@[simp] theorem setCtxOf_response (s : State) (n i : Nat) (x : Ctx) : (s.setCtxOf n i x).response = s.response := rfl
@[simp] theorem setCtxOf_info (s : State) (n i : Nat) (x : Ctx) : (s.setCtxOf n i x).info = s.info := rfl
@[simp] theorem setCtxOf_interrupts (s : State) (n i : Nat) (x : Ctx) : (s.setCtxOf n i x).interrupts = s.interrupts := rfl
@[simp] theorem setCtxOf_sampling (s : State) (n i : Nat) (x : Ctx) : (s.setCtxOf n i x).sampling = s.sampling := rfl
@[simp] theorem setCtxOf_fenced (s : State) (n i : Nat) (x : Ctx) : (s.setCtxOf n i x).fenced = s.fenced := rfl
@[simp] theorem setCtxOf_fenceLog (s : State) (n i : Nat) (x : Ctx) : (s.setCtxOf n i x).fenceLog = s.fenceLog := rfl
@[simp] theorem setCtxOf_life (s : State) (n i : Nat) (x : Ctx) : (s.setCtxOf n i x).life = s.life := rfl
@[simp] theorem setCtxOf_watts (s : State) (n i : Nat) (x : Ctx) : (s.setCtxOf n i x).watts = s.watts := rfl
@[simp] theorem setCtxOf_sramErrors (s : State) (n i : Nat) (x : Ctx) : (s.setCtxOf n i x).sramErrors = s.sramErrors := rfl
@[simp] theorem setCtxOf_lastStore (s : State) (n i : Nat) (x : Ctx) : (s.setCtxOf n i x).lastStore = s.lastStore := rfl
@[simp] theorem setCtxOf_stream (s : State) (n i : Nat) (x : Ctx) : (s.setCtxOf n i x).stream = s.stream := rfl
@[simp] theorem setCtxOf_schedLog (s : State) (n i : Nat) (x : Ctx) : (s.setCtxOf n i x).schedLog = s.schedLog := rfl
@[simp] theorem setCtxOf_fresh (s : State) (n i : Nat) (x : Ctx) : (s.setCtxOf n i x).fresh = s.fresh := rfl
@[simp] theorem setCtxOf_free (s : State) (n i : Nat) (x : Ctx) : (s.setCtxOf n i x).free = s.free := rfl

@[simp] theorem setCtx_pkg (s : State) (x : Ctx) : (s.setCtx x).pkg = s.pkg := rfl
@[simp] theorem setCtx_mem (s : State) (x : Ctx) : (s.setCtx x).mem = s.mem := rfl
@[simp] theorem setCtx_hostMem (s : State) (x : Ctx) : (s.setCtx x).hostMem = s.hostMem := rfl
@[simp] theorem setCtx_quads (s : State) (x : Ctx) : (s.setCtx x).quads = s.quads := rfl
@[simp] theorem setCtx_units (s : State) (x : Ctx) : (s.setCtx x).units = s.units := rfl
@[simp] theorem setCtx_blocks (s : State) (x : Ctx) : (s.setCtx x).blocks = s.blocks := rfl
@[simp] theorem setCtx_once (s : State) (x : Ctx) : (s.setCtx x).once = s.once := rfl
@[simp] theorem setCtx_mboxes (s : State) (x : Ctx) : (s.setCtx x).mboxes = s.mboxes := rfl
@[simp] theorem setCtx_poison (s : State) (x : Ctx) : (s.setCtx x).poison = s.poison := rfl
@[simp] theorem setCtx_enc (s : State) (x : Ctx) : (s.setCtx x).enc = s.enc := rfl
@[simp] theorem setCtx_latches (s : State) (x : Ctx) : (s.setCtx x).latches = s.latches := rfl
@[simp] theorem setCtx_heldFills (s : State) (x : Ctx) : (s.setCtx x).heldFills = s.heldFills := rfl
@[simp] theorem setCtx_net (s : State) (x : Ctx) : (s.setCtx x).net = s.net := rfl
@[simp] theorem setCtx_outbox (s : State) (x : Ctx) : (s.setCtx x).outbox = s.outbox := rfl
@[simp] theorem setCtx_asked (s : State) (x : Ctx) : (s.setCtx x).asked = s.asked := rfl
@[simp] theorem setCtx_seqOut (s : State) (x : Ctx) : (s.setCtx x).seqOut = s.seqOut := rfl
@[simp] theorem setCtx_seqIn (s : State) (x : Ctx) : (s.setCtx x).seqIn = s.seqIn := rfl
@[simp] theorem setCtx_fetched (s : State) (x : Ctx) : (s.setCtx x).fetched = s.fetched := rfl
@[simp] theorem setCtx_remoteCalls (s : State) (x : Ctx) : (s.setCtx x).remoteCalls = s.remoteCalls := rfl
@[simp] theorem setCtx_lostCalls (s : State) (x : Ctx) : (s.setCtx x).lostCalls = s.lostCalls := rfl
@[simp] theorem setCtx_bars (s : State) (x : Ctx) : (s.setCtx x).bars = s.bars := rfl
@[simp] theorem setCtx_walks (s : State) (x : Ctx) : (s.setCtx x).walks = s.walks := rfl
@[simp] theorem setCtx_walkFails (s : State) (x : Ctx) : (s.setCtx x).walkFails = s.walkFails := rfl
@[simp] theorem setCtx_pointers (s : State) (x : Ctx) : (s.setCtx x).pointers = s.pointers := rfl
@[simp] theorem setCtx_slots (s : State) (x : Ctx) : (s.setCtx x).slots = s.slots := rfl
@[simp] theorem setCtx_queues (s : State) (x : Ctx) : (s.setCtx x).queues = s.queues := rfl
@[simp] theorem setCtx_links (s : State) (x : Ctx) : (s.setCtx x).links = s.links := rfl
@[simp] theorem setCtx_flits (s : State) (x : Ctx) : (s.setCtx x).flits = s.flits := rfl
@[simp] theorem setCtx_hubs (s : State) (x : Ctx) : (s.setCtx x).hubs = s.hubs := rfl
@[simp] theorem setCtx_cur (s : State) (x : Ctx) : (s.setCtx x).cur = s.cur := rfl
@[simp] theorem setCtx_curCtx (s : State) (x : Ctx) : (s.setCtx x).curCtx = s.curCtx := rfl
@[simp] theorem setCtx_turns (s : State) (x : Ctx) : (s.setCtx x).turns = s.turns := rfl
@[simp] theorem setCtx_tick (s : State) (x : Ctx) : (s.setCtx x).tick = s.tick := rfl
@[simp] theorem setCtx_cycles (s : State) (x : Ctx) : (s.setCtx x).cycles = s.cycles := rfl
@[simp] theorem setCtx_clock (s : State) (x : Ctx) : (s.setCtx x).clock = s.clock := rfl
@[simp] theorem setCtx_ready (s : State) (x : Ctx) : (s.setCtx x).ready = s.ready := rfl
@[simp] theorem setCtx_powered (s : State) (x : Ctx) : (s.setCtx x).powered = s.powered := rfl
@[simp] theorem setCtx_qtab (s : State) (x : Ctx) : (s.setCtx x).qtab = s.qtab := rfl
@[simp] theorem setCtx_slotCount (s : State) (x : Ctx) : (s.setCtx x).slotCount = s.slotCount := rfl
@[simp] theorem setCtx_ageing (s : State) (x : Ctx) : (s.setCtx x).ageing = s.ageing := rfl
@[simp] theorem setCtx_ageBase (s : State) (x : Ctx) : (s.setCtx x).ageBase = s.ageBase := rfl
@[simp] theorem setCtx_bar2 (s : State) (x : Ctx) : (s.setCtx x).bar2 = s.bar2 := rfl
@[simp] theorem setCtx_bar2Size (s : State) (x : Ctx) : (s.setCtx x).bar2Size = s.bar2Size := rfl
@[simp] theorem setCtx_bar2Read (s : State) (x : Ctx) : (s.setCtx x).bar2Read = s.bar2Read := rfl
@[simp] theorem setCtx_bar0Read (s : State) (x : Ctx) : (s.setCtx x).bar0Read = s.bar0Read := rfl
@[simp] theorem setCtx_bar0 (s : State) (x : Ctx) : (s.setCtx x).bar0 = s.bar0 := rfl
@[simp] theorem setCtx_response (s : State) (x : Ctx) : (s.setCtx x).response = s.response := rfl
@[simp] theorem setCtx_info (s : State) (x : Ctx) : (s.setCtx x).info = s.info := rfl
@[simp] theorem setCtx_interrupts (s : State) (x : Ctx) : (s.setCtx x).interrupts = s.interrupts := rfl
@[simp] theorem setCtx_sampling (s : State) (x : Ctx) : (s.setCtx x).sampling = s.sampling := rfl
@[simp] theorem setCtx_fenced (s : State) (x : Ctx) : (s.setCtx x).fenced = s.fenced := rfl
@[simp] theorem setCtx_fenceLog (s : State) (x : Ctx) : (s.setCtx x).fenceLog = s.fenceLog := rfl
@[simp] theorem setCtx_life (s : State) (x : Ctx) : (s.setCtx x).life = s.life := rfl
@[simp] theorem setCtx_watts (s : State) (x : Ctx) : (s.setCtx x).watts = s.watts := rfl
@[simp] theorem setCtx_sramErrors (s : State) (x : Ctx) : (s.setCtx x).sramErrors = s.sramErrors := rfl
@[simp] theorem setCtx_lastStore (s : State) (x : Ctx) : (s.setCtx x).lastStore = s.lastStore := rfl
@[simp] theorem setCtx_stream (s : State) (x : Ctx) : (s.setCtx x).stream = s.stream := rfl
@[simp] theorem setCtx_schedLog (s : State) (x : Ctx) : (s.setCtx x).schedLog = s.schedLog := rfl
@[simp] theorem setCtx_fresh (s : State) (x : Ctx) : (s.setCtx x).fresh = s.fresh := rfl
@[simp] theorem setCtx_free (s : State) (x : Ctx) : (s.setCtx x).free = s.free := rfl

@[simp] theorem setMe_pkg (s : State) (c : CoreSt) : (s.setMe c).pkg = s.pkg := rfl
@[simp] theorem setMe_mem (s : State) (c : CoreSt) : (s.setMe c).mem = s.mem := rfl
@[simp] theorem setMe_hostMem (s : State) (c : CoreSt) : (s.setMe c).hostMem = s.hostMem := rfl
@[simp] theorem setMe_quads (s : State) (c : CoreSt) : (s.setMe c).quads = s.quads := rfl
@[simp] theorem setMe_units (s : State) (c : CoreSt) : (s.setMe c).units = s.units := rfl
@[simp] theorem setMe_blocks (s : State) (c : CoreSt) : (s.setMe c).blocks = s.blocks := rfl
@[simp] theorem setMe_once (s : State) (c : CoreSt) : (s.setMe c).once = s.once := rfl
@[simp] theorem setMe_mboxes (s : State) (c : CoreSt) : (s.setMe c).mboxes = s.mboxes := rfl
@[simp] theorem setMe_poison (s : State) (c : CoreSt) : (s.setMe c).poison = s.poison := rfl
@[simp] theorem setMe_enc (s : State) (c : CoreSt) : (s.setMe c).enc = s.enc := rfl
@[simp] theorem setMe_latches (s : State) (c : CoreSt) : (s.setMe c).latches = s.latches := rfl
@[simp] theorem setMe_heldFills (s : State) (c : CoreSt) : (s.setMe c).heldFills = s.heldFills := rfl
@[simp] theorem setMe_net (s : State) (c : CoreSt) : (s.setMe c).net = s.net := rfl
@[simp] theorem setMe_outbox (s : State) (c : CoreSt) : (s.setMe c).outbox = s.outbox := rfl
@[simp] theorem setMe_asked (s : State) (c : CoreSt) : (s.setMe c).asked = s.asked := rfl
@[simp] theorem setMe_seqOut (s : State) (c : CoreSt) : (s.setMe c).seqOut = s.seqOut := rfl
@[simp] theorem setMe_seqIn (s : State) (c : CoreSt) : (s.setMe c).seqIn = s.seqIn := rfl
@[simp] theorem setMe_fetched (s : State) (c : CoreSt) : (s.setMe c).fetched = s.fetched := rfl
@[simp] theorem setMe_remoteCalls (s : State) (c : CoreSt) : (s.setMe c).remoteCalls = s.remoteCalls := rfl
@[simp] theorem setMe_lostCalls (s : State) (c : CoreSt) : (s.setMe c).lostCalls = s.lostCalls := rfl
@[simp] theorem setMe_bars (s : State) (c : CoreSt) : (s.setMe c).bars = s.bars := rfl
@[simp] theorem setMe_walks (s : State) (c : CoreSt) : (s.setMe c).walks = s.walks := rfl
@[simp] theorem setMe_walkFails (s : State) (c : CoreSt) : (s.setMe c).walkFails = s.walkFails := rfl
@[simp] theorem setMe_pointers (s : State) (c : CoreSt) : (s.setMe c).pointers = s.pointers := rfl
@[simp] theorem setMe_slots (s : State) (c : CoreSt) : (s.setMe c).slots = s.slots := rfl
@[simp] theorem setMe_queues (s : State) (c : CoreSt) : (s.setMe c).queues = s.queues := rfl
@[simp] theorem setMe_links (s : State) (c : CoreSt) : (s.setMe c).links = s.links := rfl
@[simp] theorem setMe_flits (s : State) (c : CoreSt) : (s.setMe c).flits = s.flits := rfl
@[simp] theorem setMe_hubs (s : State) (c : CoreSt) : (s.setMe c).hubs = s.hubs := rfl
@[simp] theorem setMe_cur (s : State) (c : CoreSt) : (s.setMe c).cur = s.cur := rfl
@[simp] theorem setMe_curCtx (s : State) (c : CoreSt) : (s.setMe c).curCtx = s.curCtx := rfl
@[simp] theorem setMe_turns (s : State) (c : CoreSt) : (s.setMe c).turns = s.turns := rfl
@[simp] theorem setMe_tick (s : State) (c : CoreSt) : (s.setMe c).tick = s.tick := rfl
@[simp] theorem setMe_cycles (s : State) (c : CoreSt) : (s.setMe c).cycles = s.cycles := rfl
@[simp] theorem setMe_clock (s : State) (c : CoreSt) : (s.setMe c).clock = s.clock := rfl
@[simp] theorem setMe_ready (s : State) (c : CoreSt) : (s.setMe c).ready = s.ready := rfl
@[simp] theorem setMe_powered (s : State) (c : CoreSt) : (s.setMe c).powered = s.powered := rfl
@[simp] theorem setMe_qtab (s : State) (c : CoreSt) : (s.setMe c).qtab = s.qtab := rfl
@[simp] theorem setMe_slotCount (s : State) (c : CoreSt) : (s.setMe c).slotCount = s.slotCount := rfl
@[simp] theorem setMe_ageing (s : State) (c : CoreSt) : (s.setMe c).ageing = s.ageing := rfl
@[simp] theorem setMe_ageBase (s : State) (c : CoreSt) : (s.setMe c).ageBase = s.ageBase := rfl
@[simp] theorem setMe_bar2 (s : State) (c : CoreSt) : (s.setMe c).bar2 = s.bar2 := rfl
@[simp] theorem setMe_bar2Size (s : State) (c : CoreSt) : (s.setMe c).bar2Size = s.bar2Size := rfl
@[simp] theorem setMe_bar2Read (s : State) (c : CoreSt) : (s.setMe c).bar2Read = s.bar2Read := rfl
@[simp] theorem setMe_bar0Read (s : State) (c : CoreSt) : (s.setMe c).bar0Read = s.bar0Read := rfl
@[simp] theorem setMe_bar0 (s : State) (c : CoreSt) : (s.setMe c).bar0 = s.bar0 := rfl
@[simp] theorem setMe_response (s : State) (c : CoreSt) : (s.setMe c).response = s.response := rfl
@[simp] theorem setMe_info (s : State) (c : CoreSt) : (s.setMe c).info = s.info := rfl
@[simp] theorem setMe_interrupts (s : State) (c : CoreSt) : (s.setMe c).interrupts = s.interrupts := rfl
@[simp] theorem setMe_sampling (s : State) (c : CoreSt) : (s.setMe c).sampling = s.sampling := rfl
@[simp] theorem setMe_fenced (s : State) (c : CoreSt) : (s.setMe c).fenced = s.fenced := rfl
@[simp] theorem setMe_fenceLog (s : State) (c : CoreSt) : (s.setMe c).fenceLog = s.fenceLog := rfl
@[simp] theorem setMe_life (s : State) (c : CoreSt) : (s.setMe c).life = s.life := rfl
@[simp] theorem setMe_watts (s : State) (c : CoreSt) : (s.setMe c).watts = s.watts := rfl
@[simp] theorem setMe_sramErrors (s : State) (c : CoreSt) : (s.setMe c).sramErrors = s.sramErrors := rfl
@[simp] theorem setMe_lastStore (s : State) (c : CoreSt) : (s.setMe c).lastStore = s.lastStore := rfl
@[simp] theorem setMe_stream (s : State) (c : CoreSt) : (s.setMe c).stream = s.stream := rfl
@[simp] theorem setMe_schedLog (s : State) (c : CoreSt) : (s.setMe c).schedLog = s.schedLog := rfl
@[simp] theorem setMe_fresh (s : State) (c : CoreSt) : (s.setMe c).fresh = s.fresh := rfl
@[simp] theorem setMe_free (s : State) (c : CoreSt) : (s.setMe c).free = s.free := rfl

@[simp] theorem setQuad_pkg (s : State) (q : Nat) (a : Quad) : (s.setQuad q a).pkg = s.pkg := rfl
@[simp] theorem setQuad_mem (s : State) (q : Nat) (a : Quad) : (s.setQuad q a).mem = s.mem := rfl
@[simp] theorem setQuad_hostMem (s : State) (q : Nat) (a : Quad) : (s.setQuad q a).hostMem = s.hostMem := rfl
@[simp] theorem setQuad_cores (s : State) (q : Nat) (a : Quad) : (s.setQuad q a).cores = s.cores := rfl
@[simp] theorem setQuad_units (s : State) (q : Nat) (a : Quad) : (s.setQuad q a).units = s.units := rfl
@[simp] theorem setQuad_blocks (s : State) (q : Nat) (a : Quad) : (s.setQuad q a).blocks = s.blocks := rfl
@[simp] theorem setQuad_once (s : State) (q : Nat) (a : Quad) : (s.setQuad q a).once = s.once := rfl
@[simp] theorem setQuad_mboxes (s : State) (q : Nat) (a : Quad) : (s.setQuad q a).mboxes = s.mboxes := rfl
@[simp] theorem setQuad_poison (s : State) (q : Nat) (a : Quad) : (s.setQuad q a).poison = s.poison := rfl
@[simp] theorem setQuad_enc (s : State) (q : Nat) (a : Quad) : (s.setQuad q a).enc = s.enc := rfl
@[simp] theorem setQuad_latches (s : State) (q : Nat) (a : Quad) : (s.setQuad q a).latches = s.latches := rfl
@[simp] theorem setQuad_heldFills (s : State) (q : Nat) (a : Quad) : (s.setQuad q a).heldFills = s.heldFills := rfl
@[simp] theorem setQuad_net (s : State) (q : Nat) (a : Quad) : (s.setQuad q a).net = s.net := rfl
@[simp] theorem setQuad_outbox (s : State) (q : Nat) (a : Quad) : (s.setQuad q a).outbox = s.outbox := rfl
@[simp] theorem setQuad_asked (s : State) (q : Nat) (a : Quad) : (s.setQuad q a).asked = s.asked := rfl
@[simp] theorem setQuad_seqOut (s : State) (q : Nat) (a : Quad) : (s.setQuad q a).seqOut = s.seqOut := rfl
@[simp] theorem setQuad_seqIn (s : State) (q : Nat) (a : Quad) : (s.setQuad q a).seqIn = s.seqIn := rfl
@[simp] theorem setQuad_fetched (s : State) (q : Nat) (a : Quad) : (s.setQuad q a).fetched = s.fetched := rfl
@[simp] theorem setQuad_remoteCalls (s : State) (q : Nat) (a : Quad) : (s.setQuad q a).remoteCalls = s.remoteCalls := rfl
@[simp] theorem setQuad_lostCalls (s : State) (q : Nat) (a : Quad) : (s.setQuad q a).lostCalls = s.lostCalls := rfl
@[simp] theorem setQuad_bars (s : State) (q : Nat) (a : Quad) : (s.setQuad q a).bars = s.bars := rfl
@[simp] theorem setQuad_walks (s : State) (q : Nat) (a : Quad) : (s.setQuad q a).walks = s.walks := rfl
@[simp] theorem setQuad_walkFails (s : State) (q : Nat) (a : Quad) : (s.setQuad q a).walkFails = s.walkFails := rfl
@[simp] theorem setQuad_pointers (s : State) (q : Nat) (a : Quad) : (s.setQuad q a).pointers = s.pointers := rfl
@[simp] theorem setQuad_slots (s : State) (q : Nat) (a : Quad) : (s.setQuad q a).slots = s.slots := rfl
@[simp] theorem setQuad_queues (s : State) (q : Nat) (a : Quad) : (s.setQuad q a).queues = s.queues := rfl
@[simp] theorem setQuad_links (s : State) (q : Nat) (a : Quad) : (s.setQuad q a).links = s.links := rfl
@[simp] theorem setQuad_flits (s : State) (q : Nat) (a : Quad) : (s.setQuad q a).flits = s.flits := rfl
@[simp] theorem setQuad_hubs (s : State) (q : Nat) (a : Quad) : (s.setQuad q a).hubs = s.hubs := rfl
@[simp] theorem setQuad_cur (s : State) (q : Nat) (a : Quad) : (s.setQuad q a).cur = s.cur := rfl
@[simp] theorem setQuad_curCtx (s : State) (q : Nat) (a : Quad) : (s.setQuad q a).curCtx = s.curCtx := rfl
@[simp] theorem setQuad_turns (s : State) (q : Nat) (a : Quad) : (s.setQuad q a).turns = s.turns := rfl
@[simp] theorem setQuad_tick (s : State) (q : Nat) (a : Quad) : (s.setQuad q a).tick = s.tick := rfl
@[simp] theorem setQuad_cycles (s : State) (q : Nat) (a : Quad) : (s.setQuad q a).cycles = s.cycles := rfl
@[simp] theorem setQuad_clock (s : State) (q : Nat) (a : Quad) : (s.setQuad q a).clock = s.clock := rfl
@[simp] theorem setQuad_ready (s : State) (q : Nat) (a : Quad) : (s.setQuad q a).ready = s.ready := rfl
@[simp] theorem setQuad_powered (s : State) (q : Nat) (a : Quad) : (s.setQuad q a).powered = s.powered := rfl
@[simp] theorem setQuad_qtab (s : State) (q : Nat) (a : Quad) : (s.setQuad q a).qtab = s.qtab := rfl
@[simp] theorem setQuad_slotCount (s : State) (q : Nat) (a : Quad) : (s.setQuad q a).slotCount = s.slotCount := rfl
@[simp] theorem setQuad_ageing (s : State) (q : Nat) (a : Quad) : (s.setQuad q a).ageing = s.ageing := rfl
@[simp] theorem setQuad_ageBase (s : State) (q : Nat) (a : Quad) : (s.setQuad q a).ageBase = s.ageBase := rfl
@[simp] theorem setQuad_bar2 (s : State) (q : Nat) (a : Quad) : (s.setQuad q a).bar2 = s.bar2 := rfl
@[simp] theorem setQuad_bar2Size (s : State) (q : Nat) (a : Quad) : (s.setQuad q a).bar2Size = s.bar2Size := rfl
@[simp] theorem setQuad_bar2Read (s : State) (q : Nat) (a : Quad) : (s.setQuad q a).bar2Read = s.bar2Read := rfl
@[simp] theorem setQuad_bar0Read (s : State) (q : Nat) (a : Quad) : (s.setQuad q a).bar0Read = s.bar0Read := rfl
@[simp] theorem setQuad_bar0 (s : State) (q : Nat) (a : Quad) : (s.setQuad q a).bar0 = s.bar0 := rfl
@[simp] theorem setQuad_response (s : State) (q : Nat) (a : Quad) : (s.setQuad q a).response = s.response := rfl
@[simp] theorem setQuad_info (s : State) (q : Nat) (a : Quad) : (s.setQuad q a).info = s.info := rfl
@[simp] theorem setQuad_interrupts (s : State) (q : Nat) (a : Quad) : (s.setQuad q a).interrupts = s.interrupts := rfl
@[simp] theorem setQuad_sampling (s : State) (q : Nat) (a : Quad) : (s.setQuad q a).sampling = s.sampling := rfl
@[simp] theorem setQuad_fenced (s : State) (q : Nat) (a : Quad) : (s.setQuad q a).fenced = s.fenced := rfl
@[simp] theorem setQuad_fenceLog (s : State) (q : Nat) (a : Quad) : (s.setQuad q a).fenceLog = s.fenceLog := rfl
@[simp] theorem setQuad_life (s : State) (q : Nat) (a : Quad) : (s.setQuad q a).life = s.life := rfl
@[simp] theorem setQuad_watts (s : State) (q : Nat) (a : Quad) : (s.setQuad q a).watts = s.watts := rfl
@[simp] theorem setQuad_sramErrors (s : State) (q : Nat) (a : Quad) : (s.setQuad q a).sramErrors = s.sramErrors := rfl
@[simp] theorem setQuad_lastStore (s : State) (q : Nat) (a : Quad) : (s.setQuad q a).lastStore = s.lastStore := rfl
@[simp] theorem setQuad_stream (s : State) (q : Nat) (a : Quad) : (s.setQuad q a).stream = s.stream := rfl
@[simp] theorem setQuad_schedLog (s : State) (q : Nat) (a : Quad) : (s.setQuad q a).schedLog = s.schedLog := rfl
@[simp] theorem setQuad_fresh (s : State) (q : Nat) (a : Quad) : (s.setQuad q a).fresh = s.fresh := rfl
@[simp] theorem setQuad_free (s : State) (q : Nat) (a : Quad) : (s.setQuad q a).free = s.free := rfl

@[simp] theorem setQuad_quads (s : State) (q : Nat) (a : Quad) : (s.setQuad q a).quads = setAt s.quads q a := rfl
@[simp] theorem setSlot_pkg (s : State) (n : Nat) (x : Slot) : (s.setSlot n x).pkg = s.pkg := rfl
@[simp] theorem setSlot_mem (s : State) (n : Nat) (x : Slot) : (s.setSlot n x).mem = s.mem := rfl
@[simp] theorem setSlot_hostMem (s : State) (n : Nat) (x : Slot) : (s.setSlot n x).hostMem = s.hostMem := rfl
@[simp] theorem setSlot_cores (s : State) (n : Nat) (x : Slot) : (s.setSlot n x).cores = s.cores := rfl
@[simp] theorem setSlot_quads (s : State) (n : Nat) (x : Slot) : (s.setSlot n x).quads = s.quads := rfl
@[simp] theorem setSlot_units (s : State) (n : Nat) (x : Slot) : (s.setSlot n x).units = s.units := rfl
@[simp] theorem setSlot_blocks (s : State) (n : Nat) (x : Slot) : (s.setSlot n x).blocks = s.blocks := rfl
@[simp] theorem setSlot_once (s : State) (n : Nat) (x : Slot) : (s.setSlot n x).once = s.once := rfl
@[simp] theorem setSlot_mboxes (s : State) (n : Nat) (x : Slot) : (s.setSlot n x).mboxes = s.mboxes := rfl
@[simp] theorem setSlot_poison (s : State) (n : Nat) (x : Slot) : (s.setSlot n x).poison = s.poison := rfl
@[simp] theorem setSlot_enc (s : State) (n : Nat) (x : Slot) : (s.setSlot n x).enc = s.enc := rfl
@[simp] theorem setSlot_latches (s : State) (n : Nat) (x : Slot) : (s.setSlot n x).latches = s.latches := rfl
@[simp] theorem setSlot_heldFills (s : State) (n : Nat) (x : Slot) : (s.setSlot n x).heldFills = s.heldFills := rfl
@[simp] theorem setSlot_net (s : State) (n : Nat) (x : Slot) : (s.setSlot n x).net = s.net := rfl
@[simp] theorem setSlot_outbox (s : State) (n : Nat) (x : Slot) : (s.setSlot n x).outbox = s.outbox := rfl
@[simp] theorem setSlot_asked (s : State) (n : Nat) (x : Slot) : (s.setSlot n x).asked = s.asked := rfl
@[simp] theorem setSlot_seqOut (s : State) (n : Nat) (x : Slot) : (s.setSlot n x).seqOut = s.seqOut := rfl
@[simp] theorem setSlot_seqIn (s : State) (n : Nat) (x : Slot) : (s.setSlot n x).seqIn = s.seqIn := rfl
@[simp] theorem setSlot_fetched (s : State) (n : Nat) (x : Slot) : (s.setSlot n x).fetched = s.fetched := rfl
@[simp] theorem setSlot_remoteCalls (s : State) (n : Nat) (x : Slot) : (s.setSlot n x).remoteCalls = s.remoteCalls := rfl
@[simp] theorem setSlot_lostCalls (s : State) (n : Nat) (x : Slot) : (s.setSlot n x).lostCalls = s.lostCalls := rfl
@[simp] theorem setSlot_bars (s : State) (n : Nat) (x : Slot) : (s.setSlot n x).bars = s.bars := rfl
@[simp] theorem setSlot_walks (s : State) (n : Nat) (x : Slot) : (s.setSlot n x).walks = s.walks := rfl
@[simp] theorem setSlot_walkFails (s : State) (n : Nat) (x : Slot) : (s.setSlot n x).walkFails = s.walkFails := rfl
@[simp] theorem setSlot_pointers (s : State) (n : Nat) (x : Slot) : (s.setSlot n x).pointers = s.pointers := rfl
@[simp] theorem setSlot_queues (s : State) (n : Nat) (x : Slot) : (s.setSlot n x).queues = s.queues := rfl
@[simp] theorem setSlot_links (s : State) (n : Nat) (x : Slot) : (s.setSlot n x).links = s.links := rfl
@[simp] theorem setSlot_flits (s : State) (n : Nat) (x : Slot) : (s.setSlot n x).flits = s.flits := rfl
@[simp] theorem setSlot_hubs (s : State) (n : Nat) (x : Slot) : (s.setSlot n x).hubs = s.hubs := rfl
@[simp] theorem setSlot_cur (s : State) (n : Nat) (x : Slot) : (s.setSlot n x).cur = s.cur := rfl
@[simp] theorem setSlot_curCtx (s : State) (n : Nat) (x : Slot) : (s.setSlot n x).curCtx = s.curCtx := rfl
@[simp] theorem setSlot_turns (s : State) (n : Nat) (x : Slot) : (s.setSlot n x).turns = s.turns := rfl
@[simp] theorem setSlot_tick (s : State) (n : Nat) (x : Slot) : (s.setSlot n x).tick = s.tick := rfl
@[simp] theorem setSlot_cycles (s : State) (n : Nat) (x : Slot) : (s.setSlot n x).cycles = s.cycles := rfl
@[simp] theorem setSlot_clock (s : State) (n : Nat) (x : Slot) : (s.setSlot n x).clock = s.clock := rfl
@[simp] theorem setSlot_ready (s : State) (n : Nat) (x : Slot) : (s.setSlot n x).ready = s.ready := rfl
@[simp] theorem setSlot_powered (s : State) (n : Nat) (x : Slot) : (s.setSlot n x).powered = s.powered := rfl
@[simp] theorem setSlot_qtab (s : State) (n : Nat) (x : Slot) : (s.setSlot n x).qtab = s.qtab := rfl
@[simp] theorem setSlot_slotCount (s : State) (n : Nat) (x : Slot) : (s.setSlot n x).slotCount = s.slotCount := rfl
@[simp] theorem setSlot_ageing (s : State) (n : Nat) (x : Slot) : (s.setSlot n x).ageing = s.ageing := rfl
@[simp] theorem setSlot_ageBase (s : State) (n : Nat) (x : Slot) : (s.setSlot n x).ageBase = s.ageBase := rfl
@[simp] theorem setSlot_bar2 (s : State) (n : Nat) (x : Slot) : (s.setSlot n x).bar2 = s.bar2 := rfl
@[simp] theorem setSlot_bar2Size (s : State) (n : Nat) (x : Slot) : (s.setSlot n x).bar2Size = s.bar2Size := rfl
@[simp] theorem setSlot_bar2Read (s : State) (n : Nat) (x : Slot) : (s.setSlot n x).bar2Read = s.bar2Read := rfl
@[simp] theorem setSlot_bar0Read (s : State) (n : Nat) (x : Slot) : (s.setSlot n x).bar0Read = s.bar0Read := rfl
@[simp] theorem setSlot_bar0 (s : State) (n : Nat) (x : Slot) : (s.setSlot n x).bar0 = s.bar0 := rfl
@[simp] theorem setSlot_response (s : State) (n : Nat) (x : Slot) : (s.setSlot n x).response = s.response := rfl
@[simp] theorem setSlot_info (s : State) (n : Nat) (x : Slot) : (s.setSlot n x).info = s.info := rfl
@[simp] theorem setSlot_interrupts (s : State) (n : Nat) (x : Slot) : (s.setSlot n x).interrupts = s.interrupts := rfl
@[simp] theorem setSlot_sampling (s : State) (n : Nat) (x : Slot) : (s.setSlot n x).sampling = s.sampling := rfl
@[simp] theorem setSlot_fenced (s : State) (n : Nat) (x : Slot) : (s.setSlot n x).fenced = s.fenced := rfl
@[simp] theorem setSlot_fenceLog (s : State) (n : Nat) (x : Slot) : (s.setSlot n x).fenceLog = s.fenceLog := rfl
@[simp] theorem setSlot_life (s : State) (n : Nat) (x : Slot) : (s.setSlot n x).life = s.life := rfl
@[simp] theorem setSlot_watts (s : State) (n : Nat) (x : Slot) : (s.setSlot n x).watts = s.watts := rfl
@[simp] theorem setSlot_sramErrors (s : State) (n : Nat) (x : Slot) : (s.setSlot n x).sramErrors = s.sramErrors := rfl
@[simp] theorem setSlot_lastStore (s : State) (n : Nat) (x : Slot) : (s.setSlot n x).lastStore = s.lastStore := rfl
@[simp] theorem setSlot_stream (s : State) (n : Nat) (x : Slot) : (s.setSlot n x).stream = s.stream := rfl
@[simp] theorem setSlot_schedLog (s : State) (n : Nat) (x : Slot) : (s.setSlot n x).schedLog = s.schedLog := rfl
@[simp] theorem setSlot_fresh (s : State) (n : Nat) (x : Slot) : (s.setSlot n x).fresh = s.fresh := rfl
@[simp] theorem setSlot_free (s : State) (n : Nat) (x : Slot) : (s.setSlot n x).free = s.free := rfl

@[simp] theorem setSlot_slots (s : State) (n : Nat) (x : Slot) : (s.setSlot n x).slots = setAt s.slots n x := rfl
/-! A context of a core. -/

@[simp] theorem core_setCtx_tvec (c : CoreSt) (i : Nat) (x : Ctx) : (c.setCtx i x).tvec = c.tvec := rfl
@[simp] theorem core_setCtx_xb (c : CoreSt) (i : Nat) (x : Ctx) : (c.setCtx i x).xb = c.xb := rfl
@[simp] theorem core_setCtx_rtree (c : CoreSt) (i : Nat) (x : Ctx) : (c.setCtx i x).rtree = c.rtree := rfl
@[simp] theorem core_setCtx_groups (c : CoreSt) (i : Nat) (x : Ctx) : (c.setCtx i x).groups = c.groups := rfl
@[simp] theorem core_setCtx_slot (c : CoreSt) (i : Nat) (x : Ctx) : (c.setCtx i x).slot = c.slot := rfl
@[simp] theorem core_setCtx_serial (c : CoreSt) (i : Nat) (x : Ctx) : (c.setCtx i x).serial = c.serial := rfl
@[simp] theorem core_setCtx_deque (c : CoreSt) (i : Nat) (x : Ctx) : (c.setCtx i x).deque = c.deque := rfl
@[simp] theorem core_setCtx_overflow (c : CoreSt) (i : Nat) (x : Ctx) : (c.setCtx i x).overflow = c.overflow := rfl
@[simp] theorem core_setCtx_tlb (c : CoreSt) (i : Nat) (x : Ctx) : (c.setCtx i x).tlb = c.tlb := rfl
@[simp] theorem core_setCtx_copyTlb (c : CoreSt) (i : Nat) (x : Ctx) : (c.setCtx i x).copyTlb = c.copyTlb := rfl
@[simp] theorem core_setCtx_copyQ (c : CoreSt) (i : Nat) (x : Ctx) : (c.setCtx i x).copyQ = c.copyQ := rfl
@[simp] theorem core_setCtx_copyLast (c : CoreSt) (i : Nat) (x : Ctx) : (c.setCtx i x).copyLast = c.copyLast := rfl
@[simp] theorem core_setCtx_copyKeep (c : CoreSt) (i : Nat) (x : Ctx) : (c.setCtx i x).copyKeep = c.copyKeep := rfl
@[simp] theorem core_setCtx_arrivals (c : CoreSt) (i : Nat) (x : Ctx) : (c.setCtx i x).arrivals = c.arrivals := rfl
@[simp] theorem core_setCtx_mailbox (c : CoreSt) (i : Nat) (x : Ctx) : (c.setCtx i x).mailbox = c.mailbox := rfl
@[simp] theorem core_setCtx_ports (c : CoreSt) (i : Nat) (x : Ctx) : (c.setCtx i x).ports = c.ports := rfl
@[simp] theorem core_setCtx_resend (c : CoreSt) (i : Nat) (x : Ctx) : (c.setCtx i x).resend = c.resend := rfl
@[simp] theorem core_setCtx_pend (c : CoreSt) (i : Nat) (x : Ctx) : (c.setCtx i x).pend = c.pend := rfl
@[simp] theorem core_setCtx_spilled (c : CoreSt) (i : Nat) (x : Ctx) : (c.setCtx i x).spilled = c.spilled := rfl
@[simp] theorem core_setCtx_saved (c : CoreSt) (i : Nat) (x : Ctx) : (c.setCtx i x).saved = c.saved := rfl
@[simp] theorem core_setCtx_loading (c : CoreSt) (i : Nat) (x : Ctx) : (c.setCtx i x).loading = c.loading := rfl
@[simp] theorem core_setCtx_stealOut (c : CoreSt) (i : Nat) (x : Ctx) : (c.setCtx i x).stealOut = c.stealOut := rfl
@[simp] theorem core_setCtx_stealDir (c : CoreSt) (i : Nat) (x : Ctx) : (c.setCtx i x).stealDir = c.stealDir := rfl
@[simp] theorem core_setCtx_refusals (c : CoreSt) (i : Nat) (x : Ctx) : (c.setCtx i x).refusals = c.refusals := rfl
@[simp] theorem core_setCtx_backoff (c : CoreSt) (i : Nat) (x : Ctx) : (c.setCtx i x).backoff = c.backoff := rfl
@[simp] theorem core_setCtx_lastServed (c : CoreSt) (i : Nat) (x : Ctx) : (c.setCtx i x).lastServed = c.lastServed := rfl
@[simp] theorem core_setCtx_arbiter (c : CoreSt) (i : Nat) (x : Ctx) : (c.setCtx i x).arbiter = c.arbiter := rfl
@[simp] theorem core_setCtx_sent (c : CoreSt) (i : Nat) (x : Ctx) : (c.setCtx i x).sent = c.sent := rfl
@[simp] theorem core_setCtx_recv (c : CoreSt) (i : Nat) (x : Ctx) : (c.setCtx i x).recv = c.recv := rfl
@[simp] theorem core_setCtx_dirty (c : CoreSt) (i : Nat) (x : Ctx) : (c.setCtx i x).dirty = c.dirty := rfl
@[simp] theorem core_setCtx_stamps (c : CoreSt) (i : Nat) (x : Ctx) : (c.setCtx i x).stamps = c.stamps := rfl
@[simp] theorem core_setCtx_last (c : CoreSt) (i : Nat) (x : Ctx) : (c.setCtx i x).last = c.last := rfl
@[simp] theorem core_setCtx_switch (c : CoreSt) (i : Nat) (x : Ctx) : (c.setCtx i x).switch = c.switch := rfl
@[simp] theorem core_setCtx_yielded (c : CoreSt) (i : Nat) (x : Ctx) : (c.setCtx i x).yielded = c.yielded := rfl
@[simp] theorem core_setCtx_cyc (c : CoreSt) (i : Nat) (x : Ctx) : (c.setCtx i x).cyc = c.cyc := rfl
@[simp] theorem core_setCtx_gated (c : CoreSt) (i : Nat) (x : Ctx) : (c.setCtx i x).gated = c.gated := rfl
@[simp] theorem core_setCtx_halted (c : CoreSt) (i : Nat) (x : Ctx) : (c.setCtx i x).halted = c.halted := rfl
@[simp] theorem core_setCtx_haltOnBrk (c : CoreSt) (i : Nat) (x : Ctx) : (c.setCtx i x).haltOnBrk = c.haltOnBrk := rfl
@[simp] theorem core_setCtx_completeOnStep (c : CoreSt) (i : Nat) (x : Ctx) : (c.setCtx i x).completeOnStep = c.completeOnStep := rfl
@[simp] theorem core_setCtx_atBrk (c : CoreSt) (i : Nat) (x : Ctx) : (c.setCtx i x).atBrk = c.atBrk := rfl
@[simp] theorem core_setCtx_haltCause (c : CoreSt) (i : Nat) (x : Ctx) : (c.setCtx i x).haltCause = c.haltCause := rfl
@[simp] theorem core_setCtx_stepping (c : CoreSt) (i : Nat) (x : Ctx) : (c.setCtx i x).stepping = c.stepping := rfl
@[simp] theorem core_setCtx_sample (c : CoreSt) (i : Nat) (x : Ctx) : (c.setCtx i x).sample = c.sample := rfl

/-! Registers of a context. -/

@[simp] theorem wx_role (c : Ctx) (r : Reg) (w : Word) : (c.wx r w).role = c.role := by unfold Ctx.wx; split <;> (try split) <;> rfl
@[simp] theorem wx_pc (c : Ctx) (r : Reg) (w : Word) : (c.wx r w).pc = c.pc := by unfold Ctx.wx; split <;> (try split) <;> rfl
@[simp] theorem wx_v (c : Ctx) (r : Reg) (w : Word) : (c.wx r w).v = c.v := by unfold Ctx.wx; split <;> (try split) <;> rfl
@[simp] theorem wx_p (c : Ctx) (r : Reg) (w : Word) : (c.wx r w).p = c.p := by unfold Ctx.wx; split <;> (try split) <;> rfl
@[simp] theorem wx_k (c : Ctx) (r : Reg) (w : Word) : (c.wx r w).k = c.k := by unfold Ctx.wx; split <;> (try split) <;> rfl
@[simp] theorem wx_tstat (c : Ctx) (r : Reg) (w : Word) : (c.wx r w).tstat = c.tstat := by unfold Ctx.wx; split <;> (try split) <;> rfl
@[simp] theorem wx_tpc (c : Ctx) (r : Reg) (w : Word) : (c.wx r w).tpc = c.tpc := by unfold Ctx.wx; split <;> (try split) <;> rfl
@[simp] theorem wx_tcause (c : Ctx) (r : Reg) (w : Word) : (c.wx r w).tcause = c.tcause := by unfold Ctx.wx; split <;> (try split) <;> rfl
@[simp] theorem wx_tval (c : Ctx) (r : Reg) (w : Word) : (c.wx r w).tval = c.tval := by unfold Ctx.wx; split <;> (try split) <;> rfl
@[simp] theorem wx_fpre (c : Ctx) (r : Reg) (w : Word) : (c.wx r w).fpre = c.fpre := by unfold Ctx.wx; split <;> (try split) <;> rfl
@[simp] theorem wx_lc0 (c : Ctx) (r : Reg) (w : Word) : (c.wx r w).lc0 = c.lc0 := by unfold Ctx.wx; split <;> (try split) <;> rfl
@[simp] theorem wx_lc1 (c : Ctx) (r : Reg) (w : Word) : (c.wx r w).lc1 = c.lc1 := by unfold Ctx.wx; split <;> (try split) <;> rfl
@[simp] theorem wx_fflags (c : Ctx) (r : Reg) (w : Word) : (c.wx r w).fflags = c.fflags := by unfold Ctx.wx; split <;> (try split) <;> rfl
@[simp] theorem wx_frm (c : Ctx) (r : Reg) (w : Word) : (c.wx r w).frm = c.frm := by unfold Ctx.wx; split <;> (try split) <;> rfl
@[simp] theorem wx_fseed (c : Ctx) (r : Reg) (w : Word) : (c.wx r w).fseed = c.fseed := by unfold Ctx.wx; split <;> (try split) <;> rfl
@[simp] theorem wx_tid (c : Ctx) (r : Reg) (w : Word) : (c.wx r w).tid = c.tid := by unfold Ctx.wx; split <;> (try split) <;> rfl
@[simp] theorem wx_grp (c : Ctx) (r : Reg) (w : Word) : (c.wx r w).grp = c.grp := by unfold Ctx.wx; split <;> (try split) <;> rfl
@[simp] theorem wx_exitc (c : Ctx) (r : Reg) (w : Word) : (c.wx r w).exitc = c.exitc := by unfold Ctx.wx; split <;> (try split) <;> rfl
@[simp] theorem wx_hst (c : Ctx) (r : Reg) (w : Word) : (c.wx r w).hst = c.hst := by unfold Ctx.wx; split <;> (try split) <;> rfl
@[simp] theorem wx_hbud (c : Ctx) (r : Reg) (w : Word) : (c.wx r w).hbud = c.hbud := by unfold Ctx.wx; split <;> (try split) <;> rfl
@[simp] theorem wx_chb (c : Ctx) (r : Reg) (w : Word) : (c.wx r w).chb = c.chb := by unfold Ctx.wx; split <;> (try split) <;> rfl
@[simp] theorem wx_gtol (c : Ctx) (r : Reg) (w : Word) : (c.wx r w).gtol = c.gtol := by unfold Ctx.wx; split <;> (try split) <;> rfl
@[simp] theorem wx_gdmp (c : Ctx) (r : Reg) (w : Word) : (c.wx r w).gdmp = c.gdmp := by unfold Ctx.wx; split <;> (try split) <;> rfl
@[simp] theorem wx_laterLc1 (c : Ctx) (r : Reg) (w : Word) : (c.wx r w).laterLc1 = c.laterLc1 := by unfold Ctx.wx; split <;> (try split) <;> rfl
@[simp] theorem wx_pending (c : Ctx) (r : Reg) (w : Word) : (c.wx r w).pending = c.pending := by unfold Ctx.wx; split <;> (try split) <;> rfl
@[simp] theorem wx_thrMarks (c : Ctx) (r : Reg) (w : Word) : (c.wx r w).thrMarks = c.thrMarks := by unfold Ctx.wx; split <;> (try split) <;> rfl
@[simp] theorem wx_gathers (c : Ctx) (r : Reg) (w : Word) : (c.wx r w).gathers = c.gathers := by unfold Ctx.wx; split <;> (try split) <;> rfl
@[simp] theorem wx_ticket (c : Ctx) (r : Reg) (w : Word) : (c.wx r w).ticket = c.ticket := by unfold Ctx.wx; split <;> (try split) <;> rfl
@[simp] theorem wx_q2pre (c : Ctx) (r : Reg) (w : Word) : (c.wx r w).q2pre = c.q2pre := by unfold Ctx.wx; split <;> (try split) <;> rfl
@[simp] theorem wx_asm0 (c : Ctx) (r : Reg) (w : Word) : (c.wx r w).asm0 = c.asm0 := by unfold Ctx.wx; split <;> (try split) <;> rfl
@[simp] theorem wx_asm2 (c : Ctx) (r : Reg) (w : Word) : (c.wx r w).asm2 = c.asm2 := by unfold Ctx.wx; split <;> (try split) <;> rfl
@[simp] theorem wx_asm4 (c : Ctx) (r : Reg) (w : Word) : (c.wx r w).asm4 = c.asm4 := by unfold Ctx.wx; split <;> (try split) <;> rfl
@[simp] theorem wx_q1 (c : Ctx) (r : Reg) (w : Word) : (c.wx r w).q1 = c.q1 := by unfold Ctx.wx; split <;> (try split) <;> rfl
@[simp] theorem wx_q3 (c : Ctx) (r : Reg) (w : Word) : (c.wx r w).q3 = c.q3 := by unfold Ctx.wx; split <;> (try split) <;> rfl
@[simp] theorem wx_q3rows (c : Ctx) (r : Reg) (w : Word) : (c.wx r w).q3rows = c.q3rows := by unfold Ctx.wx; split <;> (try split) <;> rfl
@[simp] theorem wx_q5 (c : Ctx) (r : Reg) (w : Word) : (c.wx r w).q5 = c.q5 := by unfold Ctx.wx; split <;> (try split) <;> rfl
@[simp] theorem wx_q1res (c : Ctx) (r : Reg) (w : Word) : (c.wx r w).q1res = c.q1res := by unfold Ctx.wx; split <;> (try split) <;> rfl
@[simp] theorem wx_q5res (c : Ctx) (r : Reg) (w : Word) : (c.wx r w).q5res = c.q5res := by unfold Ctx.wx; split <;> (try split) <;> rfl
@[simp] theorem wx_pops (c : Ctx) (r : Reg) (w : Word) : (c.wx r w).pops = c.pops := by unfold Ctx.wx; split <;> (try split) <;> rfl
@[simp] theorem wx_faults (c : Ctx) (r : Reg) (w : Word) : (c.wx r w).faults = c.faults := by unfold Ctx.wx; split <;> (try split) <;> rfl
@[simp] theorem wx_flagged (c : Ctx) (r : Reg) (w : Word) : (c.wx r w).flagged = c.flagged := by unfold Ctx.wx; split <;> (try split) <;> rfl
@[simp] theorem wx_wait (c : Ctx) (r : Reg) (w : Word) : (c.wx r w).wait = c.wait := by unfold Ctx.wx; split <;> (try split) <;> rfl
@[simp] theorem wx_parkedAt (c : Ctx) (r : Reg) (w : Word) : (c.wx r w).parkedAt = c.parkedAt := by unfold Ctx.wx; split <;> (try split) <;> rfl
@[simp] theorem wx_phase (c : Ctx) (r : Reg) (w : Word) : (c.wx r w).phase = c.phase := by unfold Ctx.wx; split <;> (try split) <;> rfl
@[simp] theorem wx_acks (c : Ctx) (r : Reg) (w : Word) : (c.wx r w).acks = c.acks := by unfold Ctx.wx; split <;> (try split) <;> rfl
@[simp] theorem wx_reply (c : Ctx) (r : Reg) (w : Word) : (c.wx r w).reply = c.reply := by unfold Ctx.wx; split <;> (try split) <;> rfl
@[simp] theorem wx_notes (c : Ctx) (r : Reg) (w : Word) : (c.wx r w).notes = c.notes := by unfold Ctx.wx; split <;> (try split) <;> rfl
@[simp] theorem wx_pfx (c : Ctx) (r : Reg) (w : Word) : (c.wx r w).pfx = c.pfx := by unfold Ctx.wx; split <;> (try split) <;> rfl
@[simp] theorem wx_rep (c : Ctx) (r : Reg) (w : Word) : (c.wx r w).rep = c.rep := by unfold Ctx.wx; split <;> (try split) <;> rfl
@[simp] theorem wx_prio (c : Ctx) (r : Reg) (w : Word) : (c.wx r w).prio = c.prio := by unfold Ctx.wx; split <;> (try split) <;> rfl
@[simp] theorem wx_slot (c : Ctx) (r : Reg) (w : Word) : (c.wx r w).slot = c.slot := by unfold Ctx.wx; split <;> (try split) <;> rfl
@[simp] theorem wx_serial (c : Ctx) (r : Reg) (w : Word) : (c.wx r w).serial = c.serial := by unfold Ctx.wx; split <;> (try split) <;> rfl
@[simp] theorem wx_copyOut (c : Ctx) (r : Reg) (w : Word) : (c.wx r w).copyOut = c.copyOut := by unfold Ctx.wx; split <;> (try split) <;> rfl
@[simp] theorem wx_ltag (c : Ctx) (r : Reg) (w : Word) : (c.wx r w).ltag = c.ltag := by unfold Ctx.wx; split <;> (try split) <;> rfl
@[simp] theorem wx_lcause (c : Ctx) (r : Reg) (w : Word) : (c.wx r w).lcause = c.lcause := by unfold Ctx.wx; split <;> (try split) <;> rfl
@[simp] theorem wx_aset (c : Ctx) (r : Reg) (w : Word) : (c.wx r w).aset = c.aset := by unfold Ctx.wx; split <;> (try split) <;> rfl
@[simp] theorem wx_gangPosted (c : Ctx) (r : Reg) (w : Word) : (c.wx r w).gangPosted = c.gangPosted := by unfold Ctx.wx; split <;> (try split) <;> rfl
@[simp] theorem wx_stopped (c : Ctx) (r : Reg) (w : Word) : (c.wx r w).stopped = c.stopped := by unfold Ctx.wx; split <;> (try split) <;> rfl

@[simp] theorem wv_role (c : Ctx) (r : Reg) (w : Vec) : (c.wv r w).role = c.role := rfl
@[simp] theorem wv_pc (c : Ctx) (r : Reg) (w : Vec) : (c.wv r w).pc = c.pc := rfl
@[simp] theorem wv_x (c : Ctx) (r : Reg) (w : Vec) : (c.wv r w).x = c.x := rfl
@[simp] theorem wv_p (c : Ctx) (r : Reg) (w : Vec) : (c.wv r w).p = c.p := rfl
@[simp] theorem wv_k (c : Ctx) (r : Reg) (w : Vec) : (c.wv r w).k = c.k := rfl
@[simp] theorem wv_tstat (c : Ctx) (r : Reg) (w : Vec) : (c.wv r w).tstat = c.tstat := rfl
@[simp] theorem wv_tpc (c : Ctx) (r : Reg) (w : Vec) : (c.wv r w).tpc = c.tpc := rfl
@[simp] theorem wv_tcause (c : Ctx) (r : Reg) (w : Vec) : (c.wv r w).tcause = c.tcause := rfl
@[simp] theorem wv_tval (c : Ctx) (r : Reg) (w : Vec) : (c.wv r w).tval = c.tval := rfl
@[simp] theorem wv_fpre (c : Ctx) (r : Reg) (w : Vec) : (c.wv r w).fpre = c.fpre := rfl
@[simp] theorem wv_lc0 (c : Ctx) (r : Reg) (w : Vec) : (c.wv r w).lc0 = c.lc0 := rfl
@[simp] theorem wv_lc1 (c : Ctx) (r : Reg) (w : Vec) : (c.wv r w).lc1 = c.lc1 := rfl
@[simp] theorem wv_fflags (c : Ctx) (r : Reg) (w : Vec) : (c.wv r w).fflags = c.fflags := rfl
@[simp] theorem wv_frm (c : Ctx) (r : Reg) (w : Vec) : (c.wv r w).frm = c.frm := rfl
@[simp] theorem wv_fseed (c : Ctx) (r : Reg) (w : Vec) : (c.wv r w).fseed = c.fseed := rfl
@[simp] theorem wv_tid (c : Ctx) (r : Reg) (w : Vec) : (c.wv r w).tid = c.tid := rfl
@[simp] theorem wv_grp (c : Ctx) (r : Reg) (w : Vec) : (c.wv r w).grp = c.grp := rfl
@[simp] theorem wv_exitc (c : Ctx) (r : Reg) (w : Vec) : (c.wv r w).exitc = c.exitc := rfl
@[simp] theorem wv_hst (c : Ctx) (r : Reg) (w : Vec) : (c.wv r w).hst = c.hst := rfl
@[simp] theorem wv_hbud (c : Ctx) (r : Reg) (w : Vec) : (c.wv r w).hbud = c.hbud := rfl
@[simp] theorem wv_chb (c : Ctx) (r : Reg) (w : Vec) : (c.wv r w).chb = c.chb := rfl
@[simp] theorem wv_gtol (c : Ctx) (r : Reg) (w : Vec) : (c.wv r w).gtol = c.gtol := rfl
@[simp] theorem wv_gdmp (c : Ctx) (r : Reg) (w : Vec) : (c.wv r w).gdmp = c.gdmp := rfl
@[simp] theorem wv_laterLc1 (c : Ctx) (r : Reg) (w : Vec) : (c.wv r w).laterLc1 = c.laterLc1 := rfl
@[simp] theorem wv_pending (c : Ctx) (r : Reg) (w : Vec) : (c.wv r w).pending = c.pending := rfl
@[simp] theorem wv_thrMarks (c : Ctx) (r : Reg) (w : Vec) : (c.wv r w).thrMarks = c.thrMarks := rfl
@[simp] theorem wv_gathers (c : Ctx) (r : Reg) (w : Vec) : (c.wv r w).gathers = c.gathers := rfl
@[simp] theorem wv_ticket (c : Ctx) (r : Reg) (w : Vec) : (c.wv r w).ticket = c.ticket := rfl
@[simp] theorem wv_q2pre (c : Ctx) (r : Reg) (w : Vec) : (c.wv r w).q2pre = c.q2pre := rfl
@[simp] theorem wv_asm0 (c : Ctx) (r : Reg) (w : Vec) : (c.wv r w).asm0 = c.asm0 := rfl
@[simp] theorem wv_asm2 (c : Ctx) (r : Reg) (w : Vec) : (c.wv r w).asm2 = c.asm2 := rfl
@[simp] theorem wv_asm4 (c : Ctx) (r : Reg) (w : Vec) : (c.wv r w).asm4 = c.asm4 := rfl
@[simp] theorem wv_q1 (c : Ctx) (r : Reg) (w : Vec) : (c.wv r w).q1 = c.q1 := rfl
@[simp] theorem wv_q3 (c : Ctx) (r : Reg) (w : Vec) : (c.wv r w).q3 = c.q3 := rfl
@[simp] theorem wv_q3rows (c : Ctx) (r : Reg) (w : Vec) : (c.wv r w).q3rows = c.q3rows := rfl
@[simp] theorem wv_q5 (c : Ctx) (r : Reg) (w : Vec) : (c.wv r w).q5 = c.q5 := rfl
@[simp] theorem wv_q1res (c : Ctx) (r : Reg) (w : Vec) : (c.wv r w).q1res = c.q1res := rfl
@[simp] theorem wv_q5res (c : Ctx) (r : Reg) (w : Vec) : (c.wv r w).q5res = c.q5res := rfl
@[simp] theorem wv_pops (c : Ctx) (r : Reg) (w : Vec) : (c.wv r w).pops = c.pops := rfl
@[simp] theorem wv_faults (c : Ctx) (r : Reg) (w : Vec) : (c.wv r w).faults = c.faults := rfl
@[simp] theorem wv_flagged (c : Ctx) (r : Reg) (w : Vec) : (c.wv r w).flagged = c.flagged := rfl
@[simp] theorem wv_wait (c : Ctx) (r : Reg) (w : Vec) : (c.wv r w).wait = c.wait := rfl
@[simp] theorem wv_parkedAt (c : Ctx) (r : Reg) (w : Vec) : (c.wv r w).parkedAt = c.parkedAt := rfl
@[simp] theorem wv_phase (c : Ctx) (r : Reg) (w : Vec) : (c.wv r w).phase = c.phase := rfl
@[simp] theorem wv_acks (c : Ctx) (r : Reg) (w : Vec) : (c.wv r w).acks = c.acks := rfl
@[simp] theorem wv_reply (c : Ctx) (r : Reg) (w : Vec) : (c.wv r w).reply = c.reply := rfl
@[simp] theorem wv_notes (c : Ctx) (r : Reg) (w : Vec) : (c.wv r w).notes = c.notes := rfl
@[simp] theorem wv_pfx (c : Ctx) (r : Reg) (w : Vec) : (c.wv r w).pfx = c.pfx := rfl
@[simp] theorem wv_rep (c : Ctx) (r : Reg) (w : Vec) : (c.wv r w).rep = c.rep := rfl
@[simp] theorem wv_prio (c : Ctx) (r : Reg) (w : Vec) : (c.wv r w).prio = c.prio := rfl
@[simp] theorem wv_slot (c : Ctx) (r : Reg) (w : Vec) : (c.wv r w).slot = c.slot := rfl
@[simp] theorem wv_serial (c : Ctx) (r : Reg) (w : Vec) : (c.wv r w).serial = c.serial := rfl
@[simp] theorem wv_copyOut (c : Ctx) (r : Reg) (w : Vec) : (c.wv r w).copyOut = c.copyOut := rfl
@[simp] theorem wv_ltag (c : Ctx) (r : Reg) (w : Vec) : (c.wv r w).ltag = c.ltag := rfl
@[simp] theorem wv_lcause (c : Ctx) (r : Reg) (w : Vec) : (c.wv r w).lcause = c.lcause := rfl
@[simp] theorem wv_aset (c : Ctx) (r : Reg) (w : Vec) : (c.wv r w).aset = c.aset := rfl
@[simp] theorem wv_gangPosted (c : Ctx) (r : Reg) (w : Vec) : (c.wv r w).gangPosted = c.gangPosted := rfl
@[simp] theorem wv_stopped (c : Ctx) (r : Reg) (w : Vec) : (c.wv r w).stopped = c.stopped := rfl

@[simp] theorem wp_role (c : Ctx) (n : BitVec 3) (b : Bool) : (c.wp n b).role = c.role := by unfold Ctx.wp; split <;> rfl
@[simp] theorem wp_pc (c : Ctx) (n : BitVec 3) (b : Bool) : (c.wp n b).pc = c.pc := by unfold Ctx.wp; split <;> rfl
@[simp] theorem wp_x (c : Ctx) (n : BitVec 3) (b : Bool) : (c.wp n b).x = c.x := by unfold Ctx.wp; split <;> rfl
@[simp] theorem wp_v (c : Ctx) (n : BitVec 3) (b : Bool) : (c.wp n b).v = c.v := by unfold Ctx.wp; split <;> rfl
@[simp] theorem wp_k (c : Ctx) (n : BitVec 3) (b : Bool) : (c.wp n b).k = c.k := by unfold Ctx.wp; split <;> rfl
@[simp] theorem wp_tstat (c : Ctx) (n : BitVec 3) (b : Bool) : (c.wp n b).tstat = c.tstat := by unfold Ctx.wp; split <;> rfl
@[simp] theorem wp_tpc (c : Ctx) (n : BitVec 3) (b : Bool) : (c.wp n b).tpc = c.tpc := by unfold Ctx.wp; split <;> rfl
@[simp] theorem wp_tcause (c : Ctx) (n : BitVec 3) (b : Bool) : (c.wp n b).tcause = c.tcause := by unfold Ctx.wp; split <;> rfl
@[simp] theorem wp_tval (c : Ctx) (n : BitVec 3) (b : Bool) : (c.wp n b).tval = c.tval := by unfold Ctx.wp; split <;> rfl
@[simp] theorem wp_fpre (c : Ctx) (n : BitVec 3) (b : Bool) : (c.wp n b).fpre = c.fpre := by unfold Ctx.wp; split <;> rfl
@[simp] theorem wp_lc0 (c : Ctx) (n : BitVec 3) (b : Bool) : (c.wp n b).lc0 = c.lc0 := by unfold Ctx.wp; split <;> rfl
@[simp] theorem wp_lc1 (c : Ctx) (n : BitVec 3) (b : Bool) : (c.wp n b).lc1 = c.lc1 := by unfold Ctx.wp; split <;> rfl
@[simp] theorem wp_fflags (c : Ctx) (n : BitVec 3) (b : Bool) : (c.wp n b).fflags = c.fflags := by unfold Ctx.wp; split <;> rfl
@[simp] theorem wp_frm (c : Ctx) (n : BitVec 3) (b : Bool) : (c.wp n b).frm = c.frm := by unfold Ctx.wp; split <;> rfl
@[simp] theorem wp_fseed (c : Ctx) (n : BitVec 3) (b : Bool) : (c.wp n b).fseed = c.fseed := by unfold Ctx.wp; split <;> rfl
@[simp] theorem wp_tid (c : Ctx) (n : BitVec 3) (b : Bool) : (c.wp n b).tid = c.tid := by unfold Ctx.wp; split <;> rfl
@[simp] theorem wp_grp (c : Ctx) (n : BitVec 3) (b : Bool) : (c.wp n b).grp = c.grp := by unfold Ctx.wp; split <;> rfl
@[simp] theorem wp_exitc (c : Ctx) (n : BitVec 3) (b : Bool) : (c.wp n b).exitc = c.exitc := by unfold Ctx.wp; split <;> rfl
@[simp] theorem wp_hst (c : Ctx) (n : BitVec 3) (b : Bool) : (c.wp n b).hst = c.hst := by unfold Ctx.wp; split <;> rfl
@[simp] theorem wp_hbud (c : Ctx) (n : BitVec 3) (b : Bool) : (c.wp n b).hbud = c.hbud := by unfold Ctx.wp; split <;> rfl
@[simp] theorem wp_chb (c : Ctx) (n : BitVec 3) (b : Bool) : (c.wp n b).chb = c.chb := by unfold Ctx.wp; split <;> rfl
@[simp] theorem wp_gtol (c : Ctx) (n : BitVec 3) (b : Bool) : (c.wp n b).gtol = c.gtol := by unfold Ctx.wp; split <;> rfl
@[simp] theorem wp_gdmp (c : Ctx) (n : BitVec 3) (b : Bool) : (c.wp n b).gdmp = c.gdmp := by unfold Ctx.wp; split <;> rfl
@[simp] theorem wp_laterLc1 (c : Ctx) (n : BitVec 3) (b : Bool) : (c.wp n b).laterLc1 = c.laterLc1 := by unfold Ctx.wp; split <;> rfl
@[simp] theorem wp_pending (c : Ctx) (n : BitVec 3) (b : Bool) : (c.wp n b).pending = c.pending := by unfold Ctx.wp; split <;> rfl
@[simp] theorem wp_thrMarks (c : Ctx) (n : BitVec 3) (b : Bool) : (c.wp n b).thrMarks = c.thrMarks := by unfold Ctx.wp; split <;> rfl
@[simp] theorem wp_faulted (c : Ctx) (n : BitVec 3) (b : Bool) : (c.wp n b).faulted = c.faulted := by unfold Ctx.wp; split <;> rfl
@[simp] theorem wp_gathers (c : Ctx) (n : BitVec 3) (b : Bool) : (c.wp n b).gathers = c.gathers := by unfold Ctx.wp; split <;> rfl
@[simp] theorem wp_ticket (c : Ctx) (n : BitVec 3) (b : Bool) : (c.wp n b).ticket = c.ticket := by unfold Ctx.wp; split <;> rfl
@[simp] theorem wp_q2pre (c : Ctx) (n : BitVec 3) (b : Bool) : (c.wp n b).q2pre = c.q2pre := by unfold Ctx.wp; split <;> rfl
@[simp] theorem wp_asm0 (c : Ctx) (n : BitVec 3) (b : Bool) : (c.wp n b).asm0 = c.asm0 := by unfold Ctx.wp; split <;> rfl
@[simp] theorem wp_asm2 (c : Ctx) (n : BitVec 3) (b : Bool) : (c.wp n b).asm2 = c.asm2 := by unfold Ctx.wp; split <;> rfl
@[simp] theorem wp_asm4 (c : Ctx) (n : BitVec 3) (b : Bool) : (c.wp n b).asm4 = c.asm4 := by unfold Ctx.wp; split <;> rfl
@[simp] theorem wp_q1 (c : Ctx) (n : BitVec 3) (b : Bool) : (c.wp n b).q1 = c.q1 := by unfold Ctx.wp; split <;> rfl
@[simp] theorem wp_q3 (c : Ctx) (n : BitVec 3) (b : Bool) : (c.wp n b).q3 = c.q3 := by unfold Ctx.wp; split <;> rfl
@[simp] theorem wp_q3rows (c : Ctx) (n : BitVec 3) (b : Bool) : (c.wp n b).q3rows = c.q3rows := by unfold Ctx.wp; split <;> rfl
@[simp] theorem wp_q5 (c : Ctx) (n : BitVec 3) (b : Bool) : (c.wp n b).q5 = c.q5 := by unfold Ctx.wp; split <;> rfl
@[simp] theorem wp_q1res (c : Ctx) (n : BitVec 3) (b : Bool) : (c.wp n b).q1res = c.q1res := by unfold Ctx.wp; split <;> rfl
@[simp] theorem wp_q5res (c : Ctx) (n : BitVec 3) (b : Bool) : (c.wp n b).q5res = c.q5res := by unfold Ctx.wp; split <;> rfl
@[simp] theorem wp_pops (c : Ctx) (n : BitVec 3) (b : Bool) : (c.wp n b).pops = c.pops := by unfold Ctx.wp; split <;> rfl
@[simp] theorem wp_faults (c : Ctx) (n : BitVec 3) (b : Bool) : (c.wp n b).faults = c.faults := by unfold Ctx.wp; split <;> rfl
@[simp] theorem wp_flagged (c : Ctx) (n : BitVec 3) (b : Bool) : (c.wp n b).flagged = c.flagged := by unfold Ctx.wp; split <;> rfl
@[simp] theorem wp_wait (c : Ctx) (n : BitVec 3) (b : Bool) : (c.wp n b).wait = c.wait := by unfold Ctx.wp; split <;> rfl
@[simp] theorem wp_parkedAt (c : Ctx) (n : BitVec 3) (b : Bool) : (c.wp n b).parkedAt = c.parkedAt := by unfold Ctx.wp; split <;> rfl
@[simp] theorem wp_phase (c : Ctx) (n : BitVec 3) (b : Bool) : (c.wp n b).phase = c.phase := by unfold Ctx.wp; split <;> rfl
@[simp] theorem wp_acks (c : Ctx) (n : BitVec 3) (b : Bool) : (c.wp n b).acks = c.acks := by unfold Ctx.wp; split <;> rfl
@[simp] theorem wp_reply (c : Ctx) (n : BitVec 3) (b : Bool) : (c.wp n b).reply = c.reply := by unfold Ctx.wp; split <;> rfl
@[simp] theorem wp_notes (c : Ctx) (n : BitVec 3) (b : Bool) : (c.wp n b).notes = c.notes := by unfold Ctx.wp; split <;> rfl
@[simp] theorem wp_pfx (c : Ctx) (n : BitVec 3) (b : Bool) : (c.wp n b).pfx = c.pfx := by unfold Ctx.wp; split <;> rfl
@[simp] theorem wp_rep (c : Ctx) (n : BitVec 3) (b : Bool) : (c.wp n b).rep = c.rep := by unfold Ctx.wp; split <;> rfl
@[simp] theorem wp_prio (c : Ctx) (n : BitVec 3) (b : Bool) : (c.wp n b).prio = c.prio := by unfold Ctx.wp; split <;> rfl
@[simp] theorem wp_slot (c : Ctx) (n : BitVec 3) (b : Bool) : (c.wp n b).slot = c.slot := by unfold Ctx.wp; split <;> rfl
@[simp] theorem wp_serial (c : Ctx) (n : BitVec 3) (b : Bool) : (c.wp n b).serial = c.serial := by unfold Ctx.wp; split <;> rfl
@[simp] theorem wp_copyOut (c : Ctx) (n : BitVec 3) (b : Bool) : (c.wp n b).copyOut = c.copyOut := by unfold Ctx.wp; split <;> rfl
@[simp] theorem wp_ltag (c : Ctx) (n : BitVec 3) (b : Bool) : (c.wp n b).ltag = c.ltag := by unfold Ctx.wp; split <;> rfl
@[simp] theorem wp_lcause (c : Ctx) (n : BitVec 3) (b : Bool) : (c.wp n b).lcause = c.lcause := by unfold Ctx.wp; split <;> rfl
@[simp] theorem wp_aset (c : Ctx) (n : BitVec 3) (b : Bool) : (c.wp n b).aset = c.aset := by unfold Ctx.wp; split <;> rfl
@[simp] theorem wp_gangPosted (c : Ctx) (n : BitVec 3) (b : Bool) : (c.wp n b).gangPosted = c.gangPosted := by unfold Ctx.wp; split <;> rfl
@[simp] theorem wp_stopped (c : Ctx) (n : BitVec 3) (b : Bool) : (c.wp n b).stopped = c.stopped := by unfold Ctx.wp; split <;> rfl

@[simp] theorem wk_role (c : Ctx) (n : BitVec 3) (w : Word) : (c.wk n w).role = c.role := by unfold Ctx.wk; split <;> rfl
@[simp] theorem wk_pc (c : Ctx) (n : BitVec 3) (w : Word) : (c.wk n w).pc = c.pc := by unfold Ctx.wk; split <;> rfl
@[simp] theorem wk_x (c : Ctx) (n : BitVec 3) (w : Word) : (c.wk n w).x = c.x := by unfold Ctx.wk; split <;> rfl
@[simp] theorem wk_v (c : Ctx) (n : BitVec 3) (w : Word) : (c.wk n w).v = c.v := by unfold Ctx.wk; split <;> rfl
@[simp] theorem wk_p (c : Ctx) (n : BitVec 3) (w : Word) : (c.wk n w).p = c.p := by unfold Ctx.wk; split <;> rfl
@[simp] theorem wk_tstat (c : Ctx) (n : BitVec 3) (w : Word) : (c.wk n w).tstat = c.tstat := by unfold Ctx.wk; split <;> rfl
@[simp] theorem wk_tpc (c : Ctx) (n : BitVec 3) (w : Word) : (c.wk n w).tpc = c.tpc := by unfold Ctx.wk; split <;> rfl
@[simp] theorem wk_tcause (c : Ctx) (n : BitVec 3) (w : Word) : (c.wk n w).tcause = c.tcause := by unfold Ctx.wk; split <;> rfl
@[simp] theorem wk_tval (c : Ctx) (n : BitVec 3) (w : Word) : (c.wk n w).tval = c.tval := by unfold Ctx.wk; split <;> rfl
@[simp] theorem wk_fpre (c : Ctx) (n : BitVec 3) (w : Word) : (c.wk n w).fpre = c.fpre := by unfold Ctx.wk; split <;> rfl
@[simp] theorem wk_lc0 (c : Ctx) (n : BitVec 3) (w : Word) : (c.wk n w).lc0 = c.lc0 := by unfold Ctx.wk; split <;> rfl
@[simp] theorem wk_lc1 (c : Ctx) (n : BitVec 3) (w : Word) : (c.wk n w).lc1 = c.lc1 := by unfold Ctx.wk; split <;> rfl
@[simp] theorem wk_fflags (c : Ctx) (n : BitVec 3) (w : Word) : (c.wk n w).fflags = c.fflags := by unfold Ctx.wk; split <;> rfl
@[simp] theorem wk_frm (c : Ctx) (n : BitVec 3) (w : Word) : (c.wk n w).frm = c.frm := by unfold Ctx.wk; split <;> rfl
@[simp] theorem wk_fseed (c : Ctx) (n : BitVec 3) (w : Word) : (c.wk n w).fseed = c.fseed := by unfold Ctx.wk; split <;> rfl
@[simp] theorem wk_tid (c : Ctx) (n : BitVec 3) (w : Word) : (c.wk n w).tid = c.tid := by unfold Ctx.wk; split <;> rfl
@[simp] theorem wk_grp (c : Ctx) (n : BitVec 3) (w : Word) : (c.wk n w).grp = c.grp := by unfold Ctx.wk; split <;> rfl
@[simp] theorem wk_exitc (c : Ctx) (n : BitVec 3) (w : Word) : (c.wk n w).exitc = c.exitc := by unfold Ctx.wk; split <;> rfl
@[simp] theorem wk_hst (c : Ctx) (n : BitVec 3) (w : Word) : (c.wk n w).hst = c.hst := by unfold Ctx.wk; split <;> rfl
@[simp] theorem wk_hbud (c : Ctx) (n : BitVec 3) (w : Word) : (c.wk n w).hbud = c.hbud := by unfold Ctx.wk; split <;> rfl
@[simp] theorem wk_chb (c : Ctx) (n : BitVec 3) (w : Word) : (c.wk n w).chb = c.chb := by unfold Ctx.wk; split <;> rfl
@[simp] theorem wk_gtol (c : Ctx) (n : BitVec 3) (w : Word) : (c.wk n w).gtol = c.gtol := by unfold Ctx.wk; split <;> rfl
@[simp] theorem wk_gdmp (c : Ctx) (n : BitVec 3) (w : Word) : (c.wk n w).gdmp = c.gdmp := by unfold Ctx.wk; split <;> rfl
@[simp] theorem wk_laterLc1 (c : Ctx) (n : BitVec 3) (w : Word) : (c.wk n w).laterLc1 = c.laterLc1 := by unfold Ctx.wk; split <;> rfl
@[simp] theorem wk_pending (c : Ctx) (n : BitVec 3) (w : Word) : (c.wk n w).pending = c.pending := by unfold Ctx.wk; split <;> rfl
@[simp] theorem wk_thrMarks (c : Ctx) (n : BitVec 3) (w : Word) : (c.wk n w).thrMarks = c.thrMarks := by unfold Ctx.wk; split <;> rfl
@[simp] theorem wk_faulted (c : Ctx) (n : BitVec 3) (w : Word) : (c.wk n w).faulted = c.faulted := by unfold Ctx.wk; split <;> rfl
@[simp] theorem wk_gathers (c : Ctx) (n : BitVec 3) (w : Word) : (c.wk n w).gathers = c.gathers := by unfold Ctx.wk; split <;> rfl
@[simp] theorem wk_ticket (c : Ctx) (n : BitVec 3) (w : Word) : (c.wk n w).ticket = c.ticket := by unfold Ctx.wk; split <;> rfl
@[simp] theorem wk_q2pre (c : Ctx) (n : BitVec 3) (w : Word) : (c.wk n w).q2pre = c.q2pre := by unfold Ctx.wk; split <;> rfl
@[simp] theorem wk_asm0 (c : Ctx) (n : BitVec 3) (w : Word) : (c.wk n w).asm0 = c.asm0 := by unfold Ctx.wk; split <;> rfl
@[simp] theorem wk_asm2 (c : Ctx) (n : BitVec 3) (w : Word) : (c.wk n w).asm2 = c.asm2 := by unfold Ctx.wk; split <;> rfl
@[simp] theorem wk_asm4 (c : Ctx) (n : BitVec 3) (w : Word) : (c.wk n w).asm4 = c.asm4 := by unfold Ctx.wk; split <;> rfl
@[simp] theorem wk_q1 (c : Ctx) (n : BitVec 3) (w : Word) : (c.wk n w).q1 = c.q1 := by unfold Ctx.wk; split <;> rfl
@[simp] theorem wk_q3 (c : Ctx) (n : BitVec 3) (w : Word) : (c.wk n w).q3 = c.q3 := by unfold Ctx.wk; split <;> rfl
@[simp] theorem wk_q3rows (c : Ctx) (n : BitVec 3) (w : Word) : (c.wk n w).q3rows = c.q3rows := by unfold Ctx.wk; split <;> rfl
@[simp] theorem wk_q5 (c : Ctx) (n : BitVec 3) (w : Word) : (c.wk n w).q5 = c.q5 := by unfold Ctx.wk; split <;> rfl
@[simp] theorem wk_q1res (c : Ctx) (n : BitVec 3) (w : Word) : (c.wk n w).q1res = c.q1res := by unfold Ctx.wk; split <;> rfl
@[simp] theorem wk_q5res (c : Ctx) (n : BitVec 3) (w : Word) : (c.wk n w).q5res = c.q5res := by unfold Ctx.wk; split <;> rfl
@[simp] theorem wk_pops (c : Ctx) (n : BitVec 3) (w : Word) : (c.wk n w).pops = c.pops := by unfold Ctx.wk; split <;> rfl
@[simp] theorem wk_faults (c : Ctx) (n : BitVec 3) (w : Word) : (c.wk n w).faults = c.faults := by unfold Ctx.wk; split <;> rfl
@[simp] theorem wk_flagged (c : Ctx) (n : BitVec 3) (w : Word) : (c.wk n w).flagged = c.flagged := by unfold Ctx.wk; split <;> rfl
@[simp] theorem wk_wait (c : Ctx) (n : BitVec 3) (w : Word) : (c.wk n w).wait = c.wait := by unfold Ctx.wk; split <;> rfl
@[simp] theorem wk_parkedAt (c : Ctx) (n : BitVec 3) (w : Word) : (c.wk n w).parkedAt = c.parkedAt := by unfold Ctx.wk; split <;> rfl
@[simp] theorem wk_phase (c : Ctx) (n : BitVec 3) (w : Word) : (c.wk n w).phase = c.phase := by unfold Ctx.wk; split <;> rfl
@[simp] theorem wk_acks (c : Ctx) (n : BitVec 3) (w : Word) : (c.wk n w).acks = c.acks := by unfold Ctx.wk; split <;> rfl
@[simp] theorem wk_reply (c : Ctx) (n : BitVec 3) (w : Word) : (c.wk n w).reply = c.reply := by unfold Ctx.wk; split <;> rfl
@[simp] theorem wk_notes (c : Ctx) (n : BitVec 3) (w : Word) : (c.wk n w).notes = c.notes := by unfold Ctx.wk; split <;> rfl
@[simp] theorem wk_pfx (c : Ctx) (n : BitVec 3) (w : Word) : (c.wk n w).pfx = c.pfx := by unfold Ctx.wk; split <;> rfl
@[simp] theorem wk_rep (c : Ctx) (n : BitVec 3) (w : Word) : (c.wk n w).rep = c.rep := by unfold Ctx.wk; split <;> rfl
@[simp] theorem wk_prio (c : Ctx) (n : BitVec 3) (w : Word) : (c.wk n w).prio = c.prio := by unfold Ctx.wk; split <;> rfl
@[simp] theorem wk_slot (c : Ctx) (n : BitVec 3) (w : Word) : (c.wk n w).slot = c.slot := by unfold Ctx.wk; split <;> rfl
@[simp] theorem wk_serial (c : Ctx) (n : BitVec 3) (w : Word) : (c.wk n w).serial = c.serial := by unfold Ctx.wk; split <;> rfl
@[simp] theorem wk_copyOut (c : Ctx) (n : BitVec 3) (w : Word) : (c.wk n w).copyOut = c.copyOut := by unfold Ctx.wk; split <;> rfl
@[simp] theorem wk_ltag (c : Ctx) (n : BitVec 3) (w : Word) : (c.wk n w).ltag = c.ltag := by unfold Ctx.wk; split <;> rfl
@[simp] theorem wk_lcause (c : Ctx) (n : BitVec 3) (w : Word) : (c.wk n w).lcause = c.lcause := by unfold Ctx.wk; split <;> rfl
@[simp] theorem wk_aset (c : Ctx) (n : BitVec 3) (w : Word) : (c.wk n w).aset = c.aset := by unfold Ctx.wk; split <;> rfl
@[simp] theorem wk_gangPosted (c : Ctx) (n : BitVec 3) (w : Word) : (c.wk n w).gangPosted = c.gangPosted := by unfold Ctx.wk; split <;> rfl
@[simp] theorem wk_stopped (c : Ctx) (n : BitVec 3) (w : Word) : (c.wk n w).stopped = c.stopped := by unfold Ctx.wk; split <;> rfl

@[simp] theorem setLc_role (c : Ctx) (n : Nat) (w : Word) : (c.setLc n w).role = c.role := by unfold Ctx.setLc; split <;> rfl
@[simp] theorem setLc_pc (c : Ctx) (n : Nat) (w : Word) : (c.setLc n w).pc = c.pc := by unfold Ctx.setLc; split <;> rfl
@[simp] theorem setLc_x (c : Ctx) (n : Nat) (w : Word) : (c.setLc n w).x = c.x := by unfold Ctx.setLc; split <;> rfl
@[simp] theorem setLc_v (c : Ctx) (n : Nat) (w : Word) : (c.setLc n w).v = c.v := by unfold Ctx.setLc; split <;> rfl
@[simp] theorem setLc_p (c : Ctx) (n : Nat) (w : Word) : (c.setLc n w).p = c.p := by unfold Ctx.setLc; split <;> rfl
@[simp] theorem setLc_k (c : Ctx) (n : Nat) (w : Word) : (c.setLc n w).k = c.k := by unfold Ctx.setLc; split <;> rfl
@[simp] theorem setLc_tstat (c : Ctx) (n : Nat) (w : Word) : (c.setLc n w).tstat = c.tstat := by unfold Ctx.setLc; split <;> rfl
@[simp] theorem setLc_tpc (c : Ctx) (n : Nat) (w : Word) : (c.setLc n w).tpc = c.tpc := by unfold Ctx.setLc; split <;> rfl
@[simp] theorem setLc_tcause (c : Ctx) (n : Nat) (w : Word) : (c.setLc n w).tcause = c.tcause := by unfold Ctx.setLc; split <;> rfl
@[simp] theorem setLc_tval (c : Ctx) (n : Nat) (w : Word) : (c.setLc n w).tval = c.tval := by unfold Ctx.setLc; split <;> rfl
@[simp] theorem setLc_fpre (c : Ctx) (n : Nat) (w : Word) : (c.setLc n w).fpre = c.fpre := by unfold Ctx.setLc; split <;> rfl
@[simp] theorem setLc_fflags (c : Ctx) (n : Nat) (w : Word) : (c.setLc n w).fflags = c.fflags := by unfold Ctx.setLc; split <;> rfl
@[simp] theorem setLc_frm (c : Ctx) (n : Nat) (w : Word) : (c.setLc n w).frm = c.frm := by unfold Ctx.setLc; split <;> rfl
@[simp] theorem setLc_fseed (c : Ctx) (n : Nat) (w : Word) : (c.setLc n w).fseed = c.fseed := by unfold Ctx.setLc; split <;> rfl
@[simp] theorem setLc_tid (c : Ctx) (n : Nat) (w : Word) : (c.setLc n w).tid = c.tid := by unfold Ctx.setLc; split <;> rfl
@[simp] theorem setLc_grp (c : Ctx) (n : Nat) (w : Word) : (c.setLc n w).grp = c.grp := by unfold Ctx.setLc; split <;> rfl
@[simp] theorem setLc_exitc (c : Ctx) (n : Nat) (w : Word) : (c.setLc n w).exitc = c.exitc := by unfold Ctx.setLc; split <;> rfl
@[simp] theorem setLc_hst (c : Ctx) (n : Nat) (w : Word) : (c.setLc n w).hst = c.hst := by unfold Ctx.setLc; split <;> rfl
@[simp] theorem setLc_hbud (c : Ctx) (n : Nat) (w : Word) : (c.setLc n w).hbud = c.hbud := by unfold Ctx.setLc; split <;> rfl
@[simp] theorem setLc_chb (c : Ctx) (n : Nat) (w : Word) : (c.setLc n w).chb = c.chb := by unfold Ctx.setLc; split <;> rfl
@[simp] theorem setLc_gtol (c : Ctx) (n : Nat) (w : Word) : (c.setLc n w).gtol = c.gtol := by unfold Ctx.setLc; split <;> rfl
@[simp] theorem setLc_gdmp (c : Ctx) (n : Nat) (w : Word) : (c.setLc n w).gdmp = c.gdmp := by unfold Ctx.setLc; split <;> rfl
@[simp] theorem setLc_laterLc1 (c : Ctx) (n : Nat) (w : Word) : (c.setLc n w).laterLc1 = c.laterLc1 := by unfold Ctx.setLc; split <;> rfl
@[simp] theorem setLc_pending (c : Ctx) (n : Nat) (w : Word) : (c.setLc n w).pending = c.pending := by unfold Ctx.setLc; split <;> rfl
@[simp] theorem setLc_thrMarks (c : Ctx) (n : Nat) (w : Word) : (c.setLc n w).thrMarks = c.thrMarks := by unfold Ctx.setLc; split <;> rfl
@[simp] theorem setLc_faulted (c : Ctx) (n : Nat) (w : Word) : (c.setLc n w).faulted = c.faulted := by unfold Ctx.setLc; split <;> rfl
@[simp] theorem setLc_gathers (c : Ctx) (n : Nat) (w : Word) : (c.setLc n w).gathers = c.gathers := by unfold Ctx.setLc; split <;> rfl
@[simp] theorem setLc_ticket (c : Ctx) (n : Nat) (w : Word) : (c.setLc n w).ticket = c.ticket := by unfold Ctx.setLc; split <;> rfl
@[simp] theorem setLc_q2pre (c : Ctx) (n : Nat) (w : Word) : (c.setLc n w).q2pre = c.q2pre := by unfold Ctx.setLc; split <;> rfl
@[simp] theorem setLc_asm0 (c : Ctx) (n : Nat) (w : Word) : (c.setLc n w).asm0 = c.asm0 := by unfold Ctx.setLc; split <;> rfl
@[simp] theorem setLc_asm2 (c : Ctx) (n : Nat) (w : Word) : (c.setLc n w).asm2 = c.asm2 := by unfold Ctx.setLc; split <;> rfl
@[simp] theorem setLc_asm4 (c : Ctx) (n : Nat) (w : Word) : (c.setLc n w).asm4 = c.asm4 := by unfold Ctx.setLc; split <;> rfl
@[simp] theorem setLc_q1 (c : Ctx) (n : Nat) (w : Word) : (c.setLc n w).q1 = c.q1 := by unfold Ctx.setLc; split <;> rfl
@[simp] theorem setLc_q3 (c : Ctx) (n : Nat) (w : Word) : (c.setLc n w).q3 = c.q3 := by unfold Ctx.setLc; split <;> rfl
@[simp] theorem setLc_q3rows (c : Ctx) (n : Nat) (w : Word) : (c.setLc n w).q3rows = c.q3rows := by unfold Ctx.setLc; split <;> rfl
@[simp] theorem setLc_q5 (c : Ctx) (n : Nat) (w : Word) : (c.setLc n w).q5 = c.q5 := by unfold Ctx.setLc; split <;> rfl
@[simp] theorem setLc_q1res (c : Ctx) (n : Nat) (w : Word) : (c.setLc n w).q1res = c.q1res := by unfold Ctx.setLc; split <;> rfl
@[simp] theorem setLc_q5res (c : Ctx) (n : Nat) (w : Word) : (c.setLc n w).q5res = c.q5res := by unfold Ctx.setLc; split <;> rfl
@[simp] theorem setLc_pops (c : Ctx) (n : Nat) (w : Word) : (c.setLc n w).pops = c.pops := by unfold Ctx.setLc; split <;> rfl
@[simp] theorem setLc_faults (c : Ctx) (n : Nat) (w : Word) : (c.setLc n w).faults = c.faults := by unfold Ctx.setLc; split <;> rfl
@[simp] theorem setLc_flagged (c : Ctx) (n : Nat) (w : Word) : (c.setLc n w).flagged = c.flagged := by unfold Ctx.setLc; split <;> rfl
@[simp] theorem setLc_wait (c : Ctx) (n : Nat) (w : Word) : (c.setLc n w).wait = c.wait := by unfold Ctx.setLc; split <;> rfl
@[simp] theorem setLc_parkedAt (c : Ctx) (n : Nat) (w : Word) : (c.setLc n w).parkedAt = c.parkedAt := by unfold Ctx.setLc; split <;> rfl
@[simp] theorem setLc_phase (c : Ctx) (n : Nat) (w : Word) : (c.setLc n w).phase = c.phase := by unfold Ctx.setLc; split <;> rfl
@[simp] theorem setLc_acks (c : Ctx) (n : Nat) (w : Word) : (c.setLc n w).acks = c.acks := by unfold Ctx.setLc; split <;> rfl
@[simp] theorem setLc_reply (c : Ctx) (n : Nat) (w : Word) : (c.setLc n w).reply = c.reply := by unfold Ctx.setLc; split <;> rfl
@[simp] theorem setLc_notes (c : Ctx) (n : Nat) (w : Word) : (c.setLc n w).notes = c.notes := by unfold Ctx.setLc; split <;> rfl
@[simp] theorem setLc_pfx (c : Ctx) (n : Nat) (w : Word) : (c.setLc n w).pfx = c.pfx := by unfold Ctx.setLc; split <;> rfl
@[simp] theorem setLc_rep (c : Ctx) (n : Nat) (w : Word) : (c.setLc n w).rep = c.rep := by unfold Ctx.setLc; split <;> rfl
@[simp] theorem setLc_prio (c : Ctx) (n : Nat) (w : Word) : (c.setLc n w).prio = c.prio := by unfold Ctx.setLc; split <;> rfl
@[simp] theorem setLc_slot (c : Ctx) (n : Nat) (w : Word) : (c.setLc n w).slot = c.slot := by unfold Ctx.setLc; split <;> rfl
@[simp] theorem setLc_serial (c : Ctx) (n : Nat) (w : Word) : (c.setLc n w).serial = c.serial := by unfold Ctx.setLc; split <;> rfl
@[simp] theorem setLc_copyOut (c : Ctx) (n : Nat) (w : Word) : (c.setLc n w).copyOut = c.copyOut := by unfold Ctx.setLc; split <;> rfl
@[simp] theorem setLc_ltag (c : Ctx) (n : Nat) (w : Word) : (c.setLc n w).ltag = c.ltag := by unfold Ctx.setLc; split <;> rfl
@[simp] theorem setLc_lcause (c : Ctx) (n : Nat) (w : Word) : (c.setLc n w).lcause = c.lcause := by unfold Ctx.setLc; split <;> rfl
@[simp] theorem setLc_aset (c : Ctx) (n : Nat) (w : Word) : (c.setLc n w).aset = c.aset := by unfold Ctx.setLc; split <;> rfl
@[simp] theorem setLc_gangPosted (c : Ctx) (n : Nat) (w : Word) : (c.setLc n w).gangPosted = c.gangPosted := by unfold Ctx.setLc; split <;> rfl
@[simp] theorem setLc_stopped (c : Ctx) (n : Nat) (w : Word) : (c.setLc n w).stopped = c.stopped := by unfold Ctx.setLc; split <;> rfl

@[simp] theorem setPending_role (c : Ctx) (n : Nat) : (c.setPending n).role = c.role := rfl
@[simp] theorem setPending_pc (c : Ctx) (n : Nat) : (c.setPending n).pc = c.pc := rfl
@[simp] theorem setPending_x (c : Ctx) (n : Nat) : (c.setPending n).x = c.x := rfl
@[simp] theorem setPending_v (c : Ctx) (n : Nat) : (c.setPending n).v = c.v := rfl
@[simp] theorem setPending_p (c : Ctx) (n : Nat) : (c.setPending n).p = c.p := rfl
@[simp] theorem setPending_k (c : Ctx) (n : Nat) : (c.setPending n).k = c.k := rfl
@[simp] theorem setPending_tstat (c : Ctx) (n : Nat) : (c.setPending n).tstat = c.tstat := rfl
@[simp] theorem setPending_tpc (c : Ctx) (n : Nat) : (c.setPending n).tpc = c.tpc := rfl
@[simp] theorem setPending_tcause (c : Ctx) (n : Nat) : (c.setPending n).tcause = c.tcause := rfl
@[simp] theorem setPending_tval (c : Ctx) (n : Nat) : (c.setPending n).tval = c.tval := rfl
@[simp] theorem setPending_fpre (c : Ctx) (n : Nat) : (c.setPending n).fpre = c.fpre := rfl
@[simp] theorem setPending_lc0 (c : Ctx) (n : Nat) : (c.setPending n).lc0 = c.lc0 := rfl
@[simp] theorem setPending_lc1 (c : Ctx) (n : Nat) : (c.setPending n).lc1 = c.lc1 := rfl
@[simp] theorem setPending_fflags (c : Ctx) (n : Nat) : (c.setPending n).fflags = c.fflags := rfl
@[simp] theorem setPending_frm (c : Ctx) (n : Nat) : (c.setPending n).frm = c.frm := rfl
@[simp] theorem setPending_fseed (c : Ctx) (n : Nat) : (c.setPending n).fseed = c.fseed := rfl
@[simp] theorem setPending_tid (c : Ctx) (n : Nat) : (c.setPending n).tid = c.tid := rfl
@[simp] theorem setPending_grp (c : Ctx) (n : Nat) : (c.setPending n).grp = c.grp := rfl
@[simp] theorem setPending_exitc (c : Ctx) (n : Nat) : (c.setPending n).exitc = c.exitc := rfl
@[simp] theorem setPending_hst (c : Ctx) (n : Nat) : (c.setPending n).hst = c.hst := rfl
@[simp] theorem setPending_hbud (c : Ctx) (n : Nat) : (c.setPending n).hbud = c.hbud := rfl
@[simp] theorem setPending_chb (c : Ctx) (n : Nat) : (c.setPending n).chb = c.chb := rfl
@[simp] theorem setPending_gtol (c : Ctx) (n : Nat) : (c.setPending n).gtol = c.gtol := rfl
@[simp] theorem setPending_gdmp (c : Ctx) (n : Nat) : (c.setPending n).gdmp = c.gdmp := rfl
@[simp] theorem setPending_laterLc1 (c : Ctx) (n : Nat) : (c.setPending n).laterLc1 = c.laterLc1 := rfl
@[simp] theorem setPending_gathers (c : Ctx) (n : Nat) : (c.setPending n).gathers = c.gathers := rfl
@[simp] theorem setPending_ticket (c : Ctx) (n : Nat) : (c.setPending n).ticket = c.ticket := rfl
@[simp] theorem setPending_q2pre (c : Ctx) (n : Nat) : (c.setPending n).q2pre = c.q2pre := rfl
@[simp] theorem setPending_asm0 (c : Ctx) (n : Nat) : (c.setPending n).asm0 = c.asm0 := rfl
@[simp] theorem setPending_asm2 (c : Ctx) (n : Nat) : (c.setPending n).asm2 = c.asm2 := rfl
@[simp] theorem setPending_asm4 (c : Ctx) (n : Nat) : (c.setPending n).asm4 = c.asm4 := rfl
@[simp] theorem setPending_q1 (c : Ctx) (n : Nat) : (c.setPending n).q1 = c.q1 := rfl
@[simp] theorem setPending_q3 (c : Ctx) (n : Nat) : (c.setPending n).q3 = c.q3 := rfl
@[simp] theorem setPending_q3rows (c : Ctx) (n : Nat) : (c.setPending n).q3rows = c.q3rows := rfl
@[simp] theorem setPending_q5 (c : Ctx) (n : Nat) : (c.setPending n).q5 = c.q5 := rfl
@[simp] theorem setPending_q1res (c : Ctx) (n : Nat) : (c.setPending n).q1res = c.q1res := rfl
@[simp] theorem setPending_q5res (c : Ctx) (n : Nat) : (c.setPending n).q5res = c.q5res := rfl
@[simp] theorem setPending_pops (c : Ctx) (n : Nat) : (c.setPending n).pops = c.pops := rfl
@[simp] theorem setPending_faults (c : Ctx) (n : Nat) : (c.setPending n).faults = c.faults := rfl
@[simp] theorem setPending_flagged (c : Ctx) (n : Nat) : (c.setPending n).flagged = c.flagged := rfl
@[simp] theorem setPending_wait (c : Ctx) (n : Nat) : (c.setPending n).wait = c.wait := rfl
@[simp] theorem setPending_parkedAt (c : Ctx) (n : Nat) : (c.setPending n).parkedAt = c.parkedAt := rfl
@[simp] theorem setPending_phase (c : Ctx) (n : Nat) : (c.setPending n).phase = c.phase := rfl
@[simp] theorem setPending_acks (c : Ctx) (n : Nat) : (c.setPending n).acks = c.acks := rfl
@[simp] theorem setPending_reply (c : Ctx) (n : Nat) : (c.setPending n).reply = c.reply := rfl
@[simp] theorem setPending_notes (c : Ctx) (n : Nat) : (c.setPending n).notes = c.notes := rfl
@[simp] theorem setPending_pfx (c : Ctx) (n : Nat) : (c.setPending n).pfx = c.pfx := rfl
@[simp] theorem setPending_rep (c : Ctx) (n : Nat) : (c.setPending n).rep = c.rep := rfl
@[simp] theorem setPending_prio (c : Ctx) (n : Nat) : (c.setPending n).prio = c.prio := rfl
@[simp] theorem setPending_slot (c : Ctx) (n : Nat) : (c.setPending n).slot = c.slot := rfl
@[simp] theorem setPending_serial (c : Ctx) (n : Nat) : (c.setPending n).serial = c.serial := rfl
@[simp] theorem setPending_copyOut (c : Ctx) (n : Nat) : (c.setPending n).copyOut = c.copyOut := rfl
@[simp] theorem setPending_ltag (c : Ctx) (n : Nat) : (c.setPending n).ltag = c.ltag := rfl
@[simp] theorem setPending_lcause (c : Ctx) (n : Nat) : (c.setPending n).lcause = c.lcause := rfl
@[simp] theorem setPending_aset (c : Ctx) (n : Nat) : (c.setPending n).aset = c.aset := rfl
@[simp] theorem setPending_gangPosted (c : Ctx) (n : Nat) : (c.setPending n).gangPosted = c.gangPosted := rfl
@[simp] theorem setPending_stopped (c : Ctx) (n : Nat) : (c.setPending n).stopped = c.stopped := rfl

@[simp] theorem setPendingThr_role (c : Ctx) (n : Nat) : (c.setPendingThr n).role = c.role := rfl
@[simp] theorem setPendingThr_pc (c : Ctx) (n : Nat) : (c.setPendingThr n).pc = c.pc := rfl
@[simp] theorem setPendingThr_x (c : Ctx) (n : Nat) : (c.setPendingThr n).x = c.x := rfl
@[simp] theorem setPendingThr_v (c : Ctx) (n : Nat) : (c.setPendingThr n).v = c.v := rfl
@[simp] theorem setPendingThr_p (c : Ctx) (n : Nat) : (c.setPendingThr n).p = c.p := rfl
@[simp] theorem setPendingThr_k (c : Ctx) (n : Nat) : (c.setPendingThr n).k = c.k := rfl
@[simp] theorem setPendingThr_tstat (c : Ctx) (n : Nat) : (c.setPendingThr n).tstat = c.tstat := rfl
@[simp] theorem setPendingThr_tpc (c : Ctx) (n : Nat) : (c.setPendingThr n).tpc = c.tpc := rfl
@[simp] theorem setPendingThr_tcause (c : Ctx) (n : Nat) : (c.setPendingThr n).tcause = c.tcause := rfl
@[simp] theorem setPendingThr_tval (c : Ctx) (n : Nat) : (c.setPendingThr n).tval = c.tval := rfl
@[simp] theorem setPendingThr_fpre (c : Ctx) (n : Nat) : (c.setPendingThr n).fpre = c.fpre := rfl
@[simp] theorem setPendingThr_lc0 (c : Ctx) (n : Nat) : (c.setPendingThr n).lc0 = c.lc0 := rfl
@[simp] theorem setPendingThr_lc1 (c : Ctx) (n : Nat) : (c.setPendingThr n).lc1 = c.lc1 := rfl
@[simp] theorem setPendingThr_fflags (c : Ctx) (n : Nat) : (c.setPendingThr n).fflags = c.fflags := rfl
@[simp] theorem setPendingThr_frm (c : Ctx) (n : Nat) : (c.setPendingThr n).frm = c.frm := rfl
@[simp] theorem setPendingThr_fseed (c : Ctx) (n : Nat) : (c.setPendingThr n).fseed = c.fseed := rfl
@[simp] theorem setPendingThr_tid (c : Ctx) (n : Nat) : (c.setPendingThr n).tid = c.tid := rfl
@[simp] theorem setPendingThr_grp (c : Ctx) (n : Nat) : (c.setPendingThr n).grp = c.grp := rfl
@[simp] theorem setPendingThr_exitc (c : Ctx) (n : Nat) : (c.setPendingThr n).exitc = c.exitc := rfl
@[simp] theorem setPendingThr_hst (c : Ctx) (n : Nat) : (c.setPendingThr n).hst = c.hst := rfl
@[simp] theorem setPendingThr_hbud (c : Ctx) (n : Nat) : (c.setPendingThr n).hbud = c.hbud := rfl
@[simp] theorem setPendingThr_chb (c : Ctx) (n : Nat) : (c.setPendingThr n).chb = c.chb := rfl
@[simp] theorem setPendingThr_gtol (c : Ctx) (n : Nat) : (c.setPendingThr n).gtol = c.gtol := rfl
@[simp] theorem setPendingThr_gdmp (c : Ctx) (n : Nat) : (c.setPendingThr n).gdmp = c.gdmp := rfl
@[simp] theorem setPendingThr_laterLc1 (c : Ctx) (n : Nat) : (c.setPendingThr n).laterLc1 = c.laterLc1 := rfl
@[simp] theorem setPendingThr_gathers (c : Ctx) (n : Nat) : (c.setPendingThr n).gathers = c.gathers := rfl
@[simp] theorem setPendingThr_ticket (c : Ctx) (n : Nat) : (c.setPendingThr n).ticket = c.ticket := rfl
@[simp] theorem setPendingThr_q2pre (c : Ctx) (n : Nat) : (c.setPendingThr n).q2pre = c.q2pre := rfl
@[simp] theorem setPendingThr_asm0 (c : Ctx) (n : Nat) : (c.setPendingThr n).asm0 = c.asm0 := rfl
@[simp] theorem setPendingThr_asm2 (c : Ctx) (n : Nat) : (c.setPendingThr n).asm2 = c.asm2 := rfl
@[simp] theorem setPendingThr_asm4 (c : Ctx) (n : Nat) : (c.setPendingThr n).asm4 = c.asm4 := rfl
@[simp] theorem setPendingThr_q1 (c : Ctx) (n : Nat) : (c.setPendingThr n).q1 = c.q1 := rfl
@[simp] theorem setPendingThr_q3 (c : Ctx) (n : Nat) : (c.setPendingThr n).q3 = c.q3 := rfl
@[simp] theorem setPendingThr_q3rows (c : Ctx) (n : Nat) : (c.setPendingThr n).q3rows = c.q3rows := rfl
@[simp] theorem setPendingThr_q5 (c : Ctx) (n : Nat) : (c.setPendingThr n).q5 = c.q5 := rfl
@[simp] theorem setPendingThr_q1res (c : Ctx) (n : Nat) : (c.setPendingThr n).q1res = c.q1res := rfl
@[simp] theorem setPendingThr_q5res (c : Ctx) (n : Nat) : (c.setPendingThr n).q5res = c.q5res := rfl
@[simp] theorem setPendingThr_pops (c : Ctx) (n : Nat) : (c.setPendingThr n).pops = c.pops := rfl
@[simp] theorem setPendingThr_faults (c : Ctx) (n : Nat) : (c.setPendingThr n).faults = c.faults := rfl
@[simp] theorem setPendingThr_flagged (c : Ctx) (n : Nat) : (c.setPendingThr n).flagged = c.flagged := rfl
@[simp] theorem setPendingThr_wait (c : Ctx) (n : Nat) : (c.setPendingThr n).wait = c.wait := rfl
@[simp] theorem setPendingThr_parkedAt (c : Ctx) (n : Nat) : (c.setPendingThr n).parkedAt = c.parkedAt := rfl
@[simp] theorem setPendingThr_phase (c : Ctx) (n : Nat) : (c.setPendingThr n).phase = c.phase := rfl
@[simp] theorem setPendingThr_acks (c : Ctx) (n : Nat) : (c.setPendingThr n).acks = c.acks := rfl
@[simp] theorem setPendingThr_reply (c : Ctx) (n : Nat) : (c.setPendingThr n).reply = c.reply := rfl
@[simp] theorem setPendingThr_notes (c : Ctx) (n : Nat) : (c.setPendingThr n).notes = c.notes := rfl
@[simp] theorem setPendingThr_pfx (c : Ctx) (n : Nat) : (c.setPendingThr n).pfx = c.pfx := rfl
@[simp] theorem setPendingThr_rep (c : Ctx) (n : Nat) : (c.setPendingThr n).rep = c.rep := rfl
@[simp] theorem setPendingThr_prio (c : Ctx) (n : Nat) : (c.setPendingThr n).prio = c.prio := rfl
@[simp] theorem setPendingThr_slot (c : Ctx) (n : Nat) : (c.setPendingThr n).slot = c.slot := rfl
@[simp] theorem setPendingThr_serial (c : Ctx) (n : Nat) : (c.setPendingThr n).serial = c.serial := rfl
@[simp] theorem setPendingThr_copyOut (c : Ctx) (n : Nat) : (c.setPendingThr n).copyOut = c.copyOut := rfl
@[simp] theorem setPendingThr_ltag (c : Ctx) (n : Nat) : (c.setPendingThr n).ltag = c.ltag := rfl
@[simp] theorem setPendingThr_lcause (c : Ctx) (n : Nat) : (c.setPendingThr n).lcause = c.lcause := rfl
@[simp] theorem setPendingThr_aset (c : Ctx) (n : Nat) : (c.setPendingThr n).aset = c.aset := rfl
@[simp] theorem setPendingThr_gangPosted (c : Ctx) (n : Nat) : (c.setPendingThr n).gangPosted = c.gangPosted := rfl
@[simp] theorem setPendingThr_stopped (c : Ctx) (n : Nat) : (c.setPendingThr n).stopped = c.stopped := rfl

@[simp] theorem clearPending_role (c : Ctx) (n : Nat) : (c.clearPending n).role = c.role := rfl
@[simp] theorem clearPending_pc (c : Ctx) (n : Nat) : (c.clearPending n).pc = c.pc := rfl
@[simp] theorem clearPending_x (c : Ctx) (n : Nat) : (c.clearPending n).x = c.x := rfl
@[simp] theorem clearPending_v (c : Ctx) (n : Nat) : (c.clearPending n).v = c.v := rfl
@[simp] theorem clearPending_p (c : Ctx) (n : Nat) : (c.clearPending n).p = c.p := rfl
@[simp] theorem clearPending_k (c : Ctx) (n : Nat) : (c.clearPending n).k = c.k := rfl
@[simp] theorem clearPending_tstat (c : Ctx) (n : Nat) : (c.clearPending n).tstat = c.tstat := rfl
@[simp] theorem clearPending_tpc (c : Ctx) (n : Nat) : (c.clearPending n).tpc = c.tpc := rfl
@[simp] theorem clearPending_tcause (c : Ctx) (n : Nat) : (c.clearPending n).tcause = c.tcause := rfl
@[simp] theorem clearPending_tval (c : Ctx) (n : Nat) : (c.clearPending n).tval = c.tval := rfl
@[simp] theorem clearPending_fpre (c : Ctx) (n : Nat) : (c.clearPending n).fpre = c.fpre := rfl
@[simp] theorem clearPending_lc0 (c : Ctx) (n : Nat) : (c.clearPending n).lc0 = c.lc0 := rfl
@[simp] theorem clearPending_lc1 (c : Ctx) (n : Nat) : (c.clearPending n).lc1 = c.lc1 := rfl
@[simp] theorem clearPending_fflags (c : Ctx) (n : Nat) : (c.clearPending n).fflags = c.fflags := rfl
@[simp] theorem clearPending_frm (c : Ctx) (n : Nat) : (c.clearPending n).frm = c.frm := rfl
@[simp] theorem clearPending_fseed (c : Ctx) (n : Nat) : (c.clearPending n).fseed = c.fseed := rfl
@[simp] theorem clearPending_tid (c : Ctx) (n : Nat) : (c.clearPending n).tid = c.tid := rfl
@[simp] theorem clearPending_grp (c : Ctx) (n : Nat) : (c.clearPending n).grp = c.grp := rfl
@[simp] theorem clearPending_exitc (c : Ctx) (n : Nat) : (c.clearPending n).exitc = c.exitc := rfl
@[simp] theorem clearPending_hst (c : Ctx) (n : Nat) : (c.clearPending n).hst = c.hst := rfl
@[simp] theorem clearPending_hbud (c : Ctx) (n : Nat) : (c.clearPending n).hbud = c.hbud := rfl
@[simp] theorem clearPending_chb (c : Ctx) (n : Nat) : (c.clearPending n).chb = c.chb := rfl
@[simp] theorem clearPending_gtol (c : Ctx) (n : Nat) : (c.clearPending n).gtol = c.gtol := rfl
@[simp] theorem clearPending_gdmp (c : Ctx) (n : Nat) : (c.clearPending n).gdmp = c.gdmp := rfl
@[simp] theorem clearPending_laterLc1 (c : Ctx) (n : Nat) : (c.clearPending n).laterLc1 = c.laterLc1 := rfl
@[simp] theorem clearPending_thrMarks (c : Ctx) (n : Nat) : (c.clearPending n).thrMarks = c.thrMarks := rfl
@[simp] theorem clearPending_faulted (c : Ctx) (n : Nat) : (c.clearPending n).faulted = c.faulted := rfl
@[simp] theorem clearPending_gathers (c : Ctx) (n : Nat) : (c.clearPending n).gathers = c.gathers := rfl
@[simp] theorem clearPending_ticket (c : Ctx) (n : Nat) : (c.clearPending n).ticket = c.ticket := rfl
@[simp] theorem clearPending_q2pre (c : Ctx) (n : Nat) : (c.clearPending n).q2pre = c.q2pre := rfl
@[simp] theorem clearPending_asm0 (c : Ctx) (n : Nat) : (c.clearPending n).asm0 = c.asm0 := rfl
@[simp] theorem clearPending_asm2 (c : Ctx) (n : Nat) : (c.clearPending n).asm2 = c.asm2 := rfl
@[simp] theorem clearPending_asm4 (c : Ctx) (n : Nat) : (c.clearPending n).asm4 = c.asm4 := rfl
@[simp] theorem clearPending_q1 (c : Ctx) (n : Nat) : (c.clearPending n).q1 = c.q1 := rfl
@[simp] theorem clearPending_q3 (c : Ctx) (n : Nat) : (c.clearPending n).q3 = c.q3 := rfl
@[simp] theorem clearPending_q3rows (c : Ctx) (n : Nat) : (c.clearPending n).q3rows = c.q3rows := rfl
@[simp] theorem clearPending_q5 (c : Ctx) (n : Nat) : (c.clearPending n).q5 = c.q5 := rfl
@[simp] theorem clearPending_q1res (c : Ctx) (n : Nat) : (c.clearPending n).q1res = c.q1res := rfl
@[simp] theorem clearPending_q5res (c : Ctx) (n : Nat) : (c.clearPending n).q5res = c.q5res := rfl
@[simp] theorem clearPending_pops (c : Ctx) (n : Nat) : (c.clearPending n).pops = c.pops := rfl
@[simp] theorem clearPending_faults (c : Ctx) (n : Nat) : (c.clearPending n).faults = c.faults := rfl
@[simp] theorem clearPending_flagged (c : Ctx) (n : Nat) : (c.clearPending n).flagged = c.flagged := rfl
@[simp] theorem clearPending_wait (c : Ctx) (n : Nat) : (c.clearPending n).wait = c.wait := rfl
@[simp] theorem clearPending_parkedAt (c : Ctx) (n : Nat) : (c.clearPending n).parkedAt = c.parkedAt := rfl
@[simp] theorem clearPending_phase (c : Ctx) (n : Nat) : (c.clearPending n).phase = c.phase := rfl
@[simp] theorem clearPending_acks (c : Ctx) (n : Nat) : (c.clearPending n).acks = c.acks := rfl
@[simp] theorem clearPending_reply (c : Ctx) (n : Nat) : (c.clearPending n).reply = c.reply := rfl
@[simp] theorem clearPending_notes (c : Ctx) (n : Nat) : (c.clearPending n).notes = c.notes := rfl
@[simp] theorem clearPending_pfx (c : Ctx) (n : Nat) : (c.clearPending n).pfx = c.pfx := rfl
@[simp] theorem clearPending_rep (c : Ctx) (n : Nat) : (c.clearPending n).rep = c.rep := rfl
@[simp] theorem clearPending_prio (c : Ctx) (n : Nat) : (c.clearPending n).prio = c.prio := rfl
@[simp] theorem clearPending_slot (c : Ctx) (n : Nat) : (c.clearPending n).slot = c.slot := rfl
@[simp] theorem clearPending_serial (c : Ctx) (n : Nat) : (c.clearPending n).serial = c.serial := rfl
@[simp] theorem clearPending_copyOut (c : Ctx) (n : Nat) : (c.clearPending n).copyOut = c.copyOut := rfl
@[simp] theorem clearPending_ltag (c : Ctx) (n : Nat) : (c.clearPending n).ltag = c.ltag := rfl
@[simp] theorem clearPending_lcause (c : Ctx) (n : Nat) : (c.clearPending n).lcause = c.lcause := rfl
@[simp] theorem clearPending_aset (c : Ctx) (n : Nat) : (c.clearPending n).aset = c.aset := rfl
@[simp] theorem clearPending_gangPosted (c : Ctx) (n : Nat) : (c.clearPending n).gangPosted = c.gangPosted := rfl
@[simp] theorem clearPending_stopped (c : Ctx) (n : Nat) : (c.clearPending n).stopped = c.stopped := rfl

@[simp] theorem charge_role (c : Ctx)  : (c.charge).role = c.role := by unfold Ctx.charge; split <;> rfl
@[simp] theorem charge_pc (c : Ctx)  : (c.charge).pc = c.pc := by unfold Ctx.charge; split <;> rfl
@[simp] theorem charge_x (c : Ctx)  : (c.charge).x = c.x := by unfold Ctx.charge; split <;> rfl
@[simp] theorem charge_v (c : Ctx)  : (c.charge).v = c.v := by unfold Ctx.charge; split <;> rfl
@[simp] theorem charge_p (c : Ctx)  : (c.charge).p = c.p := by unfold Ctx.charge; split <;> rfl
@[simp] theorem charge_k (c : Ctx)  : (c.charge).k = c.k := by unfold Ctx.charge; split <;> rfl
@[simp] theorem charge_tstat (c : Ctx)  : (c.charge).tstat = c.tstat := by unfold Ctx.charge; split <;> rfl
@[simp] theorem charge_tpc (c : Ctx)  : (c.charge).tpc = c.tpc := by unfold Ctx.charge; split <;> rfl
@[simp] theorem charge_tcause (c : Ctx)  : (c.charge).tcause = c.tcause := by unfold Ctx.charge; split <;> rfl
@[simp] theorem charge_tval (c : Ctx)  : (c.charge).tval = c.tval := by unfold Ctx.charge; split <;> rfl
@[simp] theorem charge_fpre (c : Ctx)  : (c.charge).fpre = c.fpre := by unfold Ctx.charge; split <;> rfl
@[simp] theorem charge_lc0 (c : Ctx)  : (c.charge).lc0 = c.lc0 := by unfold Ctx.charge; split <;> rfl
@[simp] theorem charge_lc1 (c : Ctx)  : (c.charge).lc1 = c.lc1 := by unfold Ctx.charge; split <;> rfl
@[simp] theorem charge_fflags (c : Ctx)  : (c.charge).fflags = c.fflags := by unfold Ctx.charge; split <;> rfl
@[simp] theorem charge_frm (c : Ctx)  : (c.charge).frm = c.frm := by unfold Ctx.charge; split <;> rfl
@[simp] theorem charge_fseed (c : Ctx)  : (c.charge).fseed = c.fseed := by unfold Ctx.charge; split <;> rfl
@[simp] theorem charge_tid (c : Ctx)  : (c.charge).tid = c.tid := by unfold Ctx.charge; split <;> rfl
@[simp] theorem charge_grp (c : Ctx)  : (c.charge).grp = c.grp := by unfold Ctx.charge; split <;> rfl
@[simp] theorem charge_exitc (c : Ctx)  : (c.charge).exitc = c.exitc := by unfold Ctx.charge; split <;> rfl
@[simp] theorem charge_hst (c : Ctx)  : (c.charge).hst = c.hst := by unfold Ctx.charge; split <;> rfl
@[simp] theorem charge_chb (c : Ctx)  : (c.charge).chb = c.chb := by unfold Ctx.charge; split <;> rfl
@[simp] theorem charge_gtol (c : Ctx)  : (c.charge).gtol = c.gtol := by unfold Ctx.charge; split <;> rfl
@[simp] theorem charge_gdmp (c : Ctx)  : (c.charge).gdmp = c.gdmp := by unfold Ctx.charge; split <;> rfl
@[simp] theorem charge_laterLc1 (c : Ctx)  : (c.charge).laterLc1 = c.laterLc1 := by unfold Ctx.charge; split <;> rfl
@[simp] theorem charge_pending (c : Ctx)  : (c.charge).pending = c.pending := by unfold Ctx.charge; split <;> rfl
@[simp] theorem charge_thrMarks (c : Ctx)  : (c.charge).thrMarks = c.thrMarks := by unfold Ctx.charge; split <;> rfl
@[simp] theorem charge_faulted (c : Ctx)  : (c.charge).faulted = c.faulted := by unfold Ctx.charge; split <;> rfl
@[simp] theorem charge_gathers (c : Ctx)  : (c.charge).gathers = c.gathers := by unfold Ctx.charge; split <;> rfl
@[simp] theorem charge_ticket (c : Ctx)  : (c.charge).ticket = c.ticket := by unfold Ctx.charge; split <;> rfl
@[simp] theorem charge_q2pre (c : Ctx)  : (c.charge).q2pre = c.q2pre := by unfold Ctx.charge; split <;> rfl
@[simp] theorem charge_asm0 (c : Ctx)  : (c.charge).asm0 = c.asm0 := by unfold Ctx.charge; split <;> rfl
@[simp] theorem charge_asm2 (c : Ctx)  : (c.charge).asm2 = c.asm2 := by unfold Ctx.charge; split <;> rfl
@[simp] theorem charge_asm4 (c : Ctx)  : (c.charge).asm4 = c.asm4 := by unfold Ctx.charge; split <;> rfl
@[simp] theorem charge_q1 (c : Ctx)  : (c.charge).q1 = c.q1 := by unfold Ctx.charge; split <;> rfl
@[simp] theorem charge_q3 (c : Ctx)  : (c.charge).q3 = c.q3 := by unfold Ctx.charge; split <;> rfl
@[simp] theorem charge_q3rows (c : Ctx)  : (c.charge).q3rows = c.q3rows := by unfold Ctx.charge; split <;> rfl
@[simp] theorem charge_q5 (c : Ctx)  : (c.charge).q5 = c.q5 := by unfold Ctx.charge; split <;> rfl
@[simp] theorem charge_q1res (c : Ctx)  : (c.charge).q1res = c.q1res := by unfold Ctx.charge; split <;> rfl
@[simp] theorem charge_q5res (c : Ctx)  : (c.charge).q5res = c.q5res := by unfold Ctx.charge; split <;> rfl
@[simp] theorem charge_pops (c : Ctx)  : (c.charge).pops = c.pops := by unfold Ctx.charge; split <;> rfl
@[simp] theorem charge_faults (c : Ctx)  : (c.charge).faults = c.faults := by unfold Ctx.charge; split <;> rfl
@[simp] theorem charge_flagged (c : Ctx)  : (c.charge).flagged = c.flagged := by unfold Ctx.charge; split <;> rfl
@[simp] theorem charge_wait (c : Ctx)  : (c.charge).wait = c.wait := by unfold Ctx.charge; split <;> rfl
@[simp] theorem charge_parkedAt (c : Ctx)  : (c.charge).parkedAt = c.parkedAt := by unfold Ctx.charge; split <;> rfl
@[simp] theorem charge_phase (c : Ctx)  : (c.charge).phase = c.phase := by unfold Ctx.charge; split <;> rfl
@[simp] theorem charge_acks (c : Ctx)  : (c.charge).acks = c.acks := by unfold Ctx.charge; split <;> rfl
@[simp] theorem charge_reply (c : Ctx)  : (c.charge).reply = c.reply := by unfold Ctx.charge; split <;> rfl
@[simp] theorem charge_notes (c : Ctx)  : (c.charge).notes = c.notes := by unfold Ctx.charge; split <;> rfl
@[simp] theorem charge_pfx (c : Ctx)  : (c.charge).pfx = c.pfx := by unfold Ctx.charge; split <;> rfl
@[simp] theorem charge_rep (c : Ctx)  : (c.charge).rep = c.rep := by unfold Ctx.charge; split <;> rfl
@[simp] theorem charge_prio (c : Ctx)  : (c.charge).prio = c.prio := by unfold Ctx.charge; split <;> rfl
@[simp] theorem charge_slot (c : Ctx)  : (c.charge).slot = c.slot := by unfold Ctx.charge; split <;> rfl
@[simp] theorem charge_serial (c : Ctx)  : (c.charge).serial = c.serial := by unfold Ctx.charge; split <;> rfl
@[simp] theorem charge_copyOut (c : Ctx)  : (c.charge).copyOut = c.copyOut := by unfold Ctx.charge; split <;> rfl
@[simp] theorem charge_ltag (c : Ctx)  : (c.charge).ltag = c.ltag := by unfold Ctx.charge; split <;> rfl
@[simp] theorem charge_lcause (c : Ctx)  : (c.charge).lcause = c.lcause := by unfold Ctx.charge; split <;> rfl
@[simp] theorem charge_aset (c : Ctx)  : (c.charge).aset = c.aset := by unfold Ctx.charge; split <;> rfl
@[simp] theorem charge_gangPosted (c : Ctx)  : (c.charge).gangPosted = c.gangPosted := by unfold Ctx.charge; split <;> rfl
@[simp] theorem charge_stopped (c : Ctx)  : (c.charge).stopped = c.stopped := by unfold Ctx.charge; split <;> rfl

@[simp] theorem uncharge_role (c : Ctx)  : (c.uncharge).role = c.role := by unfold Ctx.uncharge; split <;> rfl
@[simp] theorem uncharge_pc (c : Ctx)  : (c.uncharge).pc = c.pc := by unfold Ctx.uncharge; split <;> rfl
@[simp] theorem uncharge_x (c : Ctx)  : (c.uncharge).x = c.x := by unfold Ctx.uncharge; split <;> rfl
@[simp] theorem uncharge_v (c : Ctx)  : (c.uncharge).v = c.v := by unfold Ctx.uncharge; split <;> rfl
@[simp] theorem uncharge_p (c : Ctx)  : (c.uncharge).p = c.p := by unfold Ctx.uncharge; split <;> rfl
@[simp] theorem uncharge_k (c : Ctx)  : (c.uncharge).k = c.k := by unfold Ctx.uncharge; split <;> rfl
@[simp] theorem uncharge_tstat (c : Ctx)  : (c.uncharge).tstat = c.tstat := by unfold Ctx.uncharge; split <;> rfl
@[simp] theorem uncharge_tpc (c : Ctx)  : (c.uncharge).tpc = c.tpc := by unfold Ctx.uncharge; split <;> rfl
@[simp] theorem uncharge_tcause (c : Ctx)  : (c.uncharge).tcause = c.tcause := by unfold Ctx.uncharge; split <;> rfl
@[simp] theorem uncharge_tval (c : Ctx)  : (c.uncharge).tval = c.tval := by unfold Ctx.uncharge; split <;> rfl
@[simp] theorem uncharge_fpre (c : Ctx)  : (c.uncharge).fpre = c.fpre := by unfold Ctx.uncharge; split <;> rfl
@[simp] theorem uncharge_lc0 (c : Ctx)  : (c.uncharge).lc0 = c.lc0 := by unfold Ctx.uncharge; split <;> rfl
@[simp] theorem uncharge_lc1 (c : Ctx)  : (c.uncharge).lc1 = c.lc1 := by unfold Ctx.uncharge; split <;> rfl
@[simp] theorem uncharge_fflags (c : Ctx)  : (c.uncharge).fflags = c.fflags := by unfold Ctx.uncharge; split <;> rfl
@[simp] theorem uncharge_frm (c : Ctx)  : (c.uncharge).frm = c.frm := by unfold Ctx.uncharge; split <;> rfl
@[simp] theorem uncharge_fseed (c : Ctx)  : (c.uncharge).fseed = c.fseed := by unfold Ctx.uncharge; split <;> rfl
@[simp] theorem uncharge_tid (c : Ctx)  : (c.uncharge).tid = c.tid := by unfold Ctx.uncharge; split <;> rfl
@[simp] theorem uncharge_grp (c : Ctx)  : (c.uncharge).grp = c.grp := by unfold Ctx.uncharge; split <;> rfl
@[simp] theorem uncharge_exitc (c : Ctx)  : (c.uncharge).exitc = c.exitc := by unfold Ctx.uncharge; split <;> rfl
@[simp] theorem uncharge_hst (c : Ctx)  : (c.uncharge).hst = c.hst := by unfold Ctx.uncharge; split <;> rfl
@[simp] theorem uncharge_chb (c : Ctx)  : (c.uncharge).chb = c.chb := by unfold Ctx.uncharge; split <;> rfl
@[simp] theorem uncharge_gtol (c : Ctx)  : (c.uncharge).gtol = c.gtol := by unfold Ctx.uncharge; split <;> rfl
@[simp] theorem uncharge_gdmp (c : Ctx)  : (c.uncharge).gdmp = c.gdmp := by unfold Ctx.uncharge; split <;> rfl
@[simp] theorem uncharge_laterLc1 (c : Ctx)  : (c.uncharge).laterLc1 = c.laterLc1 := by unfold Ctx.uncharge; split <;> rfl
@[simp] theorem uncharge_pending (c : Ctx)  : (c.uncharge).pending = c.pending := by unfold Ctx.uncharge; split <;> rfl
@[simp] theorem uncharge_thrMarks (c : Ctx)  : (c.uncharge).thrMarks = c.thrMarks := by unfold Ctx.uncharge; split <;> rfl
@[simp] theorem uncharge_faulted (c : Ctx)  : (c.uncharge).faulted = c.faulted := by unfold Ctx.uncharge; split <;> rfl
@[simp] theorem uncharge_gathers (c : Ctx)  : (c.uncharge).gathers = c.gathers := by unfold Ctx.uncharge; split <;> rfl
@[simp] theorem uncharge_ticket (c : Ctx)  : (c.uncharge).ticket = c.ticket := by unfold Ctx.uncharge; split <;> rfl
@[simp] theorem uncharge_q2pre (c : Ctx)  : (c.uncharge).q2pre = c.q2pre := by unfold Ctx.uncharge; split <;> rfl
@[simp] theorem uncharge_asm0 (c : Ctx)  : (c.uncharge).asm0 = c.asm0 := by unfold Ctx.uncharge; split <;> rfl
@[simp] theorem uncharge_asm2 (c : Ctx)  : (c.uncharge).asm2 = c.asm2 := by unfold Ctx.uncharge; split <;> rfl
@[simp] theorem uncharge_asm4 (c : Ctx)  : (c.uncharge).asm4 = c.asm4 := by unfold Ctx.uncharge; split <;> rfl
@[simp] theorem uncharge_q1 (c : Ctx)  : (c.uncharge).q1 = c.q1 := by unfold Ctx.uncharge; split <;> rfl
@[simp] theorem uncharge_q3 (c : Ctx)  : (c.uncharge).q3 = c.q3 := by unfold Ctx.uncharge; split <;> rfl
@[simp] theorem uncharge_q3rows (c : Ctx)  : (c.uncharge).q3rows = c.q3rows := by unfold Ctx.uncharge; split <;> rfl
@[simp] theorem uncharge_q5 (c : Ctx)  : (c.uncharge).q5 = c.q5 := by unfold Ctx.uncharge; split <;> rfl
@[simp] theorem uncharge_q1res (c : Ctx)  : (c.uncharge).q1res = c.q1res := by unfold Ctx.uncharge; split <;> rfl
@[simp] theorem uncharge_q5res (c : Ctx)  : (c.uncharge).q5res = c.q5res := by unfold Ctx.uncharge; split <;> rfl
@[simp] theorem uncharge_pops (c : Ctx)  : (c.uncharge).pops = c.pops := by unfold Ctx.uncharge; split <;> rfl
@[simp] theorem uncharge_faults (c : Ctx)  : (c.uncharge).faults = c.faults := by unfold Ctx.uncharge; split <;> rfl
@[simp] theorem uncharge_flagged (c : Ctx)  : (c.uncharge).flagged = c.flagged := by unfold Ctx.uncharge; split <;> rfl
@[simp] theorem uncharge_wait (c : Ctx)  : (c.uncharge).wait = c.wait := by unfold Ctx.uncharge; split <;> rfl
@[simp] theorem uncharge_parkedAt (c : Ctx)  : (c.uncharge).parkedAt = c.parkedAt := by unfold Ctx.uncharge; split <;> rfl
@[simp] theorem uncharge_phase (c : Ctx)  : (c.uncharge).phase = c.phase := by unfold Ctx.uncharge; split <;> rfl
@[simp] theorem uncharge_acks (c : Ctx)  : (c.uncharge).acks = c.acks := by unfold Ctx.uncharge; split <;> rfl
@[simp] theorem uncharge_reply (c : Ctx)  : (c.uncharge).reply = c.reply := by unfold Ctx.uncharge; split <;> rfl
@[simp] theorem uncharge_notes (c : Ctx)  : (c.uncharge).notes = c.notes := by unfold Ctx.uncharge; split <;> rfl
@[simp] theorem uncharge_pfx (c : Ctx)  : (c.uncharge).pfx = c.pfx := by unfold Ctx.uncharge; split <;> rfl
@[simp] theorem uncharge_rep (c : Ctx)  : (c.uncharge).rep = c.rep := by unfold Ctx.uncharge; split <;> rfl
@[simp] theorem uncharge_prio (c : Ctx)  : (c.uncharge).prio = c.prio := by unfold Ctx.uncharge; split <;> rfl
@[simp] theorem uncharge_slot (c : Ctx)  : (c.uncharge).slot = c.slot := by unfold Ctx.uncharge; split <;> rfl
@[simp] theorem uncharge_serial (c : Ctx)  : (c.uncharge).serial = c.serial := by unfold Ctx.uncharge; split <;> rfl
@[simp] theorem uncharge_copyOut (c : Ctx)  : (c.uncharge).copyOut = c.copyOut := by unfold Ctx.uncharge; split <;> rfl
@[simp] theorem uncharge_ltag (c : Ctx)  : (c.uncharge).ltag = c.ltag := by unfold Ctx.uncharge; split <;> rfl
@[simp] theorem uncharge_lcause (c : Ctx)  : (c.uncharge).lcause = c.lcause := by unfold Ctx.uncharge; split <;> rfl
@[simp] theorem uncharge_aset (c : Ctx)  : (c.uncharge).aset = c.aset := by unfold Ctx.uncharge; split <;> rfl
@[simp] theorem uncharge_gangPosted (c : Ctx)  : (c.uncharge).gangPosted = c.gangPosted := by unfold Ctx.uncharge; split <;> rfl
@[simp] theorem uncharge_stopped (c : Ctx)  : (c.uncharge).stopped = c.stopped := by unfold Ctx.uncharge; split <;> rfl

end Sys2Proof.Machine
end

