-- ==== Sys2Proof/Laws/Base.lean ====
section
/-! SUPPORT. Laws of tables, of memory and of the ways to a core, a context, a quad and a slot. -/

namespace Sys2Proof.Machine

/-! Tables by number. -/

section Tables

variable {α : Type}

theorem look_setAt (d : α) (m : Sparse α) (k j : Nat) (a : α) :
    look d (setAt m k a) j = if j = k then a else look d m j := by
  induction m with
  | nil =>
    simp only [setAt, look]
    split
    · simp_all
    · split <;> simp_all [eq_comm]
  | cons p r ih =>
    obtain ⟨n, b⟩ := p
    simp only [setAt]
    split
    · simp only [look]; split <;> simp_all; omega
    · split
      · simp only [look]
        split_ifs <;> first | rfl | omega
      · simp only [look, ih]
        split_ifs <;> first | rfl | omega

@[simp] theorem look_setAt_same (d : α) (m : Sparse α) (k : Nat) (a : α) : look d (setAt m k a) k = a := by
  simp [look_setAt]

theorem look_setAt_ne (d : α) (m : Sparse α) {k j : Nat} (a : α) (h : j ≠ k) :
    look d (setAt m k a) j = look d m j := by
  simp [look_setAt, h]

/-- No entry below a bound is found. -/
theorem look_below [DecidableEq α] (d : α) (m : Sparse α) {lo k : Nat} (w : wfFrom d lo m = true) (h : k < lo) :
    look d m k = d := by
  cases m with
  | nil => rfl
  | cons p r =>
    obtain ⟨n, b⟩ := p
    simp only [wfFrom, Bool.and_eq_true, decide_eq_true_eq] at w
    have h1 : n ≠ k := by omega
    have h2 : k < n := by omega
    simp [look, h1, h2]

theorem wfFrom_mono [DecidableEq α] (d : α) (m : Sparse α) {lo lo' : Nat} (h : lo' ≤ lo) (w : wfFrom d lo m = true) :
    wfFrom d lo' m = true := by
  cases m with
  | nil => rfl
  | cons p r =>
    simp only [wfFrom, Bool.and_eq_true, decide_eq_true_eq] at w ⊢
    exact ⟨⟨le_trans h w.1.1, w.1.2⟩, w.2⟩

theorem wfFrom_setAt [DecidableEq α] (d : α) (m : Sparse α) (k : Nat) (a : α) (ha : a ≠ d) :
    ∀ lo, lo ≤ k → wfFrom d lo m = true → wfFrom d lo (setAt m k a) = true := by
  induction m with
  | nil => intro lo h _; simp [setAt, wfFrom, h, ha]
  | cons p r ih =>
    obtain ⟨n, b⟩ := p
    intro lo h w
    simp only [wfFrom, Bool.and_eq_true, decide_eq_true_eq] at w
    simp only [setAt]
    split
    · next e => subst e; simp [wfFrom, h, ha, w.2]
    · split
      · next e => simp [wfFrom, h, ha, w.1.2, w.2]; omega
      · next e e' => simp [wfFrom, w.1.1, w.1.2, ih (n + 1) (by omega) w.2]

theorem wfFrom_dropAt [DecidableEq α] (d : α) (m : Sparse α) (k : Nat) :
    ∀ lo, wfFrom d lo m = true → wfFrom d lo (dropAt m k) = true := by
  induction m with
  | nil => intro lo _; rfl
  | cons p r ih =>
    obtain ⟨n, b⟩ := p
    intro lo w
    have w' := w
    simp only [wfFrom, Bool.and_eq_true, decide_eq_true_eq] at w
    simp only [dropAt]
    split
    · exact wfFrom_mono d r (by omega) w.2
    · split
      · exact w'
      · simp [wfFrom, w.1.1, w.1.2, ih (n + 1) w.2]

theorem look_dropAt [DecidableEq α] (d : α) (m : Sparse α) (k j : Nat) :
    ∀ lo, wfFrom d lo m = true → look d (dropAt m k) j = if j = k then d else look d m j := by
  induction m with
  | nil => intro lo _; simp [dropAt, look]
  | cons p r ih =>
    obtain ⟨n, b⟩ := p
    intro lo w
    simp only [wfFrom, Bool.and_eq_true, decide_eq_true_eq] at w
    simp only [dropAt]
    split
    · next e =>
      subst e
      by_cases h : j = n
      · simp [h, look_below d r w.2 (Nat.lt_succ_self n)]
      · by_cases h' : j < n
        · simp [h, look, Ne.symm h, h', look_below (k := j) d r w.2 (by omega)]
        · simp [h, look, Ne.symm h, h']
    · split
      · next e e' =>
        by_cases h : j = k
        · have h1 : n ≠ k := e
          simp [h, look, h1, e']
        · simp [h]
      · next e e' =>
        simp only [look, ih (n + 1) w.2]
        split_ifs <;> first | rfl | omega

end Tables

/-! Memory. -/

theorem readByte_writeByte (m : List Host.Cell) (h : Memory.wf m = true) (a x : Nat) (b : Byte) :
    readByte (writeByte m a b) x = if x = a then b else readByte m x := by
  unfold writeByte readByte put
  split
  · next e => rw [look_dropAt emptyByte m a x 0 h]; simp [e]
  · rw [look_setAt]

/-- One byte written keeps the canonical form. -/
theorem wf_writeByte (m : List Host.Cell) (h : Memory.wf m = true) (a : Nat) (b : Byte) :
    Memory.wf (writeByte m a b) = true := by
  unfold writeByte put Memory.wf
  split
  · exact wfFrom_dropAt _ _ _ _ h
  · next e => exact wfFrom_setAt _ _ _ _ e _ (Nat.zero_le _) h

/-- Bytes written keep the canonical form. -/
theorem wf_writeBytes (bs : List Byte) : ∀ (m : List Host.Cell) (a : Nat), Memory.wf m = true →
    Memory.wf (writeBytes m a bs) = true := by
  induction bs with
  | nil => intro m a h; exact h
  | cons b r ih => intro m a h; exact ih _ _ (wf_writeByte m h a b)

/-- A byte read after bytes are written: the byte written there, or the old one. -/
theorem readByte_writeBytes (bs : List Byte) : ∀ (m : List Host.Cell) (a x : Nat), Memory.wf m = true →
    readByte (writeBytes m a bs) x =
      if a ≤ x ∧ x < a + bs.length then bs.getD (x - a) 0 else readByte m x := by
  induction bs with
  | nil =>
    intro m a x _
    have : ¬(a ≤ x ∧ x < a) := by omega
    simp [writeBytes, this]
  | cons b r ih =>
    intro m a x h
    simp only [writeBytes]
    rw [ih _ _ _ (wf_writeByte m h a b), readByte_writeByte m h]
    simp only [List.length_cons]
    by_cases e : x = a
    · subst e
      have h1 : ¬(x + 1 ≤ x ∧ x < x + 1 + r.length) := by omega
      have h2 : x ≤ x ∧ x < x + (r.length + 1) := by omega
      rw [if_neg h1]; simp
    · by_cases e2 : a + 1 ≤ x ∧ x < a + 1 + r.length
      · have h2 : a ≤ x ∧ x < a + (r.length + 1) := by omega
        have h3 : x - a = (x - (a + 1)) + 1 := by omega
        simp [e2, h2, h3]
      · have h2 : ¬(a ≤ x ∧ x < a + (r.length + 1)) := by omega
        rw [if_neg e2, if_neg h2, if_neg e]

/-- Bytes read of a memory just written there. -/
theorem readBytes_length (m : List Host.Cell) (n : Nat) : ∀ a, (readBytes m a n).length = n := by
  induction n with
  | zero => intro a; rfl
  | succ n ih => intro a; simp [readBytes, ih]

theorem natBytes_length (n : Nat) : ∀ v, (natBytes n v).length = n := by
  induction n with
  | zero => intro v; rfl
  | succ n ih => intro v; simp [natBytes, ih]

/-- The number of the bytes of a number. -/
theorem bytesNat_natBytes (n : Nat) : ∀ v, bytesNat (natBytes n v) = v % 256 ^ n := by
  induction n with
  | zero => intro v; simp [natBytes, bytesNat, Nat.mod_one]
  | succ n ih =>
    intro v
    simp only [natBytes, bytesNat, ih, BitVec.toNat_ofNat]
    rw [show (256 : Nat) ^ (n + 1) = 256 * 256 ^ n by ring, Nat.mod_mul]

/-- Cells kept by a test on their addresses. -/
theorem wfFrom_filter (p : Host.Cell → Bool) (m : List Host.Cell) :
    ∀ lo, wfFrom emptyByte lo m = true → wfFrom emptyByte lo (m.filter p) = true := by
  induction m with
  | nil => intro lo _; rfl
  | cons c r ih =>
    obtain ⟨n, b⟩ := c
    intro lo w
    simp only [wfFrom, Bool.and_eq_true, decide_eq_true_eq] at w
    simp only [List.filter_cons]
    split
    · simp [wfFrom, w.1.1, w.1.2, ih (n + 1) w.2]
    · exact wfFrom_mono _ _ (by omega) (ih (n + 1) w.2)

/-! The ways to a core, a context, a quad and a slot. -/

theorem core_setCore (s : State) (n m : Nat) (c : CoreSt) :
    (s.setCore n c).core m = if m = n then c else s.core m := by
  simp [State.core, State.setCore, look_setAt]

@[simp] theorem core_setCore_same (s : State) (n : Nat) (c : CoreSt) : (s.setCore n c).core n = c := by
  simp [core_setCore]

theorem core_setCore_ne (s : State) {n m : Nat} (c : CoreSt) (h : m ≠ n) : (s.setCore n c).core m = s.core m := by
  simp [core_setCore, h]

theorem ctx_setCtx_core (c : CoreSt) (i j : Nat) (x : Ctx) (h : i < 5) :
    (c.setCtx i x).ctx j = if j = i then x else c.ctx j := by
  unfold CoreSt.ctx CoreSt.setCtx
  rw [Vector.getElem?_setIfInBounds]
  split
  · next e => subst e; simp
  · next e => simp [Ne.symm e]

@[simp] theorem core_setCtxOf_ctx (s : State) (n i m j : Nat) (x : Ctx) (h : i < 5) :
    (s.setCtxOf n i x).ctxOf m j = if m = n ∧ j = i then x else s.ctxOf m j := by
  unfold State.setCtxOf State.ctxOf
  rw [core_setCore]
  by_cases e : m = n
  · subst e; simp [ctx_setCtx_core _ _ _ _ h]
  · simp [e]

/-- The issuing context after its replacement. -/
@[simp] theorem ctx_setCtx_same (s : State) (x : Ctx) (h : s.curCtx < 5) : (s.setCtx x).ctx = x := by
  unfold State.setCtx State.ctx
  simp [h]

@[simp] theorem me_setMe (s : State) (c : CoreSt) : (s.setMe c).me = c := by
  simp [State.setMe, State.me]

theorem setAt_setAt {α : Type} (m : Sparse α) (k : Nat) (a b : α) : setAt (setAt m k a) k b = setAt m k b := by
  induction m with
  | nil => simp [setAt]
  | cons p r ih =>
    obtain ⟨n, c⟩ := p
    simp only [setAt]
    split
    · simp [setAt]
    · split
      · simp [setAt]
      · next e e' => simp [setAt, e, e', ih]

@[simp] theorem setCore_setCore (s : State) (n : Nat) (c c' : CoreSt) : (s.setCore n c).setCore n c' = s.setCore n c' := by
  simp [State.setCore, setAt_setAt]

@[simp] theorem setCtx_setCtx_core (c : CoreSt) (i : Nat) (x y : Ctx) : (c.setCtx i x).setCtx i y = c.setCtx i y := by
  unfold CoreSt.setCtx
  have : (c.ctxs.setIfInBounds i x).setIfInBounds i y = c.ctxs.setIfInBounds i y := by
    ext j hj
    simp only [Vector.getElem_setIfInBounds]
    split <;> rfl
  simp [this]

/-- Two replacements of the issuing context are the last one. -/
@[simp] theorem setCtx_setCtx (s : State) (x y : Ctx) : (s.setCtx x).setCtx y = s.setCtx y := by
  simp [State.setCtx, State.setCtxOf]

@[simp] theorem quad_setQuad_same (s : State) (q : Nat) (a : Quad) : (s.setQuad q a).quad q = a := by
  simp [State.quad, State.setQuad]

theorem quad_setQuad_ne (s : State) {q r : Nat} (a : Quad) (h : r ≠ q) : (s.setQuad q a).quad r = s.quad r := by
  simp [State.quad, State.setQuad, look_setAt, h]

@[simp] theorem slot_setSlot_same (s : State) (n : Nat) (x : Slot) : (s.setSlot n x).slot n = x := by
  simp [State.slot, State.setSlot]

theorem slot_setSlot_ne (s : State) {n m : Nat} (x : Slot) (h : m ≠ n) : (s.setSlot n x).slot m = s.slot m := by
  simp [State.slot, State.setSlot, look_setAt, h]

/-! Registers. -/

/-- x[r] after a write to x[d]: the value, or the old one; x0 reads zero. -/
theorem rx_wx (c : Ctx) (d r : Reg) (w : Word) :
    (c.wx d w).rx r = if r = 0 then 0 else if r = d then w else c.rx r := by
  unfold Ctx.rx
  split
  · rfl
  · next h =>
    unfold Ctx.wx
    by_cases e : d = 0
    · subst e
      simp only [if_true, h, if_false]
      split <;> rfl
    · simp only [e, if_false]
      rw [Vector.getElem_set]
      by_cases q : r = d
      · subst q; simp
      · have : ¬ d.toNat = r.toNat := fun x => q (BitVec.eq_of_toNat_eq x.symm)
        simp [q, this]

/-- v[r] after a write to v[d]. -/
theorem rv_wv (c : Ctx) (d r : Reg) (w : Vec) : (c.wv d w).rv r = if r = d then w else c.rv r := by
  unfold Ctx.rv Ctx.wv
  rw [Vector.getElem_set]
  by_cases q : r = d
  · subst q; simp
  · have : ¬ d.toNat = r.toNat := fun x => q (BitVec.eq_of_toNat_eq x.symm)
    simp [q, this]

/-- k[r] after a write to k[d]; k0 reads all ones. -/
theorem rk_wk (c : Ctx) (d r : BitVec 3) (w : Word) :
    (c.wk d w).rk r = if r = 0 then BitVec.allOnes 64 else if r = d then w else c.rk r := by
  unfold Ctx.rk
  split
  · rfl
  · next h =>
    unfold Ctx.wk
    by_cases e : d = 0
    · subst e; simp only [if_true, h, if_false]
    · simp only [e, if_false]
      rw [Vector.getElem_set]
      by_cases q : r = d
      · subst q; simp
      · have : ¬ d.toNat = r.toNat := fun x => q (BitVec.eq_of_toNat_eq x.symm)
        simp [q, this]

/-- p[r] after a write to p[d]; p0 reads one. -/
theorem rp_wp (c : Ctx) (d r : BitVec 3) (b : Bool) :
    (c.wp d b).rp r = if r = 0 then true else if r = d then b else c.rp r := by
  unfold Ctx.rp
  split
  · rfl
  · next h =>
    unfold Ctx.wp
    by_cases e : d = 0
    · subst e; simp only [if_true, h, if_false]
    · simp only [e, if_false]
      generalize c.p = q
      revert q b; revert d r; decide +revert

end Sys2Proof.Machine
end

