-- ==== Sys2Proof/Laws/Encode.lean ====
section
/-! SUPPORT. The fields of an encoded word: what the decoder reads back from each format (R92, R95). -/

namespace Sys2Proof

theorem body_of_word (h : Head) (maj : BitVec 6) (x : Body) : (word h maj x).extractLsb' 0 22 = x := by
  unfold word
  rw [BitVec.extractLsb'_append_eq_right]

theorem major_of_word (h : Head) (maj : BitVec 6) (x : Body) : (word h maj x).extractLsb' 22 6 = maj := by
  unfold word
  ext i hi
  simp [BitVec.getLsbD_append]
  grind

theorem head_of_word (h : Head) (maj : BitVec 6) (x : Body) : Insn.head (word h maj x) = h := by
  obtain ⟨sw, g⟩ := h
  have e : (word { sw := sw, g := g } maj x).extractLsb' 28 3 = g := by
    unfold word
    ext i hi
    simp [BitVec.getLsbD_append]
    grind
  simp only [Insn.head, e]
  congr 1
  unfold word
  rw [BitVec.getLsbD_append, BitVec.getLsbD_append, BitVec.getLsbD_append]
  simp

/-- The decoder sees the head, the major opcode and the body of an encoded word. -/
theorem decode_word (h : Head) (maj : BitVec 6) (x : Body) :
    decodeWord (word h maj x) = checked (decodeMajor maj h x) := by
  rw [decodeWord, body_of_word, major_of_word, head_of_word]

@[simp] theorem rd_bodyR (d a b : Reg) (f : BitVec 7) : (bodyR d a b f).rd = d := by
  unfold bodyR Body.rd
  ext i hi
  simp [BitVec.getLsbD_append]
  grind

@[simp] theorem rs1_bodyR (d a b : Reg) (f : BitVec 7) : (bodyR d a b f).rs1 = a := by
  unfold bodyR Body.rs1
  ext i hi
  simp [BitVec.getLsbD_append]
  grind

@[simp] theorem rs2_bodyR (d a b : Reg) (f : BitVec 7) : (bodyR d a b f).rs2 = b := by
  unfold bodyR Body.rs2
  ext i hi
  simp [BitVec.getLsbD_append]
  grind

@[simp] theorem fn7_bodyR (d a b : Reg) (f : BitVec 7) : (bodyR d a b f).fn7 = f := by
  unfold bodyR Body.fn7
  ext i hi
  simp [BitVec.getLsbD_append]
  grind

@[simp] theorem rd_bodyI (d a : Reg) (i : BitVec 12) : (bodyI d a i).rd = d := by
  unfold bodyI Body.rd
  ext i hi
  simp [BitVec.getLsbD_append]
  grind

@[simp] theorem rs1_bodyI (d a : Reg) (i : BitVec 12) : (bodyI d a i).rs1 = a := by
  unfold bodyI Body.rs1
  ext i hi
  simp [BitVec.getLsbD_append]
  grind

@[simp] theorem imm12_bodyI (d a : Reg) (i : BitVec 12) : (bodyI d a i).imm12 = i := by
  unfold bodyI Body.imm12
  ext i hi
  simp [BitVec.getLsbD_append]
  grind

@[simp] theorem rd_bodyU (d : Reg) (i : BitVec 17) : (bodyU d i).rd = d := by
  unfold bodyU Body.rd
  ext i hi
  simp [BitVec.getLsbD_append]
  grind

@[simp] theorem imm17_bodyU (d : Reg) (i : BitVec 17) : (bodyU d i).imm17 = i := by
  unfold bodyU Body.imm17
  ext i hi
  simp [BitVec.getLsbD_append]
  grind

@[simp] theorem rd_bodyV (d a b : Reg) (k : BitVec 3) (f : BitVec 4) : (bodyV d a b k f).rd = d := by
  unfold bodyV Body.rd
  ext i hi
  simp [BitVec.getLsbD_append]
  grind

@[simp] theorem rs1_bodyV (d a b : Reg) (k : BitVec 3) (f : BitVec 4) : (bodyV d a b k f).rs1 = a := by
  unfold bodyV Body.rs1
  ext i hi
  simp [BitVec.getLsbD_append]
  grind

@[simp] theorem rs2_bodyV (d a b : Reg) (k : BitVec 3) (f : BitVec 4) : (bodyV d a b k f).rs2 = b := by
  unfold bodyV Body.rs2
  ext i hi
  simp [BitVec.getLsbD_append]
  grind

@[simp] theorem k_bodyV (d a b : Reg) (k : BitVec 3) (f : BitVec 4) : (bodyV d a b k f).k = k := by
  unfold bodyV Body.k
  ext i hi
  simp [BitVec.getLsbD_append]
  grind

@[simp] theorem fn4_bodyV (d a b : Reg) (k : BitVec 3) (f : BitVec 4) : (bodyV d a b k f).fn4 = f := by
  unfold bodyV Body.fn4
  ext i hi
  simp [BitVec.getLsbD_append]
  grind

@[simp] theorem bodyLoop_12 (l : BitVec 1) (a : Reg) (n : BitVec 12) : (bodyLoop l a n).extractLsb' 12 4 = 0#4 := by
  unfold bodyLoop
  ext i hi
  simp [BitVec.getLsbD_append]
  grind

@[simp] theorem bodyLoop_21 (l : BitVec 1) (a : Reg) (n : BitVec 12) : (bodyLoop l a n).extractLsb' 21 1 = l := by
  unfold bodyLoop
  ext i hi
  simp [BitVec.getLsbD_append]
  grind

@[simp] theorem bodyLoop_16 (l : BitVec 1) (a : Reg) (n : BitVec 12) : (bodyLoop l a n).extractLsb' 16 5 = a := by
  unfold bodyLoop
  ext i hi
  simp [BitVec.getLsbD_append]
  grind

@[simp] theorem bodyLoop_0 (l : BitVec 1) (a : Reg) (n : BitVec 12) : (bodyLoop l a n).extractLsb' 0 12 = n := by
  unfold bodyLoop
  ext i hi
  simp [BitVec.getLsbD_append]
  grind

@[simp] theorem bodyLoopi_21 (l : BitVec 1) (c : BitVec 9) (n : BitVec 12) : (bodyLoopi l c n).extractLsb' 21 1 = l := by
  unfold bodyLoopi
  ext i hi
  simp [BitVec.getLsbD_append]
  grind

@[simp] theorem bodyLoopi_12 (l : BitVec 1) (c : BitVec 9) (n : BitVec 12) : (bodyLoopi l c n).extractLsb' 12 9 = c := by
  unfold bodyLoopi
  ext i hi
  simp [BitVec.getLsbD_append]
  grind

@[simp] theorem bodyLoopi_0 (l : BitVec 1) (c : BitVec 9) (n : BitVec 12) : (bodyLoopi l c n).extractLsb' 0 12 = n := by
  unfold bodyLoopi
  ext i hi
  simp [BitVec.getLsbD_append]
  grind

@[simp] theorem bodyRep_0 (n : BitVec 4) (i : BitVec 6) (d a b : BitVec 2) : (bodyRep n i d a b).extractLsb' 0 6 = 0#6 := by
  unfold bodyRep
  ext i hi
  simp [BitVec.getLsbD_append]
  grind

@[simp] theorem bodyRep_18 (n : BitVec 4) (i : BitVec 6) (d a b : BitVec 2) : (bodyRep n i d a b).extractLsb' 18 4 = n := by
  unfold bodyRep
  ext i hi
  simp [BitVec.getLsbD_append]
  grind

@[simp] theorem bodyRep_12 (n : BitVec 4) (i : BitVec 6) (d a b : BitVec 2) : (bodyRep n i d a b).extractLsb' 12 6 = i := by
  unfold bodyRep
  ext i hi
  simp [BitVec.getLsbD_append]
  grind

@[simp] theorem bodyRep_10 (n : BitVec 4) (i : BitVec 6) (d a b : BitVec 2) : (bodyRep n i d a b).extractLsb' 10 2 = d := by
  unfold bodyRep
  ext i hi
  simp [BitVec.getLsbD_append]
  grind

@[simp] theorem bodyRep_8 (n : BitVec 4) (i : BitVec 6) (d a b : BitVec 2) : (bodyRep n i d a b).extractLsb' 8 2 = a := by
  unfold bodyRep
  ext i hi
  simp [BitVec.getLsbD_append]
  grind

@[simp] theorem bodyRep_6 (n : BitVec 4) (i : BitVec 6) (d a b : BitVec 2) : (bodyRep n i d a b).extractLsb' 6 2 = b := by
  unfold bodyRep
  ext i hi
  simp [BitVec.getLsbD_append]
  grind

@[simp] theorem bodyFmt_0 (a b : BitVec 4) (d r : BitVec 3) (t : BitVec 1) (c : BitVec 2) (x : BitVec 1) : (bodyFmt a b d r t c x).extractLsb' 0 4 = 0#4 := by
  unfold bodyFmt
  ext i hi
  simp [BitVec.getLsbD_append]
  grind

@[simp] theorem bodyFmt_18 (a b : BitVec 4) (d r : BitVec 3) (t : BitVec 1) (c : BitVec 2) (x : BitVec 1) : (bodyFmt a b d r t c x).extractLsb' 18 4 = a := by
  unfold bodyFmt
  ext i hi
  simp [BitVec.getLsbD_append]
  grind

@[simp] theorem bodyFmt_14 (a b : BitVec 4) (d r : BitVec 3) (t : BitVec 1) (c : BitVec 2) (x : BitVec 1) : (bodyFmt a b d r t c x).extractLsb' 14 4 = b := by
  unfold bodyFmt
  ext i hi
  simp [BitVec.getLsbD_append]
  grind

@[simp] theorem bodyFmt_11 (a b : BitVec 4) (d r : BitVec 3) (t : BitVec 1) (c : BitVec 2) (x : BitVec 1) : (bodyFmt a b d r t c x).extractLsb' 11 3 = d := by
  unfold bodyFmt
  ext i hi
  simp [BitVec.getLsbD_append]
  grind

@[simp] theorem bodyFmt_8 (a b : BitVec 4) (d r : BitVec 3) (t : BitVec 1) (c : BitVec 2) (x : BitVec 1) : (bodyFmt a b d r t c x).extractLsb' 8 3 = r := by
  unfold bodyFmt
  ext i hi
  simp [BitVec.getLsbD_append]
  grind

@[simp] theorem bodyFmt_7 (a b : BitVec 4) (d r : BitVec 3) (t : BitVec 1) (c : BitVec 2) (x : BitVec 1) : (bodyFmt a b d r t c x).extractLsb' 7 1 = t := by
  unfold bodyFmt
  ext i hi
  simp [BitVec.getLsbD_append]
  grind

@[simp] theorem bodyFmt_5 (a b : BitVec 4) (d r : BitVec 3) (t : BitVec 1) (c : BitVec 2) (x : BitVec 1) : (bodyFmt a b d r t c x).extractLsb' 5 2 = c := by
  unfold bodyFmt
  ext i hi
  simp [BitVec.getLsbD_append]
  grind

@[simp] theorem bodyFmt_4 (a b : BitVec 4) (d r : BitVec 3) (t : BitVec 1) (c : BitVec 2) (x : BitVec 1) : (bodyFmt a b d r t c x).extractLsb' 4 1 = x := by
  unfold bodyFmt
  ext i hi
  simp [BitVec.getLsbD_append]
  grind

@[simp] theorem imm12_bodyLoop (l : BitVec 1) (a : Reg) (n : BitVec 12) : Body.imm12 (bodyLoop l a n) = n := bodyLoop_0 l a n

@[simp] theorem imm12_bodyLoopi (l : BitVec 1) (c : BitVec 9) (n : BitVec 12) : Body.imm12 (bodyLoopi l c n) = n := bodyLoopi_0 l c n

@[simp] theorem shift_op (o : BitVec 2) (n : BitVec 6) : (o ++ 0#4 ++ n).extractLsb' 10 2 = o := by
  ext i hi
  simp [BitVec.getLsbD_append]
  grind

@[simp] theorem shift_zero (o : BitVec 2) (n : BitVec 6) : (o ++ 0#4 ++ n).extractLsb' 6 4 = 0#4 := by
  ext i hi
  simp [BitVec.getLsbD_append]
  grind

@[simp] theorem shift_amount (o : BitVec 2) (n : BitVec 6) : (o ++ 0#4 ++ n).extractLsb' 0 6 = n := by
  ext i hi
  simp [BitVec.getLsbD_append]
  grind

@[simp] theorem index_sel (k : BitVec 3) (w c : BitVec 2) : (k ++ w ++ c).extractLsb' 0 2 = c := by
  ext i hi
  simp [BitVec.getLsbD_append]
  grind

@[simp] theorem index_mask (k : BitVec 3) (w c : BitVec 2) : (k ++ w ++ c).extractLsb' 4 3 = k := by
  ext i hi
  simp [BitVec.getLsbD_append]
  grind

@[simp] theorem index_width (k : BitVec 3) (w c : BitVec 2) : (k ++ w ++ c).extractLsb' 2 2 = w := by
  ext i hi
  simp [BitVec.getLsbD_append]
  grind

@[simp] theorem thr_zero (n : BitVec 3) : (0#4 ++ n).extractLsb' 3 4 = 0#4 := by
  ext i hi
  simp [BitVec.getLsbD_append]
  grind

@[simp] theorem thr_cmp (n : BitVec 3) : (0#4 ++ n).extractLsb' 0 3 = n := by
  ext i hi
  simp [BitVec.getLsbD_append]
  grind

@[simp] theorem fence_kind (k : BitVec 4) (m : BitVec 8) : (k ++ m).extractLsb' 8 4 = k := by
  ext i hi
  simp [BitVec.getLsbD_append]
  grind

@[simp] theorem fence_mask (k : BitVec 4) (m : BitVec 8) : (k ++ m).extractLsb' 0 8 = m := by
  ext i hi
  simp [BitVec.getLsbD_append]
  grind

@[simp] theorem brp_zero (t : BitVec 1) : (0#4 ++ t).extractLsb' 1 4 = 0#4 := by
  ext i hi
  simp [BitVec.getLsbD_append]
  grind

@[simp] theorem brp_t (t : BitVec 1) : (0#4 ++ t).extractLsb' 0 1 = t := by
  ext i hi
  simp [BitVec.getLsbD_append]
  grind

@[simp] theorem hcall_entry (e : BitVec 8) (n : BitVec 3) (w : BitVec 1) : (e ++ n ++ w).extractLsb' 4 8 = e := by
  ext i hi
  simp [BitVec.getLsbD_append]
  grind

@[simp] theorem hcall_count (e : BitVec 8) (n : BitVec 3) (w : BitVec 1) : (e ++ n ++ w).extractLsb' 1 3 = n := by
  ext i hi
  simp [BitVec.getLsbD_append]
  grind

@[simp] theorem hcall_w (e : BitVec 8) (n : BitVec 3) (w : BitVec 1) : (e ++ n ++ w).extractLsb' 0 1 = w := by
  ext i hi
  simp [BitVec.getLsbD_append]
  grind

@[simp] theorem inFile3_setWidth (r : BitVec 3) (f : BitVec 3 → Decoded) : inFile3 (r.setWidth 5) f = f r := by
  have h : (r.setWidth 5).toNat < 8 := by have := r.isLt; simp; omega
  unfold inFile3
  rw [if_pos h]
  congr 1
  ext i hi
  simp

@[simp] theorem inFile2_setWidth (r : BitVec 2) (f : BitVec 2 → Decoded) : inFile2 (r.setWidth 5) f = f r := by
  have h : (r.setWidth 5).toNat < 4 := by have := r.isLt; simp; omega
  unfold inFile2
  rw [if_pos h]
  congr 1
  ext i hi
  simp

@[simp] theorem zero_zero {n : Nat} (x : Decoded) : zero (0#n) x = x := if_pos rfl

/-- A decoded instruction that is well formed passes the last check. -/
theorem checked_ok (i : Instr) (h : i.WellFormed) : checked (.ok i) = .ok i := by
  unfold checked
  simp only [show i.check = none from h]

end Sys2Proof
end

