-- ==== Sys2Proof/Laws/Memory.lean ====
section
/-! SUPPORT. Every memory operation keeps the canonical form, and what the shared operations do to memory. -/

namespace Sys2Proof.Machine

/-! The cipher of confidential pages (R38). -/

/-- `n` units make a number of `128 * n` bits. -/
theorem mapUnits_lt (f : Nat → BitVec 128 → BitVec 128) (n i v : Nat) : mapUnits f n i v < 2 ^ (128 * n) := by
  induction n generalizing i v with
  | zero => simp [mapUnits]
  | succ n ih =>
    have h := ih (i + 1) (v / 2 ^ 128)
    have u := (f i (BitVec.ofNat 128 v)).isLt
    rw [mapUnits, Nat.mul_succ, Nat.pow_add]
    generalize 2 ^ (128 * n) = N at *
    omega

/-- Units mapped and mapped back are the units again. -/
theorem mapUnits_inv {f g : Nat → BitVec 128 → BitVec 128} (h : ∀ i x, g i (f i x) = x) (n i v : Nat) :
    mapUnits g n i (mapUnits f n i v) = v % 2 ^ (128 * n) := by
  induction n generalizing i v with
  | zero => simp [mapUnits, Nat.mod_one]
  | succ n ih =>
    have u := (f i (BitVec.ofNat 128 v)).isLt
    have low : BitVec.ofNat 128 ((f i (BitVec.ofNat 128 v)).toNat + 2 ^ 128 * mapUnits f n (i + 1) (v / 2 ^ 128)) =
        f i (BitVec.ofNat 128 v) := by
      apply BitVec.eq_of_toNat_eq
      rw [BitVec.toNat_ofNat, Nat.add_mul_mod_self_left, Nat.mod_eq_of_lt u]
    have high : ((f i (BitVec.ofNat 128 v)).toNat + 2 ^ 128 * mapUnits f n (i + 1) (v / 2 ^ 128)) / 2 ^ 128 =
        mapUnits f n (i + 1) (v / 2 ^ 128) := by
      rw [Nat.add_mul_div_left _ _ (by decide), Nat.div_eq_of_lt u, Nat.zero_add]
    rw [mapUnits, mapUnits, low, high, h, ih, BitVec.toNat_ofNat, Nat.mul_succ, Nat.add_comm (128 * n), Nat.pow_add, Nat.mod_mul]

/-- The same of a number of that many bits. -/
theorem mapUnits_round {f g : Nat → BitVec 128 → BitVec 128} (h : ∀ i x, g i (f i x) = x) (n : Nat) (v : BitVec (128 * n)) :
    BitVec.ofNat (128 * n) (mapUnits g n 0 (BitVec.ofNat (128 * n) (mapUnits f n 0 v.toNat)).toNat) = v := by
  apply BitVec.eq_of_toNat_eq
  rw [BitVec.toNat_ofNat, BitVec.toNat_ofNat, Nat.mod_eq_of_lt (mapUnits_lt f n 0 _), mapUnits_inv h, Nat.mod_mod, Nat.mod_eq_of_lt v.isLt]

/-- A block deciphered under the key that enciphered it is the block (R38). -/
theorem decipher_cipher (pkg : Nat) (k : Word) (b : Nat) (v : BitVec 32768) : decipher pkg k b (cipher pkg k b v) = v :=
  mapUnits_round (n := 256) (fun i x => by
    rw [BitVec.xor_assoc, BitVec.xor_self, BitVec.xor_zero, (Config.aes _).inv, BitVec.xor_assoc, BitVec.xor_self, BitVec.xor_zero]) v
/-- What the banks see of a user's block is the user's block again in the user's view (R38). -/
theorem reveal_reveal (pkg : Nat) (k : Word) (b : Nat) (v : BitVec 32768) : reveal pkg none (some k) b (reveal pkg (some k) none b v) = v :=
  decipher_cipher pkg k b v

/-! Operations on memories. -/

/-- An upper bound on addresses is kept by what follows lower cells. -/
theorem wfFrom_append (a b : List Host.Cell) (mid : Nat) (hb : wfFrom emptyByte mid b = true) (ha : ∀ c ∈ a, c.1 < mid) :
    ∀ lo, lo ≤ mid → wfFrom emptyByte lo a = true → wfFrom emptyByte lo (a ++ b) = true := by
  induction a with
  | nil => intro lo h _; exact wfFrom_mono _ _ h hb
  | cons c r ih =>
    obtain ⟨n, x⟩ := c
    intro lo _ w
    simp only [wfFrom, Bool.and_eq_true, decide_eq_true_eq, List.cons_append] at w ⊢
    have : n < mid := ha (n, x) (by simp)
    exact ⟨w.1, ih (fun c hc => ha c (by simp [hc])) (n + 1) this w.2⟩

/-- The cells of a memory from an address upward have that address as their bound. -/
theorem wfFrom_above (m : List Host.Cell) (k : Nat) :
    ∀ lo, wfFrom emptyByte lo m = true → wfFrom emptyByte k (m.filter fun c => decide (k ≤ c.1)) = true := by
  induction m with
  | nil => intro lo _; rfl
  | cons c r ih =>
    obtain ⟨n, x⟩ := c
    intro lo w
    simp only [wfFrom, Bool.and_eq_true, decide_eq_true_eq] at w
    by_cases h : k ≤ n
    · simp only [List.filter_cons, h, decide_true, if_true, wfFrom, Bool.and_eq_true, decide_eq_true_eq]
      exact ⟨⟨trivial, w.1.2⟩, wfFrom_filter _ _ _ w.2⟩
    · simp only [List.filter_cons, h, decide_false]
      exact ih (n + 1) w.2

/-- The cells that bytes from `lo` list rise from `lo`, below the end of the bytes. -/
theorem wf_cellsFrom (bs : List Byte) : ∀ lo,
    wfFrom emptyByte lo (((List.range' lo bs.length).zip bs).filter fun c => c.2 != emptyByte) = true ∧
    ∀ c ∈ ((List.range' lo bs.length).zip bs).filter fun c => c.2 != emptyByte, c.1 < lo + bs.length := by
  induction bs with
  | nil => intro lo; simp [wfFrom]
  | cons b r ih =>
    intro lo
    obtain ⟨h1, h2⟩ := ih (lo + 1)
    simp only [List.length_cons, List.range'_succ, List.zip_cons_cons, List.filter_cons]
    by_cases e : b = emptyByte
    · simp only [e, bne_self_eq_false]
      refine ⟨wfFrom_mono _ _ (Nat.le_succ lo) h1, fun c hc => ?_⟩
      have := h2 c hc
      omega
    · have e' : (b != emptyByte) = true := by simp [e]
      simp only [e', if_true]
      refine ⟨by simp [wfFrom, e, h1], fun c hc => ?_⟩
      rcases List.mem_cons.1 hc with rfl | hc
      · simp
      · have := h2 c hc
        omega

theorem cellsAt_eq (lo : Nat) (bs : List Byte) :
    cellsAt lo bs = ((List.range' lo bs.length).zip bs).filter fun c => c.2 != emptyByte := by
  unfold cellsAt
  rw [List.range_eq_range', List.map_add_range']
  simp

/-- Bytes written by initialisation keep the canonical form. -/
theorem wf_overwrite (m : List Host.Cell) (h : Memory.wf m = true) (lo : Nat) (bs : List Byte) :
    Memory.wf (overwrite m lo bs) = true := by
  unfold overwrite Memory.wf
  have c := wf_cellsFrom bs lo
  rw [← cellsAt_eq] at c
  rw [List.append_assoc]
  refine wfFrom_append _ _ lo ?_ ?_ 0 (Nat.zero_le _) (wfFrom_filter _ _ _ h)
  · exact wfFrom_append _ _ (lo + bs.length) (wfFrom_above m _ 0 h) c.2 lo (Nat.le_add_right _ _) c.1
  · intro c hc
    simpa using (List.mem_filter.1 hc).2

theorem wf_foldl_writeBytes {α : Type} (f : α → Nat) (g : α → List Byte) (l : List α) : ∀ m : List Host.Cell,
    Memory.wf m = true → Memory.wf (l.foldl (fun m x => writeBytes m (f x) (g x)) m) = true := by
  induction l with
  | nil => intro m h; exact h
  | cons x r ih => intro m h; exact ih _ (wf_writeBytes _ _ _ h)

/-- A region replaced by listed cells keeps the canonical form. -/
theorem wf_putCells (m : List Host.Cell) (h : Memory.wf m = true) (lo len : Nat) (cs : List Host.Cell) :
    Memory.wf (putCells m lo len cs) = true := by
  unfold putCells
  have h0 : Memory.wf (m.filter fun c => decide (c.1 < lo) || decide (lo + len ≤ c.1)) = true := wfFrom_filter _ _ _ h
  generalize (m.filter fun c => decide (c.1 < lo) || decide (lo + len ≤ c.1)) = n at h0
  induction cs generalizing n with
  | nil => exact h0
  | cons c r ih => exact ih _ (wf_writeByte _ h0 _ _)

/-- At reset no memory lists a byte. -/
theorem reset_memories : State.reset.mem = [] ∧ State.reset.hostMem = [] := ⟨rfl, rfl⟩

/-! Operations on states that write memory. -/

theorem wf_poke (s : State) (h : Memory.wf s.mem = true) (pa : Nat) (bs : List Byte) : Memory.wf (s.poke pa bs).mem = true :=
  wf_writeBytes _ _ _ h

theorem wf_state_overwrite (s : State) (h : Memory.wf s.mem = true) (pa : Nat) (bs : List Byte) :
    Memory.wf (s.overwrite pa bs).mem = true := wf_overwrite _ h _ _

theorem wf_putBuf (s : State) (h : Memory.wf s.mem = true) (a : Nat) (b : BufHead) : Memory.wf (s.putBuf a b).mem = true :=
  wf_writeBytes _ _ _ h

theorem wf_syncSpill (s : State) (h : Memory.wf s.mem = true) (core : Nat) : Memory.wf (s.syncSpill core).mem = true :=
  wf_foldl_writeBytes _ _ _ _ h

theorem wf_restore (s : State) (h : Memory.wf s.mem = true) (n i : Nat) (p : Spilled) : Memory.wf (s.restore n i p).mem = true :=
  wf_putCells _ h _ _ _

theorem wf_hostWord (s : State) (h : Memory.wf s.hostMem = true) (q i : Nat) (w : Word) :
    Memory.wf (s.hostWord q i w).hostMem = true := by
  unfold State.hostWord
  split
  · exact wf_writeBytes _ _ _ h
  · exact h

/-! Shared operations that leave memory alone. -/

@[simp] theorem countSent_mem (s : State) (i : Issuer) : (s.countSent i).mem = s.mem := by
  unfold State.countSent
  split <;> rfl

@[simp] theorem countSent_hostMem (s : State) (i : Issuer) : (s.countSent i).hostMem = s.hostMem := by
  unfold State.countSent
  split <;> rfl

@[simp] theorem numberOut_mem (s : State) (m : Msg) : (s.numberOut m).mem = s.mem := by
  unfold State.numberOut
  split <;> rfl

@[simp] theorem numberOut_hostMem (s : State) (m : Msg) : (s.numberOut m).hostMem = s.hostMem := by
  unfold State.numberOut
  split <;> rfl

@[simp] theorem send_mem (s : State) (m : Msg) : (s.send m).mem = s.mem := by
  unfold State.send
  dsimp only
  split <;> split <;> simp

@[simp] theorem send_hostMem (s : State) (m : Msg) : (s.send m).hostMem = s.hostMem := by
  unfold State.send
  dsimp only
  split <;> split <;> simp

@[simp] theorem onCmd_mem (s : State) (n : Nat) (f : Cmd → Cmd) : (s.onCmd n f).mem = s.mem := by
  unfold State.onCmd
  split <;> rfl

@[simp] theorem onTally_mem (s : State) (n c : Nat) (f : Tally → Tally) : (s.onTally n c f).mem = s.mem :=
  onCmd_mem _ _ _

/-- A change of a task's state is a change of one core. -/
theorem onTask_mem (s t : State) (i : TaskId) (f : Ctx → Ctx) (h : s.onTask i f = some t) : t.mem = s.mem := by
  unfold State.onTask at h
  dsimp only at h
  split at h
  · cases h
  · split at h
    · cases h; rfl
    · split at h
      · cases h; rfl
      · split at h
        · cases h
        · split at h
          · cases h
          · cases h; rfl

/-- A report changes no memory (R340). -/
@[simp] theorem report_mem (s : State) (i : Issuer) (cause colour : Nat) (tval : Word) :
    (s.report i cause colour tval).mem = s.mem := by
  unfold State.report
  dsimp only
  split
  · rfl
  · split
    · next h => exact (onTask_mem _ _ _ _ h).trans rfl
    · split
      · rfl
      · exact onTally_mem _ _ _ _

@[simp] theorem received_mem (s : State) (i : Issuer) : (s.received i).mem = s.mem := by
  unfold State.received
  split <;> rfl

end Sys2Proof.Machine
end

