-- ==== Sys2Proof/Laws/PerInstr.lean ====
section
/-! SUPPORT. The round trip of the encoding, constructor by constructor (R92-R104). -/

namespace Sys2Proof.Laws

set_option Elab.async false

/-- The word of a well-formed instruction decodes to it. -/
def RoundTrip.Statement (i : Instr) : Prop := ∀ w, encode i = some w → i.WellFormed → decodeWord w = .ok i

theorem RoundTrip.of_event {i : Instr} (h : encode i = none) : RoundTrip.Statement i := by
  intro w e
  rw [h] at e
  cases e

theorem RoundTrip.of_word {i : Instr} (h : Head) (maj : BitVec 6) (b : Sys2Proof.Body) (he : encode i = some (word h maj b))
    (hd : i.WellFormed → decodeMajor maj h b = .ok i) : RoundTrip.Statement i := by
  intro w e ok
  rw [he] at e
  cases e
  rw [decode_word, hd ok, checked_ok i ok]

theorem RoundTrip.nop h : Statement (.nop h) := by
  refine of_word h 0x00 _ rfl fun ok => ?_
  rfl
theorem RoundTrip.brk h c : Statement (.brk h c) := by
  refine of_word h 0x00 _ rfl fun ok => ?_
  show decMisc h _ = _
  simp [decMisc]
theorem RoundTrip.trap h c : Statement (.trap h c) := by
  refine of_word h 0x00 _ rfl fun ok => ?_
  show decMisc h _ = _
  simp [decMisc]
theorem RoundTrip.iret h : Statement (.iret h) := by
  refine of_word h 0x00 _ rfl fun ok => ?_
  rfl
theorem RoundTrip.yield h : Statement (.yield h) := by
  refine of_word h 0x00 _ rfl fun ok => ?_
  rfl
theorem RoundTrip.done h : Statement (.done h) := by
  refine of_word h 0x00 _ rfl fun ok => ?_
  rfl
theorem RoundTrip.setc h c : Statement (.setc h c) := by
  refine of_word h 0x00 _ rfl fun ok => ?_
  show decMisc h _ = _
  simp [decMisc]
theorem RoundTrip.add h d a b : Statement (.add h d a b) := by
  refine of_word h 0x01 _ rfl fun ok => ?_
  show decAlu h _ = _
  simp [decAlu]
theorem RoundTrip.sub h d a b : Statement (.sub h d a b) := by
  refine of_word h 0x01 _ rfl fun ok => ?_
  show decAlu h _ = _
  simp [decAlu]
theorem RoundTrip.and h d a b : Statement (.and h d a b) := by
  refine of_word h 0x01 _ rfl fun ok => ?_
  show decAlu h _ = _
  simp [decAlu]
theorem RoundTrip.or h d a b : Statement (.or h d a b) := by
  refine of_word h 0x01 _ rfl fun ok => ?_
  show decAlu h _ = _
  simp [decAlu]
theorem RoundTrip.xor h d a b : Statement (.xor h d a b) := by
  refine of_word h 0x01 _ rfl fun ok => ?_
  show decAlu h _ = _
  simp [decAlu]
theorem RoundTrip.andn h d a b : Statement (.andn h d a b) := by
  refine of_word h 0x01 _ rfl fun ok => ?_
  show decAlu h _ = _
  simp [decAlu]
theorem RoundTrip.orn h d a b : Statement (.orn h d a b) := by
  refine of_word h 0x01 _ rfl fun ok => ?_
  show decAlu h _ = _
  simp [decAlu]
theorem RoundTrip.sll h d a b : Statement (.sll h d a b) := by
  refine of_word h 0x01 _ rfl fun ok => ?_
  show decAlu h _ = _
  simp [decAlu]
theorem RoundTrip.srl h d a b : Statement (.srl h d a b) := by
  refine of_word h 0x01 _ rfl fun ok => ?_
  show decAlu h _ = _
  simp [decAlu]
theorem RoundTrip.sra h d a b : Statement (.sra h d a b) := by
  refine of_word h 0x01 _ rfl fun ok => ?_
  show decAlu h _ = _
  simp [decAlu]
theorem RoundTrip.ror h d a b : Statement (.ror h d a b) := by
  refine of_word h 0x01 _ rfl fun ok => ?_
  show decAlu h _ = _
  simp [decAlu]
theorem RoundTrip.slt h d a b : Statement (.slt h d a b) := by
  refine of_word h 0x01 _ rfl fun ok => ?_
  show decAlu h _ = _
  simp [decAlu]
theorem RoundTrip.sltu h d a b : Statement (.sltu h d a b) := by
  refine of_word h 0x01 _ rfl fun ok => ?_
  show decAlu h _ = _
  simp [decAlu]
theorem RoundTrip.seq h d a b : Statement (.seq h d a b) := by
  refine of_word h 0x01 _ rfl fun ok => ?_
  show decAlu h _ = _
  simp [decAlu]
theorem RoundTrip.sne h d a b : Statement (.sne h d a b) := by
  refine of_word h 0x01 _ rfl fun ok => ?_
  show decAlu h _ = _
  simp [decAlu]
theorem RoundTrip.min h d a b : Statement (.min h d a b) := by
  refine of_word h 0x01 _ rfl fun ok => ?_
  show decAlu h _ = _
  simp [decAlu]
theorem RoundTrip.max h d a b : Statement (.max h d a b) := by
  refine of_word h 0x01 _ rfl fun ok => ?_
  show decAlu h _ = _
  simp [decAlu]
theorem RoundTrip.minu h d a b : Statement (.minu h d a b) := by
  refine of_word h 0x01 _ rfl fun ok => ?_
  show decAlu h _ = _
  simp [decAlu]
theorem RoundTrip.maxu h d a b : Statement (.maxu h d a b) := by
  refine of_word h 0x01 _ rfl fun ok => ?_
  show decAlu h _ = _
  simp [decAlu]
theorem RoundTrip.sh1add h d a b : Statement (.sh1add h d a b) := by
  refine of_word h 0x01 _ rfl fun ok => ?_
  show decAlu h _ = _
  simp [decAlu]
theorem RoundTrip.sh2add h d a b : Statement (.sh2add h d a b) := by
  refine of_word h 0x01 _ rfl fun ok => ?_
  show decAlu h _ = _
  simp [decAlu]
theorem RoundTrip.sh3add h d a b : Statement (.sh3add h d a b) := by
  refine of_word h 0x01 _ rfl fun ok => ?_
  show decAlu h _ = _
  simp [decAlu]
theorem RoundTrip.clz h d a : Statement (.clz h d a) := by
  refine of_word h 0x01 _ rfl fun ok => ?_
  show decAlu h _ = _
  simp [decAlu]
theorem RoundTrip.ctz h d a : Statement (.ctz h d a) := by
  refine of_word h 0x01 _ rfl fun ok => ?_
  show decAlu h _ = _
  simp [decAlu]
theorem RoundTrip.popc h d a : Statement (.popc h d a) := by
  refine of_word h 0x01 _ rfl fun ok => ?_
  show decAlu h _ = _
  simp [decAlu]
theorem RoundTrip.sextb h d a : Statement (.sextb h d a) := by
  refine of_word h 0x01 _ rfl fun ok => ?_
  show decAlu h _ = _
  simp [decAlu]
theorem RoundTrip.sexth h d a : Statement (.sexth h d a) := by
  refine of_word h 0x01 _ rfl fun ok => ?_
  show decAlu h _ = _
  simp [decAlu]
theorem RoundTrip.sextw h d a : Statement (.sextw h d a) := by
  refine of_word h 0x01 _ rfl fun ok => ?_
  show decAlu h _ = _
  simp [decAlu]
theorem RoundTrip.zextb h d a : Statement (.zextb h d a) := by
  refine of_word h 0x01 _ rfl fun ok => ?_
  show decAlu h _ = _
  simp [decAlu]
theorem RoundTrip.zexth h d a : Statement (.zexth h d a) := by
  refine of_word h 0x01 _ rfl fun ok => ?_
  show decAlu h _ = _
  simp [decAlu]
theorem RoundTrip.zextw h d a : Statement (.zextw h d a) := by
  refine of_word h 0x01 _ rfl fun ok => ?_
  show decAlu h _ = _
  simp [decAlu]
theorem RoundTrip.rev8 h d a : Statement (.rev8 h d a) := by
  refine of_word h 0x01 _ rfl fun ok => ?_
  show decAlu h _ = _
  simp [decAlu]
theorem RoundTrip.mul h d a b : Statement (.mul h d a b) := by
  refine of_word h 0x02 _ rfl fun ok => ?_
  show decMulDiv h _ = _
  simp [decMulDiv]
theorem RoundTrip.mulh h d a b : Statement (.mulh h d a b) := by
  refine of_word h 0x02 _ rfl fun ok => ?_
  show decMulDiv h _ = _
  simp [decMulDiv]
theorem RoundTrip.mulhu h d a b : Statement (.mulhu h d a b) := by
  refine of_word h 0x02 _ rfl fun ok => ?_
  show decMulDiv h _ = _
  simp [decMulDiv]
theorem RoundTrip.mulhsu h d a b : Statement (.mulhsu h d a b) := by
  refine of_word h 0x02 _ rfl fun ok => ?_
  show decMulDiv h _ = _
  simp [decMulDiv]
theorem RoundTrip.div h d a b : Statement (.div h d a b) := by
  refine of_word h 0x02 _ rfl fun ok => ?_
  show decMulDiv h _ = _
  simp [decMulDiv]
theorem RoundTrip.divu h d a b : Statement (.divu h d a b) := by
  refine of_word h 0x02 _ rfl fun ok => ?_
  show decMulDiv h _ = _
  simp [decMulDiv]
theorem RoundTrip.rem h d a b : Statement (.rem h d a b) := by
  refine of_word h 0x02 _ rfl fun ok => ?_
  show decMulDiv h _ = _
  simp [decMulDiv]
theorem RoundTrip.remu h d a b : Statement (.remu h d a b) := by
  refine of_word h 0x02 _ rfl fun ok => ?_
  show decMulDiv h _ = _
  simp [decMulDiv]
theorem RoundTrip.addi h d a i : Statement (.addi h d a i) := by
  refine of_word h 0x03 _ rfl fun ok => ?_
  show Except.ok _ = _
  simp
theorem RoundTrip.andi h d a i : Statement (.andi h d a i) := by
  refine of_word h 0x04 _ rfl fun ok => ?_
  show Except.ok _ = _
  simp
theorem RoundTrip.ori h d a i : Statement (.ori h d a i) := by
  refine of_word h 0x05 _ rfl fun ok => ?_
  show Except.ok _ = _
  simp
theorem RoundTrip.xori h d a i : Statement (.xori h d a i) := by
  refine of_word h 0x06 _ rfl fun ok => ?_
  show Except.ok _ = _
  simp
theorem RoundTrip.slli h d a n : Statement (.slli h d a n) := by
  refine of_word h 0x07 _ rfl fun ok => ?_
  show decShi h _ = _
  simp only [decShi, imm12_bodyI, shift_op, shift_zero, shift_amount, rd_bodyI, rs1_bodyI]
  rfl
theorem RoundTrip.srli h d a n : Statement (.srli h d a n) := by
  refine of_word h 0x07 _ rfl fun ok => ?_
  show decShi h _ = _
  simp only [decShi, imm12_bodyI, shift_op, shift_zero, shift_amount, rd_bodyI, rs1_bodyI]
  rfl
theorem RoundTrip.srai h d a n : Statement (.srai h d a n) := by
  refine of_word h 0x07 _ rfl fun ok => ?_
  show decShi h _ = _
  simp only [decShi, imm12_bodyI, shift_op, shift_zero, shift_amount, rd_bodyI, rs1_bodyI]
  rfl
theorem RoundTrip.rori h d a n : Statement (.rori h d a n) := by
  refine of_word h 0x07 _ rfl fun ok => ?_
  show decShi h _ = _
  simp only [decShi, imm12_bodyI, shift_op, shift_zero, shift_amount, rd_bodyI, rs1_bodyI]
  rfl
theorem RoundTrip.slti h d a i : Statement (.slti h d a i) := by
  refine of_word h 0x08 _ rfl fun ok => ?_
  show Except.ok _ = _
  simp
theorem RoundTrip.sltiu h d a i : Statement (.sltiu h d a i) := by
  refine of_word h 0x09 _ rfl fun ok => ?_
  show Except.ok _ = _
  simp
theorem RoundTrip.lui h d i : Statement (.lui h d i) := by
  refine of_word h 0x0A _ rfl fun ok => ?_
  show Except.ok _ = _
  simp
theorem RoundTrip.lil h d i : Statement (.lil h d i) := by
  refine of_word h 0x0B _ rfl fun ok => ?_
  show Except.ok _ = _
  simp
theorem RoundTrip.lb h d a i : Statement (.lb h d a i) := by
  refine of_word h 0x0C _ rfl fun ok => ?_
  show Except.ok _ = _
  simp
theorem RoundTrip.lh h d a i : Statement (.lh h d a i) := by
  refine of_word h 0x0D _ rfl fun ok => ?_
  show Except.ok _ = _
  simp
theorem RoundTrip.lw h d a i : Statement (.lw h d a i) := by
  refine of_word h 0x0E _ rfl fun ok => ?_
  show Except.ok _ = _
  simp
theorem RoundTrip.ld h d a i : Statement (.ld h d a i) := by
  refine of_word h 0x0F _ rfl fun ok => ?_
  show Except.ok _ = _
  simp
theorem RoundTrip.lbu h d a i : Statement (.lbu h d a i) := by
  refine of_word h 0x10 _ rfl fun ok => ?_
  show Except.ok _ = _
  simp
theorem RoundTrip.lhu h d a i : Statement (.lhu h d a i) := by
  refine of_word h 0x11 _ rfl fun ok => ?_
  show Except.ok _ = _
  simp
theorem RoundTrip.lwu h d a i : Statement (.lwu h d a i) := by
  refine of_word h 0x12 _ rfl fun ok => ?_
  show Except.ok _ = _
  simp
theorem RoundTrip.sb h d a i : Statement (.sb h d a i) := by
  refine of_word h 0x13 _ rfl fun ok => ?_
  show Except.ok _ = _
  simp
theorem RoundTrip.sh h d a i : Statement (.sh h d a i) := by
  refine of_word h 0x14 _ rfl fun ok => ?_
  show Except.ok _ = _
  simp
theorem RoundTrip.sw h d a i : Statement (.sw h d a i) := by
  refine of_word h 0x15 _ rfl fun ok => ?_
  show Except.ok _ = _
  simp
theorem RoundTrip.sd h d a i : Statement (.sd h d a i) := by
  refine of_word h 0x16 _ rfl fun ok => ?_
  show Except.ok _ = _
  simp
theorem RoundTrip.vld h d a i : Statement (.vld h d a i) := by
  refine of_word h 0x17 _ rfl fun ok => ?_
  show Except.ok _ = _
  simp
theorem RoundTrip.vst h d a i : Statement (.vst h d a i) := by
  refine of_word h 0x18 _ rfl fun ok => ?_
  show Except.ok _ = _
  simp
theorem RoundTrip.vldx h d a b k w : Statement (.vldx h d a b k w) := by
  refine of_word h 0x19 _ rfl fun ok => ?_
  show decVmx h _ = _
  simp [decVmx]
theorem RoundTrip.vstx h d a b k w : Statement (.vstx h d a b k w) := by
  refine of_word h 0x19 _ rfl fun ok => ?_
  show decVmx h _ = _
  simp [decVmx]
theorem RoundTrip.vlds h d a b k w : Statement (.vlds h d a b k w) := by
  refine of_word h 0x19 _ rfl fun ok => ?_
  show decVmx h _ = _
  simp [decVmx]
theorem RoundTrip.vsts h d a b k w : Statement (.vsts h d a b k w) := by
  refine of_word h 0x19 _ rfl fun ok => ?_
  show decVmx h _ = _
  simp [decVmx]
theorem RoundTrip.get h d a i : Statement (.get h d a i) := by
  refine of_word h 0x1A _ rfl fun ok => ?_
  show Except.ok _ = _
  simp
theorem RoundTrip.thr h d a b n : Statement (.thr h d a b n) := by
  refine of_word h 0x1B _ rfl fun ok => ?_
  show zero _ _ = _
  simp
theorem RoundTrip.bolt h a b : Statement (.bolt h a b) := by
  refine of_word h 0x1C _ rfl fun ok => ?_
  show decLatc h _ = _
  simp [decLatc]
theorem RoundTrip.clear h a b : Statement (.clear h a b) := by
  refine of_word h 0x1C _ rfl fun ok => ?_
  show decLatc h _ = _
  simp [decLatc]
theorem RoundTrip.brel h a : Statement (.brel h a) := by
  refine of_word h 0x1C _ rfl fun ok => ?_
  show decLatc h _ = _
  simp [decLatc]
theorem RoundTrip.ctype h d a : Statement (.ctype h d a) := by
  refine of_word h 0x1C _ rfl fun ok => ?_
  show decLatc h _ = _
  simp [decLatc]
theorem RoundTrip.bdecl h a b : Statement (.bdecl h a b) := by
  refine of_word h 0x1C _ rfl fun ok => ?_
  show decLatc h _ = _
  simp [decLatc]
theorem RoundTrip.fence h m : Statement (.fence h m) := by
  refine of_word h 0x1D _ rfl fun ok => ?_
  show decFence h _ = _
  simp [decFence]
theorem RoundTrip.fenceSys h m : Statement (.fenceSys h m) := by
  refine of_word h 0x1D _ rfl fun ok => ?_
  show decFence h _ = _
  simp [decFence]
theorem RoundTrip.beq h a b o : Statement (.beq h a b o) := by
  refine of_word h 0x1E _ rfl fun ok => ?_
  show Except.ok _ = _
  simp
theorem RoundTrip.bne h a b o : Statement (.bne h a b o) := by
  refine of_word h 0x1F _ rfl fun ok => ?_
  show Except.ok _ = _
  simp
theorem RoundTrip.blt h a b o : Statement (.blt h a b o) := by
  refine of_word h 0x20 _ rfl fun ok => ?_
  show Except.ok _ = _
  simp
theorem RoundTrip.bge h a b o : Statement (.bge h a b o) := by
  refine of_word h 0x21 _ rfl fun ok => ?_
  show Except.ok _ = _
  simp
theorem RoundTrip.bltu h a b o : Statement (.bltu h a b o) := by
  refine of_word h 0x22 _ rfl fun ok => ?_
  show Except.ok _ = _
  simp
theorem RoundTrip.bgeu h a b o : Statement (.bgeu h a b o) := by
  refine of_word h 0x23 _ rfl fun ok => ?_
  show Except.ok _ = _
  simp
theorem RoundTrip.brp h p t o : Statement (.brp h p t o) := by
  refine of_word h 0x24 _ rfl fun ok => ?_
  simp [decodeMajor]
theorem RoundTrip.j h o : Statement (.j h o) := by
  refine of_word h 0x25 _ rfl fun ok => ?_
  rfl
theorem RoundTrip.jal h o : Statement (.jal h o) := by
  refine of_word h 0x26 _ rfl fun ok => ?_
  rfl
theorem RoundTrip.jalr h d a i : Statement (.jalr h d a i) := by
  refine of_word h 0x27 _ rfl fun ok => ?_
  show Except.ok _ = _
  simp
theorem RoundTrip.loop h l a n : Statement (.loop h l a n) := by
  refine of_word h 0x28 _ rfl fun ok => ?_
  show zero _ _ = _
  simp
theorem RoundTrip.loopi h l c n : Statement (.loopi h l c n) := by
  refine of_word h 0x29 _ rfl fun ok => ?_
  show Except.ok _ = _
  simp
theorem RoundTrip.peq h d a b : Statement (.peq h d a b) := by
  refine of_word h 0x2A _ rfl fun ok => ?_
  show decPred h _ = _
  simp [decPred]
theorem RoundTrip.pne h d a b : Statement (.pne h d a b) := by
  refine of_word h 0x2A _ rfl fun ok => ?_
  show decPred h _ = _
  simp [decPred]
theorem RoundTrip.plt h d a b : Statement (.plt h d a b) := by
  refine of_word h 0x2A _ rfl fun ok => ?_
  show decPred h _ = _
  simp [decPred]
theorem RoundTrip.pge h d a b : Statement (.pge h d a b) := by
  refine of_word h 0x2A _ rfl fun ok => ?_
  show decPred h _ = _
  simp [decPred]
theorem RoundTrip.pltu h d a b : Statement (.pltu h d a b) := by
  refine of_word h 0x2A _ rfl fun ok => ?_
  show decPred h _ = _
  simp [decPred]
theorem RoundTrip.pgeu h d a b : Statement (.pgeu h d a b) := by
  refine of_word h 0x2A _ rfl fun ok => ?_
  show decPred h _ = _
  simp [decPred]
theorem RoundTrip.pand h d a b : Statement (.pand h d a b) := by
  refine of_word h 0x2A _ rfl fun ok => ?_
  show decPred h _ = _
  simp [decPred]
theorem RoundTrip.por h d a b : Statement (.por h d a b) := by
  refine of_word h 0x2A _ rfl fun ok => ?_
  show decPred h _ = _
  simp [decPred]
theorem RoundTrip.pxor h d a b : Statement (.pxor h d a b) := by
  refine of_word h 0x2A _ rfl fun ok => ?_
  show decPred h _ = _
  simp [decPred]
theorem RoundTrip.pnot h d a : Statement (.pnot h d a) := by
  refine of_word h 0x2A _ rfl fun ok => ?_
  show decPred h _ = _
  simp [decPred]
theorem RoundTrip.pmovx h d a : Statement (.pmovx h d a) := by
  refine of_word h 0x2A _ rfl fun ok => ?_
  show decPred h _ = _
  simp [decPred]
theorem RoundTrip.movpx h d a : Statement (.movpx h d a) := by
  refine of_word h 0x2A _ rfl fun ok => ?_
  show decPred h _ = _
  simp [decPred]
theorem RoundTrip.spawn h a : Statement (.spawn h a) := by
  refine of_word h 0x2B _ rfl fun ok => ?_
  show decTask h _ = _
  simp [decTask]
theorem RoundTrip.spawnat h a : Statement (.spawnat h a) := by
  refine of_word h 0x2B _ rfl fun ok => ?_
  show decTask h _ = _
  simp [decTask]
theorem RoundTrip.join h a b : Statement (.join h a b) := by
  refine of_word h 0x2B _ rfl fun ok => ?_
  show decTask h _ = _
  simp [decTask]
theorem RoundTrip.cancel h a : Statement (.cancel h a) := by
  refine of_word h 0x2B _ rfl fun ok => ?_
  show decTask h _ = _
  simp [decTask]
theorem RoundTrip.bar h a : Statement (.bar h a) := by
  refine of_word h 0x2B _ rfl fun ok => ?_
  show decTask h _ = _
  simp [decTask]
theorem RoundTrip.bara h a : Statement (.bara h a) := by
  refine of_word h 0x2B _ rfl fun ok => ?_
  show decTask h _ = _
  simp [decTask]
theorem RoundTrip.barw h a : Statement (.barw h a) := by
  refine of_word h 0x2B _ rfl fun ok => ?_
  show decTask h _ = _
  simp [decTask]
theorem RoundTrip.chbind h n a b : Statement (.chbind h n a b) := by
  refine of_word h 0x2B _ rfl fun ok => ?_
  show decTask h _ = _
  simp [decTask]
theorem RoundTrip.fork h e o : Statement (.fork h e o) := by
  refine of_word h 0x2C _ rfl fun ok => ?_
  show Except.ok _ = _
  simp
theorem RoundTrip.hcall h d a e n w : Statement (.hcall h d a e n w) := by
  refine of_word h 0x2D _ rfl fun ok => ?_
  show Except.ok _ = _
  simp
theorem RoundTrip.hret h a : Statement (.hret h a) := by
  refine of_word h 0x2E _ rfl fun ok => ?_
  show decHmsg h _ = _
  simp [decHmsg]
theorem RoundTrip.send h a b : Statement (.send h a b) := by
  refine of_word h 0x2E _ rfl fun ok => ?_
  show decHmsg h _ = _
  simp [decHmsg]
theorem RoundTrip.mfs h d i : Statement (.mfs h d i) := by
  refine of_word h 0x2F _ rfl fun ok => ?_
  show zero _ _ = _
  simp
theorem RoundTrip.mts h a i : Statement (.mts h a i) := by
  refine of_word h 0x30 _ rfl fun ok => ?_
  show zero _ _ = _
  simp
theorem RoundTrip.rep h n i d a b : Statement (.rep h n i d a b) := by
  refine of_word h 0x31 _ rfl fun ok => ?_
  show zero _ _ = _
  simp
theorem RoundTrip.fmt a b d r t c x : Statement (.fmt a b d r t c x) := by
  refine of_word Head.plain 0x32 _ rfl fun ok => ?_
  show zero _ _ = _
  simp [Head.plain, unmarked, zero]
theorem RoundTrip.qwr h q a : Statement (.qwr h q a) := by
  refine of_word h 0x33 _ rfl fun ok => ?_
  show decQue h _ = _
  simp [decQue]
theorem RoundTrip.qrd h d q : Statement (.qrd h d q) := by
  refine of_word h 0x33 _ rfl fun ok => ?_
  show decQue h _ = _
  simp [decQue]
theorem RoundTrip.qwrv h q a : Statement (.qwrv h q a) := by
  refine of_word h 0x33 _ rfl fun ok => ?_
  show decQue h _ = _
  simp [decQue]
theorem RoundTrip.qrdv h d q : Statement (.qrdv h d q) := by
  refine of_word h 0x33 _ rfl fun ok => ?_
  show decQue h _ = _
  simp [decQue]
theorem RoundTrip.qcnt h d q : Statement (.qcnt h d q) := by
  refine of_word h 0x33 _ rfl fun ok => ?_
  show decQue h _ = _
  simp [decQue]
theorem RoundTrip.vadd h d a b k : Statement (.vadd h d a b k) := by
  refine of_word h 0x34 _ rfl fun ok => ?_
  show decVfa h _ = _
  simp [decVfa]
theorem RoundTrip.vsub h d a b k : Statement (.vsub h d a b k) := by
  refine of_word h 0x34 _ rfl fun ok => ?_
  show decVfa h _ = _
  simp [decVfa]
theorem RoundTrip.vmul h d a b k : Statement (.vmul h d a b k) := by
  refine of_word h 0x34 _ rfl fun ok => ?_
  show decVfa h _ = _
  simp [decVfa]
theorem RoundTrip.vfma h d a b k : Statement (.vfma h d a b k) := by
  refine of_word h 0x34 _ rfl fun ok => ?_
  show decVfa h _ = _
  simp [decVfa]
theorem RoundTrip.vfms h d a b k : Statement (.vfms h d a b k) := by
  refine of_word h 0x34 _ rfl fun ok => ?_
  show decVfa h _ = _
  simp [decVfa]
theorem RoundTrip.vfnma h d a b k : Statement (.vfnma h d a b k) := by
  refine of_word h 0x34 _ rfl fun ok => ?_
  show decVfa h _ = _
  simp [decVfa]
theorem RoundTrip.vmin h d a b k : Statement (.vmin h d a b k) := by
  refine of_word h 0x34 _ rfl fun ok => ?_
  show decVfa h _ = _
  simp [decVfa]
theorem RoundTrip.vmax h d a b k : Statement (.vmax h d a b k) := by
  refine of_word h 0x34 _ rfl fun ok => ?_
  show decVfa h _ = _
  simp [decVfa]
theorem RoundTrip.vabs h d a k : Statement (.vabs h d a k) := by
  refine of_word h 0x34 _ rfl fun ok => ?_
  show decVfa h _ = _
  simp [decVfa]
theorem RoundTrip.vneg h d a k : Statement (.vneg h d a k) := by
  refine of_word h 0x34 _ rfl fun ok => ?_
  show decVfa h _ = _
  simp [decVfa]
theorem RoundTrip.vdiv h d a b k : Statement (.vdiv h d a b k) := by
  refine of_word h 0x34 _ rfl fun ok => ?_
  show decVfa h _ = _
  simp [decVfa]
theorem RoundTrip.vsqrt h d a k : Statement (.vsqrt h d a k) := by
  refine of_word h 0x34 _ rfl fun ok => ?_
  show decVfa h _ = _
  simp [decVfa]
theorem RoundTrip.vrcp h d a k : Statement (.vrcp h d a k) := by
  refine of_word h 0x34 _ rfl fun ok => ?_
  show decVfa h _ = _
  simp [decVfa]
theorem RoundTrip.vrsq h d a k : Statement (.vrsq h d a k) := by
  refine of_word h 0x34 _ rfl fun ok => ?_
  show decVfa h _ = _
  simp [decVfa]
theorem RoundTrip.vexp2 h d a k : Statement (.vexp2 h d a k) := by
  refine of_word h 0x34 _ rfl fun ok => ?_
  show decVfa h _ = _
  simp [decVfa]
theorem RoundTrip.vlog2 h d a k : Statement (.vlog2 h d a k) := by
  refine of_word h 0x34 _ rfl fun ok => ?_
  show decVfa h _ = _
  simp [decVfa]
theorem RoundTrip.viadd h d a b k : Statement (.viadd h d a b k) := by
  refine of_word h 0x35 _ rfl fun ok => ?_
  show decVia h _ = _
  simp [decVia]
theorem RoundTrip.visub h d a b k : Statement (.visub h d a b k) := by
  refine of_word h 0x35 _ rfl fun ok => ?_
  show decVia h _ = _
  simp [decVia]
theorem RoundTrip.vimul h d a b k : Statement (.vimul h d a b k) := by
  refine of_word h 0x35 _ rfl fun ok => ?_
  show decVia h _ = _
  simp [decVia]
theorem RoundTrip.vimin h d a b k : Statement (.vimin h d a b k) := by
  refine of_word h 0x35 _ rfl fun ok => ?_
  show decVia h _ = _
  simp [decVia]
theorem RoundTrip.vimax h d a b k : Statement (.vimax h d a b k) := by
  refine of_word h 0x35 _ rfl fun ok => ?_
  show decVia h _ = _
  simp [decVia]
theorem RoundTrip.viminu h d a b k : Statement (.viminu h d a b k) := by
  refine of_word h 0x35 _ rfl fun ok => ?_
  show decVia h _ = _
  simp [decVia]
theorem RoundTrip.vimaxu h d a b k : Statement (.vimaxu h d a b k) := by
  refine of_word h 0x35 _ rfl fun ok => ?_
  show decVia h _ = _
  simp [decVia]
theorem RoundTrip.vand h d a b k : Statement (.vand h d a b k) := by
  refine of_word h 0x35 _ rfl fun ok => ?_
  show decVia h _ = _
  simp [decVia]
theorem RoundTrip.vor h d a b k : Statement (.vor h d a b k) := by
  refine of_word h 0x35 _ rfl fun ok => ?_
  show decVia h _ = _
  simp [decVia]
theorem RoundTrip.vxor h d a b k : Statement (.vxor h d a b k) := by
  refine of_word h 0x35 _ rfl fun ok => ?_
  show decVia h _ = _
  simp [decVia]
theorem RoundTrip.vsll h d a b k : Statement (.vsll h d a b k) := by
  refine of_word h 0x35 _ rfl fun ok => ?_
  show decVia h _ = _
  simp [decVia]
theorem RoundTrip.vsrl h d a b k : Statement (.vsrl h d a b k) := by
  refine of_word h 0x35 _ rfl fun ok => ?_
  show decVia h _ = _
  simp [decVia]
theorem RoundTrip.vsra h d a b k : Statement (.vsra h d a b k) := by
  refine of_word h 0x35 _ rfl fun ok => ?_
  show decVia h _ = _
  simp [decVia]
theorem RoundTrip.viabs h d a k : Statement (.viabs h d a k) := by
  refine of_word h 0x35 _ rfl fun ok => ?_
  show decVia h _ = _
  simp [decVia]
theorem RoundTrip.vsadd h d a b k : Statement (.vsadd h d a b k) := by
  refine of_word h 0x35 _ rfl fun ok => ?_
  show decVia h _ = _
  simp [decVia]
theorem RoundTrip.vdot4 h d a b k : Statement (.vdot4 h d a b k) := by
  refine of_word h 0x35 _ rfl fun ok => ?_
  show decVia h _ = _
  simp [decVia]
theorem RoundTrip.vceq h d a b k : Statement (.vceq h d a b k) := by
  refine of_word h 0x36 _ rfl fun ok => ?_
  show decVcmp h _ = _
  simp [decVcmp]
theorem RoundTrip.vcne h d a b k : Statement (.vcne h d a b k) := by
  refine of_word h 0x36 _ rfl fun ok => ?_
  show decVcmp h _ = _
  simp [decVcmp]
theorem RoundTrip.vclt h d a b k : Statement (.vclt h d a b k) := by
  refine of_word h 0x36 _ rfl fun ok => ?_
  show decVcmp h _ = _
  simp [decVcmp]
theorem RoundTrip.vcle h d a b k : Statement (.vcle h d a b k) := by
  refine of_word h 0x36 _ rfl fun ok => ?_
  show decVcmp h _ = _
  simp [decVcmp]
theorem RoundTrip.vcltu h d a b k : Statement (.vcltu h d a b k) := by
  refine of_word h 0x36 _ rfl fun ok => ?_
  show decVcmp h _ = _
  simp [decVcmp]
theorem RoundTrip.vcleu h d a b k : Statement (.vcleu h d a b k) := by
  refine of_word h 0x36 _ rfl fun ok => ?_
  show decVcmp h _ = _
  simp [decVcmp]
theorem RoundTrip.vfeq h d a b k : Statement (.vfeq h d a b k) := by
  refine of_word h 0x36 _ rfl fun ok => ?_
  show decVcmp h _ = _
  simp [decVcmp]
theorem RoundTrip.vfne h d a b k : Statement (.vfne h d a b k) := by
  refine of_word h 0x36 _ rfl fun ok => ?_
  show decVcmp h _ = _
  simp [decVcmp]
theorem RoundTrip.vflt h d a b k : Statement (.vflt h d a b k) := by
  refine of_word h 0x36 _ rfl fun ok => ?_
  show decVcmp h _ = _
  simp [decVcmp]
theorem RoundTrip.vfle h d a b k : Statement (.vfle h d a b k) := by
  refine of_word h 0x36 _ rfl fun ok => ?_
  show decVcmp h _ = _
  simp [decVcmp]
theorem RoundTrip.vbcast h d a k : Statement (.vbcast h d a k) := by
  refine of_word h 0x37 _ rfl fun ok => ?_
  show decVperm h _ = _
  simp [decVperm]
theorem RoundTrip.vsel h d a b k : Statement (.vsel h d a b k) := by
  refine of_word h 0x37 _ rfl fun ok => ?_
  show decVperm h _ = _
  simp [decVperm]
theorem RoundTrip.vshuf h d a b k : Statement (.vshuf h d a b k) := by
  refine of_word h 0x37 _ rfl fun ok => ?_
  show decVperm h _ = _
  simp [decVperm]
theorem RoundTrip.vsldn h d a b k : Statement (.vsldn h d a b k) := by
  refine of_word h 0x37 _ rfl fun ok => ?_
  show decVperm h _ = _
  simp [decVperm]
theorem RoundTrip.vslup h d a b k : Statement (.vslup h d a b k) := by
  refine of_word h 0x37 _ rfl fun ok => ?_
  show decVperm h _ = _
  simp [decVperm]
theorem RoundTrip.vext h d a b : Statement (.vext h d a b) := by
  refine of_word h 0x37 _ rfl fun ok => ?_
  show decVperm h _ = _
  simp [decVperm]
theorem RoundTrip.vins h d a b k : Statement (.vins h d a b k) := by
  refine of_word h 0x37 _ rfl fun ok => ?_
  show decVperm h _ = _
  simp [decVperm]
theorem RoundTrip.vzip h d a b k : Statement (.vzip h d a b k) := by
  refine of_word h 0x37 _ rfl fun ok => ?_
  show decVperm h _ = _
  simp [decVperm]
theorem RoundTrip.vunzip h d a b k : Statement (.vunzip h d a b k) := by
  refine of_word h 0x37 _ rfl fun ok => ?_
  show decVperm h _ = _
  simp [decVperm]
theorem RoundTrip.vrev h d a k : Statement (.vrev h d a k) := by
  refine of_word h 0x37 _ rfl fun ok => ?_
  show decVperm h _ = _
  simp [decVperm]
theorem RoundTrip.vcvt h d a k t : Statement (.vcvt h d a k t) := by
  refine of_word h 0x38 _ rfl fun ok => ?_
  show zero _ _ = _
  simp
theorem RoundTrip.vrsum h d a k : Statement (.vrsum h d a k) := by
  refine of_word h 0x39 _ rfl fun ok => ?_
  show decVred h _ = _
  simp [decVred]
theorem RoundTrip.vrmax h d a k : Statement (.vrmax h d a k) := by
  refine of_word h 0x39 _ rfl fun ok => ?_
  show decVred h _ = _
  simp [decVred]
theorem RoundTrip.vrmin h d a k : Statement (.vrmin h d a k) := by
  refine of_word h 0x39 _ rfl fun ok => ?_
  show decVred h _ = _
  simp [decVred]
theorem RoundTrip.vror h d a k : Statement (.vror h d a k) := by
  refine of_word h 0x39 _ rfl fun ok => ?_
  show decVred h _ = _
  simp [decVred]
theorem RoundTrip.vrand h d a k : Statement (.vrand h d a k) := by
  refine of_word h 0x39 _ rfl fun ok => ?_
  show decVred h _ = _
  simp [decVred]
theorem RoundTrip.vrisum h d a k : Statement (.vrisum h d a k) := by
  refine of_word h 0x39 _ rfl fun ok => ?_
  show decVred h _ = _
  simp [decVred]
theorem RoundTrip.kand h d a b : Statement (.kand h d a b) := by
  refine of_word h 0x3A _ rfl fun ok => ?_
  show decKop h _ = _
  simp [decKop]
theorem RoundTrip.kor h d a b : Statement (.kor h d a b) := by
  refine of_word h 0x3A _ rfl fun ok => ?_
  show decKop h _ = _
  simp [decKop]
theorem RoundTrip.kxor h d a b : Statement (.kxor h d a b) := by
  refine of_word h 0x3A _ rfl fun ok => ?_
  show decKop h _ = _
  simp [decKop]
theorem RoundTrip.knot h d a : Statement (.knot h d a) := by
  refine of_word h 0x3A _ rfl fun ok => ?_
  show decKop h _ = _
  simp [decKop]
theorem RoundTrip.kmovx h d a : Statement (.kmovx h d a) := by
  refine of_word h 0x3A _ rfl fun ok => ?_
  show decKop h _ = _
  simp [decKop]
theorem RoundTrip.xmovk h d a : Statement (.xmovk h d a) := by
  refine of_word h 0x3A _ rfl fun ok => ?_
  show decKop h _ = _
  simp [decKop]
theorem RoundTrip.kpopc h d a : Statement (.kpopc h d a) := by
  refine of_word h 0x3A _ rfl fun ok => ?_
  show decKop h _ = _
  simp [decKop]
theorem RoundTrip.kfirst h d a : Statement (.kfirst h d a) := by
  refine of_word h 0x3A _ rfl fun ok => ?_
  show decKop h _ = _
  simp [decKop]
theorem RoundTrip.gzero h d : Statement (.gzero h d) := by
  refine of_word h 0x3B _ rfl fun ok => ?_
  show decGbp h _ = _
  simp [decGbp]
theorem RoundTrip.gacc h d a k : Statement (.gacc h d a k) := by
  refine of_word h 0x3B _ rfl fun ok => ?_
  show decGbp h _ = _
  simp [decGbp]
theorem RoundTrip.gadd h d a : Statement (.gadd h d a) := by
  refine of_word h 0x3B _ rfl fun ok => ?_
  show decGbp h _ = _
  simp [decGbp]
theorem RoundTrip.gsub h d a : Statement (.gsub h d a) := by
  refine of_word h 0x3B _ rfl fun ok => ?_
  show decGbp h _ = _
  simp [decGbp]
theorem RoundTrip.gsch h d a k : Statement (.gsch h d a k) := by
  refine of_word h 0x3B _ rfl fun ok => ?_
  show decGbp h _ = _
  simp [decGbp]
theorem RoundTrip.gdmp h d a b : Statement (.gdmp h d a b) := by
  refine of_word h 0x3B _ rfl fun ok => ?_
  show decGbp h _ = _
  simp [decGbp]
theorem RoundTrip.gmean h d a k : Statement (.gmean h d a k) := by
  refine of_word h 0x3B _ rfl fun ok => ?_
  show decGbp h _ = _
  simp [decGbp]
theorem RoundTrip.gsnd h d a : Statement (.gsnd h d a) := by
  refine of_word h 0x3B _ rfl fun ok => ?_
  show decGbp h _ = _
  simp [decGbp]
theorem RoundTrip.grcv h d a : Statement (.grcv h d a) := by
  refine of_word h 0x3B _ rfl fun ok => ?_
  show decGbp h _ = _
  simp [decGbp]
theorem RoundTrip.akey h : Statement (.akey h) := by
  refine of_word h 0x3C _ rfl fun ok => ?_
  rfl
theorem RoundTrip.arel h : Statement (.arel h) := by
  refine of_word h 0x3C _ rfl fun ok => ?_
  rfl
theorem RoundTrip.mma h a : Statement (.mma h a) := by
  refine of_word h 0x3C _ rfl fun ok => ?_
  show decMtx h _ = _
  simp [decMtx]
theorem RoundTrip.mgang h a b : Statement (.mgang h a b) := by
  refine of_word h 0x3C _ rfl fun ok => ?_
  show decMtx h _ = _
  simp [decMtx]
theorem RoundTrip.mres h : Statement (.mres h) := by
  refine of_word h 0x3C _ rfl fun ok => ?_
  rfl
theorem RoundTrip.mzero h : Statement (.mzero h) := by
  refine of_word h 0x3C _ rfl fun ok => ?_
  rfl
theorem RoundTrip.rrow h : Statement (.rrow h) := by
  refine of_word h 0x3C _ rfl fun ok => ?_
  rfl
theorem RoundTrip.rdrop h : Statement (.rdrop h) := by
  refine of_word h 0x3C _ rfl fun ok => ?_
  rfl
theorem RoundTrip.mstat h d : Statement (.mstat h d) := by
  refine of_word h 0x3C _ rfl fun ok => ?_
  show decMtx h _ = _
  simp [decMtx]
theorem RoundTrip.nbcfg h a b : Statement (.nbcfg h a b) := by
  refine of_word h 0x3D _ rfl fun ok => ?_
  show decNb h _ = _
  simp [decNb]
theorem RoundTrip.nbrun h a : Statement (.nbrun h a) := by
  refine of_word h 0x3D _ rfl fun ok => ?_
  show decNb h _ = _
  simp [decNb]
theorem RoundTrip.nbget h d a : Statement (.nbget h d a) := by
  refine of_word h 0x3D _ rfl fun ok => ?_
  show decNb h _ = _
  simp [decNb]
theorem RoundTrip.nbrel h a : Statement (.nbrel h a) := by
  refine of_word h 0x3D _ rfl fun ok => ?_
  show decNb h _ = _
  simp [decNb]
theorem RoundTrip.cpy h a : Statement (.cpy h a) := by
  refine of_word h 0x3E _ rfl fun ok => ?_
  show decCpy h _ = _
  simp [decCpy]
theorem RoundTrip.cpyx h a : Statement (.cpyx h a) := by
  refine of_word h 0x3E _ rfl fun ok => ?_
  show decCpy h _ = _
  simp [decCpy]
theorem RoundTrip.cstat h d : Statement (.cstat h d) := by
  refine of_word h 0x3E _ rfl fun ok => ?_
  show decCpy h _ = _
  simp [decCpy]
theorem RoundTrip.taskFailure a0 a1 : Statement (.taskFailure a0 a1) := of_event rfl
theorem RoundTrip.kick a0 a1 : Statement (.kick a0 a1) := of_event rfl
theorem RoundTrip.qtab a0 a1 : Statement (.qtab a0 a1) := of_event rfl
theorem RoundTrip.qcreate a0 : Statement (.qcreate a0) := of_event rfl
theorem RoundTrip.slots a0 a1 : Statement (.slots a0 a1) := of_event rfl
theorem RoundTrip.ccreate a0 a1 : Statement (.ccreate a0 a1) := of_event rfl
theorem RoundTrip.info : Statement (.info) := of_event rfl
theorem RoundTrip.sample a0 a1 a2 : Statement (.sample a0 a1 a2) := of_event rfl
theorem RoundTrip.replay a0 a1 a2 a3 : Statement (.replay a0 a1 a2 a3) := of_event rfl
theorem RoundTrip.twin a0 a1 : Statement (.twin a0 a1) := of_event rfl
theorem RoundTrip.chknow a0 a1 : Statement (.chknow a0 a1) := of_event rfl
theorem RoundTrip.mboxlim a0 a1 : Statement (.mboxlim a0 a1) := of_event rfl
theorem RoundTrip.bar2WindowBase a0 : Statement (.bar2WindowBase a0) := of_event rfl
theorem RoundTrip.bar2Read a0 a1 : Statement (.bar2Read a0 a1) := of_event rfl
theorem RoundTrip.bar2Write a0 a1 : Statement (.bar2Write a0 a1) := of_event rfl
theorem RoundTrip.registerWrite a0 a1 : Statement (.registerWrite a0 a1) := of_event rfl
theorem RoundTrip.firmwareStart a0 a1 : Statement (.firmwareStart a0 a1) := of_event rfl
theorem RoundTrip.launch a0 : Statement (.launch a0) := of_event rfl
theorem RoundTrip.gang a0 : Statement (.gang a0) := of_event rfl
theorem RoundTrip.copyh a0 : Statement (.copyh a0) := of_event rfl
theorem RoundTrip.boltPacket a0 : Statement (.boltPacket a0) := of_event rfl
theorem RoundTrip.clearPacket a0 : Statement (.clearPacket a0) := of_event rfl
theorem RoundTrip.fencePacket a0 : Statement (.fencePacket a0) := of_event rfl
theorem RoundTrip.signal a0 : Statement (.signal a0) := of_event rfl
theorem RoundTrip.destroy a0 : Statement (.destroy a0) := of_event rfl
theorem RoundTrip.chkpt a0 : Statement (.chkpt a0) := of_event rfl
theorem RoundTrip.ib a0 : Statement (.ib a0) := of_event rfl
theorem RoundTrip.packetComplete a0 : Statement (.packetComplete a0) := of_event rfl
theorem RoundTrip.ageingBoundary : Statement (.ageingBoundary) := of_event rfl
theorem RoundTrip.energySample a0 : Statement (.energySample a0) := of_event rfl
theorem RoundTrip.periodBoundary a0 : Statement (.periodBoundary a0) := of_event rfl
theorem RoundTrip.arm a0 a1 a2 : Statement (.arm a0 a1 a2) := of_event rfl
theorem RoundTrip.gangDecide a0 : Statement (.gangDecide a0) := of_event rfl
theorem RoundTrip.gangDecision a0 a1 : Statement (.gangDecision a0 a1) := of_event rfl
theorem RoundTrip.gangStart a0 : Statement (.gangStart a0) := of_event rfl
theorem RoundTrip.terminationWave a0 : Statement (.terminationWave a0) := of_event rfl
theorem RoundTrip.gangWaveResult a0 a1 a2 a3 a4 : Statement (.gangWaveResult a0 a1 a2 a3 a4) := of_event rfl
theorem RoundTrip.gangFenceReport a0 a1 a2 a3 a4 : Statement (.gangFenceReport a0 a1 a2 a3 a4) := of_event rfl
theorem RoundTrip.taskStart a0 : Statement (.taskStart a0) := of_event rfl
theorem RoundTrip.taskRetire a0 a1 : Statement (.taskRetire a0 a1) := of_event rfl
theorem RoundTrip.stealRequest a0 : Statement (.stealRequest a0) := of_event rfl
theorem RoundTrip.stolenRecord a0 : Statement (.stolenRecord a0) := of_event rfl
theorem RoundTrip.stealRefusal a0 : Statement (.stealRefusal a0) := of_event rfl
theorem RoundTrip.stealBackoff a0 : Statement (.stealBackoff a0) := of_event rfl
theorem RoundTrip.spawnatWalk a0 : Statement (.spawnatWalk a0) := of_event rfl
theorem RoundTrip.spill a0 : Statement (.spill a0) := of_event rfl
theorem RoundTrip.cancelRequest a0 : Statement (.cancelRequest a0) := of_event rfl
theorem RoundTrip.resultArrival a0 : Statement (.resultArrival a0) := of_event rfl
theorem RoundTrip.wake a0 : Statement (.wake a0) := of_event rfl
theorem RoundTrip.storeApply a0 : Statement (.storeApply a0) := of_event rfl
theorem RoundTrip.joinApply a0 : Statement (.joinApply a0) := of_event rfl
theorem RoundTrip.joinCombine a0 a1 : Statement (.joinCombine a0 a1) := of_event rfl
theorem RoundTrip.loadServe a0 : Statement (.loadServe a0) := of_event rfl
theorem RoundTrip.getServe a0 : Statement (.getServe a0) := of_event rfl
theorem RoundTrip.thrServe a0 : Statement (.thrServe a0) := of_event rfl
theorem RoundTrip.latchRetry a0 : Statement (.latchRetry a0) := of_event rfl
theorem RoundTrip.boltApply a0 : Statement (.boltApply a0) := of_event rfl
theorem RoundTrip.boltAck a0 : Statement (.boltAck a0) := of_event rfl
theorem RoundTrip.clearCheck a0 : Statement (.clearCheck a0) := of_event rfl
theorem RoundTrip.clearApply a0 : Statement (.clearApply a0) := of_event rfl
theorem RoundTrip.fillWrite a0 : Statement (.fillWrite a0) := of_event rfl
theorem RoundTrip.brelApply a0 : Statement (.brelApply a0) := of_event rfl
theorem RoundTrip.bdeclApply a0 : Statement (.bdeclApply a0) := of_event rfl
theorem RoundTrip.copyCommandRun a0 a1 : Statement (.copyCommandRun a0 a1) := of_event rfl
theorem RoundTrip.copyComplete a0 a1 : Statement (.copyComplete a0 a1) := of_event rfl
theorem RoundTrip.keyGrant a0 : Statement (.keyGrant a0) := of_event rfl
theorem RoundTrip.arrayKstep a0 : Statement (.arrayKstep a0) := of_event rfl
theorem RoundTrip.arrayDrainRow a0 : Statement (.arrayDrainRow a0) := of_event rfl
theorem RoundTrip.rowHandlerStart a0 : Statement (.rowHandlerStart a0) := of_event rfl
theorem RoundTrip.nbBind a0 : Statement (.nbBind a0) := of_event rfl
theorem RoundTrip.nbRun a0 : Statement (.nbRun a0) := of_event rfl
theorem RoundTrip.nbUnbind a0 : Statement (.nbUnbind a0) := of_event rfl
theorem RoundTrip.hingeCallArrival a0 : Statement (.hingeCallArrival a0) := of_event rfl
theorem RoundTrip.hingeHandlerStart a0 : Statement (.hingeHandlerStart a0) := of_event rfl
theorem RoundTrip.hingeStatusArrival a0 : Statement (.hingeStatusArrival a0) := of_event rfl
theorem RoundTrip.hingeReplyTimeout a0 : Statement (.hingeReplyTimeout a0) := of_event rfl
theorem RoundTrip.channelPacketArrival a0 : Statement (.channelPacketArrival a0) := of_event rfl
theorem RoundTrip.channelResend a0 : Statement (.channelResend a0) := of_event rfl
theorem RoundTrip.reductionRound a0 : Statement (.reductionRound a0) := of_event rfl
theorem RoundTrip.barrierRelease a0 : Statement (.barrierRelease a0) := of_event rfl
theorem RoundTrip.barrierArrivalFlit a0 a1 : Statement (.barrierArrivalFlit a0 a1) := of_event rfl
theorem RoundTrip.barrierReleaseFlit a0 : Statement (.barrierReleaseFlit a0) := of_event rfl
theorem RoundTrip.flitReceive a0 a1 : Statement (.flitReceive a0 a1) := of_event rfl
theorem RoundTrip.linkRetrain a0 : Statement (.linkRetrain a0) := of_event rfl
theorem RoundTrip.linkFailTimeout a0 : Statement (.linkFailTimeout a0) := of_event rfl
theorem RoundTrip.clockStep a0 : Statement (.clockStep a0) := of_event rfl
theorem RoundTrip.debugHalt a0 : Statement (.debugHalt a0) := of_event rfl
theorem RoundTrip.singleStep a0 a1 : Statement (.singleStep a0 a1) := of_event rfl
theorem RoundTrip.debugResume a0 : Statement (.debugResume a0) := of_event rfl
theorem RoundTrip.samplePulse : Statement (.samplePulse) := of_event rfl
theorem RoundTrip.scrub : Statement .scrub := of_event rfl
theorem RoundTrip.uncorrectableError a0 a1 : Statement (.uncorrectableError a0 a1) := of_event rfl
theorem RoundTrip.lifetimeRecordWrite : Statement (.lifetimeRecordWrite) := of_event rfl
theorem RoundTrip.powerDown : Statement (.powerDown) := of_event rfl
theorem RoundTrip.replayAbandon a0 : Statement (.replayAbandon a0) := of_event rfl
theorem RoundTrip.twinDigest a0 : Statement (.twinDigest a0) := of_event rfl
theorem RoundTrip.chkptBlockAck a0 : Statement (.chkptBlockAck a0) := of_event rfl
theorem RoundTrip.linkRetrainComplete a0 : Statement (.linkRetrainComplete a0) := of_event rfl
theorem RoundTrip.walkComplete a0 : Statement (.walkComplete a0) := of_event rfl
theorem RoundTrip.mailboxServe a0 : Statement (.mailboxServe a0) := of_event rfl
theorem RoundTrip.mailboxReply a0 : Statement (.mailboxReply a0) := of_event rfl
theorem RoundTrip.channelPacketReply a0 : Statement (.channelPacketReply a0) := of_event rfl
theorem RoundTrip.powerFailure : Statement (.powerFailure) := of_event rfl

end Sys2Proof.Laws
end

