-- ==== Sys2Proof/Laws/Run.lean ====
section
/-! SUPPORT. The frame of an instruction: what its checks let through, and what its completion does. -/

namespace Sys2Proof.Machine

/-! A context replaced: everything else stays. -/

/-- The issuing context is one of the five: its replacement is read back, and the others stay. -/
theorem ctxOf_setCtx (s : State) (x : Ctx) (hc : s.curCtx < 5) (n i : Nat) :
    (s.setCtx x).ctxOf n i = if n = s.cur ∧ i = s.curCtx then x else s.ctxOf n i := by
  unfold State.setCtx; exact core_setCtxOf_ctx s s.cur s.curCtx n i x hc

@[simp] theorem setCtx_me_tvec (s : State) (x : Ctx) : (s.setCtx x).me.tvec = s.me.tvec := by
  simp [State.me, State.setCtx, State.setCtxOf]
@[simp] theorem setCtx_me_xb (s : State) (x : Ctx) : (s.setCtx x).me.xb = s.me.xb := by
  simp [State.me, State.setCtx, State.setCtxOf]
@[simp] theorem setCtx_me_rtree (s : State) (x : Ctx) : (s.setCtx x).me.rtree = s.me.rtree := by
  simp [State.me, State.setCtx, State.setCtxOf]
@[simp] theorem setCtx_me_ports (s : State) (x : Ctx) : (s.setCtx x).me.ports = s.me.ports := by
  simp [State.me, State.setCtx, State.setCtxOf]

/-- Whether a gang block waits for an array depends on the slots alone. -/
theorem gangWaits_eq {s t : State} (hz : t.slots = s.slots) (hp : t.pkg = s.pkg) (q : Quad) :
    t.gangWaits q = s.gangWaits q := by
  have h : t.preempted = s.preempted := by
    funext n
    simp [State.preempted, State.slot, hz]
  simp only [State.gangWaits, State.gangRequest, h, hp]

/-- The status registers that an instruction leaves alone are functions of these fields. -/
theorem readStatus_eq {s t : State} (h : t.cur = s.cur) (hq : t.quads = s.quads) (hz : t.slots = s.slots) (hp : t.pkg = s.pkg)
    (ht : t.tick = s.tick) (h1 : t.ctx.tpc = s.ctx.tpc) (h2 : t.ctx.tcause = s.ctx.tcause)
    (h3 : t.ctx.tval = s.ctx.tval) (h4 : t.me.tvec = s.me.tvec) (h5 : t.me.xb = s.me.xb)
    (h6 : t.ctx.fpre = s.ctx.fpre) (h7 : t.ctx.fflags = s.ctx.fflags) (h8 : t.ctx.frm = s.ctx.frm)
    (h9 : t.ctx.fseed = s.ctx.fseed) (h10 : t.ctx.tid = s.ctx.tid) (h11 : t.ctx.grp = s.ctx.grp)
    (h12 : t.ctx.exitc = s.ctx.exitc) (h13 : t.ctx.hst = s.ctx.hst) (h14 : t.ctx.chb = s.ctx.chb)
    (h15 : t.me.rtree = s.me.rtree) (h16 : t.ctx.gtol = s.ctx.gtol) (h17 : t.ctx.gdmp = s.ctx.gdmp) :
    ∀ n ∈ keptStatus, t.readStatus n = s.readStatus n := by
  intro n hn
  simp only [keptStatus, List.mem_cons, List.not_mem_nil, or_false] at hn
  rcases hn with rfl | rfl | rfl | rfl | rfl | rfl | rfl | rfl | rfl | rfl | rfl | rfl | rfl | rfl | rfl | rfl |
    rfl | rfl | rfl | rfl | rfl <;>
  simp [State.readStatus, State.quad, gangWaits_eq hz hp, h, hq, hp, ht, h1, h2, h3, h4, h5, h6, h7, h8, h9, h10, h11, h12, h13, h14,
    h15, h16, h17]

/-- Contexts that differ only in how far their instruction stream has come. -/
structure SameRegs (c d : Ctx) : Prop where
  x : d.x = c.x
  v : d.v = c.v
  p : d.p = c.p
  k : d.k = c.k
  tpc : d.tpc = c.tpc
  tcause : d.tcause = c.tcause
  tval : d.tval = c.tval
  fpre : d.fpre = c.fpre
  fflags : d.fflags = c.fflags
  frm : d.frm = c.frm
  fseed : d.fseed = c.fseed
  tid : d.tid = c.tid
  grp : d.grp = c.grp
  exitc : d.exitc = c.exitc
  hst : d.hst = c.hst
  chb : d.chb = c.chb
  gtol : d.gtol = c.gtol
  gdmp : d.gdmp = c.gdmp
  faulted : d.faulted = c.faulted

theorem SameRegs.refl (c : Ctx) : SameRegs c c :=
  ⟨rfl, rfl, rfl, rfl, rfl, rfl, rfl, rfl, rfl, rfl, rfl, rfl, rfl, rfl, rfl, rfl, rfl, rfl, rfl⟩

theorem SameRegs.trans {a b c : Ctx} (p : SameRegs a b) (q : SameRegs b c) : SameRegs a c :=
  ⟨q.x.trans p.x, q.v.trans p.v, q.p.trans p.p, q.k.trans p.k, q.tpc.trans p.tpc, q.tcause.trans p.tcause,
    q.tval.trans p.tval, q.fpre.trans p.fpre, q.fflags.trans p.fflags, q.frm.trans p.frm, q.fseed.trans p.fseed,
    q.tid.trans p.tid, q.grp.trans p.grp, q.exitc.trans p.exitc, q.hst.trans p.hst, q.chb.trans p.chb,
    q.gtol.trans p.gtol, q.gdmp.trans p.gdmp, q.faulted.trans p.faulted⟩

/-- A core of the state replaced by one that differs from it in its issuing context and its scheduling only: the
frame of what no instruction writes. -/
theorem frame_of_setMe (s t : State)
    (ht : t = { s with cores := t.cores, walkFails := t.walkFails })
    (hn : ∀ n, n ≠ s.cur → t.core n = s.core n) (hi : ∀ i, i ≠ s.curCtx → t.me.ctx i = s.me.ctx i)
    (hm : t.me = { s.me with ctxs := t.me.ctxs, stamps := t.me.stamps, switch := t.me.switch })
    (hs : SameRegs s.ctx t.ctx)
    (h0 : t.ctx.tstat &&& ~~~0xFFF0#64 = s.ctx.tstat &&& ~~~0xFFF0#64 ∧ (s.ctx.rep = false → t.ctx.tstat = s.ctx.tstat))
    (hl : s.ctx.rep = false → s.ctx.endsBody = false → t.ctx.lc0 = s.ctx.lc0 ∧ t.ctx.lc1 = s.ctx.lc1) :
    Frame {} s t ∧ Inside s t := by
  have hcur : t.cur = s.cur := by rw [ht]
  have hcc : t.curCtx = s.curCtx := by rw [ht]
  have hq : t.quads = s.quads := by rw [ht]
  have hz : t.slots = s.slots := by rw [ht]
  have hp : t.pkg = s.pkg := by rw [ht]
  have htk : t.tick = s.tick := by rw [ht]
  have hmem : t.mem = s.mem := by rw [ht]
  have hu : t.units = s.units := by rw [ht]
  have hb : t.bars = s.bars := by rw [ht]
  have hv : t.me.tvec = s.me.tvec := by rw [hm]
  have hx : t.me.xb = s.me.xb := by rw [hm]
  have hr : t.me.rtree = s.me.rtree := by rw [hm]
  have hpt : t.me.ports = s.me.ports := by rw [hm]
  refine ⟨⟨⟨hcur, hcc⟩, ?_, ?_, ?_, ?_, ?_, fun _ => h0, fun _ => hl, ?_, ?_, hq, hu, hb⟩, ⟨ht, fun a _ => by rw [hmem], hn, ?_⟩⟩
  · intro r _; simp [Ctx.rx, hs.x]
  · intro r _; simp [Ctx.rv, hs.v]
  · intro n _; simp [Ctx.rp, hs.p]
  · intro n _; simp [Ctx.rk, hs.k]
  · intro n hn' _
    exact readStatus_eq hcur hq hz hp htk hs.tpc hs.tcause hs.tval hv hx hs.fpre hs.fflags hs.frm hs.fseed hs.tid hs.grp
      hs.exitc hs.hst hs.chb hr hs.gtol hs.gdmp n hn'
  · intro n i hne
    unfold State.ctxOf
    by_cases e : n = s.cur
    · subst e
      have : i ≠ s.curCtx := fun x => hne ⟨rfl, x⟩
      have q := hi i this
      unfold State.me at q
      rw [hcur] at q
      exact q
    · rw [hn n e]
  · intro n _; simp [CoreSt.port, hpt]
  · rw [hm]

/-! The checks. -/

/-- Without a pending or faulted use nothing is bad (R127, R195). -/
theorem badUse_none (c : Ctx) (uses : List Nat) (hf : ∀ n ∈ uses, n ≠ 0 → c.inh = true ∨ ∀ e ∈ c.faulted, e.1 ≠ n)
    (hu : ∀ n ∈ uses, n ≠ 0 → c.pending.getLsbD n = false) : c.badUse uses = none := by
  induction uses with
  | nil => rfl
  | cons n r ih =>
    have ih' := ih (fun m hm => hf m (List.mem_cons_of_mem _ hm)) fun m hm => hu m (List.mem_cons_of_mem _ hm)
    simp only [Ctx.badUse]
    split
    · exact ih'
    · next h =>
      have p := hu n (List.mem_cons_self ..) h
      rcases hf n (List.mem_cons_self ..) h with i | w
      · simp [i, p, ih']
      · have : c.faulted.find? (fun e => e.1 == n) = none := List.find?_eq_none.2 fun e he => by simpa using w e he
        simp [this, p, ih']

theorem charge_spent (c : Ctx) (k : Cls) (i : Instr) (h : Head) (l : Bool) (u : List Nat)
    (hf : ∀ n ∈ u, n ≠ 0 → c.inh = true ∨ ∀ e ∈ c.faulted, e.1 ≠ n)
    (hp : c.pfx = none ∨ k.fmt = true) (ha : c.legal k = true) (hl : l = true) (hg : c.guard h.g = true)
    (hu : ∀ n ∈ u, n ≠ 0 → c.pending.getLsbD n = false) : c.pre k i h l u = .go := by
  unfold Ctx.pre
  have h1 : (c.pfx.isSome && !k.fmt) = false := by
    rcases hp with e | e <;> simp [e]
  simp [h1, ha, hl, hg, badUse_none c u hf hu]

/-- The checks pass: the instruction is its effect, brought to its end. -/
theorem run_clear {s : State} {k : Cls} {h : Head} {u : List Nat} (c : Clear s k h u) (i : Instr) (l : Bool)
    (hl : l = true) (act : State → Eff) :
    s.run k i h l u act = (act (s.setCtx s.ctx.charge)).finish h := by
  unfold State.run
  simp only [c.budget, Bool.false_eq_true, if_false]
  rw [charge_spent s.ctx k i h l u c.whole c.pfx c.allowed hl c.guard c.ready]

/-- The registers after the count of R255 and R306. -/
theorem sameRegs_charge (c : Ctx) : SameRegs c c.charge := by
  constructor <;> simp

/-! The completion. -/

theorem sameRegs_setLc (c : Ctx) (n : Nat) (w : Word) : SameRegs c (c.setLc n w) := by
  constructor <;> simp

/-- A loop's step changes its counter and the PC. -/
theorem bodyStep_eq (c : Ctx) (n : Nat) : ∃ w a, (c.bodyStep n).1 = { c.setLc n w with pc := a } := by
  unfold Ctx.bodyStep
  by_cases h : lcLess (c.lc n) = 0
  · exact ⟨_, _, congrArg Prod.fst (if_pos h)⟩
  · exact ⟨_, _, congrArg Prod.fst (if_neg h)⟩

theorem sameRegs_bodyStep (c : Ctx) (n : Nat) : SameRegs c (c.bodyStep n).1 := by
  obtain ⟨w, a, e⟩ := bodyStep_eq c n
  rw [e]
  constructor <;> simp

/-- What holds before and is kept by a loop's step holds after end-of-body processing. -/
theorem bodyEnd_ind (P : Ctx → Prop) (hs : ∀ d n, P d → P (d.bodyStep n).1) (c : Ctx) (a : Nat) (h : P c) :
    P (c.bodyEnd a) := by
  have key : ∀ (b1 b2 b3 : Bool) (x y z w : Ctx), P x → P y → P z → P w →
      P (if b1 then (if b2 then x else y) else if b3 then z else w) := by
    intro b1 b2 b3 x y z w hx hy hz hw
    cases b1 <;> cases b2 <;> cases b3 <;> simp [hx, hy, hz, hw]
  exact key _ _ _ _ _ _ _ (hs _ _ (hs _ _ h)) (hs _ _ h) (hs _ _ h) h

theorem sameRegs_bodyEnd (c : Ctx) (a : Nat) : SameRegs c (c.bodyEnd a) :=
  bodyEnd_ind (SameRegs c) (fun d n h => h.trans (sameRegs_bodyStep d n)) c a (SameRegs.refl c)

theorem tstat_bodyStep (c : Ctx) (n : Nat) : (c.bodyStep n).1.tstat = c.tstat := by
  obtain ⟨w, a, e⟩ := bodyStep_eq c n
  rw [e]
  simp

theorem tstat_bodyEnd (c : Ctx) (a : Nat) : (c.bodyEnd a).tstat = c.tstat :=
  bodyEnd_ind (fun d => d.tstat = c.tstat) (fun d n h => (tstat_bodyStep d n).trans h) c a rfl

/-- Where no live loop ends, nothing happens (R142). -/
theorem bodyEnd_none (c : Ctx) (a : Nat) (h : c.lastOfBody a = false) : c.bodyEnd a = c := by
  unfold Ctx.lastOfBody at h
  simp only [Bool.or_eq_false_iff] at h
  have h0 : (c.live 0 && lcLast (c.lc 0) == a) = false := h.1
  have h1 : (c.live 1 && lcLast (c.lc 1) == a) = false := h.2
  unfold Ctx.bodyEnd
  cases e : c.laterLc1 <;> simp only [Bool.false_eq_true, if_false, if_true, h0, h1, Nat.sub_zero, Nat.sub_self]

/-- Bits that a field does not hold stay as they are. -/
theorem putField_outside (w m : Word) (hi lo v : Nat)
    (h : BitVec.ofNat 64 ((2 ^ (hi + 1 - lo) - 1) * 2 ^ lo) &&& ~~~m = 0#64) :
    Word.putField w hi lo v &&& ~~~m = w &&& ~~~m := by
  unfold Word.putField
  dsimp only
  generalize BitVec.ofNat 64 ((2 ^ (hi + 1 - lo) - 1) * 2 ^ lo) = a at h ⊢
  generalize BitVec.ofNat 64 (v * 2 ^ lo) = b
  apply BitVec.eq_of_getLsbD_eq
  intro i hi
  have := congrArg (fun x => BitVec.getLsbD x i) h
  simp only [BitVec.getLsbD_and, BitVec.getLsbD_not, BitVec.getLsbD_zero, hi, decide_true, Bool.true_and,
    BitVec.getLsbD_or] at this ⊢
  cases h1 : a.getLsbD i <;> cases h2 : m.getLsbD i <;> cases h3 : w.getLsbD i <;> cases h4 : b.getLsbD i <;>
    simp_all

/-- The replay's own part of tstat. -/
def repMask : Word := 0xFFF0#64

/-- One execution of a replay moves its position and, at its end, the PC and the loops (R130). -/
theorem repNext_eq (s : State) : ∃ y, s.repNext = s.setCtx y ∧ SameRegs s.ctx y ∧
    y.tstat &&& ~~~0xFFF0#64 = s.ctx.tstat &&& ~~~0xFFF0#64 := by
  have key : ∀ (b : Bool) (last slot iter : Nat),
      SameRegs s.ctx (if b then s.ctx.repDone last else s.ctx.repAt slot iter) ∧
      (if b then s.ctx.repDone last else s.ctx.repAt slot iter).tstat &&& ~~~0xFFF0#64 =
        s.ctx.tstat &&& ~~~0xFFF0#64 := by
    intro b last slot iter
    cases b
    · refine ⟨by constructor <;> rfl, (putField_outside _ _ _ _ _ (by decide)).trans ?_⟩
      exact putField_outside _ _ _ _ _ (by decide)
    · refine ⟨SameRegs.trans (by constructor <;> rfl) (sameRegs_bodyEnd _ _), ?_⟩
      refine (congrArg (· &&& ~~~0xFFF0#64) (tstat_bodyEnd _ _)).trans ?_
      exact putField_outside _ _ _ _ _ (by decide)
  exact ⟨_, rfl, (key _ _ _ _).1, (key _ _ _ _).2⟩

/-- A park keeps registers; it counts, and it marks the core for a new choice (R74, R128). -/
theorem park_eq (s : State) (w : Wait) (hc : s.curCtx < 5) : ∃ w' n,
    (s.park w).ctx = { s.ctx with wait := w', parkedAt := n } ∧
    s.park w = { s with cores := (s.park w).cores, walkFails := (s.park w).walkFails } ∧
    (∀ n, n ≠ s.cur → (s.park w).core n = s.core n) ∧ (∀ i, i ≠ s.curCtx → (s.park w).me.ctx i = s.me.ctx i) ∧
    (s.park w).me = { s.me with
      ctxs := (s.park w).me.ctxs, stamps := (s.park w).me.stamps, switch := (s.park w).me.switch } := by
  refine ⟨if s.ctx.flagged && decide (s.ctx.role = .task) && !w.ending && !s.ctx.reserved then .cancelling else w, s.me.stamps,
    ctx_setCtx_same _ _ hc, rfl, ?_, ?_, ?_⟩
  · intro n hn
    simp [State.park, State.setCtx, State.setCtxOf, State.setMe, State.me, hn, core_setCore]
  · intro i hi
    simp [State.park, State.setCtx, State.setCtxOf, State.setMe, State.me]
    rw [ctx_setCtx_core _ _ _ _ hc, if_neg hi]
    rfl
  · simp [State.park, State.setCtx, State.setCtxOf, State.setMe, State.me, CoreSt.setCtx]

/-- A switch marker parks the context or does nothing (R128). -/
theorem marker_frame (s : State) (a : Nat) : s.marker a = s ∨ s.marker a = s.park (.marker a) := by
  unfold State.marker
  split
  · exact Or.inr rfl
  · exact Or.inl rfl

theorem sameRegs_nextWord (c : Ctx) : SameRegs c c.nextWord := by constructor <;> rfl

/-- The frame of a context replaced by one with the same registers. -/
theorem setCtx_frame (s : State) (y : Ctx) (hc : s.curCtx < 5) (hs : SameRegs s.ctx y)
    (h0 : y.tstat &&& ~~~0xFFF0#64 = s.ctx.tstat &&& ~~~0xFFF0#64 ∧ (s.ctx.rep = false → y.tstat = s.ctx.tstat))
    (hl : s.ctx.rep = false → s.ctx.endsBody = false → y.lc0 = s.ctx.lc0 ∧ y.lc1 = s.ctx.lc1) :
    Frame {} s (s.setCtx y) ∧ Inside s (s.setCtx y) := by
  have e : (s.setCtx y).ctx = y := ctx_setCtx_same s y hc
  refine frame_of_setMe s (s.setCtx y) rfl ?_ ?_ ?_ (by rw [e]; exact hs) (by rw [e]; exact h0) (by rw [e]; exact hl)
  · intro n hn
    simp [State.setCtx, State.setCtxOf, core_setCore, hn]
  · intro i hi
    have q := ctxOf_setCtx s y hc s.cur i
    rw [if_neg (fun x => hi x.2)] at q
    exact q
  · simp [State.me, State.setCtx, State.setCtxOf, CoreSt.setCtx]

/-- The frame of a park. -/
theorem park_frame (s : State) (w : Wait) (hc : s.curCtx < 5) :
    Frame {} s (s.park w) ∧ Inside s (s.park w) ∧ (s.park w).ctx.pc = s.ctx.pc ∧ (s.park w).ctx.tstat = s.ctx.tstat ∧
      (s.park w).ctx.lc0 = s.ctx.lc0 ∧ (s.park w).ctx.lc1 = s.ctx.lc1 := by
  obtain ⟨w', n, e, h1, h2, h3, h4⟩ := park_eq s w hc
  have q := frame_of_setMe s (s.park w) h1 h2 h3 h4 (by rw [e]; constructor <;> rfl) (by rw [e]; exact ⟨rfl, fun _ => rfl⟩)
    (by rw [e]; exact fun _ _ => ⟨rfl, rfl⟩)
  exact ⟨q.1, q.2, by rw [e], by rw [e], by rw [e], by rw [e]⟩

/-- Two frames in a row, the second with the replay and the loops of the first. -/
theorem Frame.trans {w : Writes} {a b c : State} (p : Frame w a b) (q : Frame {} b c)
    (hr : a.ctx.rep = false → b.ctx.rep = false) (hl : a.ctx.rep = false → a.ctx.endsBody = false → b.ctx.endsBody = false) :
    Frame w a c where
  issuing := ⟨q.issuing.1.trans p.issuing.1, q.issuing.2.trans p.issuing.2⟩
  x r h := (q.x r (List.not_mem_nil)).trans (p.x r h)
  v r h := (q.v r (List.not_mem_nil)).trans (p.v r h)
  p n h := (q.p n (List.not_mem_nil)).trans (p.p n h)
  k n h := (q.k n (List.not_mem_nil)).trans (p.k n h)
  status n hn h := (q.status n hn (List.not_mem_nil)).trans (p.status n hn h)
  tstat h := by
    have x := q.tstat (List.not_mem_nil)
    have y := p.tstat h
    exact ⟨x.1.trans y.1, fun e => (x.2 (hr e)).trans (y.2 e)⟩
  loops h e e' := by
    have x := q.loops (List.not_mem_nil) (hr e) (hl e e')
    have y := p.loops h e e'
    exact ⟨x.1.trans y.1, x.2.trans y.2⟩
  contexts n i h := by
    have h' : ¬(n = b.cur ∧ i = b.curCtx) := by rw [p.issuing.1, p.issuing.2]; exact h
    exact (q.contexts n i h').trans (p.contexts n i h)
  ports n h := (q.ports n (List.not_mem_nil)).trans (p.ports n h)
  units := ⟨q.units.1.trans p.units.1, q.units.2.1.trans p.units.2.1, q.units.2.2.trans p.units.2.2⟩

/-- Two frames in a row, the second of a step that leaves tstat and the loops. -/
theorem Frame.andThen {w : Writes} {a b c : State} (p : Frame w a b) (q : Frame {} b c) (ht : c.ctx.tstat = b.ctx.tstat)
    (h0 : c.ctx.lc0 = b.ctx.lc0) (h1 : c.ctx.lc1 = b.ctx.lc1) : Frame w a c where
  issuing := ⟨q.issuing.1.trans p.issuing.1, q.issuing.2.trans p.issuing.2⟩
  x r h := (q.x r (List.not_mem_nil)).trans (p.x r h)
  v r h := (q.v r (List.not_mem_nil)).trans (p.v r h)
  p n h := (q.p n (List.not_mem_nil)).trans (p.p n h)
  k n h := (q.k n (List.not_mem_nil)).trans (p.k n h)
  status n hn h := (q.status n hn (List.not_mem_nil)).trans (p.status n hn h)
  tstat h := by rw [ht]; exact p.tstat h
  loops h e e' := by rw [h0, h1]; exact p.loops h e e'
  contexts n i h := by
    have h' : ¬(n = b.cur ∧ i = b.curCtx) := by rw [p.issuing.1, p.issuing.2]; exact h
    exact (q.contexts n i h').trans (p.contexts n i h)
  ports n h := (q.ports n (List.not_mem_nil)).trans (p.ports n h)
  units := ⟨q.units.1.trans p.units.1, q.units.2.1.trans p.units.2.1, q.units.2.2.trans p.units.2.2⟩

theorem Inside.trans {a b c : State} (p : Inside a b) (q : Inside b c) : Inside a c := by
  have hc : b.cur = a.cur := by rw [p.rest]
  refine ⟨?_, fun x h => (q.memory x h).trans (p.memory x h), fun n h => ?_, ?_⟩
  · rw [q.rest]
    dsimp only
    rw [p.rest]
  · exact (q.others n (by rw [hc]; exact h)).trans (p.others n h)
  · rw [q.own, p.own]

theorem Inside.refl (a : State) : Inside a a := ⟨rfl, fun _ _ => rfl, fun _ _ => rfl, rfl⟩

theorem Frame.refl (a : State) : Frame {} a a :=
  ⟨⟨rfl, rfl⟩, fun _ _ => rfl, fun _ _ => rfl, fun _ _ => rfl, fun _ _ => rfl, fun _ _ _ => rfl,
    fun _ => ⟨rfl, fun _ => rfl⟩, fun _ _ _ => ⟨rfl, rfl⟩, fun _ _ _ => rfl, fun _ _ => rfl, rfl, rfl, rfl⟩

/-- The park of a marker, or nothing: the frame of what stands behind a completion. -/
theorem marker_ok (s : State) (b : Bool) (a : Nat) (hc : s.curCtx < 5) (t : State)
    (ht : t = if b then s.marker a else s) :
    Frame {} s t ∧ Inside s t ∧ t.ctx.pc = s.ctx.pc ∧ t.ctx.tstat = s.ctx.tstat ∧ t.ctx.lc0 = s.ctx.lc0 ∧
      t.ctx.lc1 = s.ctx.lc1 := by
  have self : Frame {} s s ∧ Inside s s ∧ s.ctx.pc = s.ctx.pc ∧ s.ctx.tstat = s.ctx.tstat ∧ s.ctx.lc0 = s.ctx.lc0 ∧
      s.ctx.lc1 = s.ctx.lc1 := ⟨Frame.refl s, Inside.refl s, rfl, rfl, rfl, rfl⟩
  subst ht
  cases b
  · exact self
  · rcases marker_frame s a with e | e
    · rw [if_pos rfl, e]; exact self
    · rw [if_pos rfl, e]; exact park_frame s _ hc

/-- A context replaced, then a marker. -/
theorem setCtx_marker (s : State) (y : Ctx) (b : Bool) (a : Nat) (hc : s.curCtx < 5) (hs : SameRegs s.ctx y)
    (h0 : y.tstat &&& ~~~0xFFF0#64 = s.ctx.tstat &&& ~~~0xFFF0#64 ∧ (s.ctx.rep = false → y.tstat = s.ctx.tstat))
    (hl : s.ctx.rep = false → s.ctx.endsBody = false → y.lc0 = s.ctx.lc0 ∧ y.lc1 = s.ctx.lc1) (t : State)
    (ht : t = if b then (s.setCtx y).marker a else s.setCtx y) :
    Frame {} s t ∧ Inside s t ∧ t.ctx.pc = y.pc := by
  have e : (s.setCtx y).ctx = y := ctx_setCtx_same s y hc
  have f := setCtx_frame s y hc hs h0 hl
  have m := marker_ok (s.setCtx y) b a hc t ht
  refine ⟨f.1.andThen m.1 m.2.2.2.1 m.2.2.2.2.1 m.2.2.2.2.2, f.2.trans m.2.1, ?_⟩
  rw [m.2.2.1, e]

/-- What a completion does: the PC advances, the position of a replay and the loops move, the marker may park the
context; no register is written (R105, R128, R130, R142). -/
theorem complete_frame (s : State) (h : Head) (hc : s.curCtx < 5) :
    Frame {} s (s.complete h) ∧ Inside s (s.complete h) ∧ Advanced s (s.complete h) := by
  unfold State.complete
  dsimp only
  by_cases hr : s.ctx.rep = true
  · rw [if_pos hr]
    obtain ⟨y, e, hs, ht⟩ := repNext_eq (s.setCtx { s.ctx with pfx := none, wait := .none })
    rw [ctx_setCtx_same s _ hc] at hs ht
    rw [e, setCtx_setCtx]
    have hs' : SameRegs s.ctx y := SameRegs.trans (by constructor <;> rfl) hs
    have m := setCtx_marker s y h.sw s.instrPc hc hs' ⟨ht, fun q => by simp [hr] at q⟩ (fun q => by simp [hr] at q) _ rfl
    exact ⟨m.1, m.2.1, fun q => by simp [hr] at q⟩
  · rw [if_neg hr]
    have hs : SameRegs s.ctx (s.ctx.nextWord.bodyEnd s.ctx.pc.toNat) :=
      SameRegs.trans (sameRegs_nextWord _) (sameRegs_bodyEnd _ _)
    have ends : s.ctx.endsBody = false → s.ctx.nextWord.bodyEnd s.ctx.pc.toNat = s.ctx.nextWord :=
      fun q => bodyEnd_none s.ctx.nextWord _ q
    have ht : (s.ctx.nextWord.bodyEnd s.ctx.pc.toNat).tstat = s.ctx.tstat := tstat_bodyEnd _ _
    have hl : s.ctx.endsBody = false → (s.ctx.nextWord.bodyEnd s.ctx.pc.toNat).lc0 = s.ctx.lc0 ∧
        (s.ctx.nextWord.bodyEnd s.ctx.pc.toNat).lc1 = s.ctx.lc1 := fun q => by rw [ends q]; exact ⟨rfl, rfl⟩
    have hp : s.ctx.endsBody = false → (s.ctx.nextWord.bodyEnd s.ctx.pc.toNat).pc = s.ctx.pc + 4 :=
      fun q => by rw [ends q]; rfl
    generalize s.ctx.nextWord.bodyEnd s.ctx.pc.toNat = y at hs ht hl hp ⊢
    have m := setCtx_marker s y h.sw s.instrPc hc hs ⟨by rw [ht], fun _ => ht⟩ (fun _ q => hl q) _ rfl
    exact ⟨m.1, m.2.1, fun _ q => m.2.2.trans (hp q)⟩

/-- Failed walks used up: nothing else changes. -/
theorem settle_eq (s : State) : s.settle = { s with walkFails := s.settle.walkFails } := rfl

/-- An effect that completes (R105): what it wrote, and beyond it nothing. -/
theorem done_frame {w : Writes} {s r : State} (h : Head) (hc : s.curCtx < 5) (f : Frame w s r) (hi : Inside s r)
    (hp : r.ctx.pc = s.ctx.pc) (hr : r.ctx.rep = s.ctx.rep)
    (he : s.ctx.rep = false → r.ctx.endsBody = s.ctx.endsBody) :
    Frame w s ((Eff.done r).finish h) ∧ Inside s ((Eff.done r).finish h) ∧ Advanced s ((Eff.done r).finish h) := by
  have c := complete_frame r.settle h (by rw [settle_eq]; exact f.issuing.2 ▸ hc)
  have fs : Frame w s r.settle :=
    ⟨f.issuing, f.x, f.v, f.p, f.k, f.status, f.tstat, f.loops, f.contexts, f.ports, f.units⟩
  have is : Inside s r.settle := ⟨by rw [settle_eq, hi.rest], hi.memory, hi.others, hi.own⟩
  refine ⟨fs.trans c.1 (fun q => hr.trans q) (fun q q' => (he q).trans q'), is.trans c.2.1, fun q q' => ?_⟩
  exact (c.2.2 (hr.trans q) ((he q).trans q')).trans (congrArg (· + 4) hp)

/-- An instruction that replaces the issuing context only: what it wrote there, and beyond it nothing.  `w` lists what
it wrote. -/
theorem done_setCtx {w : Writes} {s : State} (h : Head) (x : Ctx) (hc : s.curCtx < 5)
    (hx : ∀ r, r ∉ w.x → x.rx r = s.ctx.rx r) (hv : ∀ r, r ∉ w.v → x.rv r = s.ctx.rv r)
    (hp : ∀ n, n ∉ w.p → x.rp n = s.ctx.rp n) (hk : ∀ n, n ∉ w.k → x.rk n = s.ctx.rk n)
    (hs : ∀ n ∈ keptStatus, n ∉ w.sr → (s.setCtx x).readStatus n = s.readStatus n)
    (ht : 0x000 ∉ w.sr → x.tstat = s.ctx.tstat) (hl : x.lc0 = s.ctx.lc0 ∧ x.lc1 = s.ctx.lc1)
    (hend : x.endsBody = s.ctx.endsBody) (hpc : x.pc = s.ctx.pc) (hr : x.rep = s.ctx.rep) :
    Frame w s ((Eff.done (s.setCtx x)).finish h) ∧ Inside s ((Eff.done (s.setCtx x)).finish h) ∧
      Advanced s ((Eff.done (s.setCtx x)).finish h) := by
  have e : (s.setCtx x).ctx = x := ctx_setCtx_same s x hc
  refine done_frame h hc ⟨⟨rfl, rfl⟩, ?_, ?_, ?_, ?_, hs, ?_, ?_, ?_, ?_, rfl, rfl, rfl⟩
    ⟨rfl, fun _ _ => rfl, ?_, ?_⟩ (by rw [e]; exact hpc) (by rw [e]; exact hr) (by rw [e]; exact fun _ => hend)
  · intro r q; rw [e]; exact hx r q
  · intro r q; rw [e]; exact hv r q
  · intro r q; rw [e]; exact hp r q
  · intro r q; rw [e]; exact hk r q
  · intro q; rw [e, ht q]; exact ⟨rfl, fun _ => rfl⟩
  · intro _ _ _; rw [e]; exact hl
  · intro n i q; rw [ctxOf_setCtx s x hc n i, if_neg q]
  · intro n _; simp [CoreSt.port]
  · intro n hn
    simp [State.setCtx, State.setCtxOf, core_setCore, hn]
  · simp [State.me, State.setCtx, State.setCtxOf, CoreSt.setCtx]

/-- The completion of an effect keeps what the effect left. -/
theorem done_after (r : State) (h : Head) (hc : r.curCtx < 5) :
    Frame {} r ((Eff.done r).finish h) ∧ Inside r ((Eff.done r).finish h) :=
  have k := done_frame (w := {}) h hc (Frame.refl r) (Inside.refl r) rfl rfl fun _ => rfl
  ⟨k.1, k.2.1⟩

theorem charge_endsBody (c : Ctx) : c.charge.endsBody = c.endsBody := by
  simp [Ctx.endsBody, Ctx.lastOfBody, Ctx.live, Ctx.lc, Ctx.suspended]

/-- The status registers after the count and a write of x, v, p or k registers. -/
theorem readStatus_setCtx (s : State) (y : Ctx) (hc : s.curCtx < 5) (h1 : y.tpc = s.ctx.tpc) (h2 : y.tcause = s.ctx.tcause)
    (h3 : y.tval = s.ctx.tval) (h6 : y.fpre = s.ctx.fpre) (h7 : y.fflags = s.ctx.fflags) (h8 : y.frm = s.ctx.frm)
    (h9 : y.fseed = s.ctx.fseed) (h10 : y.tid = s.ctx.tid) (h11 : y.grp = s.ctx.grp) (h12 : y.exitc = s.ctx.exitc)
    (h13 : y.hst = s.ctx.hst) (h14 : y.chb = s.ctx.chb) (h16 : y.gtol = s.ctx.gtol) (h17 : y.gdmp = s.ctx.gdmp) :
    ∀ n ∈ keptStatus, (s.setCtx y).readStatus n = s.readStatus n := by
  have e : (s.setCtx y).ctx = y := ctx_setCtx_same s y hc
  intro n hn
  exact readStatus_eq (s := s) (t := s.setCtx y) rfl rfl rfl rfl rfl (by rw [e, h1]) (by rw [e, h2]) (by rw [e, h3]) (by simp)
    (by simp) (by rw [e, h6]) (by rw [e, h7]) (by rw [e, h8]) (by rw [e, h9]) (by rw [e, h10]) (by rw [e, h11])
    (by rw [e, h12]) (by rw [e, h13]) (by rw [e, h14]) (by simp) (by rw [e, h16]) (by rw [e, h17]) n hn

theorem charge_rx (c : Ctx) (r : Reg) : c.charge.rx r = c.rx r := by simp [Ctx.rx]
theorem charge_rv (c : Ctx) (r : Reg) : c.charge.rv r = c.rv r := by simp [Ctx.rv]
theorem charge_rp (c : Ctx) (r : BitVec 3) : c.charge.rp r = c.rp r := by simp [Ctx.rp]
theorem charge_rk (c : Ctx) (r : BitVec 3) : c.charge.rk r = c.rk r := by simp [Ctx.rk]
theorem wx_rv (c : Ctx) (d r : Reg) (w : Word) : (c.wx d w).rv r = c.rv r := by simp [Ctx.rv]
theorem wx_rp (c : Ctx) (d : Reg) (r : BitVec 3) (w : Word) : (c.wx d w).rp r = c.rp r := by simp [Ctx.rp]
theorem wx_rk (c : Ctx) (d : Reg) (r : BitVec 3) (w : Word) : (c.wx d w).rk r = c.rk r := by simp [Ctx.rk]
theorem wv_rx (c : Ctx) (d r : Reg) (w : Vec) : (c.wv d w).rx r = c.rx r := by simp [Ctx.rx]
theorem wv_rp (c : Ctx) (d : Reg) (r : BitVec 3) (w : Vec) : (c.wv d w).rp r = c.rp r := by simp [Ctx.rp]
theorem wv_rk (c : Ctx) (d : Reg) (r : BitVec 3) (w : Vec) : (c.wv d w).rk r = c.rk r := by simp [Ctx.rk]
theorem wp_rx (c : Ctx) (d : BitVec 3) (r : Reg) (b : Bool) : (c.wp d b).rx r = c.rx r := by simp [Ctx.rx]
theorem wp_rv (c : Ctx) (d : BitVec 3) (r : Reg) (b : Bool) : (c.wp d b).rv r = c.rv r := by simp [Ctx.rv]
theorem wp_rk (c : Ctx) (d r : BitVec 3) (b : Bool) : (c.wp d b).rk r = c.rk r := by simp [Ctx.rk]
theorem wk_rx (c : Ctx) (d : BitVec 3) (r : Reg) (w : Word) : (c.wk d w).rx r = c.rx r := by simp [Ctx.rx]
theorem wk_rv (c : Ctx) (d : BitVec 3) (r : Reg) (w : Word) : (c.wk d w).rv r = c.rv r := by simp [Ctx.rv]
theorem wk_rp (c : Ctx) (d r : BitVec 3) (w : Word) : (c.wk d w).rp r = c.rp r := by simp [Ctx.rp]

/-- An instruction that writes one x register and completes. -/
theorem done_wx {s : State} (h : Head) (hc : s.curCtx < 5) (d : Reg) (w : Word) :
    ((Eff.done (s.setCtx (s.ctx.charge.wx d w))).finish h).ctx.rx d = (if d = 0 then 0 else w) ∧
      Frame { x := [d] } s ((Eff.done (s.setCtx (s.ctx.charge.wx d w))).finish h) ∧
      Inside s ((Eff.done (s.setCtx (s.ctx.charge.wx d w))).finish h) ∧
      Advanced s ((Eff.done (s.setCtx (s.ctx.charge.wx d w))).finish h) := by
  have e := ctx_setCtx_same s (s.ctx.charge.wx d w) hc
  refine ⟨?_, done_setCtx h _ hc ?_ (fun r _ => by rw [wx_rv, charge_rv]) (fun r _ => by rw [wx_rp, charge_rp])
    (fun r _ => by rw [wx_rk, charge_rk]) ?_ (by simp) (by simp)
    (by simp [Ctx.endsBody, Ctx.lastOfBody, Ctx.live, Ctx.lc, Ctx.suspended]) (by simp) (by simp)⟩
  · rw [(done_after (s.setCtx (s.ctx.charge.wx d w)) h hc).1.x d (List.not_mem_nil), e, rx_wx]
    simp
  · intro r hr
    have hr' : r ≠ d := by simpa using hr
    rw [rx_wx, if_neg hr', charge_rx]
    split
    · next q => simp [Ctx.rx, q]
    · rfl
  · intro n hn _
    exact readStatus_setCtx s _ hc (by simp) (by simp) (by simp) (by simp) (by simp) (by simp) (by simp) (by simp)
      (by simp) (by simp) (by simp) (by simp) (by simp) (by simp) n hn

/-- An instruction that writes one p register and completes. -/
theorem done_wp {s : State} (h : Head) (hc : s.curCtx < 5) (d : BitVec 3) (b : Bool) :
    ((Eff.done (s.setCtx (s.ctx.charge.wp d b))).finish h).ctx.rp d = (if d = 0 then true else b) ∧
      Frame { p := [d] } s ((Eff.done (s.setCtx (s.ctx.charge.wp d b))).finish h) ∧
      Inside s ((Eff.done (s.setCtx (s.ctx.charge.wp d b))).finish h) ∧
      Advanced s ((Eff.done (s.setCtx (s.ctx.charge.wp d b))).finish h) := by
  have e := ctx_setCtx_same s (s.ctx.charge.wp d b) hc
  refine ⟨?_, done_setCtx h _ hc (fun r _ => by rw [wp_rx, charge_rx]) (fun r _ => by rw [wp_rv, charge_rv]) ?_
    (fun r _ => by rw [wp_rk, charge_rk]) ?_ (by simp) (by simp)
    (by simp [Ctx.endsBody, Ctx.lastOfBody, Ctx.live, Ctx.lc, Ctx.suspended]) (by simp) (by simp)⟩
  · rw [(done_after (s.setCtx (s.ctx.charge.wp d b)) h hc).1.p d (List.not_mem_nil), e, rp_wp]
    simp
  · intro r hr
    have hr' : r ≠ d := by simpa using hr
    rw [rp_wp, if_neg hr', charge_rp]
    split
    · next q => simp [Ctx.rp, q]
    · rfl
  · intro n hn _
    exact readStatus_setCtx s _ hc (by simp) (by simp) (by simp) (by simp) (by simp) (by simp) (by simp) (by simp)
      (by simp) (by simp) (by simp) (by simp) (by simp) (by simp) n hn

/-- An instruction that writes one k register and completes. -/
theorem done_wk {s : State} (h : Head) (hc : s.curCtx < 5) (d : BitVec 3) (w : Word) :
    ((Eff.done (s.setCtx (s.ctx.charge.wk d w))).finish h).ctx.rk d = (if d = 0 then BitVec.allOnes 64 else w) ∧
      Frame { k := [d] } s ((Eff.done (s.setCtx (s.ctx.charge.wk d w))).finish h) ∧
      Inside s ((Eff.done (s.setCtx (s.ctx.charge.wk d w))).finish h) ∧
      Advanced s ((Eff.done (s.setCtx (s.ctx.charge.wk d w))).finish h) := by
  have e := ctx_setCtx_same s (s.ctx.charge.wk d w) hc
  refine ⟨?_, done_setCtx h _ hc (fun r _ => by rw [wk_rx, charge_rx]) (fun r _ => by rw [wk_rv, charge_rv])
    (fun r _ => by rw [wk_rp, charge_rp]) ?_ ?_ (by simp) (by simp)
    (by simp [Ctx.endsBody, Ctx.lastOfBody, Ctx.live, Ctx.lc, Ctx.suspended]) (by simp) (by simp)⟩
  · rw [(done_after (s.setCtx (s.ctx.charge.wk d w)) h hc).1.k d (List.not_mem_nil), e, rk_wk]
    simp
  · intro r hr
    have hr' : r ≠ d := by simpa using hr
    rw [rk_wk, if_neg hr', charge_rk]
    split
    · next q => simp [Ctx.rk, q]
    · rfl
  · intro n hn _
    exact readStatus_setCtx s _ hc (by simp) (by simp) (by simp) (by simp) (by simp) (by simp) (by simp) (by simp)
      (by simp) (by simp) (by simp) (by simp) (by simp) (by simp) n hn

/-- A frame holds of the registers alone. -/
theorem frame_regs {w : Writes} {s t : State} (f : Frame w s t) : Regs w s t := ⟨f.issuing, f.x, f.v, f.p, f.k, f.status⟩

end Sys2Proof.Machine
end

