-- ==== Sys2Proof/Tests/Slice0.lean ====
section
/-! SUPPORT. Tests: words of the spec's listings and words written out from its encodings, the checks of WellFormed,
single steps on small states, and for every statement with hypotheses a state that meets them. -/

namespace Sys2Proof.Tests
open Sys2Proof.Machine
set_option Elab.async false

/-! Small states. -/

/-- A task on core 0, context 0, after a change. -/
def task (f : Ctx → Ctx := id) : State := State.reset.setCtx (f { State.reset.ctx with role := .task })

/-- The issuing core changed. -/
def core0 (f : CoreSt → CoreSt) (s : State) : State := s.setMe (f s.me)

/-- A trap handler is set. -/
def handled : CoreSt → CoreSt := fun c => { c with tvec := 0x8000 }

/-- A cached page of a cell type and a width code at 0x1000_0000_0000, in stack 0, group 0. -/
def page (ty width : Nat) : TlbEntry :=
  { slot := 0, va := 2 ^ 44, size := 2 ^ 17, w0 := 0x21, w1 := BitVec.ofNat 64 (ty * 2 ^ 52 + width * 2 ^ 50) }

/-- The issuing core has that page. -/
def cached (ty width : Nat) (s : State) : State := core0 (fun c => { c with tlb := [page ty width] }) s

/-- The byte of that page at its start. -/
def spot (ty width : Nat) : Spot := { e := page ty width, va := 2 ^ 44, pkg := 0, pa := 2 ^ 40, home := 4096 }

/-- x5 holds the start of that page. -/
def base (f : Ctx → Ctx := id) : Ctx → Ctx := fun c => f (c.wx 5 (BitVec.ofNat 64 (2 ^ 44)))

/-- What `Clear` asks, as a computation. -/
def clearB (s : State) (k : Cls) (h : Head) (uses : List Nat) : Bool :=
  decide (s.curCtx < 5) && !s.ctx.spent && (decide (s.ctx.pfx = none) || k.fmt) && s.ctx.legal k && s.ctx.guard h.g &&
    (uses.all fun n => n == 0 || !s.ctx.pending.getLsbD n) && s.ctx.faulted.isEmpty

theorem clear_of {s : State} {k : Cls} {h : Head} {uses : List Nat} (e : clearB s k h uses = true) : Clear s k h uses := by
  simp only [clearB, Bool.and_eq_true, Bool.or_eq_true, decide_eq_true_eq, Bool.not_eq_true', List.all_eq_true,
    beq_iff_eq, List.isEmpty_iff] at e
  obtain ⟨⟨⟨⟨⟨⟨a, b⟩, c⟩, d⟩, e⟩, f⟩, g⟩ := e
  exact ⟨a, b, c, d, e, fun n m z => (f n m).resolve_left z, fun _ _ _ => .inr (by simp [g])⟩

/-- A head without guard and marker. -/
abbrev h0 : Head := Head.plain

theorem ready_of {s : State} {d r : List Reg}
    (e : (s.ctx.channelsLegal d r && (s.ctx.channelPorts r).all fun q => (s.me.port q).ready) = true) : ChannelsReady s d r := by
  simp only [Bool.and_eq_true, List.all_eq_true] at e
  exact e

theorem local_of {s : State} {va n : Nat} {st : Bool}
    (e : (decide (va < 0x400000) && s.localOk va n st && va % n == 0 && !s.poisoned (localPa s.cur va) n) = true) :
    LocalOk s va n st := by
  simp only [Bool.and_eq_true, decide_eq_true_eq, beq_iff_eq, Bool.not_eq_true'] at e
  exact ⟨e.1.1.1, e.1.1.2, e.1.2, e.2⟩

/-- What holds of every number below `k`, by computation. -/
theorem upto {P : Nat → Prop} (b : Nat → Bool) {k : Nat} (e : (List.range k).all b = true) (f : ∀ n, b n = true → P n) :
    ∀ n, n < k → P n := fun n h => f n (List.all_eq_true.1 e n (List.mem_range.2 h))

/-- A result that is no error. -/
def fine {α β : Type} : Except α β → Bool
  | .ok _ => true
  | .error _ => false
theorem ok_of {α β : Type} {e : Except α β} (h : fine e = true) : ∃ b, e = .ok b := by
  cases e with
  | ok b => exact ⟨b, rfl⟩
  | error a => exact absurd h (by simp [fine])


/-! Decoding: words of the listings of chapters 5 and 18 to 22, and words written out from the encoding table. -/

/-- What the decoder makes of a 32-bit word. -/
abbrev dec (w : Nat) : Option Instr := decodeTableWord 32 w
theorem test_decode_scalar : dec 0x0054B600 = some (.add h0 10 11 12) ∧ dec 0x0071_8C91 = some (.minu h0 24 24 25) ∧
    dec 0x00864283 = some (.mulhsu h0 3 4 5) ∧ dec 0x00D6_BFFF = some (.addi h0 11 11 0xFFF) ∧ dec 0x01D3_0438 = some (.srli h0 9 16 56) ∧
    dec 0x10CC_6400 = some (.addi { h0 with g := 1 } 6 6 0x400) := by decide +kernel
theorem test_decode_memory : dec 0x03E3_5000 = some (.ld h0 17 21 0) ∧ dec 0x844D_2000 = some (.lhu { h0 with sw := true } 6 18 0) ∧
    dec 0x0595_8010 = some (.sd h0 10 24 16) ∧ dec 0x060B_4205 = some (.vst h0 5 20 0x205) ∧ dec 0x064221C8 = some (.vldx h0 1 2 3 4 2) ∧
    dec 0x068A6FFF = some (.get h0 5 6 0xFFF) ∧ dec 0x06D1_0200 = some (.thr h0 8 16 4 0) ∧ dec 0x0701_7C04 = some (.bdecl h0 23 24) ∧
    dec 0x0740_0001 = some (.fence h0 1) := by decide +kernel
theorem test_decode_control : dec 0x07F9_DFFD = some (.bne h0 28 29 0xFFD) ∧ dec 0x0908_0008 = some (.brp h0 4 0 8) ∧
    dec 0x097F_FF81 = some (.j h0 0x3FFF81) ∧ dec 0x09BF_FFD4 = some (.jal h0 0x3FFFD4) ∧ dec 0x09C0_1000 = some (.jalr h0 0 1 0) ∧
    dec 0x0A0E_0012 = some (.loop h0 0 14 18) ∧ dec 0x0A48_200B = some (.loopi h0 0 130 11) ∧ dec 0x0000_0003 = some (.iret h0) ∧
    dec 0x0BF8_0002 = some (.mfs h0 28 2) ∧ dec 0x0C00_5004 = some (.mts h0 5 4) ∧ dec 0x0C44_3500 = some (.rep h0 1 3 1 1 0) := by decide +kernel
theorem test_decode_tasks : dec 0x0AC0_5001 = some (.spawnat h0 5) ∧ dec 0x0AC1_4A82 = some (.join h0 20 21) ∧ dec 0x0AC05004 = some (.bar h0 5) ∧
    dec 0x0AC65307 = some (.chbind h0 3 5 6) ∧ dec 0x0B805301 = some (.send h0 5 6) ∧
    dec 0x8B61_6000 = some (.hcall { h0 with sw := true } 16 22 0 0 0) ∧ dec 0x0B80_0000 = some (.hret h0 0) := by decide +kernel
theorem test_decode_predicates : dec 0x0A89_200A = some (.pmovx h0 4 18) ∧ dec 0x0A8D_5001 = some (.pne h0 6 21 0) ∧
    dec 0x0A82_4306 = some (.pand h0 1 4 6) ∧ dec 0x0E82_5005 = some (.xmovk h0 1 5) ∧ dec 0x0E822180 = some (.kand h0 1 2 3) := by decide +kernel
theorem test_decode_vectors : dec 0x0D31_8A87 = some (.vmax h0 24 24 21 0) ∧ dec 0x0D4221C0 = some (.viadd h0 1 2 3 4) ∧
    dec 0x0D843212 = some (.vclt h0 2 3 4 1) ∧ dec 0x0DDA_5306 = some (.vins h0 13 5 6 0) ∧ dec 0x0DCA_C305 = some (.vext h0 5 12 6) ∧
    dec 0x0E022033 = some (.vcvt h0 1 2 3 3) ∧ dec 0x0E422000 = some (.vrsum h0 1 2 0) ∧ dec 0x0C84_4E00 = some (.fmt 1 1 1 6 0 0 0) := by decide +kernel
theorem test_decode_engines : dec 0x0ED8_6011 = some (.gacc h0 12 6 1) ∧ dec 0x0EE4_C014 = some (.gsch h0 18 12 1) ∧
    dec 0x0EE5_8A05 = some (.gdmp h0 18 24 20) ∧ dec 0x2ECD_3008 = some (.grcv { h0 with g := 2 } 6 19) ∧ dec 0x0F00_A002 = some (.mma h0 10) ∧
    dec 0x0F00_0006 = some (.rrow h0) ∧ dec 0x0F41_7B00 = some (.nbcfg h0 23 22) ∧ dec 0x8F53_6002 = some (.nbget { h0 with sw := true } 9 22) ∧
    dec 0x0F41_6003 = some (.nbrel h0 22) ∧ dec 0x0F81_5001 = some (.cpyx h0 21) ∧ dec 0x8CD0_1001 = some (.qrd { h0 with sw := true } 8 1) := by decide +kernel
/-- Words that no instruction has: guard 100, an unused opcode, a bit that must be zero, marked REP. -/
theorem test_decode_illegal : dec 0x40000000 = none ∧ dec 0x0FC00000 = none ∧ dec 0x00000008 = none ∧ dec 0x8C443500 = none := by decide +kernel

/-! WellFormed: for each of its checks a term that it refuses. -/

theorem test_wf_guard : (Instr.add { h0 with g := 4 } 1 2 3).check = some .guardNever := by decide +kernel
theorem test_wf_rep : (Instr.rep { h0 with sw := true } 1 3 1 1 0).check = some .markedRep := by decide +kernel
theorem test_wf_colour : (Instr.setc h0 8).check = some .colour ∧ (Instr.setc h0 7).check = none := by decide +kernel
theorem test_wf_loop : (Instr.loopi h0 0 5 0).check = some .emptyLoop := by decide +kernel
theorem test_wf_status : (Instr.mfs h0 5 0x007).check = some .statusIndex := by decide +kernel
theorem test_wf_queue : (Instr.qwr h0 6 5).check = some .queue := by decide +kernel
theorem test_wf_block : (Instr.gzero h0 27).check = some .gBlock ∧ (Instr.gzero h0 26).check = none := by decide +kernel
theorem test_wf_payload : (Instr.hcall h0 0 5 0 0 0).check = some .payload ∧ (Instr.hcall h0 24 5 0 7 0).check = some .payload := by decide +kernel
theorem test_wf_prefix : (Instr.fmt 9 9 1 6 0 0 0).check = some .prefixCode := by decide +kernel
theorem test_wf_zero : (Instr.get h0 0 5 0).check = some .zeroDest := by decide +kernel
theorem test_wf_target : (Instr.vcvt h0 1 2 0 9).check = some .target := by decide +kernel

/-! Single steps, with results from the spec. -/

/-- What stands in the state after an instruction. -/
def after {α : Type} (i : Instr) (s : State) (f : State → α) : Option α :=
  match exec i s with
  | .next t => some (f t)
  | _ => none
/-- x5 and x6 of a task. -/
def xs (a b : Word) : State := task fun c => (c.wx 5 a).wx 6 b
/-- x7 after an instruction. -/
abbrev x7 (i : Instr) (a b : Word) : Option Word := after i (xs a b) (·.ctx.rx 7)
theorem test_add_wraps : x7 (.add h0 7 5 6) (2 ^ 64 - 1) 2 = some 1 := by decide +kernel
theorem test_sll_count : x7 (.sll h0 7 5 6) 3 65 = some 6 := by decide +kernel
theorem test_div_zero : x7 (.div h0 7 5 6) 9 0 = some 0xFFFFFFFFFFFFFFFF ∧ x7 (.rem h0 7 5 6) 9 0 = some 9 := by decide +kernel
theorem test_div_overflow : x7 (.div h0 7 5 6) (2 ^ 63) (2 ^ 64 - 1) = some 0x8000000000000000 ∧ x7 (.rem h0 7 5 6) (2 ^ 63) (2 ^ 64 - 1) = some 0 := by decide +kernel
theorem test_lui : x7 (.lui h0 7 0x7F00) 0 0 = some 0x3F800000 := by decide +kernel
theorem test_x0 : after (.addi h0 0 5 1) (xs 8 0) (·.ctx.rx 0) = some 0 := by decide +kernel
theorem test_store_order : after (.sw h0 5 6 0) (xs 0x01020304 0x100000) (fun t => readBytes t.mem 0x100000 4) = some [4, 3, 2, 1] := by decide +kernel
theorem test_branch_back : after (.bne h0 5 6 0xFFD) ((xs 1 0).setCtx { (xs 1 0).ctx with pc := 0x0C }) (·.ctx.pc) = some 0 := by decide +kernel
/-- 1.0 + 1.0 = 2.0 in every lane. -/
theorem test_vadd : after (.vadd h0 3 1 2 0) (task fun c => (c.wv 1 (packLanes 32 (List.replicate 16 0x3F800000))).wv 2
      (packLanes 32 (List.replicate 16 0x3F800000))) (·.ctx.rv 3) = some (packLanes 32 (List.replicate 16 0x40000000)) := by decide +kernel
/-- TRAP 5 at 0x40 enters the handler with cause 0x0C and tval 5, and tpc is its own word (R143, R336). -/
theorem test_trap : after (.trap h0 5) (core0 handled (task fun c => { c with pc := 0x40 }))
    (fun t => (t.ctx.pc, t.ctx.tcause, t.ctx.tval, t.ctx.tpc)) = some (0x8000, 0x0C, 5, 0x40) ∧
    after (.trap h0 5) (core0 handled task) (·.ctx.tstat) = some 0x10000 := by decide +kernel
/-! Witnesses: scalar instructions. -/

theorem wit_scalar : ∃ i c s, scalarCase i = some c ∧ Clear s c.cls c.h c.uses :=
  ⟨.add h0 1 2 3, _, task, rfl, clear_of (by decide +kernel)⟩
theorem wit_predicate : ∃ i c s, predCase i = some c ∧ Clear s clsPlain c.h c.uses :=
  ⟨.peq h0 0 2 3, _, task, rfl, clear_of (by decide +kernel)⟩
theorem wit_mask : ∃ i c s, maskCase i = some c ∧ Clear s clsMask c.h c.uses :=
  ⟨.kand h0 0 1 2, _, task, rfl, clear_of (by decide +kernel)⟩
theorem wit_branch_not_taken : ∃ i c s, branchCase i = some c ∧ Clear s clsPlain c.h c.uses ∧ ¬c.taken s.ctx :=
  ⟨.bne h0 1 2 1, _, task, rfl, clear_of (by decide +kernel), by decide +kernel⟩
theorem wit_branch_taken : ∃ i c s, branchCase i = some c ∧ Clear s clsPlain c.h c.uses ∧ c.taken s.ctx ∧
    (s.ctx.pc + BitVec.ofInt 64 (4 * c.off.toInt)).toNat = 0x3FFFFC :=
  ⟨.beq h0 1 2 2047, _, task fun c => { c with pc := 0x3FE000 }, rfl, clear_of (by decide +kernel), by decide +kernel, by decide +kernel⟩
theorem wit_branch_out : ∃ i c s, branchCase i = some c ∧ Clear s clsPlain c.h c.uses ∧ c.taken s.ctx ∧
    0x400000 ≤ (s.ctx.pc + BitVec.ofInt 64 (4 * c.off.toInt)).toNat :=
  ⟨.beq h0 1 2 (-1), _, task, rfl, clear_of (by decide +kernel), by decide +kernel, by decide +kernel⟩
theorem wit_j : ∃ (s : State) (o : BitVec 22), Clear s clsPlain h0 [1] ∧
    (s.ctx.pc + BitVec.ofInt 64 (4 * o.toInt)).toNat < 0x400000 := ⟨task, 8, clear_of (by decide +kernel), by decide +kernel⟩
theorem wit_jal_out : ∃ (s : State) (o : BitVec 22), Clear s clsPlain h0 [] ∧ Clear s clsPlain h0 [1] ∧
    0x400000 ≤ (s.ctx.pc + BitVec.ofInt 64 (4 * o.toInt)).toNat :=
  ⟨task, -1, clear_of (by decide +kernel), clear_of (by decide +kernel), by decide +kernel⟩
theorem wit_jalr : ∃ (s : State) (d a : Reg) (i : BitVec 12), Clear s clsPlain h0 [ux a, ux d] ∧
    (s.ctx.rx a + BitVec.ofInt 64 i.toInt).toNat < 0x400000 ∧ (s.ctx.rx a + BitVec.ofInt 64 i.toInt).toNat % 4 = 0 :=
  ⟨task fun c => c.wx 5 0x3FFFF8, 1, 5, 4, clear_of (by decide +kernel), by decide +kernel, by decide +kernel⟩
theorem wit_jalr_out : ∃ (s : State) (d a : Reg) (i : BitVec 12), Clear s clsPlain h0 [ux a, ux d] ∧
    (s.ctx.rx a + BitVec.ofInt 64 i.toInt).toNat = 0x400000 :=
  ⟨task fun c => c.wx 5 0x3FFFFC, 1, 5, 4, clear_of (by decide +kernel), by decide +kernel⟩
theorem wit_jalr_odd : ∃ (s : State) (d a : Reg) (i : BitVec 12), Clear s clsPlain h0 [ux a, ux d] ∧
    (s.ctx.rx a + BitVec.ofInt 64 i.toInt).toNat < 0x400000 ∧ (s.ctx.rx a + BitVec.ofInt 64 i.toInt).toNat % 4 ≠ 0 :=
  ⟨task fun c => c.wx 5 0x3FFFFC, 1, 5, 2, clear_of (by decide +kernel), by decide +kernel, by decide +kernel⟩
theorem wit_loop : ∃ (s : State) (a : Reg) (l : BitVec 1) (len : BitVec 12), Clear s clsPlain h0 [ux a] ∧
    MayOpen s.ctx l.toNat len.toNat ∧ s.ctx.pc.toNat % 4 = 0 ∧ s.ctx.pc.toNat + 4 < 0x100000 ∧ len ≠ 0 ∧ (s.ctx.rx a).toNat = 2 ^ 32 - 1 :=
  ⟨task fun c => c.wx 5 0xFFFFFFFF, 5, 0, 1, clear_of (by decide +kernel), by unfold MayOpen; decide +kernel, by decide +kernel, by decide +kernel,
    by decide +kernel, by decide +kernel⟩
theorem wit_loop_large : let s := task fun c => c.wx 5 0x100000000
    Clear s clsPlain h0 [ux 5] ∧ MayOpen s.ctx 0 1 ∧ (s.ctx.rx 5).toNat = 2 ^ 32 :=
  ⟨clear_of (by decide +kernel), by unfold MayOpen; decide +kernel, by decide +kernel⟩
/-- A context in loop 0 over one word at 0x100, with a count. -/
def looping (count : Nat) (c : Ctx) : Ctx := c.setLc 0 (lcMake true 1 0x100 count)
/-- Loop 1, of two words, ends at the same word. -/
def nested (n m : Nat) (c : Ctx) : Ctx := (looping n c).setLc 1 (lcMake true 2 0xFC m)
theorem wit_loop_zero : let s := task fun c => { looping 3 c with pc := 0xFC }
    Clear s clsPlain h0 [] ∧ Clear task clsPlain h0 [] ∧ MayOpen task.ctx 1 1 ∧ MayOpen s.ctx 1 1 ∧ s.ctx.pc.toNat + 4 < 0x100000 ∧
      EndsAt s.ctx 0 (s.ctx.pc.toNat + 4 * 1) ∧ 1 ≤ lcCount (s.ctx.lc 0) :=
  ⟨clear_of (by decide +kernel), clear_of (by decide +kernel), by unfold MayOpen; decide +kernel, by unfold MayOpen; decide +kernel, by decide +kernel,
    by unfold EndsAt; decide +kernel, by decide +kernel⟩
theorem wit_loop_illegal : ¬MayOpen (looping 1 {}) 0 1 ∧ ¬MayOpen { looping 1 {} with pc := 0x100 } 1 1 ∧ task.ctx.spent = false ∧ task.ctx.pfx = none :=
  ⟨by unfold MayOpen; decide +kernel, by unfold MayOpen; decide +kernel, by decide +kernel, by decide +kernel⟩
theorem wit_body_ends : ∀ f ∈ [looping 1, looping 2, nested 1 1, nested 1 2, nested 2 1], let s := task fun c => { f c with pc := 0x100 }
    clearB s clsArith h0 [ux 2, ux 3, ux 1] = true ∧ s.ctx.rep = false ∧ s.ctx.live 0 = true ∧ lcLast (s.ctx.lc 0) = 0x100 ∧
      1 ≤ lcCount (s.ctx.lc 0) ∧ ((s.ctx.live 1 && lcLast (s.ctx.lc 1) == 0x100) = true → 1 ≤ lcCount (s.ctx.lc 1)) ∧
      s.ctx.guard 2 = false ∧ s.ctx.legal clsArith = true := by decide +kernel
theorem wit_body_branch : ∃ c, branchCase (.bne h0 1 2 1) = some c ∧ let s := task fun c => { looping 2 c with pc := 0x100 }
    Clear s clsPlain h0 [ux 1, ux 2] ∧ ¬c.taken s.ctx := ⟨_, rfl, clear_of (by decide +kernel), by decide +kernel⟩
theorem wit_cut : ∃ c, branchCase (.beq h0 1 2 1) = some c ∧ let s := task fun c => { nested 2 3 c with pc := 0xFC }
    Clear s clsPlain h0 [ux 1, ux 2] ∧ c.taken s.ctx ∧ (s.ctx.pc + BitVec.ofInt 64 (4 * c.off.toInt)).toNat = 0x100 ∧ s.ctx.live 0 = true ∧
      (lcStart (s.ctx.lc 0) ≤ 0x103 ∧ 0x103 < lcStart (s.ctx.lc 0) + 4 * lcLen (s.ctx.lc 0)) ∧
      ¬(lcStart (s.ctx.lc 0) ≤ 0xFF ∧ 0xFF < lcStart (s.ctx.lc 0) + 4 * lcLen (s.ctx.lc 0)) :=
  ⟨_, rfl, clear_of (by decide +kernel), by decide +kernel, by decide +kernel, by decide +kernel, by decide +kernel, by decide +kernel⟩
theorem wit_misc : Clear task clsPlain h0 [] ∧ Clear task clsMisc h0 [] ∧ task.curCtx < 4 ∧ task.ctx.flagged = false :=
  ⟨clear_of (by decide +kernel), clear_of (by decide +kernel), by decide +kernel, by decide +kernel⟩
/-- A row handler in context 4. -/
def row (j : RowJob := default) (f : Ctx → Ctx := id) : State :=
  let s := { State.reset with curCtx := 4 }
  s.setCtx (f { s.ctx with role := .row j 1, hbud := 64 })
/-- A hinge handler in context 4. -/
def hinge (k : Call := default) (f : Ctx → Ctx := id) : State :=
  let s := { State.reset with curCtx := 4 }
  s.setCtx (f { s.ctx with role := .hinge k 1, hbud := 256 })
theorem wit_yield_handler : Clear (row) clsMisc h0 [] ∧ (row).curCtx = 4 := ⟨clear_of (by decide +kernel), by decide +kernel⟩
theorem wit_trap_enters : ∃ s : State, s.curCtx < 5 ∧ s.ctx.role = .task ∧ s.ctx.inh = false ∧ s.me.tvec ≠ 0 ∧
    Clear s clsMisc h0 [] ∧ s.me.haltOnBrk = false :=
  ⟨core0 handled task, by decide +kernel, by decide +kernel, by decide +kernel, by decide +kernel, clear_of (by decide +kernel), by decide +kernel⟩
theorem wit_trap_prefix : ∃ s : State, ∃ b, s.curCtx < 5 ∧ s.ctx.role = .task ∧ s.ctx.inh = false ∧ s.me.tvec ≠ 0 ∧
    s.ctx.rep = false ∧ s.ctx.pfx = some b :=
  ⟨core0 handled (task fun c => { c with pfx := some 0x3FFFFF }), 0x3FFFFF, by decide +kernel, by decide +kernel, by decide +kernel, by decide +kernel, by decide +kernel,
    by decide +kernel⟩
theorem wit_trap_fails : ∃ s : State, s.curCtx < 5 ∧ s.ctx.role = .task ∧ s.me.tvec = 0 :=
  ⟨task, by decide +kernel, by decide +kernel, by decide +kernel⟩
theorem wit_trap_fails_twice : ∃ s : State, s.curCtx < 5 ∧ s.ctx.role = .task ∧ s.ctx.inh = true :=
  ⟨task fun c => { c with tstat := 0x10000 }, by decide +kernel, by decide +kernel, by decide +kernel⟩
theorem wit_breakpoint_halts : ∃ s : State, Clear s clsMisc h0 [] ∧ s.ctx.role = .task ∧ s.ctx.inh = false ∧ s.me.tvec ≠ 0 ∧
    s.me.haltOnBrk = true :=
  ⟨core0 (fun c => { handled c with haltOnBrk := true }) task, clear_of (by decide +kernel), by decide +kernel, by decide +kernel, by decide +kernel, by decide +kernel⟩
theorem wit_iret : ∃ s : State, Clear s clsMisc h0 [] ∧ s.ctx.inh = true :=
  ⟨task fun c => { c with tstat := 0x10000 }, clear_of (by decide +kernel), by decide +kernel⟩
theorem wit_iret_outside : ∃ s : State, s.ctx.spent = false ∧ s.ctx.pfx = none ∧ s.ctx.inh = false :=
  ⟨task, by decide +kernel, by decide +kernel, by decide +kernel⟩
theorem wit_capture : ∃ s : State, Clear s clsCapture Head.plain [] ∧ s.ctx.endsBody = false :=
  ⟨task, clear_of (by decide +kernel), by decide +kernel⟩
/-- A task that replays the REP of two captured words and three iterations at 0, at a position, with words behind it. -/
def replaying (slot iter : Nat) (ws : List Nat) (f : Ctx → Ctx := id) : State :=
  { task (fun c => f ({ c with rep := true }.repAt slot iter)) with
    mem := writeBytes [] 0 (natBytes 4 (Instr.rep h0 1 2 1 0 0).wordOf.toNat ++ ws.flatMap (natBytes 4)) }
/-- An ADD, an FMT, and a word of no instruction. -/
def addWord : Nat := 0x0054B600
def fmtWord : Nat := 0x0C844E00
def noWord : Nat := 0x40000000
theorem replays_of {s : State} (e : (s.ctx.rep && s.insn s.ctx.pc.toNat == (Instr.rep h0 1 2 1 0 0).wordOf) = true) : Replays s 2 3 1 0 0 := by
  simp only [Bool.and_eq_true, beq_iff_eq] at e
  exact ⟨e.1, h0, 1, 2, 1, 0, 0, by rw [e.2]; rfl, rfl, rfl, rfl, rfl, rfl⟩
theorem fetch_of {s : State} {a : Nat} (e : (decide (a < s.me.xb.toNat) && !s.poisoned (localPa s.cur a) 4 && s.me.loading.isEmpty) = true) :
    FetchOk s a := by
  simp only [Bool.and_eq_true, decide_eq_true_eq, Bool.not_eq_true', List.isEmpty_iff] at e
  exact ⟨e.1.1, e.1.2, by rw [e.2]; exact fun _ h => nomatch h⟩
theorem wit_replayed : ∀ p ∈ [(0, 0), (1, 1), (1, 2), (0, 2)], let s := replaying p.1 p.2 [addWord, addWord]
    clearB s clsArith h0 [ux 11, ux 12, ux 10] = true ∧ clsArith.rep = true ∧
      (s.ctx.rep && s.insn s.ctx.pc.toNat == (Instr.rep h0 1 2 1 0 0).wordOf) = true ∧ s.ctx.rslot = p.1 ∧ s.ctx.riter = p.2 ∧ s.cur < 2048 ∧
      s.ctx.guard 2 = false ∧ s.ctx.legal clsArith = true := by decide +kernel
theorem wit_mfs : ∃ (s : State) (d : Reg) (idx : BitVec 12), Clear s clsPlain h0 [ux d] ∧ idx.toNat ∈ statusIndices :=
  ⟨task, 5, 0x080, clear_of (by decide +kernel), by decide +kernel⟩
theorem wit_mts_tstat : let s := task fun c => { c with tstat := 0x10000 }.wx 5 0xFFFF
    Clear s clsPlain h0 [ux 5] ∧ s.ctx.mtsLegal 0x000 = true ∧ statusBits 0x000 = some (~~~0xFFFF#64, 0xFFFF#64) ∧ statusTakes s 0x000 (s.ctx.rx 5) :=
  ⟨clear_of (by decide +kernel), by decide +kernel, by decide +kernel, by unfold statusTakes; decide +kernel⟩
theorem wit_mts_tvec : let s := task fun c => c.wx 5 0xFFFFC
    Clear s clsPlain h0 [ux 5] ∧ s.ctx.mtsLegal 0x004 = true ∧ statusBits 0x004 = some (0, 0xFFFFFC#64) ∧ statusTakes s 0x004 (s.ctx.rx 5) :=
  ⟨clear_of (by decide +kernel), by decide +kernel, by decide +kernel, by unfold statusTakes; decide +kernel⟩
theorem wit_mts_xb_high : let s := task fun c => { c with tstat := 0x10000 }.wx 5 0x100000
    Clear s clsPlain h0 [ux 5] ∧ s.ctx.mtsLegal 0x005 = true ∧ statusBits 0x005 = some (0, BitVec.allOnes 64) ∧ statusTakes s 0x005 (s.ctx.rx 5) :=
  ⟨clear_of (by decide +kernel), by decide +kernel, by decide +kernel, by unfold statusTakes; decide +kernel⟩
theorem wit_mts_xb_low : let s := task fun c => { c with tstat := 0x10000 }.wx 5 0x1000
    Clear s clsPlain h0 [ux 5] ∧ s.ctx.mtsLegal 0x005 = true ∧ statusBits 0x005 = some (0, BitVec.allOnes 64) ∧ statusTakes s 0x005 (s.ctx.rx 5) :=
  ⟨clear_of (by decide +kernel), by decide +kernel, by decide +kernel, by unfold statusTakes; decide +kernel⟩
theorem wit_mts_lc1 : let s := task fun c => c.wx 5 0
    Clear s clsPlain h0 [ux 5] ∧ s.ctx.mtsLegal 0x011 = true ∧ statusBits 0x011 = some (~~~0xFFFFFFFF#64, 0xFFFFFFFF#64) ∧ statusTakes s 0x011 (s.ctx.rx 5) :=
  ⟨clear_of (by decide +kernel), by decide +kernel, by decide +kernel, by unfold statusTakes; decide +kernel⟩
theorem wit_mts_illegal : ∃ (s : State) (idx : BitVec 12), s.ctx.spent = false ∧ s.ctx.pfx = none ∧ s.ctx.mtsLegal idx.toNat = false :=
  ⟨task, 0x030, by decide +kernel, by decide +kernel, by decide +kernel⟩

/-! Witnesses: memory instructions. -/

theorem wit_load_local : ∃ i c s, loadCase i = some c ∧ Clear s clsPlain c.h [ux c.a, ux c.d] ∧
    LocalOk s (s.ctx.rx c.a + BitVec.ofInt 64 c.off.toInt).toNat c.bytes false :=
  ⟨.ld h0 6 5 (-8), _, task fun c => c.wx 5 0x100000, rfl, clear_of (by decide +kernel), local_of (by decide +kernel)⟩
theorem wit_load_global : ∃ i c s p, loadCase i = some c ∧ Clear s clsPlain c.h [ux c.a, ux c.d] ∧
    let va := (s.ctx.rx c.a + BitVec.ofInt 64 c.off.toInt).toNat
    0x400000 ≤ va ∧ s.check va (fun _ => c.bytes) .anyGroup = .ok p ∧ p.e.loadTrap va s.inHinge = none :=
  ⟨.lw h0 6 5 0, _, cached 1 2 (task base), spot 1 2, rfl, clear_of (by decide +kernel), by decide +kernel, by decide +kernel, by decide +kernel⟩
theorem wit_store_local : ∃ i c s, storeCase i = some c ∧ Clear s clsPlain c.h [ux c.a, ux c.d] ∧
    LocalOk s (s.ctx.rx c.a + BitVec.ofInt 64 c.off.toInt).toNat c.bytes true ∧ Memory.wf s.mem = true :=
  ⟨.sd h0 6 5 0, _, task fun c => c.wx 5 0x100000, rfl, clear_of (by decide +kernel), local_of (by decide +kernel), by decide +kernel⟩
theorem wit_store_private : ∃ i c s p, storeCase i = some c ∧ Clear s clsPlain c.h [ux c.a, ux c.d] ∧
    let va := (s.ctx.rx c.a + BitVec.ofInt 64 c.off.toInt).toNat
    0x400000 ≤ va ∧ s.check va (fun _ => c.bytes) .own = .ok p ∧ p.e.storeTrap va c.bytes (natBytes c.bytes (s.ctx.rx c.d).toNat) s.inHinge = none :=
  ⟨.sb h0 6 5 0, _, cached 0 0 (task base), spot 0 0, rfl, clear_of (by decide +kernel), by decide +kernel, by decide +kernel, by decide +kernel⟩
theorem wit_store_join : ∃ i c s p, storeCase i = some c ∧ Clear s clsPlain c.h [ux c.a, ux c.d] ∧
    let va := (s.ctx.rx c.a + BitVec.ofInt 64 c.off.toInt).toNat
    0x400000 ≤ va ∧ s.check va (fun _ => c.bytes) .own = .ok p ∧ p.e.storeTrap va c.bytes (natBytes c.bytes (s.ctx.rx c.d).toNat) s.inHinge = none :=
  ⟨.sw h0 6 5 0, _, cached 6 2 (task base), spot 6 2, rfl, clear_of (by decide +kernel), by decide +kernel, by decide +kernel, by decide +kernel⟩
theorem wit_vector_memory_local : let s := task fun c => c.wx 5 0x100000
    Clear s clsMisc h0 [ux 5, uv 6] ∧ ChannelsReady s [6] [] ∧ ChannelsReady s [] [6] ∧ LocalOk s 0x100000 64 false ∧
      LocalOk s 0x100000 64 true ∧ Memory.wf s.mem = true :=
  ⟨clear_of (by decide +kernel), ready_of (by decide +kernel), ready_of (by decide +kernel), local_of (by decide +kernel), local_of (by decide +kernel), by decide +kernel⟩
theorem wit_vector_memory_global : let s := cached 0 0 (task base)
    Clear s clsMisc h0 [ux 5, uv 6] ∧ ChannelsReady s [6] [] ∧ s.check (2 ^ 44) (fun _ => 64) .anyGroup = .ok (spot 0 0) ∧
      (spot 0 0).e.loadTrap (2 ^ 44) s.inHinge = none ∧ s.check (2 ^ 44) (fun _ => 64) .own = .ok (spot 0 0) ∧
      (spot 0 0).e.storeTrap (2 ^ 44) 64 (vecBytes (s.sourceV 6)) s.inHinge = none :=
  ⟨clear_of (by decide +kernel), ready_of (by decide +kernel), by decide +kernel, by decide +kernel, by decide +kernel, by decide +kernel⟩
theorem wit_vector_join : let s := cached 8 0 (task base)
    s.check (2 ^ 44) (fun _ => 64) .own = .ok (spot 8 0) ∧
      (spot 8 0).e.storeTrap (2 ^ 44) 64 (vecBytes (s.sourceV 6)) s.inHinge = none := by decide +kernel
theorem wit_gather_near : ∃ i c s, gatherCase i = some c ∧ Clear s clsMisc c.h c.uses ∧ ChannelsReady s [c.d] c.srcs ∧
    ∀ n, n < 512 / c.w → LocalOk s (c.addr s.ctx (fun q m => laneOf (s.sourceV q) c.w m) n).toNat (c.w / 8) false :=
  ⟨.vlds h0 7 5 6 0 3, _, task fun c => (c.wx 5 0x100000).wx 6 8, rfl, clear_of (by decide +kernel), ready_of (by decide +kernel),
    upto _ (by decide +kernel) fun _ => local_of⟩
/-- The task with the page of a cell type and a one-lane mask k1. -/
def sparse (ty width : Nat) (m : Word) : State := cached ty width (task (base fun c => c.wk 1 m))
theorem wit_gather_far : ∃ i c s, gatherCase i = some c ∧ Clear s clsMisc c.h c.uses ∧ ChannelsReady s [c.d] c.srcs ∧
    ∀ n, n < 512 / c.w → (s.ctx.rk c.k).getLsbD n = true →
      let va := (c.addr s.ctx (fun q m => laneOf (s.sourceV q) c.w m) n).toNat
      0x400000 ≤ va ∧ ∃ p, s.check va (fun _ => c.w / 8) .anyGroup = .ok p ∧ p.e.loadTrap va s.inHinge = none :=
  ⟨.vldx h0 7 5 6 1 2, _, sparse 1 2 0x8000, rfl, clear_of (by decide +kernel), ready_of (by decide +kernel),
    upto (fun n => !(0x8000#64).getLsbD n || n == 15) (by decide +kernel) fun n h k => by
      have h : n = 15 := by
        rcases Bool.or_eq_true _ _ ▸ h with h | h
        · exact absurd k (by rw [Bool.not_eq_true'] at h; exact Bool.eq_false_iff.1 h)
        · exact beq_iff_eq.1 h
      subst h
      exact ⟨by decide +kernel, spot 1 2, by decide +kernel, by decide +kernel⟩⟩
theorem wit_scatter_near : ∃ i c s, scatterCase i = some c ∧ Clear s clsMisc c.h c.uses ∧ ChannelsReady s [] c.srcs ∧
    Memory.wf s.mem = true ∧ ∀ n, n < 512 / c.w →
      LocalOk s (c.addr s.ctx (fun q m => laneOf (s.sourceV q) c.w m) n).toNat (c.w / 8) true :=
  ⟨.vsts h0 7 5 6 1 0, _, task fun c => (c.wx 5 0x100000).wx 6 1, rfl, clear_of (by decide +kernel), ready_of (by decide +kernel), by decide +kernel,
    upto _ (by decide +kernel) fun _ => local_of⟩
theorem wit_scatter_far : ∃ i c s, scatterCase i = some c ∧ Clear s clsMisc c.h c.uses ∧ ChannelsReady s [] c.srcs ∧
    Memory.wf s.mem = true ∧ ∀ n, n < 512 / c.w → (s.ctx.rk c.k).getLsbD n = true →
      let va := (c.addr s.ctx (fun q m => laneOf (s.sourceV q) c.w m) n).toNat
      0x400000 ≤ va ∧ ∃ p, s.check va (fun _ => c.w / 8) .own = .ok p ∧
        p.e.storeTrap va (c.w / 8) (natBytes (c.w / 8) (laneOf (s.sourceV c.d) c.w n)) s.inHinge = none :=
  ⟨.vstx h0 7 5 6 1 2, _, sparse 6 2 0x8000, rfl, clear_of (by decide +kernel), ready_of (by decide +kernel), by decide +kernel,
    upto (fun n => !(0x8000#64).getLsbD n || n == 15) (by decide +kernel) fun n h k => by
      have h : n = 15 := by
        rcases Bool.or_eq_true _ _ ▸ h with h | h
        · exact absurd k (by rw [Bool.not_eq_true'] at h; exact Bool.eq_false_iff.1 h)
        · exact beq_iff_eq.1 h
      subst h
      exact ⟨by decide +kernel, spot 6 2, by decide +kernel, by decide +kernel⟩⟩
theorem wit_get : let s := cached 7 3 (task base)
    Clear s clsTaskOnly h0 [ux 5, ux 6] ∧ s.check (2 ^ 44) TlbEntry.getAlign .anyGroup = .ok (spot 7 3) ∧ (spot 7 3).e.ctype = 7 :=
  ⟨clear_of (by decide +kernel), by decide +kernel, by decide +kernel⟩
theorem wit_thr : let s := cached 7 3 (task (base fun c => c.wv 7 (BitVec.ofNat 512 (1 + 2 * 2 ^ 64))))
    let ts := (List.range 2).map fun i => laneOf (s.sourceV 7) (8 * (spot 7 3).e.thrBytes) i
    Clear s clsTaskOnly h0 [ux 5, uv 7, ux 6] ∧ ChannelsReady s [] [7] ∧ s.check (2 ^ 44) TlbEntry.thrBytes .anyGroup = .ok (spot 7 3) ∧
      thresholdType (spot 7 3).e.ctype = true ∧ badMember (spot 7 3).e.ctype ts = none :=
  ⟨clear_of (by decide +kernel), ready_of (by decide +kernel), by decide +kernel, by decide +kernel, by decide +kernel⟩
theorem wit_ctype : Clear (task) clsPlain h0 [ux 5, ux 6] ∧ ((task).ctx.rx 5).toNat < 0x400000 ∧
    let s := cached 9 3 (task base)
    Clear s clsPlain h0 [ux 5, ux 6] ∧ s.lookup 0 s.cur s.curCtx s.ctx.slot (s.ctx.rx 5).toNat = .hit (page 9 3) :=
  ⟨clear_of (by decide +kernel), by decide +kernel, clear_of (by decide +kernel), by decide +kernel⟩
theorem wit_fence : Clear task clsTaskOnly h0 [] ∧ task.owes (ofTask task.myTask) 1 = false ∧
    task.ctx.faults.openIn (1 % 256 + 256) = [] := ⟨clear_of (by decide +kernel), by decide +kernel, by decide +kernel⟩
/-- A message of the task on core 0, context 0, to the home of pseudo-channel 0 of stack 0. -/
def mess (b : Machine.Body) (home : Nat := 4096) (colour : Nat := 0) : Msg := msgOf task.issuer 0 home colour 0 b
theorem wit_fence_parks : let s := { task with net := [mess (.store (2 ^ 40) (2 ^ 44) [1])] }
    Clear s clsTaskOnly h0 [] ∧ s.owes (ofTask s.myTask) 1 = true ∧ s.ctx.flagged = false := ⟨clear_of (by decide +kernel), by decide +kernel, by decide +kernel⟩
theorem wit_fence_reports : ∃ s cause row r, Clear s clsTaskOnly h0 [] ∧ s.owes (ofTask s.myTask) 1 = false ∧ s.ctx.inh = false ∧
    s.ctx.endsBody = false ∧ s.me.tvec ≠ 0 ∧ s.ctx.faults.openIn (1 % 256 + 256) = (cause, row) :: r :=
  ⟨core0 handled (task fun c => { c with faults := c.faults.add 0x20 0 7 }), 0x20, { count := 1, low := 7, opens := 1 }, [],
    clear_of (by decide +kernel), by decide +kernel, by decide +kernel, by decide +kernel, by decide +kernel, by decide +kernel⟩

/-! Witnesses: vector instructions. -/

/-- The default rounding of a fresh context. -/
def near : Rnd := { mode := .rne, seed := 0 }
/-- No trap is enabled in a fresh context. -/
theorem quiet (f : FlagSet) : f &&& task.ctx.enables = 0 := by
  rw [show task.ctx.enables = 0 by decide +kernel]
  exact BitVec.and_zero
theorem wit_lanes : ∃ i c s p r, laneCase i = some c ∧ Clear s clsVec c.h (c.srcs.map uv ++ [uv c.d]) ∧
    ChannelsReady s [c.d] c.srcs ∧ Prefixed s c.dflt c.ok c.rounds p r ∧
    (∀ n, n < 512 / c.width p → (s.ctx.rk c.k).getLsbD n = true →
      (c.lane p r (fun q m => laneOf (s.sourceV q) (c.width p) m) n).2 &&& s.ctx.enables = 0) :=
  ⟨.vmul h0 3 1 2 0, _, task, pfxOf plainBody, near, rfl, clear_of (by decide +kernel), ready_of (by decide +kernel), ⟨rfl, by decide +kernel, by decide +kernel, rfl⟩,
    fun _ _ _ => quiet _⟩
/-- Division by zero is enabled. -/
def trapping : State := task fun c => { c with fflags := 0x3F00 }
theorem wit_lane_trap : ∃ i c s p r, laneCase i = some c ∧ Clear s clsVec c.h (c.srcs.map uv ++ [uv c.d]) ∧
    ChannelsReady s [c.d] c.srcs ∧ Prefixed s c.dflt c.ok c.rounds p r ∧
    (∃ n, n < 512 / c.width p ∧ (s.ctx.rk c.k).getLsbD n = true ∧
      (c.lane p r (fun q m => laneOf (s.sourceV q) (c.width p) m) n).2 &&& s.ctx.enables ≠ 0) :=
  ⟨.vdiv h0 3 1 2 0, _, trapping, pfxOf plainBody, near, rfl, clear_of (by decide +kernel), ready_of (by decide +kernel), ⟨rfl, by decide +kernel, by decide +kernel, rfl⟩,
    15, by decide +kernel, by decide +kernel, by decide +kernel⟩
/-- A task behind a prefix. -/
def behind (b : BitVec 22) : State := task fun c => { c with pfx := some b }
theorem wit_lane_prefix : ∃ i c, laneCase i = some c ∧ ∀ s ∈ [behind (bodyFmt 3 3 3 6 0 0 0), behind (bodyFmt 0 0 0 7 0 0 0)],
    clearB s clsVec c.h (c.srcs.map uv ++ [uv c.d]) = true ∧ (s.ctx.channelsLegal [c.d] c.srcs && (s.ctx.channelPorts c.srcs).all fun q => (s.me.port q).ready) = true ∧
      (c.ok (pfxOf (s.ctx.pfx.getD c.dflt)) = false ∨ (c.rounds = true ∧ (pfxOf (s.ctx.pfx.getD c.dflt)).rnd = 7)) :=
  ⟨.vadd h0 3 1 2 0, _, rfl, by decide +kernel⟩
theorem wit_compare_prefix : ∃ i c s, cmpCase i = some c ∧ Clear s clsVec c.h [uv c.a, uv c.b] ∧ ChannelsReady s [] [c.a, c.b] ∧
    c.ok (pfxOf (s.ctx.pfx.getD plainBody)) = false :=
  ⟨.vfeq h0 1 2 3 0, _, behind (bodyFmt 7 7 7 6 0 0 0), rfl, clear_of (by decide +kernel), ready_of (by decide +kernel), by decide +kernel⟩
theorem wit_move_prefix : ∃ i c s, permCase i = some c ∧ Clear s clsVec c.h c.uses ∧ ChannelsReady s [c.d] c.srcs ∧
    okAny (pfxOf (s.ctx.pfx.getD plainBody)) = false :=
  ⟨.vrev h0 1 2 0, _, behind (bodyFmt 5 5 5 6 0 0 0), rfl, clear_of (by decide +kernel), ready_of (by decide +kernel), by decide +kernel⟩
theorem wit_vdot : Clear task clsVec h0 [uv 1, uv 2, uv 3] ∧ ChannelsReady task [3] [1, 2] ∧
    Prefixed (behind (bodyFmt 6 6 7 6 0 0 0)) viaBody okDot false (pfxOf (bodyFmt 6 6 7 6 0 0 0)) rneMode ∧
    Clear (behind (bodyFmt 6 6 7 6 0 0 0)) clsVec h0 [uv 1, uv 2, uv 3] ∧ ChannelsReady (behind (bodyFmt 6 6 7 6 0 0 0)) [3] [1, 2] ∧
    (behind (bodyFmt 6 6 7 6 0 0 0)).ctx.enables = 0 :=
  ⟨clear_of (by decide +kernel), ready_of (by decide +kernel), ⟨rfl, by decide +kernel, rfl⟩, clear_of (by decide +kernel), ready_of (by decide +kernel), by decide +kernel⟩
theorem wit_compare : ∃ i c s p, cmpCase i = some c ∧ Clear s clsVec c.h [uv c.a, uv c.b] ∧ ChannelsReady s [] [c.a, c.b] ∧
    Prefixed s plainBody c.ok false p rneMode :=
  ⟨.vclt h0 1 2 3 0, _, behind (bodyFmt 6 6 6 6 0 0 0), _, rfl, clear_of (by decide +kernel), ready_of (by decide +kernel), rfl, by decide +kernel, rfl⟩
theorem wit_move : ∃ i c s p, permCase i = some c ∧ Clear s clsVec c.h c.uses ∧ ChannelsReady s [c.d] c.srcs ∧
    Prefixed s plainBody okAny false p rneMode :=
  ⟨.vzip h0 1 2 3 0, _, task, _, rfl, clear_of (by decide +kernel), ready_of (by decide +kernel), rfl, by decide +kernel, rfl⟩
theorem wit_lane_in : let s := task fun c => c.wx 6 15
    Clear s clsVec h0 [uv 1, ux 6, ux 5] ∧ Clear s clsVec h0 [ux 5, ux 6, uv 1] ∧ ChannelsReady s [] [1] ∧ ChannelsReady s [1] [] ∧
      Prefixed s plainBody okAny false (pfxOf plainBody) rneMode ∧ (s.ctx.rx 6).toNat < 512 / fmtWidth (pfxOf plainBody).a :=
  ⟨clear_of (by decide +kernel), clear_of (by decide +kernel), ready_of (by decide +kernel), ready_of (by decide +kernel), ⟨rfl, by decide +kernel, rfl⟩, by decide +kernel⟩
theorem wit_lane_out : let s := task fun c => c.wx 6 16
    Clear s clsVec h0 [uv 1, ux 6, ux 5] ∧ Clear s clsVec h0 [ux 5, ux 6, uv 1] ∧ ChannelsReady s [] [1] ∧ ChannelsReady s [1] [] ∧
      Prefixed s plainBody okAny false (pfxOf plainBody) rneMode ∧ 512 / fmtWidth (pfxOf plainBody).a ≤ (s.ctx.rx 6).toNat :=
  ⟨clear_of (by decide +kernel), clear_of (by decide +kernel), ready_of (by decide +kernel), ready_of (by decide +kernel), ⟨rfl, by decide +kernel, rfl⟩, by decide +kernel⟩
theorem wit_convert : Clear task clsVec h0 [uv 1, uv 2] ∧ ChannelsReady task [2] [1] ∧
    Prefixed task plainBody (okVcvt (1#4).toNat 0) true (pfxOf plainBody) near ∧ (pfxOf plainBody).scale = 0 ∧ task.ctx.enables = 0 :=
  ⟨clear_of (by decide +kernel), ready_of (by decide +kernel), ⟨rfl, by decide +kernel, by decide +kernel, rfl⟩, by decide +kernel, by decide +kernel⟩
theorem wit_reduction : ∃ i c s p r, redCase i = some c ∧ Clear s clsVec c.h [uv c.a, uv c.d] ∧ ChannelsReady s [c.d] [c.a] ∧
    Prefixed s plainBody c.ok c.rounds p r ∧ s.ctx.enables = 0 :=
  ⟨.vrsum h0 3 1 0, _, task, pfxOf plainBody, near, rfl, clear_of (by decide +kernel), ready_of (by decide +kernel), ⟨rfl, by decide +kernel, by decide +kernel, rfl⟩,
    by decide +kernel⟩

/-! Witnesses: tasks, barriers, channels, queues, blocks of G, the array and near-bank units. -/

/-- A value at number `n` of x. -/
def x (n : Reg) (w : Word) (c : Ctx) : Ctx := c.wx n w

theorem blocks_of {s : State} {p : Spot} (e : s.check (2 ^ 44) (fun _ => 1) .own = .ok p) (f : isLattice p.e.ctype = true) :
    BlocksOk s (2 ^ 44) 1 :=
  ⟨by decide +kernel, by decide +kernel, by decide +kernel, fun i h => by
    obtain rfl : i = 0 := Nat.lt_one_iff.1 h
    exact ⟨by decide +kernel, p, e, f⟩⟩

/-- A task about to run BOLT or CLEAR on one block, in a phase, after a change of its core. -/
def bolting (ph : Nat) (f : CoreSt → CoreSt := id) : State :=
  core0 f (cached 1 3 (task fun c => { base (x 6 1) c with phase := ph }))
theorem blocks_ok : ∀ s ∈ [bolting 0, bolting 1, bolting 2, bolting 3, { bolting 0 with net := [mess (.store (2 ^ 40) (2 ^ 44) [1])] },
    bolting 0 fun c => { c with groups := [{ id := 0, rank := 0, grank := 0, leader := 0, bars := [] }] }],
    clearB s clsTaskOnly h0 [ux 5, ux 6] = true ∧ s.check (2 ^ 44) (fun _ => 1) .own = .ok (spot 1 3) ∧ s.ctx.rx 6 = 1 ∧
      s.ctx.rx 5 = BitVec.ofNat 64 (2 ^ 44) ∧ s.ctx.flagged = false := by decide +kernel
theorem wit_bolt (s : State) (h : s ∈ [bolting 0, bolting 1, bolting 2, bolting 3,
    { bolting 0 with net := [mess (.store (2 ^ 40) (2 ^ 44) [1])] },
    bolting 0 fun c => { c with groups := [{ id := 0, rank := 0, grank := 0, leader := 0, bars := [] }] }]) :
    Clear s clsTaskOnly h0 [ux 5, ux 6] ∧ BlocksOk s (s.ctx.rx 5).toNat (s.ctx.rx 6).toNat ∧ s.ctx.flagged = false := by
  obtain ⟨a, b, c, d, e⟩ := blocks_ok s h
  rw [c, d]
  exact ⟨clear_of a, blocks_of b (by decide +kernel), e⟩
theorem wit_bolt_phases : (bolting 0).ctx.phase ≤ 1 ∧ (bolting 0).owes (ofTask (bolting 0).myTask) 0xFF = false ∧
    (let s := { bolting 0 with net := [mess (.store (2 ^ 40) (2 ^ 44) [1])] }; s.owes (ofTask s.myTask) 0xFF = true) ∧
    (bolting 2).ctx.phase = 1 + 1 ∧ (bolting 2).ctx.notes = [] ∧ (bolting 3).ctx.phase = 1 + 2 ∧
    (bolting 0 fun c => { c with groups := [{ id := 0, rank := 0, grank := 0, leader := 0, bars := [] }] }).isLeader 0 = true := by decide +kernel
theorem wit_header : let s := cached 0xB 0 (task (base (x 6 1)))
    Clear s clsTaskOnly h0 [ux 5] ∧ Clear s clsTaskOnly h0 [ux 5, ux 6] ∧ Word.field (s.ctx.rx 6) 7 0 ≠ 0 ∧
      Word.field (s.ctx.rx 6) 15 8 = 0 ∧ s.ctx.phase = 0 ∧ s.ctx.flagged = false ∧
      s.check (2 ^ 44) (fun _ => 64) .own = .ok (spot 0xB 0) ∧ (spot 0xB 0).e.ctype = 0xB :=
  ⟨clear_of (by decide +kernel), clear_of (by decide +kernel), by decide +kernel, by decide +kernel, by decide +kernel, by decide +kernel, by decide +kernel, by decide +kernel⟩
theorem wit_header_answered : let s := task fun c => { base (x 6 1) c with phase := 1, reply := some .pass }
    Clear s clsTaskOnly h0 [ux 5, ux 6] ∧ s.ctx.phase = 1 ∧ s.ctx.reply = some .pass := ⟨clear_of (by decide +kernel), by decide +kernel, by decide +kernel⟩

/-- Group 0 of tile 0, as a core knows it. -/
def member : GroupSlot := { id := 0, rank := 0, grank := 0, leader := 0, bars := [5] }
/-- A core in group 0 that works for slot 0. -/
def joined (c : CoreSt) : CoreSt := { c with groups := [member], slot := some 0 }
theorem wit_spawn : let s := core0 joined (task (x 5 0x100000))
    let r : Rec := { words := bytesWords (readBytes s.mem (localPa s.cur (s.ctx.rx 5).toNat) 64), slot := s.ctx.slot }
    s.isFlagged = false ∧ s.me.queued.length + (s.me.saved.map (·.deque.length)).getD 0 < 1280 ∧ Clear s clsSpawn h0 [ux 5] ∧ LocalOk s (s.ctx.rx 5).toNat 64 false ∧
      r.ok = true ∧ (s.me.groupSlot r.group).isSome = true :=
  ⟨by decide +kernel, by decide +kernel, clear_of (by decide +kernel), local_of (by decide +kernel), by decide +kernel, by decide +kernel⟩
theorem wit_fork : let s := task fun c => { c with pc := 0xFFFF0 }
    Clear s clsTaskOnly h0 [ux 5, 10, 11, 12, 13, 14, 15] ∧ (s.ctx.pc + BitVec.ofInt 64 (4 * (3#17).toInt)).toNat = 0xFFFFC ∧
      (s.ctx.rx 5).toNat < 2 ^ 48 := ⟨clear_of (by decide +kernel), by decide +kernel, by decide +kernel⟩
theorem wit_spawnat : let s := core0 joined (task (x 5 0x100000))
    let r : Rec := { words := bytesWords (readBytes s.mem (localPa s.cur (s.ctx.rx 5).toNat) 64), slot := s.ctx.slot }
    Clear s clsTaskOnly h0 [ux 5] ∧ s.ctx.role = .task ∧ s.mayChoose s.ctx.slot s.cur 2 0 = true ∧ s.walkEligible s.cur s.cur r = true ∧
      s.me.freeCtx = some 1 ∧ s.arbitrates s.cur 2 = true ∧ s.walkHeld s.cur s.issuer r = false :=
  ⟨clear_of (by decide +kernel), by decide +kernel, by decide +kernel, by decide +kernel, by decide +kernel, by decide +kernel, by decide +kernel⟩
theorem wit_spawnat_leaves :
    let s := { core0 joined (task (x 5 0x100000)) with mem := [(0x100007, 0x08)] }
    let r : Rec := { words := bytesWords (readBytes s.mem (localPa s.cur (s.ctx.rx 5).toNat) 64), slot := s.ctx.slot }
    Clear s clsTaskOnly h0 [ux 5] ∧ LocalOk s (s.ctx.rx 5).toNat 64 false ∧ r.ok = true ∧ (s.me.groupSlot r.group).isSome = true ∧
      s.walkEligible s.cur s.cur r = false ∧ s.hintTile r s.cur ≠ s.cur ∧ s.arbitrates s.cur 2 = true ∧ s.walkHeld s.cur s.issuer r = false :=
  ⟨clear_of (by decide +kernel), local_of (by decide +kernel), by decide +kernel, by decide +kernel, by decide +kernel, by decide +kernel,
    by decide +kernel, by decide +kernel⟩
theorem wit_join : let s := cached 6 2 (task (base (x 6 0xFFFFFFFF)))
    Clear s clsTaskOnly h0 [ux 5, ux 6] ∧ s.ctx.phase = 0 ∧ s.check (2 ^ 44) TlbEntry.cellAlign .anyGroup = .ok (spot 6 2) ∧
      s.ctx.rx 6 ≠ 0 ∧ (s.ctx.rx 6).toNat < 2 ^ (8 * 2 ^ (spot 6 2).e.width) :=
  ⟨clear_of (by decide +kernel), by decide +kernel, by decide +kernel, by decide +kernel, by decide +kernel⟩
theorem wit_cancel : let s := task (x 5 1)
    Clear s clsTaskOnly h0 [ux 5] ∧ s.ctx.rx 5 ≠ 0 ∧ (s.ctx.rx 5).toNat < 2 ^ 48 ∧ s.ctx.flagged = false :=
  ⟨clear_of (by decide +kernel), by decide +kernel, by decide +kernel, by decide +kernel⟩
/-- A task at barrier 5 with a number of pending arrivals, after a change. -/
def barrier (n : Nat) (f : Ctx → Ctx := id) : State := core0 (fun c => { joined c with pend := [(5, n)] }) (task fun c => f (x 5 5 c))
theorem wit_barrier : ∀ s ∈ [barrier 14, barrier 15, barrier 1 fun c => { c with phase := 1 }, barrier 1 fun c => { c with ticket := some (5, 0) },
    barrier 1 fun c => { c with ticket := some (5, 1) }],
    clearB s clsTaskOnly h0 [ux 5] = true ∧ (s.ctx.rx 5).toNat = 5 ∧ s.me.binds 5 = true ∧ s.ctx.flagged = false := by decide +kernel
theorem wit_barrier_full : (barrier 14).me.pendOf 5 < 15 ∧ 15 ≤ (barrier 15).me.pendOf 5 ∧ genReached 0 0 = true ∧ genReached 0 1 = false := by
  decide
theorem wit_chbind : let s := task fun c => x 5 3 (x 6 0x102 c)
    Clear s clsTaskOnly h0 [ux 5, ux 6] ∧ modeOk (s.ctx.rx 6) = true ∧ (s.ctx.rx 5).toNat < 4 ∧ Word.field (s.ctx.rx 6) 1 0 ≠ 0 ∧
      s.me.serverPort 3 = false ∧ (s.me.port 3).bound = none ∧ modeOk 0 = true ∧ Word.field 0 1 0 = 0 :=
  ⟨clear_of (by decide +kernel), by decide +kernel, by decide +kernel, by decide +kernel, by decide +kernel, by decide +kernel, by decide +kernel, by decide +kernel⟩

/-- A command whose only group is tile 0 and tile 1, in a phase. -/
def cmd (op : Nat) (phase : CmdPhase) : Cmd :=
  { packet := List.replicate 64 0, op := op, phase := phase, status := 0, ftval := 0
    groups := [{ id := 0, members := [0, 1], leader := 0, bars := [5], fanout := 0, server := 0 }], hinge := [], regions := [], code := none
    members := [0, 1], x3 := 0, west := {}, east := {}, cancel := false, twin := false, rlog := 0, log := (0, 0), tstart := 0, energy := 0
    clean := 0, gang := none, beats := 1, ib := none, sent := 0, acked := 0, link := false, mboxLimit := 64 }
/-- Slot 0 runs a command. -/
def running (s : State) (c : Cmd := cmd 1 .running) : State := s.setSlot 0 { hw := some 0, qcb := List.replicate 32 0, cmd := some c }
theorem wit_send : let s := running (task (x 5 0x08000000))
    Clear s clsTaskOnly h0 [ux 5, uv 6] ∧ ChannelsReady s [] [6] ∧ routeOk (s.ctx.rx 5) (s.gangSize s.ctx.slot) = true ∧
      s.routeTo (s.ctx.rx 5) s.ctx.slot s.cur = (0, 1) ∧ (s.membersOf s.ctx.slot s.ctx.group s.cur).contains 1 = true ∧
      s.packetOut s.issuer 0 1 0 = false :=
  ⟨clear_of (by decide +kernel), ready_of (by decide +kernel), by decide +kernel, by decide +kernel, by decide +kernel, by decide +kernel⟩
theorem wit_hcall_local : let s := task (x 5 0x100000)
    Clear s (clsHcall 1) h0 ([ux 5, ux 7] ++ ((List.range 8).map fun i => regPlus 7 (i + 1)).map ux) ∧ (7 : Reg).toNat + 8 ≤ 31 ∧
      s.localOk 0x100000 1 false = true := ⟨clear_of (by decide +kernel), by decide +kernel, by decide +kernel⟩
theorem wit_hcall_global : let s := cached 1 3 (task base)
    Clear s (clsHcall 0) h0 ([ux 5, ux 30] ++ ((List.range 1).map fun i => regPlus 30 (i + 1)).map ux) ∧ (30 : Reg).toNat + 1 ≤ 31 ∧
      s.check (2 ^ 44) (fun _ => 1) .anyGroup = .ok (spot 1 3) := ⟨clear_of (by decide +kernel), by decide +kernel, by decide +kernel⟩
theorem wit_hret : Clear (hinge) clsHingeOnly h0 [ux 5] ∧ (hinge).ctx.role = .hinge default 1 ∧ (hinge).owes (ofRun 1) 0x1FF = false ∧
    let s := { hinge with net := [{ mess (.store (2 ^ 40) (2 ^ 44) [1]) with iss := { task := default, via := 1 } }] }
    Clear s clsHingeOnly h0 [ux 5] ∧ s.owes (ofRun 1) 0x1FF = true ∧ (hinge).ctx.pending = 0 ∧
      (let s := hinge default fun c => { c with pending := 0x80 }
       Clear s clsHingeOnly h0 [ux 5] ∧ s.ctx.pending ≠ 0) :=
  ⟨clear_of (by decide +kernel), by decide +kernel, by decide +kernel, clear_of (by decide +kernel), by decide +kernel, by decide +kernel,
    clear_of (by decide +kernel), by decide +kernel⟩

/-- A plain copy of one byte from 0x100000 to 0x100040. -/
def copy1 : List Word := [0x1010000000000000, 0x100000, 0x100040, 0, 0x0000100000000000] ++ List.replicate 11 0
theorem wit_qwr : let s := task (x 5 0)
    Clear s (clsQueue 0) h0 [ux 5] ∧ s.ctx.phase = 0 ∧
    let s := task (x 5 (wordAt copy1 0))
    Clear s (clsQueue 0) h0 [ux 5] ∧ ((s.ctx.asm 0) ++ [s.ctx.rx 5]).length < queueWords 0 (wordAt ((s.ctx.asm 0) ++ [s.ctx.rx 5]) 0) :=
  ⟨clear_of (by decide +kernel), by decide +kernel, clear_of (by decide +kernel), by decide +kernel⟩
theorem wit_qwr_copy : let s := task fun c => { c with asm0 := copy1.take 15 }
    Clear s (clsQueue 0) h0 [ux 5] ∧ (s.ctx.asm 0 ++ [s.ctx.rx 5]).length = queueWords 0 (wordAt (s.ctx.asm 0 ++ [s.ctx.rx 5]) 0) ∧
      copyOk copy1 = true ∧ copyCvt copy1 = false ∧ copyCode copy1 = false ∧ copyStat copy1 = false ∧ s.me.copyRoom = true :=
  ⟨clear_of (by decide +kernel), by decide +kernel, by decide +kernel, by decide +kernel, by decide +kernel, by decide +kernel, by decide +kernel⟩
theorem wit_qwr_run : let s := task (x 5 0x100000000000FFC0)
    Clear s (clsQueue 4) h0 [ux 5] ∧ s.ctx.asm4 = [] ∧ Word.field (s.ctx.rx 5) 63 60 = 1 ∧ Word.field (s.ctx.rx 5) 59 16 = 0 ∧
      Word.field (s.ctx.rx 5) 5 0 = 0 ∧ s.nbRoom s.cur = true :=
  ⟨clear_of (by decide +kernel), by decide +kernel, by decide +kernel, by decide +kernel, by decide +kernel, by decide +kernel⟩
theorem wit_qrd : let s := task fun c => { c with q1 := [7], q3 := [9], q3rows := [1] }
    Clear s clsTaskOnly h0 [ux 6] ∧ s.ctx.q1 = [7] ∧ s.ctx.q5 = [] ∧ Clear s clsTaskOnly h0 [uv 6] ∧ ChannelsReady s [6] [] ∧
      s.ctx.pops = [] ∧ s.ctx.q3 = [9] ∧ s.ctx.q3rows = [1] ∧ Clear task clsMisc h0 [ux 6] :=
  ⟨clear_of (by decide +kernel), by decide +kernel, by decide +kernel, clear_of (by decide +kernel), ready_of (by decide +kernel), by decide +kernel, by decide +kernel, by decide +kernel,
    clear_of (by decide +kernel)⟩
theorem wit_cpy : let s := { task (x 5 0x100000) with mem := writeBytes [] 0x100000 (wordsBytes copy1) }
    let ws := bytesWords (readBytes s.mem (localPa s.cur (s.ctx.rx 5).toNat) 128)
    Clear s clsTaskOnly h0 [ux 5] ∧ s.ctx.phase = 0 ∧ LocalOk s (s.ctx.rx 5).toNat 128 false ∧ copyKind ws = 1 ∧ copyOk ws = true ∧
      copyCvt ws = false ∧ copyCode ws = false ∧ copyStat ws = false ∧ s.me.copyRoom = true :=
  ⟨clear_of (by decide +kernel), by decide +kernel, local_of (by decide +kernel), by decide +kernel, by decide +kernel, by decide +kernel, by decide +kernel, by decide +kernel, by decide +kernel⟩
/-- The same as an expert descriptor. -/
def copy2 : List Word := [0x2010000000000000, 0x100000, 0x100040, 0, 0, 0x0000100000000000] ++ List.replicate 26 0
theorem wit_cpyx : let s := { task (x 5 0x100000) with mem := writeBytes [] 0x100000 (wordsBytes copy2) }
    let ws := bytesWords (readBytes s.mem (localPa s.cur (s.ctx.rx 5).toNat) 256)
    LocalOk s (s.ctx.rx 5).toNat 256 false ∧ copyKind ws = 2 ∧ copyOk ws = true ∧ copyCvt ws = false ∧ copyCode ws = false ∧
      copyStat ws = false := ⟨local_of (by decide +kernel), by decide +kernel, by decide +kernel, by decide +kernel, by decide +kernel, by decide +kernel⟩

theorem gready_of {s : State} {l : List Reg}
    (e : (s.ctx.blocksLegal l && okGbp (pfxOf (s.ctx.pfx.getD plainBody))) = true) : BlocksReady s l := by
  simp only [Bool.and_eq_true] at e
  exact e
theorem wit_blocks : let s := task fun c => (c.wk 1 3).wk 2 0x1000
    BlocksReady s [8, 2] ∧ Clear s clsGbp h0 (ug 2) ∧ Clear s clsGbp h0 (ug 8 ++ ug 2) ∧
      (∀ l ∈ List.range 96, (gRound ((valIn (s.ctx.gblock 2) l).add false (valIn (s.ctx.gblock 8) l))).2 &&& s.ctx.enables = 0) ∧
      (s.ctx.rk 1).toNat < 2 ^ 12 ∧ maskDims (s.ctx.rk 1) = [0, 1] ∧
      (accumulate (s.ctx.gblock 2) (s.ctx.gblock 8) [0, 1]).2 &&& s.ctx.enables = 0 ∧ 2 ^ 12 ≤ (s.ctx.rk 2).toNat ∧
      Clear s clsGbp h0 (ug 8 ++ ux 0 :: ug 2) ∧ Word.field s.ctx.gdmp 7 0 = 0 :=
  ⟨gready_of (by decide +kernel), clear_of (by decide +kernel), clear_of (by decide +kernel), by decide +kernel, by decide +kernel, by decide +kernel, by decide +kernel, by decide +kernel,
    clear_of (by decide +kernel), by decide +kernel⟩
theorem wit_damp : let s := task fun c => { c with gdmp := 0xFF }
    BlocksReady s [8, 2] ∧ Clear s clsGbp h0 (ug 8 ++ ux 0 :: ug 2) ∧ Word.field s.ctx.gdmp 7 0 ≠ 0 ∧
      (dampBlock (Word.field s.ctx.gdmp 7 0) (s.ctx.gblock 2) (s.ctx.gblock 8)).2 &&& s.ctx.enables = 0 :=
  ⟨gready_of (by decide +kernel), clear_of (by decide +kernel), by decide +kernel, by decide +kernel⟩
/-- The block with 1 for Λ(0, 0) and 2 for Λ(1, 1), in v8 to v13, and dimension 0 in k1. -/
def diagonal : Ctx → Ctx := fun c => (c.wgblock 8 (((List.replicate 96 0).set 12 0x3F800000).set 24 0x40000000)).wk 1 1
/-- The pivots of a mask, each with what it eliminates. -/
def pivots (s : State) (keep : List Nat → Nat → List Nat) : Pivots :=
  let g := (tolerance s.ctx.gtol).getD .nan
  let b := singularBound g (s.ctx.gblock 8)
  pivotAll b.1 (keep (maskDims (s.ctx.rk 1))) (maskDims (s.ctx.rk 1)) (s.ctx.gblock 8) b.2 []
/-- The flags of pivots that are not singular. -/
def pivotFlags : Pivots → Option FlagSet
  | .ok _ f _ => some f
  | .bad .. => none
theorem wit_eliminate : let s := task diagonal
    BlocksReady s [8, 2] ∧ Clear s clsGbp h0 (ug 8 ++ ug 2) ∧ (s.ctx.rk 1).toNat < 2 ^ 12 ∧ (tolerance s.ctx.gtol).isSome = true ∧
      pivotFlags (pivots s fun e p => (List.range 12).filter fun i => decide (p < i) || !e.contains i) = some 0 ∧
      pivotFlags (pivots s fun e p => e.filter fun i => decide (p < i)) = some 0 ∧ s.ctx.enables = 0 :=
  ⟨gready_of (by decide +kernel), clear_of (by decide +kernel), by decide +kernel, by decide +kernel, by decide +kernel, by decide +kernel, by decide +kernel⟩
theorem wit_singular : let s := task fun c => c.wk 1 1
    BlocksReady s [8, 2] ∧ Clear s clsGbp h0 (ug 8 ++ ug 2) ∧ (s.ctx.rk 1).toNat < 2 ^ 12 ∧ (tolerance s.ctx.gtol).isSome = true ∧
      pivotFlags (pivots s fun e p => (List.range 12).filter fun i => decide (p < i) || !e.contains i) = none :=
  ⟨gready_of (by decide +kernel), clear_of (by decide +kernel), by decide +kernel, by decide +kernel, by decide +kernel⟩
theorem wit_mailbox : let s := cached 8 1 (task base)
    BlocksReady s [2] ∧ Clear s clsGbpTask h0 (ux 5 :: ug 2) ∧ s.ctx.phase = 0 ∧ s.ctx.flagged = false ∧
      s.check (2 ^ 44) (fun _ => 128) .own = .ok (spot 8 1) ∧ (spot 8 1).e.ctype = 8 ∧ (spot 8 1).e.width = 1 ∧
      Clear s clsGbp h0 (ug 8 ++ ux 5 :: ug 2) ∧ s.ctx.role = .task ∧ BlocksReady s [8, 2] ∧
      s.check (2 ^ 44) (fun _ => 128) .anyGroup = .ok (spot 8 1) :=
  ⟨gready_of (by decide +kernel), clear_of (by decide +kernel), by decide +kernel, by decide +kernel, by decide +kernel, by decide +kernel, by decide +kernel, clear_of (by decide +kernel), by decide +kernel,
    gready_of (by decide +kernel), by decide +kernel⟩
theorem wit_mailbox_reply : ∀ a ∈ [Answer.version 1 6 8, .slot (List.replicate 128 0), .damp 0xFF],
    let s := task fun c => { base id c with phase := 1, reply := some a }
    (s.ctx.blocksLegal [8, 2] && okGbp (pfxOf (s.ctx.pfx.getD plainBody))) = true ∧ clearB s clsGbpTask h0 (ux 5 :: ug 2) = true ∧
      clearB s clsGbp h0 (ug 8 ++ ux 5 :: ug 2) = true ∧ s.ctx.phase = 1 ∧ s.ctx.reply = some a ∧ s.me.copyRoom = true ∧
      s.ctx.role = .task := by decide +kernel
theorem wit_mailbox_damps : (dampBlock 1 (({} : Ctx).gblock 2) (({} : Ctx).gblock 8)).2 &&& ({} : Ctx).enables = 0 := by decide +kernel

/-- A descriptor of MMA: one row, one column, one element, drained to a page. -/
def mma1 : List Word := [BitVec.ofNat 64 (4 * 2 ^ 60 + 2 ^ 53 + 2 ^ 46 + 2 ^ 30 + 2 ^ 27)] ++ List.replicate 7 0
/-- The same for MGANG. -/
def mgang1 : List Word := [BitVec.ofNat 64 (4 * 2 ^ 60 + 2 ^ 30 + 2 ^ 27)] ++ List.replicate 7 0
/-- A prefix of bf16 operands and f32 accumulators. -/
def bf16 : BitVec 22 := bodyFmt 1 1 0 0 0 0 0
/-- The quad of tile 0 after a change. -/
def quad0 (f : Quad → Quad) (s : State) : State := s.setQuad 0 (f (s.quad 0))
/-- The task holds the key. -/
def keyed (s : State) : State := quad0 (fun q => { q with holder := some s.myTask }) s
/-- A command of the task for the array, with a number and a descriptor. -/
def arr (id : Nat) (d : List Word) : ArrCmd := { task.arrCmd d bf16 0 none with id := id }
theorem wit_key : Clear task clsArray h0 [] ∧ task.hasKey task.myTask = false ∧ task.ctx.flagged = false ∧
    Clear (keyed task) clsArray h0 [] ∧ (keyed task).hasKey (keyed task).myTask = true ∧ ((keyed task).quad 0).heldOf task.myTask = [] ∧
    task.arraySettled task.myTask = true ∧ task.ctx.role = .task ∧
    (let s := quad0 (fun q => { q with cur := some { cmd := arr 1 mma1, held := true } }) (keyed task)
     Clear s clsArray h0 [] ∧ s.heldOps s.myTask ≠ [] ∧ s.hasKey s.myTask = true) :=
  ⟨clear_of (by decide +kernel), by decide +kernel, by decide +kernel, clear_of (by decide +kernel), by decide +kernel, by decide +kernel, by decide +kernel, by decide +kernel,
    clear_of (by decide +kernel), by decide +kernel, by decide +kernel⟩
theorem wit_mma : let s := { keyed (task fun c => { x 5 0x100000 c with pfx := some bf16 }) with
      mem := writeBytes [] 0x100000 (wordsBytes mma1) }
    let ws := bytesWords (readBytes s.mem (localPa s.cur (s.ctx.rx 5).toNat) 64)
    let p := pfxOf (s.ctx.pfx.getD plainBody)
    Clear s clsArrayFmt h0 [ux 5] ∧ s.hasKey s.myTask = true ∧ s.ctx.phase = 0 ∧ LocalOk s (s.ctx.rx 5).toNat 64 false ∧
      p.arrayOk = true ∧ p.axisOk (arrBtr ws) = true ∧ s.ctx.resolve p.rnd = .ok 0 ∧ arrDescOk ws p false = true ∧
      s.ctx.aset.continues ws p = true ∧ (s.quad 0).used < 16 ∧ (s.quad 0).room = true :=
  ⟨clear_of (by decide +kernel), by decide +kernel, by decide +kernel, local_of (by decide +kernel), by decide +kernel, by decide +kernel, rfl, by decide +kernel, by decide +kernel, by decide +kernel,
    by decide +kernel⟩
theorem wit_mgang :
    let s := { core0 joined (running (task fun c => { x 6 0 (x 5 0x100000 c) with pfx := some bf16 })) with
      mem := writeBytes [] 0x100000 (wordsBytes mgang1) }
    let ws := bytesWords (readBytes s.mem (localPa s.cur (s.ctx.rx 5).toNat) 64)
    let p := pfxOf (s.ctx.pfx.getD plainBody)
    Clear s clsArrayFmt h0 [ux 5, ux 6] ∧ s.isLeader s.ctx.group = true ∧ s.ctx.phase = 0 ∧ s.ctx.gangPosted = 0 ∧
      LocalOk s (s.ctx.rx 5).toNat 64 false ∧ p.arrayOk = true ∧ p.axisOk (arrBtr ws) = true ∧ s.ctx.resolve p.rnd = .ok 0 ∧
      arrDescOk ws p true = true ∧ gridOf (s.ctx.rx 6) = some { gx := 1, gy := 1, m := 1, n := 1, step := 1 } ∧
      (Grid.tiles { gx := 1, gy := 1, m := 1, n := 1, step := 1 } (s.membersOf s.ctx.slot s.ctx.group s.cur)) = some [0] ∧
      (s.quad (quadOf 0)).gangSlot = none ∧ Clear task clsMisc h0 [ux 6] :=
  ⟨clear_of (by decide +kernel), by decide +kernel, by decide +kernel, by decide +kernel, local_of (by decide +kernel), by decide +kernel, by decide +kernel, rfl, by decide +kernel, by decide +kernel,
    by decide +kernel, by decide +kernel, clear_of (by decide +kernel)⟩
theorem wit_rows : let j : RowJob := { quad := 0, row := 0, lanes := [], arr := arr 1 mma1 }
    let s := quad0 (fun q => { q with cur := some { cmd := arr 1 mma1, rowsOut := 1, drainOn := true } }) (row j)
    Clear s clsRowOnly h0 [] ∧ s.ctx.role = .row j 1 ∧ (s.quad 0).cur = some { cmd := arr 1 mma1, rowsOut := 1, drainOn := true } :=
  ⟨clear_of (by decide +kernel), by decide +kernel, by decide +kernel⟩
/-- A row has been written. -/
def rowWritten : RowDone → Bool
  | .ok .. => true
  | _ => false
/-- MMA to the page that `page` caches. -/
def mma2 : List Word := mma1.set 3 (BitVec.ofNat 64 (2 ^ 44))
theorem wit_row_written : let j : RowJob := { quad := 0, row := 0, lanes := [1], arr := arr 1 mma2 }
    let s := quad0 (fun q => { q with cur := some { cmd := arr 1 mma2, rowsOut := 1, drainOn := true }, tlb := [page 0 0] }) (row j)
    Clear s clsRowOnly h0 (([24, 25, 26, 27] : List Reg).map uv) ∧ s.ctx.role = .row j 1 ∧ rowWritten ((s.setCtx s.ctx.charge).writeRow 0 j.arr 0 s.ctx.rowLanes) = true ∧
      ∃ o, (s.quad 0).cur = some o ∧ o.cmd.id = j.arr.id :=
  ⟨clear_of (by decide +kernel), by decide +kernel, by decide +kernel, _, rfl, rfl⟩
/-- The parameter block of an elementwise run of one row of one bf16 element, W in the page that `unitPage` caches, O behind
it. -/
def nb1 : List Word :=
  [BitVec.ofNat 64 (8 * 2 ^ 60 + 2 ^ 56 + 2 ^ 52), BitVec.ofNat 64 (2 ^ 44), 0, 0, 0, 0, 0, BitVec.ofNat 64 (2 ^ 44), 1] ++ List.replicate 23 0
/-- A cached page of 2 MiB in pseudo-channel 0 of stack 0. -/
def unitPage : TlbEntry := { slot := 0, va := 2 ^ 44, size := 2 ^ 21, w0 := 0x69, w1 := 0 }
/-- A task with that page and the block at 0x100000. -/
def binding : State := core0 (fun c => { c with tlb := [unitPage] }) { task (x 5 0x100000) with mem := writeBytes [] 0x100000 (wordsBytes nb1) }
theorem wit_nbcfg : let s := binding
    let va := (s.ctx.rx 5).toNat
    let blk := bytesWords (readBytes s.mem (localPa s.cur va) 256)
    let u := s.unitFor s.ctx.slot s.cur (unitNumber (s.ctx.rx 6).toNat)
    Clear s clsTaskOnly h0 [ux 5, ux 6] ∧ s.ctx.phase = 0 ∧ unitWordOk (s.ctx.rx 6) = true ∧ LocalOk s va 256 false ∧
      nbBlockOk blk = true ∧ ∃ ps, s.nbStreams blk u [0, 1, 2, 3] = .ok ps :=
  ⟨clear_of (by decide +kernel), by decide +kernel, by decide +kernel, local_of (by decide +kernel), by decide +kernel, ok_of (by decide +kernel)⟩
theorem wit_nbrun : let s := task (x 5 0xFFC0)
    unitWordOk (s.ctx.rx 5) = true ∧ Clear s clsTaskOnly h0 [ux 5] ∧ s.nbRoom s.cur = true ∧ Clear s clsTaskOnly h0 [ux 5, ux 6] :=
  ⟨by decide +kernel, clear_of (by decide +kernel), by decide +kernel, clear_of (by decide +kernel)⟩

/-! Witnesses: what stops an instruction, and what stands behind it. -/

/-- A row handler of a task's operation, which waits for that row. -/
def rowOf (f : Ctx → Ctx := id) : State :=
  let s := quad0 (fun q => { q with cur := some { cmd := arr 1 mma1, rowsOut := 1, drainOn := true } }) { task with curCtx := 4 }
  s.setCtx (f { s.ctx with role := .row { quad := 0, row := 0, lanes := [], arr := arr 1 mma1 } 1, hbud := 64 })
theorem wit_trap_row : let s := rowOf
    let j : RowJob := { quad := 0, row := 0, lanes := [], arr := arr 1 mma1 }
    s.curCtx < 5 ∧ s.ctx.role = .row j 1 ∧ (s.quad j.quad).cur = some { cmd := arr 1 mma1, rowsOut := 1, drainOn := true } ∧
      (s.taskCtx j.arr.iss.task).isSome = true := by decide +kernel
theorem wit_trap_hinge : (hinge).curCtx < 5 ∧ (hinge).ctx.role = .hinge default 1 := by decide +kernel
/-- The context that the next step of core 0 runs, without a turn. -/
theorem chosen_of {s : State} {k : Nat} (e : (s.powered && decide (s.turns = []) && decide (s.cur = 0) && !s.handlerDue 0 &&
    decide (s.choose 0 = some k)) = true) : Chosen s (s.select 0 k) := by
  simp only [Bool.and_eq_true, decide_eq_true_eq, Bool.not_eq_true'] at e
  obtain ⟨⟨⟨⟨a, b⟩, c⟩, d⟩, f⟩ := e
  exact ⟨a, s, 0, k, .inl ⟨b, rfl, c.symm⟩, d, f, rfl⟩
theorem wit_hinge_fails : let s := hinge default fun c => { c with wait := .hfail 5 }
    Chosen s (s.select 0 4) ∧ (s.select 0 4).ctx.role = .hinge default 1 ∧ (s.select 0 4).ctx.wait = .hfail 5 :=
  ⟨chosen_of (by decide +kernel), by decide +kernel, by decide +kernel⟩
theorem wit_mts_traps : ∀ p ∈ ([(0x004, 0x100000, 0), (0x005, 0x1004, 0), (0x005, 0, 0), (0x005, 0x101000, 0), (0x010, 0, 0), (0x011, 0, 1)] : List (Nat × Word × Nat)),
    let s := task fun c => (x 5 p.2.1 { c with tstat := 0x10000 }).setLc p.2.2 (lcMake true 1 0x100 1)
    clearB s clsPlain h0 [ux 5] = true ∧ s.ctx.mtsLegal p.1 = true ∧
      (p.1 = 0x004 → 0x100000 ≤ (s.ctx.rx 5 &&& 0xFFFFFC#64).toNat) ∧
      (p.1 = 0x005 → (s.ctx.rx 5).toNat % 4096 ≠ 0 ∨ (s.ctx.rx 5).toNat < 0x1000 ∨ 0x100000 < (s.ctx.rx 5).toNat) ∧
      (p.1 = 0x010 → lcAct s.ctx.lc0 = true) ∧ (p.1 = 0x011 → lcAct s.ctx.lc1 = true) := by decide +kernel

/-- An access outside the local window with each of its stops: the page of `page`, changed. -/
def paged (e : TlbEntry) : State := core0 (fun c => { c with tlb := [e] }) (task base)
/-- That entry stands for an access of eight bytes at its start. -/
theorem reaches_of {s : State} {st : Bool} {e : TlbEntry} {n : Nat}
    (h : (decide (s.lookup 0 s.cur s.curCtx s.ctx.slot (2 ^ 44) = .hit e) && (2 ^ 44 % n == 0) &&
      e.allows s.ctx.group (s.twinTile s.ctx.slot s.ownTile) (if st then .own else .anyGroup) && (e.spot (2 ^ 44)).isSome) = true) :
    Reaches s (2 ^ 44) n st e := by
  simp only [Bool.and_eq_true, decide_eq_true_eq, beq_iff_eq] at h
  exact ⟨by decide, h.1.1.1, h.1.1.2, h.1.2, h.2⟩
theorem wit_access_local : AccessTrap task 0x300000 8 none 0x05 0x5000000300000 ∧ AccessTrap task 0x100001 8 none 0x04 0x100001 :=
  ⟨.localRight (by decide) (by decide +kernel), .localAlign (by decide) (by decide +kernel) (by decide)⟩
theorem wit_access_page :
    AccessTrap { task base with walkFails := [{ asker := { kind := 0, place := 0, ctx := 0 }, slot := 0, va := 2 ^ 44, reason := 1 }] }
      (2 ^ 44) 8 none 0x05 (BitVec.ofNat 64 (1 * 2 ^ 48 + 2 ^ 44 % 2 ^ 48)) ∧
    AccessTrap (cached 1 3 (task base)) (2 ^ 44 + 1) 8 none 0x04 (BitVec.ofNat 64 (2 ^ 44 + 1)) ∧
    AccessTrap (paged { page 1 3 with w1 := (page 1 3).w1 + 7 * 2 ^ 56 }) (2 ^ 44) 8 none 0x0F (BitVec.ofNat 64 (2 ^ 44)) ∧
    AccessTrap (paged { page 1 3 with w0 := 0x31 }) (2 ^ 44) 8 none 0x05 (BitVec.ofNat 64 (4 * 2 ^ 48 + 2 ^ 44 % 2 ^ 48)) ∧
    AccessTrap (cached 0xC 0 (task base)) (2 ^ 44) 8 none 0x05 (BitVec.ofNat 64 (5 * 2 ^ 48 + 2 ^ 44 % 2 ^ 48)) :=
  ⟨.translation 1 (by decide) (by decide +kernel), .align _ (by decide) (show _ = Looked.hit (page 1 3) by decide +kernel) (by decide),
    .group { page 1 3 with w1 := (page 1 3).w1 + 7 * 2 ^ 56 } (by decide) (by decide +kernel) (by decide) (by decide +kernel),
    .hole { page 1 3 with w0 := 0x31 } (by decide) (by decide +kernel) (by decide) (by decide +kernel) (by decide +kernel),
    .kind (page 0xC 0) (reaches_of (by decide +kernel)) (.inl (by decide +kernel))⟩
theorem wit_access_store :
    AccessTrap (cached 0xB 0 (task base)) (2 ^ 44) 8 (some []) 0x10 (BitVec.ofNat 64 (2 ^ 44)) ∧
    AccessTrap (cached 1 2 (task base)) (2 ^ 44) 8 (some []) 0x08 (BitVec.ofNat 64 (2 ^ 44)) ∧
    AccessTrap (cached 0xA 3 (task base)) (2 ^ 44) 64 (some (List.replicate 64 255)) 0x0B (BitVec.ofNat 64 (2 ^ 44)) :=
  ⟨.buffer (page 0xB 0) (reaches_of (by decide +kernel)) rfl (by decide +kernel) (by decide +kernel),
    .width (page 1 2) (reaches_of (by decide +kernel)) rfl (by decide +kernel) (by unfold StoreFits; decide +kernel),
    .image (page 0xA 3) (List.replicate 64 255) (reaches_of (by decide +kernel)) rfl rfl (by decide +kernel) (by decide +kernel)⟩
theorem wit_misses : Misses (task base) (2 ^ 44) ∧ (task base).ctx.flagged = false ∧ Clear (task base) clsPlain h0 [ux 5, ux 6] ∧
    Clear (task base) clsMisc h0 [ux 5, uv 6] :=
  ⟨⟨by decide, by decide +kernel⟩, by decide +kernel, clear_of (by decide +kernel), clear_of (by decide +kernel)⟩
/-- A sound local access passes. -/
theorem passes_local {s : State} {va n : Nat} {data : Option (List Byte)} (h : LocalOk s va n data.isSome) : Passes s va n data := by
  obtain ⟨a, b, c, -⟩ := h
  refine ⟨fun cause tval t => ?_, fun m => absurd m.1 (Nat.not_le.2 a)⟩
  cases t with
  | localRight _ k => exact absurd (b.symm.trans k) (by decide)
  | localAlign _ _ k => exact k c
  | translation _ k => exact absurd k (Nat.not_le.2 a)
  | align _ k => exact absurd k (Nat.not_le.2 a)
  | group _ k => exact absurd k (Nat.not_le.2 a)
  | hole _ k => exact absurd k (Nat.not_le.2 a)
  | kind _ k => exact absurd k.1 (Nat.not_le.2 a)
  | buffer _ k => exact absurd k.1 (Nat.not_le.2 a)
  | width _ k => exact absurd k.1 (Nat.not_le.2 a)
  | image _ _ k => exact absurd k.1 (Nat.not_le.2 a)
/-- Lane 1 of an element-wise access of eight bytes lies in the hole of the local window; lane 0 passes. -/
theorem wit_element_trap : let s := task fun c => x 5 0x100000 (x 6 0x200000 c)
    clearB s clsMisc h0 [ux 5, ux 6, uv 7] = true ∧ (s.ctx.rk 0).getLsbD 1 = true ∧ LocalOk s 0x100000 8 false ∧
      Passes s 0x100000 8 none ∧ Passes s 0x100000 8 (some []) ∧ AccessTrap s 0x300000 8 none 0x05 0x5000000300000 ∧
      AccessTrap s 0x300000 8 (some []) 0x05 0x5000000300000 :=
  ⟨by decide +kernel, by decide +kernel, local_of (by decide +kernel), passes_local (local_of (by decide +kernel)),
    passes_local (local_of (by decide +kernel)), .localRight (by decide) (by decide +kernel), .localRight (by decide) (by decide +kernel)⟩
theorem wit_element_miss : Misses (task (base fun c => x 6 8 c)) (2 ^ 44) ∧ Clear (task (base fun c => x 6 8 c)) clsMisc h0 [ux 5, ux 6, uv 7] :=
  ⟨⟨by decide, by decide +kernel⟩, clear_of (by decide +kernel)⟩

/-- Every floating-point trap is enabled, and v3 is 0x7FFFFFFF in every lane, v1 and v2 are all ones in their bytes. -/
def sums : State := task fun c => ((c.wv 3 (packLanes 32 (List.replicate 16 0x7FFFFFFF))).wv 1 (packLanes 8 (List.replicate 64 1))).wv 2
  (packLanes 8 (List.replicate 64 1)) |> fun c => { c with fflags := 0x3F00, pfx := some (bodyFmt 6 6 7 6 1 0 0) }
theorem wit_vdot_trap : Clear sums clsVec h0 [uv 1, uv 2, uv 3] ∧ ChannelsReady sums [3] [1, 2] ∧
    Prefixed sums viaBody okDot false (pfxOf (bodyFmt 6 6 7 6 1 0 0)) rneMode ∧ (sums.ctx.rk 0).getLsbD 0 = true ∧
    (dotLane (sums.sourceV 1) (sums.sourceV 2) (sums.ctx.rv 3) true 0).2 &&& sums.ctx.enables ≠ 0 :=
  ⟨clear_of (by decide +kernel), ready_of (by decide +kernel), ⟨rfl, by decide +kernel, rfl⟩, by decide +kernel, by decide +kernel⟩

/-- A conversion with block scaling: 32 values in v1, or in v1 and v2, to a block in v3; a block in v1 to 32 values in v3, or in v3
and v4.  The enabled traps, and two infinities in v1 and v2. -/
def blockCvt (a t en : Nat) : State × Instr :=
  (task fun c => { c.wv 1 (packLanes 16 (List.replicate 32 0x7F80)) with fflags := BitVec.ofNat 64 en, pfx := some (bodyFmt (BitVec.ofNat 4 a) 0 0 6 0 1 0) },
    .vcvt h0 3 1 0 (BitVec.ofNat 4 t))
theorem wit_block_convert : ∀ c ∈ [(0, 5, 0), (1, 5, 0), (5, 0, 0), (5, 1, 0), (0, 3, 0), (3, 0, 0), (1, 5, 0x3F00)], let s := (blockCvt c.1 c.2.1 c.2.2).1
    let p := pfxOf (s.ctx.pfx.getD plainBody)
    let src : List Reg := if p.a = 0 then [1, 2] else [1]
    let dst : List Reg := if c.2.1 = 0 then [3, 4] else [3]
    clearB s clsVec h0 ((src ++ dst).map uv) = true ∧
      (s.ctx.channelsLegal dst src && (s.ctx.channelPorts src).all fun q => (s.me.port q).ready) = true ∧ okVcvt c.2.1 0 p = true ∧ p.rnd = 6 ∧
      p.scale = 1 ∧ p.a = c.1 := by decide +kernel

theorem wit_block_flags : let f := (mxQuantise 5 near (blockValues 1 ((blockCvt 1 5 0).1.sourceV 1) 0)).2.2
    f &&& (blockCvt 1 5 0).1.ctx.enables = 0 ∧ f &&& (blockCvt 1 5 0x3F00).1.ctx.enables ≠ 0 := by decide +kernel
/-- Infinities converted to numbers of 8 bits, with every trap enabled. -/
theorem wit_convert_trap : let s := task fun c => { c.wv 1 (packLanes 32 (List.replicate 16 0x7F800000)) with fflags := 0x3F00 }
    Clear s clsVec h0 [uv 1, uv 2] ∧ ChannelsReady s [2] [1] ∧ Prefixed s plainBody (okVcvt (7#4).toNat 0) true (pfxOf plainBody) near ∧
      (s.ctx.rk 0).getLsbD 15 = true ∧ (convertElem 0 7 { near with idx := 15 } false (laneOf (s.sourceV 1) 32 15)).2 &&& s.ctx.enables ≠ 0 :=
  ⟨clear_of (by decide +kernel), ready_of (by decide +kernel), ⟨rfl, by decide +kernel, by decide +kernel, rfl⟩, by decide +kernel, by decide +kernel⟩
theorem wit_convert_refused : let s := behind (bodyFmt 0 0 0 6 0 1 0)
    Clear s clsVec h0 [uv 1, uv 2] ∧ ChannelsReady s [2] [1] ∧ okVcvt 0 0 (pfxOf (s.ctx.pfx.getD plainBody)) = false ∧
      Clear s clsVec h0 [uv 31, uv 2] ∧ ChannelsReady s [2] [31] ∧ Prefixed s plainBody (okVcvt 3 0) true (pfxOf (bodyFmt 0 0 0 6 0 1 0)) near :=
  ⟨clear_of (by decide +kernel), ready_of (by decide +kernel), by decide +kernel, clear_of (by decide +kernel), ready_of (by decide +kernel),
    ⟨rfl, by decide +kernel, by decide +kernel, rfl⟩⟩
/-- A sum of lanes that overflows f32, with its trap enabled. -/
theorem wit_reduction_trap : let s := task fun c => { c.wv 1 (packLanes 32 (List.replicate 16 0x7F000000)) with fflags := 0x3F00 }
    ∃ c, redCase (.vrsum h0 3 1 0) = some c ∧ Clear s clsVec c.h [uv c.a, uv c.d] ∧ ChannelsReady s [c.d] [c.a] ∧
      Prefixed s plainBody c.ok c.rounds (pfxOf plainBody) near ∧
      let all := (List.range 16).map fun n => (laneOf (s.sourceV c.a) 32 n, (s.ctx.rk c.k).getLsbD n)
      (c.value (pfxOf plainBody) near ((all.filter (·.2)).map (·.1)) all).2 &&& s.ctx.enables ≠ 0 :=
  ⟨_, rfl, clear_of (by decide +kernel), ready_of (by decide +kernel), ⟨rfl, by decide +kernel, by decide +kernel, rfl⟩, by decide +kernel⟩
/-- What `Behind` asks of an instruction with its marker set: a register pending that it does not use; and a handler. -/
theorem wit_behind : let s := task fun c => { c with pending := 2 ^ 9 }
    let h := { h0 with sw := true }
    Clear s clsVec h ([1, 2, 3].map uv) ∧ s.ctx.pending ≠ 0 ∧ s.ctx.flagged = false ∧ Clear (row) clsVec h ([1, 2, 3].map uv) ∧ (row).ctx.handles :=
  ⟨clear_of (by decide +kernel), by decide +kernel, by decide +kernel, clear_of (by decide +kernel), .inl ⟨default, 1, by decide +kernel⟩⟩
/-- SPAWNAT's tile arbiter has served a cancel in this cycle, or nothing that comes after SPAWNAT. -/
theorem wit_spawnat_now : ∀ k ∈ [2, 3], let s := core0 (fun c => { joined c with arbiter := (0, k) }) (task (x 5 0x100000))
    let r : Rec := { words := bytesWords (readBytes s.mem (localPa s.cur (s.ctx.rx 5).toNat) 64), slot := s.ctx.slot }
    s.arbitrates s.cur 2 = (k == 2) ∧ s.walkHeld s.cur s.issuer r = false := by decide +kernel
/-- A fault stands at x6. -/
def hurt (c : Ctx) : Ctx := { c with faulted := [(6, { cause := 0x40, va := 2 ^ 44 })] }
theorem wit_done_faulted : Clear (task hurt) clsTaskOnly h0 [] ∧ (task hurt).ctx.pending = 0 ∧ (task hurt).ctx.inh = false ∧
    (task hurt).ctx.flagged = false :=
  ⟨⟨by decide +kernel, by decide +kernel, .inl (by decide +kernel), by decide +kernel, by decide +kernel, (fun _ h => nomatch h), fun _ h => nomatch h⟩,
    by decide +kernel, by decide +kernel, by decide +kernel⟩
theorem wit_hret_faulted : let s := hinge default hurt
    Clear s clsHingeOnly h0 [ux 5] ∧ s.ctx.role = .hinge default 1 ∧ s.ctx.pending = 0 ∧ s.owes (ofRun 1) 0x1FF = false ∧ s.ctx.faulted ≠ [] :=
  ⟨⟨by decide +kernel, by decide +kernel, .inl (by decide +kernel), by decide +kernel, by decide +kernel, (fun n m _ => List.mem_singleton.1 m ▸ by decide +kernel),
    fun n m _ => .inr (List.mem_singleton.1 m ▸ by decide +kernel)⟩, by decide +kernel, by decide +kernel, by decide +kernel, by decide +kernel⟩
theorem wit_fault_at : FaultAt (task hurt).ctx 6 := ⟨by decide, by decide +kernel, _, List.mem_singleton_self _, rfl⟩

/-! Witnesses: messages at homes. -/

/-- One message in the network. -/
def sends (m : Msg) (s : State := task) : State := { s with net := [m] }
/-- Its turn has come, and the memory has its form. -/
def arrives (m : Msg) (s : State := task) : Bool := decide ((sends m s).due 0 = some m) && (sends m s).formOk
/-- The state that a join sees at its home. -/
def joins (m : Msg) (s : State := task) : State := ((sends m s).unmerged 0 m).take 0 m
/-- A task's answer register x6. -/
def six : Dest := { isV := false, reg := 6 }
/-- The chain of a page of byte buffers at 2^40. -/
def chain : Chain := { base := 2 ^ 40, len := 4096, width := 0 }
/-- Its first buffer has 64 bytes, a state, releases and consumers. -/
def buffer (st rel cons : Nat) : State :=
  { task with mem := writeBytes [] (2 ^ 40) (natBytes 8 (st * 2 ^ 61 + rel * 2 ^ 40 + cons * 2 ^ 32) ++ natBytes 8 64) }
/-- The block at 2^40 is bolted, under barrier 5 at generation 0, which has moved on to a later one. -/
def bolted (gen : Nat := 0) : State :=
  { task with blocks := put {} [] (2 ^ 40 / 4096) { bolted := true, gen := some (5, 0), sent := false }, bars := put {} [] 5 { gen := gen } }

theorem wit_store_apply : arrives (mess (.store (2 ^ 40) (2 ^ 44) [1])) = true ∧ (sends (mess (.store (2 ^ 40) (2 ^ 44) [1]))).logOf 0 = none ∧ (sends (mess (.store (2 ^ 40) (2 ^ 44) [1]))).enc = [] := by decide +kernel
theorem wit_join_bolted : let m := mess (.join (2 ^ 40) (2 ^ 44) 1 3 (natBytes 8 7) false)
    arrives m (bolted 0) = true ∧ ((joins m (bolted 0)).block (2 ^ 40)).bolted = true ∧ m.more = [] := by decide +kernel
theorem wit_join_apply : ∀ m ∈ [mess (.join (2 ^ 40) (2 ^ 44) 1 3 (natBytes 8 7) false), mess (.join (2 ^ 40) (2 ^ 44) 9 0 [7] false),
    mess (.join (2 ^ 40) (2 ^ 44) 7 3 (natBytes 8 7) false), mess (.join (2 ^ 40) (2 ^ 44) 8 1 (List.replicate 128 7) false)],
    arrives m = true ∧ ((joins m).block (2 ^ 40)).bolted = false ∧ (joins m).poisoned (2 ^ 40) 8 = false ∧
      (joins m).latches = [] ∧ (joins m).onceAt (2 ^ 40) = 0 := by decide +kernel
theorem wit_join_conflict : let m := mess (.join (2 ^ 40) (2 ^ 44) 7 3 (natBytes 8 7) false)
    let s := { task with once := [(2 ^ 40, 1)] }
    arrives m s = true ∧ (joins m s).onceAt (2 ^ 40) = 1 ∧ readBytes (joins m s).mem (2 ^ 40) 8 ≠ natBytes 8 7 := by decide +kernel
theorem wit_fill : ∀ n ∈ [1, 64], let m := mess (.fill (2 ^ 40 + 64) (2 ^ 44 + 64) chain (List.replicate n 5) false)
    arrives m (buffer 0 0 1) = true ∧ ((sends m (buffer 0 0 1)).take 0 m).bufOf chain (2 ^ 40 + 64) = some (2 ^ 40) ∧
      (((sends m (buffer 0 0 1)).take 0 m).bufBits (2 ^ 40)).drained.st = 0 ∧
      2 ^ 40 + 64 + n ≤ 2 ^ 40 + 64 + (((sends m (buffer 0 0 1)).take 0 m).bufBits (2 ^ 40)).drained.size := by decide +kernel
theorem wit_fill_held : let m := mess (.fill (2 ^ 40 + 64) (2 ^ 44 + 64) chain [5] false)
    arrives m (buffer 2 0 1) = true ∧ ((sends m (buffer 2 0 1)).take 0 m).bufOf chain (2 ^ 40 + 64) = some (2 ^ 40) ∧
      (((sends m (buffer 2 0 1)).take 0 m).bufBits (2 ^ 40)).drained.st = 2 := by decide +kernel
/-- A release at the first buffer. -/
def release : Msg := mess (.brel (2 ^ 40) (2 ^ 44) chain) 4096 8
theorem wit_brel : arrives release (buffer 2 0 2) = true ∧ arrives release (buffer 2 1 2) = true ∧ arrives release (buffer 1 0 2) = true ∧
    (buffer 2 0 2).isBuf chain (2 ^ 40) = true ∧ ((buffer 2 0 2).bufBits (2 ^ 40)).rel + 1 < ((buffer 2 0 2).bufBits (2 ^ 40)).cons ∧
    ((buffer 2 1 2).bufBits (2 ^ 40)).rel + 1 = ((buffer 2 1 2).bufBits (2 ^ 40)).cons ∧ (buffer 2 1 2).heldFills = [] ∧
    ((buffer 1 0 2).bufBits (2 ^ 40)).st ≠ 2 ∧ (buffer 2 1 2).isBuf chain (2 ^ 40) = true ∧ ((buffer 2 1 2).bufBits (2 ^ 40)).st = 2 := by decide +kernel
theorem wit_bdecl : let m := mess (.bdecl (2 ^ 40) (2 ^ 44) chain 3) 4096 8
    arrives m (buffer 0 0 1) = true ∧ arrives m (buffer 1 0 1) = true ∧ (buffer 0 0 1).isBuf chain (2 ^ 40) = true ∧
      ((buffer 0 0 1).bufBits (2 ^ 40)).st = 0 ∧ ((buffer 0 0 1).bufBits (2 ^ 40)).rel = 0 ∧ ((buffer 1 0 1).bufBits (2 ^ 40)).st ≠ 0 := by decide +kernel
theorem wit_bolt_clear : ∀ m ∈ [mess (.bolt (2 ^ 40) (2 ^ 44) 0) 4096 8, mess (.clearCheck (2 ^ 40) (2 ^ 44) 0 1 3) 4096 8,
    mess (.clearApply (2 ^ 40) (2 ^ 44) 1 3) 4096 8], arrives m = true ∧ arrives m (bolted 1) = true := by decide +kernel
theorem wit_clear_check : ((bolted 1).block (2 ^ 40)).bolted = true ∧ ((bolted 1).block (2 ^ 40)).gen = some (5, 0) ∧
    ((bolted 1).bar 5).gen ≠ 0 ∧ ((bolted 0).bar 5).gen = 0 := by decide +kernel
theorem wit_combine : let a := mess (.join (2 ^ 40) (2 ^ 44) 6 2 (natBytes 4 7) false)
    let b := mess (.join (2 ^ 40) (2 ^ 44) 6 2 (natBytes 4 8) false)
    let s : State := { task with net := [a, b] }
    s.net[0]? = some a ∧ s.net[0 + 1]? = some b ∧ (a.more ++ b.senders).length ≤ 3 ∧ a.key = b.key ∧ a.crossed = false ∧
      chained (a.senders ++ b.senders) = true ∧ s.mayChoose a.iss.task.slot (logTile a.home) 5 1 = true := by decide +kernel

/-! Witnesses: answers. -/

theorem wit_load_serve : let m := mess (.load (2 ^ 40) (2 ^ 44) 0 8 chain false six 64)
    arrives m = true ∧ ((sends m).take 0 m).poisoned (2 ^ 40) 8 = false := by decide +kernel
theorem wit_load_fault : let m := mess (.load (2 ^ 40) (2 ^ 44) 1 8 chain false six 64)
    arrives m = true ∧ (((sends m).take 0 m).block (2 ^ 40)).bolted = false ∧ arrives m (bolted 0) = true := by decide +kernel
theorem wit_load_buffer : let m := mess (.load (2 ^ 40) (2 ^ 44) 0xB 8 chain false six 64)
    arrives m (buffer 0 0 1) = true ∧ ((sends m (buffer 0 0 1)).take 0 m).bufReads chain (2 ^ 40) 8 = true ∧
      ((sends m (buffer 0 0 1)).take 0 m).bufReads chain (2 ^ 40 + 64) 8 = false := by decide +kernel
/-- A request of the task. -/
def asks (ty width : Nat) (w : Want) : Msg := mess (.want (2 ^ 40) (2 ^ 44) ty width w 6) 4096 8
theorem wit_get_serve : ∀ n ∈ [0, 1, 2], let m := asks 7 3 (.get 8)
    let s := { task with once := put 0 [] (2 ^ 40) n }
    arrives m s = true ∧ ((sends m s).take 0 m).onceAt (2 ^ 40) = n ∧ ((sends m s).take 0 m).poisoned (2 ^ 40) 8 = false := by decide +kernel
theorem wit_want : (sends (asks 7 3 (.get 8))).wantDead task.issuer = false ∧
    (let s : State := { State.reset with net := [asks 7 3 (.get 8)] }
     s.due 0 = some (asks 7 3 (.get 8)) ∧ (s.take 0 (asks 7 3 (.get 8))).wantDead task.issuer = true) := by decide +kernel
theorem wit_thr_serve : let m := asks 1 3 (.thr [9, 0])
    arrives m = true ∧ ((sends m).take 0 m).cellPasses 1 3 (2 ^ 40) 0 = true ∧ ((sends m).take 0 m).cellPasses 1 3 (2 ^ 40) 9 = false ∧
      ((sends m).take 0 m).poisoned (2 ^ 40) 8 = false ∧ arrives (asks 1 3 (.thr [9])) = true ∧
      arrives (asks 1 3 (.thr [9])) (bolted 0) = true := by decide +kernel
theorem wit_join_wait : arrives (asks 6 2 (.join 1)) = true ∧ (task).cellPasses 6 2 (2 ^ 40) 1 = false ∧
    arrives (asks 6 2 (.join 1)) { task with mem := [(2 ^ 40, 1)] } = true ∧
    ({ task with mem := [(2 ^ 40, 1)] } : State).cellPasses 6 2 (2 ^ 40) 1 = true := by decide +kernel
/-- A mailbox of two slots of dimension 6 at 2^40, its header filled; slot 0 holds version `v` when `full`. -/
def mailbox (full : Nat) : State :=
  { task with
    mem := writeBytes (writeBytes [] (2 ^ 40) (natBytes 8 (0xC * 2 ^ 60 + 2 ^ 16 + 6))) (2 ^ 40 + 128) (natBytes 8 (6 * full))
    once := put 0 (put 0 [] (2 ^ 40) 1) (2 ^ 40 + 128) full }
theorem wit_mailbox_serve : (∀ w ∈ [Want.gsnd, .grcv, .gdmp], arrives (asks 8 1 w) (mailbox 1) = true) ∧
    (mailbox 1).mboxHead (2 ^ 40) = some { depth := 2, damp := 0, dim := 6 } ∧ ((mailbox 1).block (2 ^ 40)).bolted = false ∧
    (mailbox 1).latches = [] ∧ (mailbox 1).onceAt (2 ^ 40 + 128) = 1 ∧ (mailbox 1).poisoned (2 ^ 40) 128 = false ∧
    Word.field (BitVec.ofNat 64 (readNat (mailbox 1).mem (2 ^ 40 + 128) 8)) 63 32 = 0 ∧
    Word.field (BitVec.ofNat 64 (readNat (mailbox 1).mem (2 ^ 40 + 128) 8)) 2 0 = 6 := by decide +kernel
/-- A THR at a max-plus cell of eight bytes waits in the latch table. -/
def latch (place : Nat) (w : Want) (ty width : Nat) : Latch :=
  { iss := task.issuer, pkg := 0, home := 4096, pa := 2 ^ 40, va := 2 ^ 44, ty := ty, width := width, group := 0, want := w, reg := 6, place := place }
theorem wit_join_wakes : let m := mess (.join (2 ^ 40) (2 ^ 44) 1 3 (natBytes 8 7) false)
    let s := { task with latches := [latch 0 (.thr [9, 7]) 1 3] }
    arrives m s = true ∧ (∀ l ∈ (joins m s).latches, l.want.mailbox = false) ∧
      latch 0 (.thr [9, 7]) 1 3 ∈ (joins m s).latches ∧ (latch 0 (.thr [9, 7]) 1 3).place ≠ 2 := by decide +kernel
theorem wit_retry : ∀ b ∈ [0, 1], let s := { task with latches := [latch 2 (.join 1) 6 2], mem := put 0 [] (2 ^ 40) (BitVec.ofNat 8 b) }
    s.latches[0]? = some (latch 2 (.join 1) 6 2) ∧ s.poisoned (2 ^ 40) 4 = false ∧ s.cellPasses 6 2 (2 ^ 40) 1 = (b == 1) ∧
      (s.block (2 ^ 40)).bolted = false ∧ s.latchPlace 4096 ≠ 2 := by decide +kernel
theorem wit_answers : ∀ m ∈ [mess (.result six (.word 7)) 0 8, mess (.result { isV := true, reg := 6 } (.vec 7)) 0 8, mess (.wake six (.word 7)) 0 8,
    mess (.wake six (.fault 6 0 64)) 0 8, mess (.wake { isV := false, reg := 32 } .pass) 0 8, mess (.mreply (.damp 1)) 0 8, mess .boltAck 0 8,
    mess (.result { isV := false, reg := 32 } (.word 7)) 0 8, mess (.result { isV := false, reg := 64 } (.word 7)) 0 8], arrives m = true := by decide +kernel
theorem wit_answer_handler : let m := mess (.result { six with handler := some (0, 0, 1) } (.word 7)) 0 8
    arrives m (hinge) = true ∧ (((sends m (hinge)).take 0 m).ctxOf 0 4).isRun 1 = true := by decide +kernel
theorem wit_fetched : let m := { mess (.result { isV := false, reg := 64 } (.word 7)) 0 8 with cmd := 9 }
    let s := { task with fetched := [(9, 64, none)] }
    arrives m s = true ∧ (9, 64, none) ∈ ((sends m s).take 0 m).fetched := by decide +kernel
/-- Page tables of slot 0 that map 2^44 with a page of 1 GiB of a cell type and a width code, in stack 0 of a package. -/
def mapped (ty width : Nat) (s : State := task) (far : Nat := 0) : State :=
  let put16 := fun (mem : List Host.Cell) (a w0 w1 : Nat) => writeBytes mem ((physOf 0 a).getD 0) (natBytes 8 w0 ++ natBytes 8 w1)
  let s := s.setSlot 0 { s.slot 0 with hw := some 0, qcb := ((List.replicate 32 (0 : Word)).set 2 0x2000).set 1 8 }
  { s with mem := put16 (put16 s.mem 0x2200 0x4001 0) 0x4000 (far * 2 ^ 39 + 2 ^ 30 + 0xA1) (ty * 2 ^ 52 + width * 2 ^ 50) }
/-- The reason of a failed walk. -/
def reasonOf : Except Nat TlbEntry → Option Nat
  | .error r => some r
  | .ok _ => none
theorem error_of {e : Except Nat TlbEntry} {r : Nat} (h : reasonOf e = some r) : e = .error r := by
  cases e <;> simp_all [reasonOf]
theorem wit_walk : (∃ e, (mapped 1 3).walk 0 (2 ^ 44) = .ok e) ∧ task.walk 0 (2 ^ 44) = .error 1 ∧
    ((mapped 1 3).spotOf 0 (2 ^ 44)).isSome = true := ⟨ok_of (by decide +kernel), error_of (by decide +kernel), by decide +kernel⟩
/-- A walk of core 0 for the page at 2^44. -/
def asked : Walk := { die := 0, slot := 0, va := 2 ^ 44, askers := [{ kind := 0, place := 0, ctx := 0 }] }
theorem wit_walk_fails : let s := task fun c => { c with wait := .xlate (2 ^ 44) }
    ({ s with walks := [asked] } : State).walks[0]? = some asked ∧ ({ s with walks := [asked] } : State).walkRuns 0 asked = true ∧
      s.walkBy asked.die asked.slot asked.va = .error 1 ∧ (s.ctxOf 0 0).slot = asked.slot ∧ (s.ctxOf 0 0).wait = .xlate (2 ^ 44) ∧
      ∃ e, (mapped 1 3).walkBy asked.die asked.slot asked.va = .ok e :=
  ⟨rfl, by decide +kernel, error_of (by decide +kernel), by decide +kernel, by decide +kernel, ok_of (by decide +kernel)⟩
theorem wit_digest : let pa := ((mapped 1 3).spotOf 0 (2 ^ 44)).elim 0 (·.pa)
    let m := mess (.digest pa (2 ^ 44) 0) 4096 8
    arrives m (mapped 1 3) = true ∧ (((sends m (mapped 1 3)).take 0 m).spotOf 0 (2 ^ 44)).isSome = true ∧ ((mapped 1 3).block pa).bolted = false := by
  decide

/-! Witnesses: the steps of tasks. -/

/-- A record whose entry is 0x100. -/
def rec1 : Rec := { words := [0x100, 0, 0, 0, 0, 0, 0, 0], slot := 0 }
/-- Core 0 of the machine after reset, changed. -/
def tile0 (f : CoreSt → CoreSt) : State := State.reset.setCore 0 (f (State.reset.core 0))
theorem wit_task_start : let s := tile0 fun c => { joined c with deque := [rec1] }
    s.held 0 = false ∧ (s.core 0).firstRestore = none ∧ (s.core 0).freeCtx = some 0 ∧ (s.core 0).deque = [rec1] ∧
      s.arbitrates 0 0 = true := by decide +kernel
/-- A spilled task that is ready. -/
def spilled1 : Spilled := { ctx := { role := .task }, num := 2, place := 0, frame := [], ready := some 1, poison := [0x40] }
theorem wit_task_restore : let s := tile0 fun c => { joined c with spilled := [spilled1] }
    s.held 0 = false ∧ (s.core 0).firstRestore = some (2, 0) ∧ (s.core 0).spilled[0]? = some spilled1 ∧
    ∀ o ∈ spilled1.poison, o < 0x20000 := by decide +kernel
/-- A task that waits. -/
def waits (w : Wait) (f : Ctx → Ctx := id) : State := task fun c => f { c with wait := w }
theorem wit_owes : let s := { waits .doneWrites with net := [mess (.store (2 ^ 40) (2 ^ 44) [1])] }
    s.owes (ofTask (s.idOf 0 0 (s.ctxOf 0 0))) 0x1FF = true ∧ ((core0 (fun c => { c with halted := true }) (waits .doneWrites)).core 0).halted = true ∧
      ((waits .doneWrites).core 0).halted = false := by decide +kernel
theorem wit_retire : ∀ s ∈ [waits .doneWrites, waits .cancelling, waits (.failing { cause := 1, tval := 0, pc := 0, double := false })],
    s.owes (ofTask (s.idOf 0 0 (s.ctxOf 0 0))) 0x1FF = false ∧ (s.ctxOf 0 0).role = .task ∧ (s.ctxOf 0 0).faults.openIn 0x1FF = [] ∧
      (s.ctxOf 0 0).exitc = 0 := by decide +kernel
/-- A check that passes. -/
def passed : Chk → Bool
  | .ok _ => true
  | _ => false
theorem wit_retire_exit : let s := mapped 6 2 (waits .doneWrites fun c => { c with exitc := BitVec.ofNat 64 (2 ^ 44) })
    passed (s.checkWalk 0 0 0 (2 ^ 44) TlbEntry.exitAlign .own) = true ∧ ((s.spotOf 0 (2 ^ 44)).elim 0 fun p => p.e.ctype) = 6 ∧
      (s.ctxOf 0 0).exitc.toNat = 2 ^ 44 ∧ s.inMirror 0 0 = false := by decide +kernel
theorem wit_retire_surfaces : let s := core0 handled (waits .doneWrites fun c => { c with faults := c.faults.add 0x20 0 7 })
    (s.ctxOf 0 0).inh = false ∧ (s.ctxOf 0 0).faults.openIn 0x1FF ≠ [] ∧ (s.core 0).tvec ≠ 0 ∧
      s.owes (ofTask (s.idOf 0 0 (s.ctxOf 0 0))) 0x1FF = false := by decide +kernel
theorem wit_steal : let s := tile0 joined
    (s.core 0).stealOut = false ∧ s.stealIdle 0 = true ∧ s.nextDir 0 (s.core 0).stealDir = some 1 ∧ neighbour 0 1 = some 1 := by decide +kernel
/-- Core 1, which has a record, and core 0, which steals it. -/
def victim (l : List Rec) : State := (tile0 joined).setCore 1 { joined (State.reset.core 1) with deque := l }
/-- A record that only its own tile runs. -/
def home1 : Rec := { words := [0x1000100, 0, 0, 0, 0, 0, 0, 0], slot := 0 }
theorem wit_steal_served : let s := victim [rec1]
    let m := s.stealMsg 0 1 (.steal 0 1 1 0)
    arrives m s = true ∧ s.held 1 = false ∧ s.servedBefore 1 3 0 = false ∧ s.arbitrates 1 1 = true ∧ (s.core 1).queued = [] ++ rec1 :: [] ∧ (s.core 0).slot = some rec1.slot ∧
      ((s.core 0).groupSlot rec1.group).isSome = true ∧ rec1.local_ = false ∧ s.mayChoose (s.slotOf 1) 1 1 7 = true ∧ home1.local_ = true ∧
      arrives m (victim [home1]) = true ∧ (victim [home1]).mayChoose ((victim [home1]).slotOf 1) 1 1 6 = true := by decide +kernel
/-- Two requests of one cycle: the one from the east, direction 1, is served after that from the west. -/
theorem wit_steal_order : let s := victim [rec1]
    let a := s.stealMsg 2 1 (.steal 2 1 3 0)
    let b := s.stealMsg 0 1 (.steal 0 1 1 0)
    let u : State := { s with net := [a, b] }
    let u := u.setCore 1 { u.core 1 with lastServed := 2 }
    u.due 0 = some a ∧ b ∈ u.net ∧ u.serveOrder 1 ((1 + 2) % 4) < u.serveOrder 1 ((3 + 2) % 4) := by decide +kernel
theorem wit_stolen : let m := (victim []).stealMsg 1 0 (.stolen 0 rec1 0)
    arrives m (victim []) = true ∧ ((sends m (victim [])).take 0 m).held 0 = false ∧ (((sends m (victim [])).take 0 m).core 0).freeCtx = some 0 ∧
      arrives ((victim []).stealMsg 1 0 (.refusal 0)) (victim []) = true := by decide +kernel
/-- Every context of core 0 has a task. -/
def crowded (f : CoreSt → CoreSt := id) (w : Wait := .none) : State :=
  tile0 fun c => f { joined c with ctxs := Vector.replicate 5 { role := .task, wait := w } }
theorem wit_stolen_waits : let m := (crowded).stealMsg 1 0 (.stolen 0 rec1 0)
    arrives m (crowded) = true ∧ (((sends m (crowded)).take 0 m).core 0).freeCtx = none ∧ (((sends m (crowded)).take 0 m).core 0).saved = none ∧
      (((sends m (crowded)).take 0 m).core 0).queued.length < 1280 := by decide +kernel
/-- A record with hint (1, 0), radius 1. -/
def hinted : Rec := { words := [BitVec.ofNat 64 (2 ^ 59 + 2 ^ 48 + 0x100), 0, 0, 0, 0, 0, 0, 0], slot := 0 }
theorem wit_spawnat_walk : let m := mess (.walk hinted 1) 1 8
    arrives m (victim []) = true ∧ (sends m (victim [])).arbitrates 1 2 = true ∧ ((sends m (victim [])).take 0 m).walkEligible 1 0 hinted = true ∧
      ((sends m (victim [])).take 0 m).mayChoose 0 1 2 (manhattan 0 1) = true ∧ (((sends m (victim [])).take 0 m).core 1).freeCtx = some 0 := by decide +kernel
theorem wit_spawnat_on : let m := mess (.walk hinted 0) 0 8
    arrives m (crowded) = true ∧ ((sends m (crowded)).take 0 m).walkEligible 0 0 hinted = false ∧ ((sends m (crowded)).take 0 m).hintTile hinted 0 = 1 := by decide +kernel
theorem wit_spawnat_ends : let m := mess (.walk rec1 0) 0 8
    arrives m (crowded) = true ∧ ((sends m (crowded)).take 0 m).walkEligible 0 0 rec1 = false ∧ ((sends m (crowded)).take 0 m).hintTile rec1 0 = 0 ∧
      ((sends m (crowded)).take 0 m).takesGroup 0 0 rec1 = true ∧ (((sends m (crowded)).take 0 m).core 0).saved = none ∧
      (sends m (crowded)).arbitrates 0 2 = true ∧ (((sends m (crowded)).take 0 m).core 0).queued.length < 1280 := by decide +kernel
theorem wit_cancel_request : ∀ s ∈ [task, waits .answer], arrives (mess (.cancel 0 0 0) 0 8) s = true ∧
    (((sends (mess (.cancel 0 0 0) 0 8) s).take 0 (mess (.cancel 0 0 0) 0 8)).ctxOf 0 0).role = .task ∧ (s.ctxOf 0 0).slot = 0 ∧
      (s.ctxOf 0 0).exitc.toNat = 0 ∧ (s.ctxOf 0 0).reply = none ∧ (0 : Nat) ≠ allTiles ∧
      (sends (mess (.cancel 0 0 0) 0 8) s).arbitrates 0 3 = true := by decide +kernel
theorem wit_spill : let s := crowded (fun c => { c with deque := [rec1] }) (.chan 0)
    s.wantsSpill 0 = true ∧ s.spillChoice 0 = some 0 ∧ (s.core 0).freePlace = some 0 ∧ (s.core 0).deque = [rec1] := by decide +kernel
theorem wit_spill_full : let s := crowded (fun c => { c with deque := [rec1], spilled := (List.range 8).map fun k => { spilled1 with place := k, ready := none } }) (.chan 0)
    s.wantsSpill 0 = true ∧ s.spillChoice 0 = some 0 ∧ (s.core 0).freePlace = none := by decide +kernel

/-! Witnesses: the engines. -/

/-- A command of the copy engine of core 0. -/
def copying (d : List Word) : CopyCmd :=
  { id := 1, iss := task.issuer, ctx := 0, group := 0, colour := 0, fseed := 0, frm := 0, desc := d, image := none, n := 0, destsDone := 0
    tile := none, fillBuf := none, ended := none }
/-- Core 0 with that command. -/
def copies (c : CopyCmd) (s : State := task) : State := core0 (fun k => { k with copyQ := [c], copyTlb := [page 0 0] }) s
theorem wit_copy : ∀ c ∈ [copying copy1, { copying copy1 with n := 1 }],
    (copies c).copyReady 0 0 = some c ∧ (copies c).copyTurn 0 = some 0 ∧ c.image = none ∧ c.tile = none ∧ c.fillBuf = none ∧
      c.after = [] ∧ c.destsDone = 0 ∧ c.value = none := by decide +kernel
theorem wit_copy_element : let c := copying copy1
    let e := copyElement c.desc c.n
    c.n < boxSize c.desc ∧ boxSize c.desc ≤ 1 ∧ e = (0x100000, 0x100040, true) ∧ copyCvt c.desc = false ∧ copyCode c.desc = false ∧ copyMask c.desc = 0 ∧
      copySwz c.desc = 0 ∧ copySrcBytes c.desc = 1 ∧ (copies c).engineLocal (c.agent 0) 0x100000 1 false = true ∧
      (copies c).engineLocal (c.agent 0) 0x100040 1 true = true ∧ (copies c).poisoned 0x100000 1 = false ∧ Memory.wf (copies c).mem = true := by
  decide
/-- What an engine's access comes to: 0 a value, 1 a message, 2 a wait, 3 a stop. -/
def putKind : Got Put → Nat
  | .ok (.msg _) => 1
  | .ok _ => 0
  | .wait _ => 2
  | .stop .. => 3
theorem wit_copy_message : let c := copying (copy1.set 2 (BitVec.ofNat 64 (2 ^ 44)))
    (copies c).copyReady 0 0 = some c ∧ (copyElement c.desc 0).2.1 = 2 ^ 44 ∧
      putKind (((copies c).orFlags c.iss 0).engineWrite (c.agent 0) (2 ^ 44) (readBytes (copies c).mem (localPa 0 0x100000) 1) (copyRed c.desc) false true) = 1 := by
  decide
/-- An access that stops. -/
def stopped {α : Type} : Got α → Bool
  | .stop .. => true
  | _ => false
/-- An access that gives its value. -/
def given {α : Type} : Got α → Bool
  | .ok _ => true
  | _ => false
theorem wit_copy_stop : let c := copying (copy1.set 1 0x200000)
    (copies c).copyReady 0 0 = some c ∧ (copies c).copyTurn 0 = some 0 ∧ (copyElement c.desc 0).2.2 = true ∧
      stopped ((copies c).engineRead (c.agent 0) (copyElement c.desc 0).1 1 (copyCode c.desc)) = true := by decide +kernel
theorem wit_copy_complete : ∀ c ∈ [{ copying copy1 with ended := some 0 }, { copying (copy1.set 0 (wordAt copy1 0 ||| 0x200000000000)) with ended := some 0 }],
    c.image = none ∧ (((copies c).core 0).copyQ.find? fun d => d.ctx == 0 && d.ended.isSome && !(copies c).copyOwes d.id) = some c ∧
      (task).ctx.pops = [] := by decide +kernel

theorem wit_copy_stat : copyStat copy1 = false ∧ copyStat (copy1.set 0 (wordAt copy1 0 ||| 0x200000000000)) = true := by decide +kernel
theorem wit_key_grant : let s := quad0 (fun q => { q with requests := [task.myTask] }) task
    (s.quad 0).holder = none ∧ 0 = ((s.quad 0).lastPos + 1) % 5 ∧ (s.quad 0).requests = [] ++ task.myTask :: [] ∧
      quadPos task.myTask.core = 0 ∧ s.preempted task.myTask.slot = false ∧ s.mayChoose 0 (quadTile 0 0) 3 0 = true := by decide +kernel
theorem wit_key_grant_later : let s := quad0 (fun q => { q with requests := [task.myTask], lastPos := 3 }) task
    (s.quad 0).holder = none ∧ 0 = ((s.quad 0).lastPos + 2) % 5 ∧ ((s.quad 0).lastPos + 1) % 5 = 4 ∧ s.gangRequest (s.quad 0) = none := by decide +kernel
/-- The operands of a step, in the page that `page` caches. -/
def mma3 : List Word := (mma1.set 1 (BitVec.ofNat 64 (2 ^ 44))).set 2 (BitVec.ofNat 64 (2 ^ 44))
/-- An operation in array 0. -/
def working (o : ArrOp) (s : State := task) : State := quad0 (fun q => { q with cur := some o, tlb := [page 0 0] }) s
theorem wit_kstep_start : let s := quad0 (fun q => { q with queue := [arr 1 mma1] }) task
    (s.quad 0).cur = none ∧ (s.quad 0).displaced = [] ∧ s.nextArray (s.quad 0) = some (arr 1 mma1) := by decide +kernel
theorem wit_kstep_idle : ∀ o ∈ [({ cmd := arr 1 mma1, held := true } : ArrOp), { cmd := arr 1 mma1, drainOn := true }],
    ((working o).quad 0).cur = some o ∧ (o.held = true ∨ o.drainOn = true) := by decide +kernel
/-- The lines of A of an operation's next step. -/
def linesA (o : ArrOp) : Got (List Line) :=
  (working o).arrayLines (o.cmd.agent 0) o.cmd.pfx.a (o.cmd.pfx.scale == 1)
    ((List.range o.cmd.mv).map fun i => (o.cmd.stepKs o.steps, o.cmd.readsA o.steps i))
/-- The lines of B. -/
def linesB (o : ArrOp) : Got (List Line) :=
  (working o).arrayLines (o.cmd.agent 0) o.cmd.pfx.b (o.cmd.pfx.scale == 1)
    ((List.range o.cmd.nv).map fun j => (if arrBtr o.cmd.desc then o.cmd.stepKs o.steps else (o.cmd.stepKs o.steps).map fun _ => o.cmd.col0 + j,
      o.cmd.readsB o.steps j))
theorem wit_kstep : let o : ArrOp := { cmd := arr 1 mma3 }
    given (linesA o) = true ∧ given (linesB o) = true ∧ o.cmd.nv ≤ 64 ∧ wfFrom 0 0 o.acc = true ∧
      (o.steps + 1 < o.cmd.depth ∨ arrDrain o.cmd.desc = true) ∧ stopped (linesA { cmd := arr 1 mma1 }) = true := by decide +kernel
theorem wit_drain_end : let o : ArrOp := { cmd := arr 1 mma1, drainOn := true, rows := 1 }
    o.cmd.mv ≤ o.rows ∧ arrClose o.cmd.desc = false := by decide +kernel
theorem wit_drain_handler : let o : ArrOp := { cmd := arr 1 (mma1.set 0 (wordAt mma1 0 ||| 0x4000000)), drainOn := true }
    o.rows + o.rowsOut < o.cmd.mv ∧ arrHen o.cmd.desc = true ∧ (working o).rowsWaiting 0 o.cmd.drainCore < 4 ∧
      (working o).mayChoose o.cmd.iss.task.slot o.cmd.drainCore 8 0 = true := by decide +kernel
theorem wit_drain_pop : (∀ x, task.taskCtx (arr 1 mma1).iss.task = some x → x.q3rows.length < 4 ∧ x.discardsRows = false ∧ x.pops = []) ∧
    (task.taskCtx (arr 1 mma1).iss.task).isSome = true := by
  refine ⟨fun x e => ?_, by decide +kernel⟩
  obtain rfl : x = task.ctx := Option.some.inj (e.symm.trans (show task.taskCtx (arr 1 mma1).iss.task = some task.ctx by decide +kernel))
  decide
theorem wit_drain_discards : (waits .doneWrites).ctx.discardsRows = true := by decide +kernel
theorem wit_drain_pop_bits : let o : ArrOp := { cmd := arr 1 (mma1.set 0 (wordAt mma1 0 ||| 0x80000)), drainOn := true }
    o.rows + o.rowsOut < o.cmd.mv ∧ arrHen o.cmd.desc = false ∧ arrPop o.cmd.desc = true := by decide +kernel
theorem wit_drain_row : let o : ArrOp := { cmd := arr 1 mma2, drainOn := true }
    o.rows + o.rowsOut < o.cmd.mv ∧ arrHen o.cmd.desc = false ∧ arrPop o.cmd.desc = false ∧
      rowWritten ((working o).writeRow 0 o.cmd 0 [1]) = true := by decide +kernel
/-- A row for a handler. -/
def job : RowJob := { quad := 0, row := 0, lanes := [1], arr := arr 1 mma1 }
theorem wit_row_start : let s := core0 (fun c => { c with arrivals := [.row job] }) task
    (s.core 0).arrivals = .row job :: [] ∧ (s.ctxOf 0 4).busy = false ∧ s.defers 0 = false ∧ s.preempted job.arr.iss.task.slot = false := by decide +kernel

/-- A binding of unit 0 by a task: the elementwise run of `nb1`, its streams at 2^40. -/
def bound (i : Issuer) : Binding :=
  { block := nb1, bases := List.replicate 4 (2 ^ 40), lattice := [false, false, false], vas := List.replicate 4 (2 ^ 44), iss := i, group := 0, colour := 0 }
/-- Another task. -/
def other : Issuer := { task.issuer with task := { task.myTask with serial := 7 } }
/-- Unit 0 with a binding. -/
def unit0 (b : Option Binding) : State := task.setUnit 0 { bound := b }
/-- A near-bank message. -/
def nbMess (op : NbOp) : Msg := mess (.nb 0 op) 4096 8
theorem wit_nb_bind : arrives (nbMess (.bind (bound task.issuer))) = true ∧ (task.unit 0).bound = none ∧
    arrives (nbMess (.bind (bound task.issuer))) (unit0 (some (bound other))) = true ∧ other.task ≠ task.issuer.task := by decide +kernel
/-- What a unit is asked to run. -/
def isRunOp : NbOp → Bool
  | .run .. => true
  | _ => false
theorem wit_nb_run : let m := nbMess (.run 6 0 0)
    let s := sends m (unit0 (some (bound task.issuer)))
    let r : NbRun := { b := nb1, bases := (bound task.issuer).bases, vas := (bound task.issuer).vas, cells := (bound task.issuer).cells, g := 0 }
    s.unitDue 0 isRunOp = some (0, m) ∧ (s.unit 0).bound = some (bound task.issuer) ∧ nbCrosses nb1 = false ∧
      (s.take 0 m).banks.nbOpen r (bound task.issuer).lattice = false ∧ (nbRnd nb1 = 6 → (0 : Nat) < 6) ∧ nbRows nb1 = 1 ∧
      (s.take 0 m).banks.nbPoison r 0 = none ∧
      (sends m (unit0 none)).unitDue 0 isRunOp = some (0, m) := by decide +kernel
theorem wit_nb_rel : let m := nbMess .rel
    let s := sends m (unit0 (some (bound task.issuer)))
    s.formOk = true ∧ (s.unitDue 0 fun op => decide (op = .rel)) = some (0, m) ∧ (s.unit 0).bound = some (bound task.issuer) := by decide +kernel

/-! Witnesses: hinge calls, channels and barriers. -/

/-- A call of the task to its own tile. -/
def call (w : Bool) : Call :=
  { id := 1, caller := task.issuer, entry := 0, payload := [5], target := 0x100000, colour := 0, group := 0, w := w, rd := 5, pkg := 0, unit := 0
    grp := 0, exitc := 0, tid := 0, enables := 0, dst := { isV := false, reg := 5 } }
theorem wit_call_arrives : let m := mess (.hcall (call true)) 0
    arrives m = true ∧ task.mailboxRoom 0 (call true) = true ∧ task.mayChoose (call true).slot (logTile 0) 4 ((call true).choice true) = true ∧
      (let s := core0 (fun c => { c with mailbox := List.replicate 64 { call true with id := 2 } }) task
       arrives m s = true ∧ s.mailboxRoom 0 (call true) = false ∧ s.mayChoose (call true).slot (logTile 0) 4 ((call true).choice false) = true) := by decide +kernel
theorem wit_call_note : ∀ x ∈ [HingeNote.accept, .refuse, .ended 7, .failed 0x23, .lost], let m := mess (.hnote (call true) x) 0
    arrives m = true ∧ arrives m { task with lostCalls := [1] } = true ∧ ((sends m).take 0 m).lostCalls.contains (call true).id = false := by decide +kernel
theorem wit_call_pair : (call true).rd ≠ 0 ∧ (call true).rd < 31 ∧ { call true with rd := 30 }.rd < 31 := by decide +kernel
/-- The call waits at its handler context; the command has an entry for it, or none. -/
def called (h : List Word) : State :=
  core0 (fun c => { joined c with arrivals := [.hinge (call true)], mailbox := [call true] }) (running task { cmd 1 .running with hinge := h })
theorem wit_handler : ∀ h ∈ [[0x100], ([] : List Word)], ((called h).core 0).arrivals = .hinge (call true) :: [] ∧ ((called h).ctxOf 0 4).busy = false ∧
    (called h).defers 0 = false ∧ (called h).preempted (call true).slot = false ∧ (call true).payload.length ≤ 8 := by decide +kernel
theorem wit_handler_entry : (called [0x100]).entryFor (call true) = some 0x100 ∧ (called []).entryFor (call true) = none := by decide +kernel
theorem wit_reply_timeout : let s : State := { task with remoteCalls := [call true, { call false with id := 2, accepted := true }] }
    (s.remoteCalls.find? fun j => j.id == 1 && !j.accepted) = some (call true) ∧ (∀ l, l ∈ List.range 12 → s.linkDown l = false) ∧
      (call true).dst.handler = none ∧ ∀ j ∈ s.remoteCalls, j.id = 2 → j.accepted = true := by decide +kernel
/-- A link to the call's package is down, whichever links lead there. -/
theorem wit_reply_timeout_down (h : 0 ∈ Config.linksTo 0) : ∃ l ∈ Config.linksTo (call true).pkg,
    ({ task with remoteCalls := [call true], links := put {} [] 0 { failed := true, up := false } } : State).linkDown l = true :=
  ⟨0, h, by decide +kernel⟩

/-- A packet of the task for port 3 of tile 0. -/
def packet (rank : Nat) : Packet :=
  { iss := task.issuer, rank := rank, rfmt := 0, colour := 0, data := 0, route := 0, server := false, tile := 0, port := 3, wait := 64 }
/-- Tile 0 with port 3 bound or not, and packets in it. -/
def port3 (b : Option (Nat × Nat × Bool × Nat)) (n : Nat) : State := core0 (fun c => c.setPort 3 { bound := b, pkts := List.replicate n (packet 0) }) task
theorem wit_packet : ∀ s ∈ [port3 none 31, port3 none 32, port3 (some (0, 3, true, 2)) 31, port3 (some (0, 3, true, 1)) 0, port3 (some (0, 3, true, 2)) 0],
    arrives (mess (.packet (packet 1)) 0) s = true ∧ (packet 1).port < 4 ∧
      s.mayChoose (mess (.packet (packet 1)) 0).iss.task.slot (packet 1).tile 7 (packet 1).choice = true := by decide +kernel
/-- The port of a reduction server that waits for rank 1, the rest of its round taken or not. -/
theorem wit_packet_served : let s := core0 (fun c => { c.setPort 3 { bound := some (0, 3, true, 3), next := 1 } with rtree := BitVec.ofNat 64 (2 ^ 63 + 2 ^ 17) }) task
    let q := (s.core 0).port 3
    arrives (mess (.packet (packet 1)) 0) s = true ∧ (s.core 0).rtree.getLsbD 63 = true ∧ s.held 0 = false ∧ (packet 1).rank = q.next ∧ q.next < 3 ∧
      q.pkts = [] ∧ q.taken.length ≤ treeChildren (s.core 0).rtree := by decide +kernel
theorem wit_packet_note : ∀ b ∈ [true, false], arrives (mess (.packetNote (packet 1) b) 0) = true := by decide +kernel
theorem wit_resend : let s := core0 (fun c => { c with resend := [(packet 0, 64)] }) task
    (s.core 0).resend = (packet 0, 64) :: [] := by decide +kernel
/-- A node of a reduction tree without children, whose server has taken its own packet or not. -/
def node (root : Bool) (taken : List Packet) : State :=
  core0 (fun c => { c.setPort 3 { taken := taken } with rtree := BitVec.ofNat 64 (2 ^ 63 + if root then 2 ^ 62 else 0) }) task
theorem wit_round : ∀ b ∈ [true, false], ∀ l ∈ [[packet 0], []], ((node b l).core 0).rtree.getLsbD 63 = true ∧ (node b l).held 0 = false ∧
    (node b l).serverOut 0 = false ∧ (((node b l).serverTakes 0).core 0).port 3 = { taken := l } ∧ treeChildren ((node b l).core 0).rtree = 0 ∧
      ({ taken := l } : Port).head = none ∧ ((((node b l).serverTakes 0).core 0).port 2).pkts = [] ∧
      ((((node b l).serverTakes 0).core 0).port 2).bound = none ∧ treeRoot ((node b l).core 0).rtree = b ∧
      ((node b l).serverTakes 0).mayChoose (((node b l).core 0).slot.getD 0) 0 7 (tileWord 0 * 4) = true := by decide +kernel

/-- Barrier 5 with tile 0 as its member, which has arrived when `n` is positive. -/
def bar5 (pkg n gangn : Nat) (f : Bar → Bar := id) : State :=
  { core0 (fun c => { c with pend := put 0 [] 5 n }) task with
    pkg := pkg, bars := put {} [] 5 (f { bound := some (0, 0, [0]), gangn := gangn }) }
theorem wit_release : ∀ s ∈ [bar5 0 0 1, bar5 0 1 1, bar5 1 1 2, bar5 0 1 2, bar5 1 1 2 fun b => { b with sent := true }],
    (s.bar 5).bound = some (0, 0, [0]) ∧ [0].Nodup := by decide +kernel
theorem wit_arrival_flit : let s := bar5 0 1 2 fun b => { b with heldFrom := [0] }
    s.pkg = 0 ∧ (s.bar 5).heldFrom.contains 1 = false ∧ (∀ k, k < (s.bar 5).gangn → k = 1 ∨ k ∈ (s.bar 5).heldFrom) :=
  ⟨by decide +kernel, by decide +kernel, upto (fun k => k == 0 || k == 1) (by decide +kernel) fun k e => by
    simp only [Bool.or_eq_true, beq_iff_eq] at e
    obtain rfl | rfl := e
    · exact .inr (by decide +kernel)
    · exact .inl rfl⟩
theorem wit_arrival_more : (bar5 0 1 2).pkg = 0 ∧ ((bar5 0 1 2).bar 5).heldFrom = [] ∧ 0 < ((bar5 0 1 2).bar 5).gangn := by decide +kernel

/-! Witnesses: the front end. -/

/-- The machine with its firmware ready. -/
def readied : State := { State.reset with ready := true }
theorem wit_not_ready : State.reset.ready = false ∧ readied.ready = true := by decide +kernel
/-- A live queue 0, its QCB in host memory at 0x1000: a ring of 64 beats at 0, a root table at 0, vector 1. -/
def hostQueue (tail : Nat := 0) : State :=
  { readied with
    qtab := some (0x1000, 1)
    hostMem := writeBytes [] 0x1000 (wordsBytes ((((List.replicate 32 (0 : Word)).set 1 (6 * 2 ^ 48)).set 6 (2 ^ 63 + 1)).set 3 0))
    queues := put {} [] 0 { created := true, tail := tail } }
theorem wit_admin : (hostQueue).kickable 0 = true ∧ readied.kickable 0 = false ∧ (hostQueue).live 0 = true ∧ ((hostQueue).qcbAddr 0).isSome = true ∧
    qcbOk ((hostQueue).hostQcb 0) = true ∧ ((hostQueue).slot 0).hw = none ∧ ((hostQueue).slot 0).cmd = none ∧ ((hostQueue).slot 0).outer = none := by decide +kernel
theorem wit_registers : (hostQueue).formOk = true ∧ plainRegister 0x1000 = true ∧ plainRegister 0x1078 = true ∧ plainRegister 0x1080 = false ∧
    plainRegister 0x200000 = true ∧ plainRegister 0x2080F8 = true ∧ plainRegister 0x208100 = false ∧ (hostQueue).bar2Byte 0 = some (2 ^ 40) ∧
    ({ hostQueue with bar2 := 2 } : State).bar2Byte 0 = none ∧ (hostQueue).bar2Size ≤ 2 ^ 30 ∧ (hostQueue).powered = true ∧ (hostQueue).enc = [] ∧ (hostQueue).memOk = true := by decide +kernel
theorem wit_firmware : State.reset.powered = true ∧ State.reset.ready = false ∧ readied.powered = true ∧ readied.ready = true := by decide +kernel

/-- A packet of one beat with an operation and fields, without its CRC. -/
def packet1 (op : Nat) (fields : List (Nat × Nat × Nat)) : List Byte :=
  fields.foldl (fun p f => (p.take f.1 ++ natBytes f.2.1 f.2.2 ++ p.drop (f.1 + f.2.1)))
    ([BitVec.ofNat 8 op, 0, 1] ++ List.replicate 61 0)
/-- With its CRC. -/
def sealed (p : List Byte) : List Byte := p.take 6 ++ natBytes 2 (crc16 p) ++ p.drop 8
/-- Queue 0 is mapped with a ring at 0x8000 that holds packets. -/
def ring (p : List Byte) (tail : Nat := 1) : State :=
  let s := { hostQueue tail with hostMem := writeBytes (hostQueue).hostMem 0x8000 p }
  s.setSlot 0 { hw := some 0, qcb := (s.hostQcb 0).set 0 0x8000 }
theorem wit_peek : ∀ p ∈ [packet1 6 [(32, 1, 1)], sealed (packet1 6 [(32, 1, 1)]), sealed (packet1 6 [])],
    (ring p).peek 0 = some p ∧ ((ring p).slot 0).outer = none ∧ pkOp p = 6 := by decide +kernel
theorem wit_packet_checks : pkCrcOk (packet1 6 []) = false ∧ pkCrcOk (sealed (packet1 6 [(32, 1, 1)])) = true ∧ pkOk (sealed (packet1 6 [(32, 1, 1)])) = false ∧
    pkCrcOk (sealed (packet1 6 [])) = true ∧ pkOk (sealed (packet1 6 [])) = true := by decide +kernel
theorem wit_chknow : pkOp (sealed (packet1 9 [])) = 9 ∧ pkCrcOk (sealed (packet1 9 [])) = true ∧ pkOk (sealed (packet1 9 [])) = true ∧
    ((ring (sealed (packet1 9 []))).slot 0).hw.isSome = true ∧ ((ring (sealed (packet1 9 []))).slot 0).side = none ∧
    wholePacket (fun n => readBytes (ring (sealed (packet1 9 []))).hostMem 0x8000 (64 * n)) = sealed (packet1 9 []) := by decide +kernel
/-- The front end works on a packet of an operation, in a phase, above page tables that map 2^44 with max-plus cells. -/
def fronts (op : Nat) (phase : CmdPhase := .fetched) (p : List Byte := []) (ty : Nat := 1) : State :=
  let s := mapped ty (if ty = 0 then 0 else 3) readied
  s.setSlot 0 { s.slot 0 with cmd := some { cmd op phase with packet := p, members := [], groups := [] } }
/-- Its command. -/
def front (op : Nat) (phase : CmdPhase := .fetched) (p : List Byte := []) : Cmd := { cmd op phase with packet := p, members := [], groups := [] }
theorem wit_due_packet : ∀ op ∈ [1, 2, 3, 4, 5, 6, 7, 8, 9, 10], ((fronts op).slot 0).cmd = some (front op) ∧ (front op).op = op ∧
    (front op).phase = .fetched ∧ ((fronts op).slot 0).hw.isSome = true := by decide +kernel
theorem wit_signal : let p := packet1 7 [(16, 6, 2 ^ 44), (24, 8, 9), (32, 1, 3)]
    (((fronts 7 .fetched p).pageAt 0 (pkNat p 16 6)).any fun x => signalOk x (pkNat p 16 6) 8 (pkNat p 33 1) (natBytes 8 9)) = true ∧
      (fronts 7).pageAt 0 0 = none := by decide +kernel
theorem wit_block_packet : let p := packet1 4 [(16, 6, 2 ^ 44), (24, 8, 2)]
    ((fronts 4 .fetched p).packetBlocks 0 (pkNat p 16 6) (pkNat p 24 8) (pkNat p 32 1)).isSome = true ∧ (fronts 4).packetBlocks 0 0 1 0 = none := by
  decide
theorem wit_copyh : let p := packet1 3 [(24, 6, 2 ^ 44), (32, 8, 100)]
    ((fronts 3 .fetched p 0).copyhSpots 0 (pkNat p 24 6) (pkNat p 32 8) (pkNat p 40 1) (pkNat p 41 1)).isSome = true ∧
      (fronts 3).copyhSpots 0 0 8 0 0 = none ∧
      (let q := packet1 3 [(24, 6, 2 ^ 44), (32, 8, 100), (40, 1, 1)]
       let s := fronts 3 .fetched q 0
       (s.copyhSpots 0 (2 ^ 44) 100 1 0).any (fun xs => xs.all fun x => x.2.pkg == s.pkg && !s.poisoned x.2.pa x.1.2) = true ∧ s.memOk = true ∧ pkNat q 40 1 = 1) := by
  decide
theorem wit_destroy : 1 < ((fronts 8).slot 0).qcb.length ∧ qcbConf ((fronts 8).slot 0).qcb = false := by decide +kernel
theorem wit_destroy_behind : ∀ c ∈ [false, true], let p := sealed ((packet1 8 []).set 1 (if c then 1 else 0))
    let s := ring (packet1 1 [] ++ p) 2
    let s := s.setSlot 0 { s.slot 0 with cmd := some (front 1) }
    s.behind 0 = some p ∧ pkOp p = 8 ∧ pkCancel p = c ∧ qcbState (s.slot 0).qcb ≠ 2 := by decide +kernel
theorem wit_destroy_running : ∀ ph ∈ [CmdPhase.fetched, .running], let c := { cmd 1 ph with packet := packet1 1 [] }
    let s := ring (packet1 1 [] ++ sealed ((packet1 8 []).set 1 1)) 2
    let s := s.setSlot 0 { s.slot 0 with cmd := some c }
    (s.slot 0).cmd = some c ∧ c.op ≠ 8 ∧ s.behind 0 = some (sealed ((packet1 8 []).set 1 1)) ∧ c.members = [0, 1] := by decide +kernel
/-- A store that link 0 leads to, whichever the part has. -/
theorem wit_chkpt_led (h : Config.linkLeadsTo 0 5 = true) : let p := packet1 9 [(16, 6, 2 ^ 44), (24, 8, 0), (32, 2, 1), (34, 2, 5)]
    maskLinks (pkNat p 32 2) = [0] ∧ pkNat p 34 2 = 5 ∧ (∀ l ∈ [0], Config.linkLeadsTo l 5 = true) ∧
      (fronts 9).regionBlocks 0 (pkNat p 24 8) (pkNat p 16 6) = some [] ∧ ((fronts 9).slot 0).side = none ∧ (∀ l ∈ [0], (fronts 9).linkDown l = false) :=
  ⟨by decide +kernel, by decide +kernel, fun _ m => List.mem_singleton.1 m ▸ h, by decide +kernel, by decide +kernel, by decide +kernel⟩
theorem wit_chkpt : maskLinks (pkNat (front 9).packet 32 2) = [] ∧ (fronts 9).regionBlocks 0 1 0 = none ∧
    ({ fronts 9 with links := put {} [] 0 { failed := true, up := false } } : State).linkDown 0 = true := by decide +kernel
theorem wit_chkpt_ack : let c := { front 9 .working with sent := 1 }
    c.op = 9 ∧ c.phase = .working ∧ c.acked < c.sent := by decide +kernel
/-- A message of slot 0's front end. -/
def frontMess : Msg := { mess (.store (2 ^ 40) (2 ^ 44) [1]) with iss := frontEnd 0 0 }
/-- A record cell in package 1. -/
theorem wit_record_far : let s := mapped 8 0 readied 1
    let c := front 1 .finished (packet1 1 [(8, 6, 2 ^ 44)])
    (s.setSlot 0 { s.slot 0 with cmd := some c }).recordFar 0 c = true ∧ (fronts 1).recordFar 0 (front 1) = false ∧
      ({ fronts 1 with net := [frontMess] } : State).frontOwes 0 = true := by decide +kernel
theorem wit_complete : let s := ring (packet1 1 []) 2
    let s := s.setSlot 0 { s.slot 0 with cmd := some (front 1 .finished) }
    (s.slot 0).side = none ∧ (s.slot 0).outer = none ∧ (s.slot 0).hw.isSome = true ∧ (s.slot 0).cmd = some (front 1 .finished) ∧ s.recordFar 0 (front 1 .finished) = false ∧ s.frontOwes 0 = false ∧
      1 < (s.slot 0).qcb.length ∧ qcbSize (s.slot 0).qcb ≤ 65536 ∧
      (qcbHead (s.slot 0).qcb + 1) % qcbSize (s.slot 0).qcb ≠ (s.queue 0).tail ∧ (∀ x ∈ s.queues, x.2.waiting = false) := by decide +kernel

/-- Host memory with a group table at 0x10000 whose group 0 is tile 0, and an image at 0x20000 of one word. -/
@[irreducible] def tables : List Host.Cell :=
  writeBytes (writeBytes [] 0x10000 [1]) 0x20000
    (natBytes 4 0x4F414843 ++ natBytes 2 1 ++ natBytes 2 1 ++ natBytes 8 0x100000 ++ natBytes 8 84 ++ List.replicate 40 0 ++
      natBytes 4 0 ++ natBytes 4 4 ++ natBytes 8 80 ++ natBytes 4 5)
/-- A LAUNCH without regions. -/
@[irreducible] def launchPacket : List Byte := ((packet1 1 [(16, 8, 0x20000), (24, 4, 84), (40, 8, 0x10000)]).set 2 2) ++ List.replicate 64 0
/-- Its command. -/
def launches : Cmd := front 1 .fetched launchPacket
/-- The plan of a packet rests on host memory and the fenced tiles alone. -/
theorem plan_eq {s u : State} (h : s.hostMem = u.hostMem) (f : s.fenced = u.fenced) (q : Nat) (b : Bool) (p : List Byte) :
    s.plan q b p = u.plan q b p := by
  have e : s.readGroup = u.readGroup := by
    funext a b c
    simp only [State.readGroup, State.entryMembers, State.groupOf, State.canServe, h, f]
    rfl
  simp only [State.plan, State.readGroups, e, h]
/-- The plan of the LAUNCH above: no region, and tile 0 alone. -/
theorem plan_of : ∃ p, (∀ s : State, s.hostMem = tables → s.fenced = [] → s.plan 0 false launchPacket = some p) ∧ p.regions = [] ∧
    p.members = [0] := by
  have e : (({ State.reset with hostMem := tables } : State).plan 0 false launchPacket).map (fun p => (p.regions, p.members)) = some ([], [0]) := by
    decide +kernel
  obtain ⟨p, a, b⟩ := Option.map_eq_some_iff.1 e
  exact ⟨p, fun s h f => (plan_eq h f 0 false launchPacket).trans a, (Prod.mk.inj b).1, (Prod.mk.inj b).2⟩
theorem check_of {s : State} {c : Cmd} {p : Plan} (h : s.plan 0 false launchPacket = some p) (a : c.packet = launchPacket) (b : c.twin = false)
    (d : c.rlog = 0) : s.checkLaunch 0 c = .ok p := by
  simp [State.checkLaunch, State.staleLog, a, b, d, h, State.badRegion, show pkNat launchPacket 31 1 = 0 by decide +kernel]
/-- Nothing of what the front end waits for has changed. -/
def Same (s t : State) : Prop := t.net = s.net ∧ t.outbox = s.outbox ∧ t.heldFills = s.heldFills ∧ t.pkg = s.pkg
theorem Same.trans {s t u : State} (a : Same s t) (b : Same t u) : Same s u :=
  ⟨b.1.trans a.1, b.2.1.trans a.2.1, b.2.2.1.trans a.2.2.1, b.2.2.2.trans a.2.2.2⟩
theorem same_fold {α : Type} {f : State → α → State} (h : ∀ s a, Same s (f s a)) (l : List α) (s : State) : Same s (l.foldl f s) := by
  induction l generalizing s with
  | nil => exact ⟨rfl, rfl, rfl, rfl⟩
  | cons a l e => exact (h s a).trans (e _)
theorem begin_same (s : State) (q : Nat) (c : Cmd) : Same s (s.beginLog q c) := by
  unfold State.beginLog
  split <;> exact ⟨rfl, rfl, rfl, rfl⟩
theorem prepare_owes (s : State) (c : Cmd) {p : Plan} (h : p.regions = []) : (s.prepare 0 c p).frontOwes 0 = s.frontOwes 0 := by
  have same : Same s (s.prepare 0 c p) := by
    unfold State.prepare
    simp only [h, List.foldl_nil]
    refine Same.trans (Same.trans ?_ (show Same _ (State.invalidate _ 0) from ⟨rfl, rfl, rfl, rfl⟩)) (begin_same _ _ _)
    refine Same.trans (Same.trans ?_ (same_fold (fun t n => ?_) _ _)) (same_fold (fun _ _ => ?_) _ _)
    · refine Same.trans (show Same s (s.setCmd 0 _) from ⟨rfl, rfl, rfl, rfl⟩) (same_fold (fun t g => ?_) _ _)
      refine same_fold (fun _ _ => ?_) _ t
      exact ⟨rfl, rfl, rfl, rfl⟩
    · refine same_fold (fun t g => ?_) _ t
      split <;> exact ⟨rfl, rfl, rfl, rfl⟩
    · exact ⟨rfl, rfl, rfl, rfl⟩
  obtain ⟨a, b, c, d⟩ := same
  simp only [State.frontOwes, a, b, c, d]
/-- The machine with a LAUNCH or GANG packet to work on, its tables, and messages. -/
def planned (op : Nat) (l : List Msg := []) : State := { fronts op .fetched launchPacket with hostMem := tables, net := l }
theorem wit_launch : ∀ l ∈ [[], [frontMess]], ((planned 1 l).slot 0).cmd = some launches ∧
    ∃ p, (planned 1 l).checkLaunch 0 launches = .ok p ∧ (planned 1 l).blockedBy 0 p = false ∧
      ((planned 1 l).prepare 0 launches p).frontOwes 0 = !l.isEmpty := fun l m => by
  obtain ⟨p, a, b, -⟩ := plan_of
  have e := prepare_owes (planned 1 l) launches b
  simp only [List.mem_cons, List.not_mem_nil, or_false] at m
  obtain rfl | rfl := m <;>
    exact ⟨by decide +kernel, p, check_of (a _ rfl (by decide +kernel)) (by decide +kernel) rfl rfl, rfl, e.trans (by decide +kernel)⟩
/-- Slot 1 runs a command on tile 0. -/
def busy (s : State) : State := s.setSlot 1 { hw := some 1, qcb := [], cmd := some (cmd 1 .running) }
theorem wit_launch_blocked : ∃ p, (busy (planned 1)).checkLaunch 0 launches = .ok p ∧ (busy (planned 1)).blockedBy 0 p = true := by
  obtain ⟨p, a, -, c⟩ := plan_of
  exact ⟨p, check_of (a _ rfl (by decide +kernel)) (by decide +kernel) rfl rfl, by unfold State.blockedBy; rw [c]; rfl⟩
theorem wit_launch_preparing : ∀ l ∈ [[], [frontMess]], let c := { cmd 1 .preparing with packet := launchPacket }
    let s : State := { (planned 1 l).setSlot 0 { (planned 1 l).slot 0 with cmd := some c } with net := l }
    (s.slot 0).cmd = some c ∧ c.op = 1 ∧ c.phase = .preparing ∧ (s.slot 0).hw.isSome = true ∧ s.frontOwes 0 = !l.isEmpty ∧
      (c.groups.find? fun g => g.id == (pkRoot 0 c.packet).group) = c.groups.head? ∧ (s.core 0).freeCtx.isSome = true ∧
      c.cancel = false ∧ c.lostLink = false := by decide +kernel
theorem wit_launch_fails : fine (({ fronts 1 with hostMem := [(0, 5)] } : State).checkLaunch 0 (front 1)) = false := by decide +kernel
/-- A gang whose tick is 100. -/
def gang1 (d : Option Nat) : Gang := { tick := 100, margin := 50, n := 2, arms := [], decision := d, waves := [], reports := [] }
/-- A package whose slot 0 has a gang command. -/
def gangs (pkg tick : Nat) (c : Cmd) : State := ({ State.reset with pkg := pkg, tick := BitVec.ofNat 64 tick }).setSlot 0 { hw := some 0, qcb := [], cmd := some c }
theorem wit_gang_late : ((gangs 0 101 (front 2)).newGang 0 (front 2)).tick < (gangs 0 101 (front 2)).tick.toNat ∧ (front 2).gang = none := by decide +kernel
/-- A GANG packet's command with its gang. -/
def ganged (s : State) : Cmd := { front 2 .fetched launchPacket with gang := some (s.newGang 0 (front 2 .fetched launchPacket)) }
theorem wit_gang_arms : ∀ l ∈ [[], [frontMess]], let s := planned 2 l
    let u := (s.takeEarly 0).setCmd 0 (some (ganged s))
    s.tick.toNat ≤ (s.newGang 0 (front 2 .fetched launchPacket)).tick ∧ (s.newGang 0 (front 2 .fetched launchPacket)).decision = none ∧
      ∃ p, u.checkLaunch 0 (ganged s) = .ok p ∧ u.blockedBy 0 p = false ∧
      (u.prepare 0 (ganged s) p).frontOwes 0 = !l.isEmpty := fun l m => by
  obtain ⟨p, a, b, -⟩ := plan_of
  have e := prepare_owes (((planned 2 l).takeEarly 0).setCmd 0 (some (ganged (planned 2 l)))) (ganged (planned 2 l)) b
  simp only [List.mem_cons, List.not_mem_nil, or_false] at m
  obtain rfl | rfl := m <;>
    exact ⟨by decide +kernel, by decide +kernel, p, check_of (a _ rfl (by decide +kernel)) (by decide +kernel) rfl rfl, rfl, e.trans (by decide +kernel)⟩
theorem wit_gang_blocked : let u := ((busy (planned 2)).takeEarly 0).setCmd 0 (some (ganged (busy (planned 2))))
    ∃ p, u.checkLaunch 0 (ganged (busy (planned 2))) = .ok p ∧ u.blockedBy 0 p = true := by
  obtain ⟨p, a, -, c⟩ := plan_of
  exact ⟨p, check_of (a _ rfl (by decide +kernel)) (by decide +kernel) rfl rfl, by unfold State.blockedBy; rw [c]; rfl⟩
theorem wit_arm : ∀ t ∈ [50, 51], let c := { front 2 .armed with gang := some (gang1 none) }
    ((gangs 0 t c).slot 0).cmd = some c ∧ (gangs 0 t c).pkg = 0 ∧ (∀ a ∈ (gang1 none).arms, a.1 ≠ 1) ∧
      ((gangs 0 t c).tick.toNat + (gang1 none).margin ≤ (gang1 none).tick ↔ t = 50) := by decide +kernel
/-- That gang with messages of both packages, whose member counts are equal or not. -/
def gang2 (n : Nat) : Gang := { gang1 none with arms := [(0, 0, [(0, 2)]), (1, 0, [(0, n)])] }
theorem wit_gang_start : ∀ g ∈ [gang1 none, gang1 (some 0), gang2 2, gang2 3], ∀ ph ∈ [CmdPhase.armed, .fetched, .preparing], ∀ pkg ∈ [0, 1],
    let c := { front 2 ph with gang := some g }
    ((gangs pkg 100 c).slot 0).cmd = some c ∧ g.tick ≤ (gangs pkg 100 c).tick.toNat ∧ (c.phase = .armed ∨ c.phase = .fetched ∨ c.phase = .preparing) ∧
      ((gangs pkg 100 c).slot 0).hw.isSome = true ∧ c.cancel = false := by decide +kernel
theorem wit_gang_verdict : (gang2 2).verdict = 0 ∧ (gang2 3).verdict = 2 ∧ (gang1 none).verdict ≠ 0 ∧
    (∀ a ∈ (gang2 3).arms, a.2.1 = 0) ∧ (∃ a ∈ (gang2 3).arms, ∃ b ∈ (gang2 3).arms, a.2.2 ≠ b.2.2) := by decide +kernel
theorem wit_gang_decide : ∀ pkg ∈ [0, 1], ∀ t ∈ [49, 50, 60, 100, 101], let c := { front 2 .armed with gang := some (gang1 none) }
    (gangs pkg t c).undecided 0 = some (gang1 none) ∧
      ((gangs pkg t c).tick.toNat + (gang1 none).margin < (gang1 none).tick ↔ t = 49) ∧ ((gang1 none).tick < (gangs pkg t c).tick.toNat ↔ t = 101) := by
  decide

theorem wit_wave : let c := front 1 .running
    ((gangs 0 0 c).slot 0).cmd = some c ∧ c.phase = .running ∧ c.gang = none ∧ c.clean = 0 := by decide +kernel
theorem wit_gang_wave : let g := { gang1 (some 0) with n := 3, waves := [(0, true, false, 0)] }
    (∀ w ∈ g.waves, w.1 ≠ 1) ∧ ((2 : Nat) < g.n ∧ (2 : Nat) ≠ 1 ∧ ∀ w ∈ g.waves, w.1 ≠ 2) ∧ ∀ r ∈ g.reports, r.1 ≠ 1 := by decide +kernel
theorem wit_replay_abandon : ∀ h ∈ [9999999, 10000000], let c := { front 1 .running with rlog := 2 }
    let s : State := { gangs 0 0 c with schedLog := [(5, { held := h })] }
    (s.slot 0).cmd = some c ∧ ((s.schedLog.any fun e => e.1 / 2 ^ 12 == 0 && decide (10000000 ≤ e.2.held)) = true ↔ h = 10000000) := by decide +kernel
theorem wit_ageing : let s := { hostQueue with slotCount := 1, ageing := 1000, tick := 1000000 }
    s.slotCount ≠ 0 ∧ s.ageBase + s.ageing * 1000 ≤ s.tick.toNat := by decide +kernel
theorem wit_energy : let s := ring []
    (∀ x ∈ s.queues, x.2.waiting = false) ∧ (s.slot 0).hw.isSome = true ∧ 4 < (s.slot 0).qcb.length ∧
      Word.field (wordAt (s.slot 0).qcb 3) 63 32 = 0 ∧ (s.queue 0).created = true := by decide +kernel
theorem wit_energy_out : ∀ ph ∈ [CmdPhase.running, .working],
    let s := (ring []).setSlot 0 { (ring []).slot 0 with qcb := ((ring []).slot 0).qcb.set 3 (2 ^ 32), cmd := some (front 1 ph) }
    Word.field (wordAt (s.slot 0).qcb 3) 63 32 ≠ 0 ∧ Word.field (wordAt (s.slot 0).qcb 3) 63 32 * 1000 ≤ (wordAt (s.slot 0).qcb 4).toNat + 1000 ∧
      (s.slot 0).cmd = some (front 1 ph) := by decide +kernel
theorem wit_period : let s := { ring [] with tick := 2000000000 }
    (s.queue 0).period + qcbPeriod (s.slot 0).qcb ≤ s.tick.toNat := by decide +kernel

theorem crc_zero (n : Nat) : crc64 (List.replicate n 0) = 0 := by
  induction n with
  | zero => rfl
  | succ n e =>
    rw [List.replicate_succ, crc64, List.foldl_cons, show crcByte 64 0x42F0E1EBA9EA3693 0 0 = 0 by decide +kernel]
    exact e
/-- A flit whose every bit is zero, its CRC too. -/
theorem wit_flit : flitOk (List.replicate 256 0) = true := by
  simp only [flitOk, List.take_replicate, List.drop_replicate]
  rw [crc_zero]
  decide +kernel
theorem wit_flit_sequence : flitField (List.replicate 256 0) 55 44 = (look {} State.reset.links 0 : Link).expect ∧ State.reset.linkDown 0 = false ∧
    (let s := { State.reset with links := put {} [] 0 { expect := 1 } }
     flitField (List.replicate 256 0) 55 44 ≠ (look {} s.links 0 : Link).expect ∧ s.linkDown 0 = false) ∧ flitOk [] = false := by decide +kernel
theorem wit_link : let s := { State.reset with links := put {} [] 0 { retraining := true, up := false } }
    (look {} s.links 0 : Link).retraining = true ∧ (look {} s.links 0 : Link).failed = false ∧ s.linkDown 0 = true ∧
      (look {} State.reset.links 0 : Link).retraining = false := by decide +kernel
theorem wit_link_replays : ∀ k ∈ ([{}, { replayAsked := true, replays := 6 }, { replayAsked := true, replays := 7 }, { replayBuf := [[], []], next := 2 }] : List Link),
    let s := { State.reset with links := put {} [] 11 k, turns := [.replayRequest 11 0] }
    (look {} s.links 11 : Link) = k ∧ s.linkDown 11 = false ∧ s.powered = true ∧ k.replayBuf.length < 4096 ∧ k.next < 4096 := by decide +kernel
theorem wit_flit_types : flitField (flitBytes 1 0 0 0 0 0 []) 63 60 = 1 ∧ flitField (flitBytes 4 0 0 0 0 0 []) 63 60 = 4 ∧
    flitField (flitBytes 0 0 0 0 0 0 []) 63 60 = 0 := by decide +kernel
theorem wit_debug : let s := core0 (fun c => { c with halted := true, atBrk := [0, 4] }) task
    (s.core 0).halted = true ∧ 4 ∈ (s.core 0).atBrk ∧ 1 ∉ (s.core 0).atBrk := by decide +kernel
theorem wit_debug_write : ∀ b ∈ [true, false], let s : State := { core0 (fun c => { c with halted := b, slot := some 0 }) task with
      turns := [.debugWrite 0 0 {} 0xFFFFC 0x1000] }
    (s.core 0).halted = b ∧ s.powered = true ∧ s.turns = .debugWrite 0 0 {} 0xFFFFC 0x1000 :: [] ∧ qcbConf (s.slot 0).qcb = false := by decide +kernel
theorem wit_sample : let a : SampleArm := { tick := 5, host := 0, len := 33280 }
    let s := { State.reset with tick := 5, sampling := [a] }
    (s.sampling.find? fun a => decide (a.tick ≤ s.tick.toNat)) = some a := by decide +kernel
theorem wit_uncorrectable_saved : let s := core0 (fun c => { c with saved := some { ctxs := Vector.replicate 5 { role := .task }, deque := [], arrivals := [], cause := 0x40 } }) task
    ((s.core 0).savedCtx 4).any fun x => decide (x.role = .task) && !x.wait.ending := by decide +kernel
theorem wit_elapse : let s : State := { State.reset with turns := [.elapse 1500000000 0] }
    s.powered = true ∧ s.turns = .elapse 1500000000 0 :: [] ∧ s.life.seconds + ((s.tick.toNat + 1500000000) / 10 ^ 9 - s.tick.toNat / 10 ^ 9) = 1 := by
  decide +kernel
theorem wit_uncorrectable : ∀ i ∈ [0, 1, 2, 3, 4], (task.ctxOf 0 i).role = .task ∨ (task.ctxOf 0 i).role = .free := by decide +kernel

/-! Witnesses: replays, indirect buffers, gangs, links and errors. -/

/-- An answer to a load into x0, and another such load. -/
theorem wit_answer_x0 : let m := mess (.result { six with reg := 0 } (.word 7)) 0 8
    let l := mess (.load (2 ^ 40) (2 ^ 44) 1 8 chain false { six with reg := 0 } 64)
    arrives m = true ∧ ((sends m).take 0 m).moreX0 m { six with reg := 0 } = false ∧
      ({ task with net := [m, l] } : State).due 0 = some m ∧ (({ task with net := [m, l] } : State).take 0 m).moreX0 m { six with reg := 0 } = true := by decide +kernel
/-- Slot 0's command replays a log, of which `w` is the first entry at a tile. -/
def replays (tile : Nat) (w : Word) (s : State) : State :=
  let s := running s { cmd 1 .running with rlog := 2, log := (0, 2 ^ 22) }
  { s with mem := writeBytes s.mem ((logEntry 0 (2 ^ 22) tile 0).getD 0) (natBytes 8 w.toNat) }
/-- A walk at tile 1 that a replay expects there, or expects something else there. -/
theorem wit_walk_held : let m := mess (.walk hinted 1) 1 8
    let go := replays 1 (logWord 2 1 (manhattan 0 1)) (victim [])
    let no := replays 1 (logWord 2 1 5) (victim [])
    arrives m go = true ∧ (sends m go).walkHeld 1 m.iss hinted = false ∧ arrives m no = true ∧ (sends m no).walkHeld 1 m.iss hinted = true ∧
      (sends m (victim [])).walkHeld 1 m.iss hinted = false ∧ (sends m (victim [])).arbitrates 1 2 = true ∧
      ((victim []).setCore 1 { (victim []).core 1 with arbiter := (0, 3) }).arbitrates 1 2 = false := by decide +kernel
/-- A copy whose source byte is poisoned, in the page of `page`. -/
def poisonCopy : CopyCmd := copying (copy1.set 1 (BitVec.ofNat 64 (2 ^ 44)))
theorem wit_copy_serves : let c := poisonCopy
    let s := copies c { task with poison := [2 ^ 40] }
    let no := copies c (replays (logTile 4096) (logWord 6 1 (5 * 4)) { task with poison := [2 ^ 40] })
    s.copyReady 0 0 = some c ∧ s.copyTurn 0 = some 0 ∧ (copyElement c.desc 0) = (2 ^ 44, 0x100040, true) ∧
      stopped (s.engineRead (c.agent 0) (2 ^ 44) 1 (copyCode c.desc)) = true ∧ fine (s.copyServes (c.agent 0) c (2 ^ 44) true) = true ∧
      no.copyReady 0 0 = some c ∧ no.copyTurn 0 = some 0 ∧ stopped (no.engineRead (c.agent 0) (2 ^ 44) 1 (copyCode c.desc)) = true ∧
      fine (no.copyServes (c.agent 0) c (2 ^ 44) true) = false := by decide +kernel
theorem wit_step_serves : let o : ArrOp := { cmd := arr 1 mma3 }
    fine ((working o).stepServes 0 o) = true ∧ fine ((working { cmd := arr 1 mma1 }).stepServes 0 { cmd := arr 1 mma1 }) = true ∧
      fine ((working o (replays (logTile 4096) (logWord 6 1 (5 * 4)) task)).stepServes 0 o) = false := by decide +kernel
theorem wit_register_read : let s : State := { readied with turns := [.registerRead 0x1040] }
    s.powered = true ∧ s.ready = true ∧ s.turns = .registerRead 0x1040 :: [] ∧ plainRegister 0x1040 = true ∧ plainRegister 0x1080 = false := by decide +kernel
/-- An indirect buffer at 0x9000 of `left` beats is the packet of slot 0, after the packets of a ring. -/
def buffered (p : List Byte) (left : Nat) (cancel : Bool) (r : List Byte := []) (c : Option Cmd := none) : State :=
  let s := ring r 2
  let s := s.setSlot 0 { s.slot 0 with cmd := c, outer := some { front 10 .working with ib := some (0x9000, left), cancel := cancel } }
  { s with hostMem := writeBytes s.hostMem 0x9000 p }
/-- A LAUNCH or a GANG of two beats, with its CRC. -/
def started (op crc : Nat) : List Byte := (packet1 op [(6, 2, crc), (16, 8, 0x20000), (24, 4, 84), (40, 8, 0x10000)]).set 2 2 ++ List.replicate 64 0
theorem wit_ib_packet : ∀ p ∈ [(1, 27793), (2, 51983)], pkOp (started p.1 p.2) = p.1 ∧ pkBeats (started p.1 p.2) ≤ 2 ∧ pkOk (started p.1 p.2) = true := by decide +kernel
theorem crc_two {p : List Byte} {n : Nat} (e : crc16 ((p.take 6 ++ [0, 0] ++ p.drop 8).take 64) = n)
    (f : ((p.take 6 ++ [0, 0] ++ p.drop 8).drop 64).foldl (crcByte 16 0x1021) n = pkCrc p) (b : 1 ≤ pkBeats p) : pkCrcOk p = true := by
  have h : crc16 (p.take 6 ++ [0, 0] ++ p.drop 8) = pkCrc p := by
    rw [← List.take_append_drop 64 (p.take 6 ++ [0, 0] ++ p.drop 8), crc16, List.foldl_append]
    exact (congrArg (fun c => List.foldl (crcByte 16 0x1021) c _) e).trans f
  rw [pkCrcOk, h, decide_eq_true b, beq_self_eq_true]; rfl
theorem wit_ib_crc : pkCrcOk (started 1 27793) = true ∧ pkCrcOk (started 2 51983) = true :=
  ⟨crc_two (n := 31870) (by decide +kernel) (by decide +kernel) (by decide +kernel), crc_two (n := 3753) (by decide +kernel) (by decide +kernel) (by decide +kernel)⟩
theorem wit_ib_cancelled : ∀ p ∈ [(1, 27793), (2, 51983)], let s := buffered (started p.1 p.2) 2 true
    s.peek 0 = some (started p.1 p.2) ∧ (s.slot 0).outer = some { front 10 .working with ib := some (0x9000, 2), cancel := true } := by decide +kernel
/-- The DESTROY with cancel. -/
def destroys : List Byte := sealed ((packet1 8 []).set 1 1)
theorem wit_destroy_ib :
    (let s := buffered (packet1 1 [] ++ destroys) 3 false (packet1 10 []) (some (front 1))
     s.behind 0 = some destroys ∧ s.behindIb 0 = some destroys ∧ (s.slot 0).outer.isSome = true ∧ (s.slot 0).cmd = some (front 1)) ∧
    (let s := buffered (packet1 1 []) 1 false (packet1 10 [] ++ destroys) (some (front 1))
     s.behind 0 = some destroys ∧ s.behindIb 0 = none ∧ (s.slot 0).outer.isSome = true ∧ qcbState (s.slot 0).qcb ≠ 2) := by decide +kernel
theorem wit_destroy_preparing : ∀ c ∈ [{ cmd 1 .preparing with packet := packet1 1 [] }, { cmd 3 .working with packet := packet1 3 [] }],
    let s := ring (packet1 1 [] ++ destroys) 2
    let s := s.setSlot 0 { s.slot 0 with cmd := some c }
    (s.slot 0).cmd = some c ∧ c.op ≠ 8 ∧ s.behind 0 = some destroys ∧ pkCancel destroys = true ∧ c.phase ≠ .fetched ∧
      (c.phase = .preparing ∨ (c.op ≠ 1 ∧ c.op ≠ 2)) := by decide +kernel
theorem wit_chkpt_links : (∀ l ∈ [0], (look {} (fronts 9).links l : Link).failed = false) ∧
    (look {} ({ fronts 9 with links := put {} [] 0 { failed := true, up := false } } : State).links 0 : Link).failed = true := by decide +kernel

/-- A gang's decision that came before its packet, and its ARMs. -/
theorem wit_gang_early : let s := { planned 2 with queues := put {} [] 0 { created := true, decision := some (7, 0), arms := [{ pkg := 1, status := 0, start := 0, counts := [], came := 0 }] } }
    (s.newGang 0 (front 2 .fetched launchPacket)).decision = some 7 ∧ s.tick.toNat ≤ (s.newGang 0 (front 2 .fetched launchPacket)).tick := by decide +kernel
/-- No gang has been read in a slot. -/
theorem no_gang {s : State} {q start : Nat} (e : (s.slot q).cmd.bind (·.gang) = none) :
    ∀ c g, (s.slot q).cmd = some c → c.gang = some g → g.tick ≠ start := fun c g h k => by
  rw [h] at e
  simp [k] at e
theorem wit_arm_early : ∀ pkg ∈ [0, 1], ∀ t ∈ [100, 101], ((gangs pkg t (front 2)).slot 0).cmd.bind (·.gang) = none ∧
    ((gangs pkg t (front 2)).tick.toNat ≤ 100 ↔ t = 100) ∧ (gangs pkg t (front 2)).pkg = pkg ∧ ((gangs pkg t (front 2)).queue 0).decision = none := by decide +kernel
/-- A CHKNOW runs beside a command, which is not idle. -/
def beside (pkg : Nat) (c : Cmd) : State :=
  let s := gangs pkg 0 c
  core0 (fun k => { k with dirty := true }) (s.setSlot 0 { s.slot 0 with side := some (front 9 .working) })
theorem wit_side_wave : let c := { front 1 .running with members := [0] }
    ((beside 0 c).slot 0).cmd = some c ∧ c.gang = none ∧ ((beside 0 c).slot 0).side = some (front 9 .working) ∧ ((beside 0 c).core 0).dirty = true ∧
      (let c := { front 2 .running with gang := some (gang1 (some 0)) }
       ((beside 1 c).slot 0).cmd = some c ∧ ((beside 1 c).slot 0).side = some (front 9 .working) ∧ (beside 1 c).pkg ≠ 0) := by decide +kernel

theorem wit_link_turns : let m := mess (.store (2 ^ 40) (2 ^ 44) [1])
    let s : State := { State.reset with stream := [(11, List.replicate 300 0)], outbox := [m, { m with wired := some 3 }] }
    s.powered = true ∧ s.linkFull 11 1 = false ∧ s.stream.findIdx? (·.1 == 11) = some 0 ∧ s.stream[0]? = some (11, List.replicate 300 0) ∧
      s.outbox[0]? = some m ∧ m.body.vnet ≤ 8 ∧ ({ m with wired := some 3 } : Msg).wired.isSome = true ∧
      ({ s with links := put {} [] 11 { replayBuf := List.replicate 4096 [] } } : State).linkFull 11 1 = true := by decide +kernel
/-- A halted core whose command has been pre-empted at a BRK of context 1. -/
def haltedSaved : CoreSt → CoreSt := fun c =>
  { c with halted := true, atBrk := [1], saved := some { ctxs := Vector.replicate 5 { role := .task }, deque := [], arrivals := [], cause := 0x40 } }
theorem wit_debug_saved : let s := core0 haltedSaved task
    (s.core 0).halted = true ∧ 1 ∈ (s.core 0).atBrk ∧ ((s.core 0).savedCtx 1).isSome = true := by decide +kernel
/-- Tile 0 has had three or four errors of its SRAM in the last 24 hours. -/
theorem wit_sram : ∀ k ∈ [3, 4], let s : State := { State.reset with sramErrors := put [] [] 0 (List.replicate k 0) }
    ((look [] s.sramErrors 0).filter fun k => decide (s.tick.toNat ≤ k + 86400000000000)).length = k := by decide +kernel
/-- What protected memories hold: a spilled task, records, a latch, a call that waits, a packet. -/
def holding : State :=
  { core0 (fun c => { c.setPort 1 { pkts := [packet 0] } with spilled := [spilled1], deque := [rec1], overflow := [rec1, home1], mailbox := [call true], arrivals := [.hinge (call true)] }) task with
    latches := [latch 0 (.thr [9]) 1 3] }
theorem wit_uncorrectable_held : (∃ p ∈ (holding.core 0).spilled, p.place = 0 % 8) ∧ 1 < (holding.core 0).queued.length ∧ (holding.core 0).saved = none ∧
    (holding.core 0).inOverflow 0 = false ∧ (holding.core 0).inOverflow 2 = true ∧ holding.latches[0]? = some (latch 0 (.thr [9]) 1 3) ∧
    (holding.core 0).mailbox[0]? = some (call true) ∧ .hinge (call true) ∈ (holding.core 0).arrivals ∧ ((holding.core 0).port 1).pkts[0]? = some (packet 0) := by decide +kernel

/-! Witnesses: issue. -/

theorem wit_checks : checkedCase (.add h0 1 2 3) = some (h0, clsArith, [ux 2, ux 3, ux 1]) ∧ task.curCtx < 5 ∧ task.ctx.spent = false ∧
    task.ctx.pfx = none ∧ task.ctx.legal clsArith = true ∧ task.ctx.faulted = [] ∧ task.ctx.guard h0.g = true ∧
    (behind 0).ctx.pfx.isSome = true ∧ (hinge default fun c => { c with hbud := 0 }).ctx.spent = true := by decide +kernel
theorem wit_checks_class : checkedCase (.kmovx h0 1 2) = some (h0, clsMask, [ux 1]) ∧
    (task fun c => { c with rep := true }).ctx.legal clsPlain = false ∧ checkedCase (.movpx h0 1 2) = some (h0, clsPlain, [ux 1]) := by decide +kernel
theorem wit_checks_guard : let h : Head := { h0 with g := 2 }
    checkedCase (.add h 1 2 3) = some (h, clsArith, [ux 2, ux 3, ux 1]) ∧ task.ctx.guard h.g = false := by decide +kernel
theorem wit_checks_pending : let s := task fun c => { c with pending := 8 }
    [ux 2, ux 3, ux 1] = [ux 2] ++ ux 3 :: [ux 1] ∧ ux 3 ≠ 0 ∧ s.ctx.pending.getLsbD (ux 3) = true ∧ s.ctx.pending.getLsbD (ux 2) = false := by decide +kernel
/-- Core 0's context 0 issues after `f`. -/
def issuing (f : Ctx → Ctx := id) : State := (task f).setMe { (task f).me with xb := 0x100000 }
/-- The state in which it does. -/
def issued (s : State) : State :=
  let x := s.select 0 0
  let y := x.setCtx { x.ctx with wait := .none }
  y.freshFetch.codeSeen y.ctx.pc.toNat
theorem issues_of {s : State} (e : (s.powered && decide (s.turns = []) && decide (s.cur = 0) && !s.handlerDue 0 && decide (s.choose 0 = some 0) &&
    decide ((s.select 0 0).ctx.wait = .none) && !(issued s).ctx.spent) = true) : Issues s (issued s) := by
  simp only [Bool.and_eq_true, decide_eq_true_eq, Bool.not_eq_true'] at e
  obtain ⟨⟨⟨⟨⟨⟨a, b⟩, c⟩, d⟩, f⟩, g⟩, h⟩ := e
  exact ⟨s.select 0 0, ⟨a, s, 0, 0, .inl ⟨b, rfl, c.symm⟩, d, f, rfl⟩, rfl, fun _ k => Wait.noConfusion (g.symm.trans k),
    fun _ k => Wait.noConfusion (g.symm.trans k), h⟩
theorem wit_step : let v := issued (issuing)
    Issues (issuing) v ∧ v.ctx.rep = false ∧ stackCore v.cur = false ∧ v.ctx.pc.toNat < v.me.xb.toNat ∧ v.poisoned (localPa v.cur v.ctx.pc.toNat) 4 = false ∧
      v.me.loading = [] := ⟨issues_of (by decide +kernel), by decide +kernel, by decide +kernel, by decide +kernel, by decide +kernel, by decide +kernel⟩
theorem wit_step_poisoned : let s : State := { issuing with poison := [0] }
    Issues s (issued s) ∧ (issued s).poisoned (localPa 0 0) 4 = true := ⟨issues_of (by decide +kernel), by decide +kernel⟩
theorem wit_step_loading : let s := core0 (fun c => { c with loading := [(0, 1, 5, 0xF)] }) issuing
    Issues s (issued s) ∧ ((issued s).me.loading.find? fun e => e.1 == 0) = some (0, 1, 5, 0xF) :=
  ⟨issues_of (by decide +kernel), by decide +kernel⟩
theorem wit_step_bound : let s := issuing fun c => { c with pc := 0x100000 }
    Issues s (issued s) ∧ stackCore (issued s).cur = false ∧ (issued s).me.xb.toNat ≤ (issued s).ctx.pc.toNat :=
  ⟨issues_of (by decide +kernel), by decide +kernel, by decide +kernel⟩
/-- The states in which a replay goes on: at each place, with a loop whose body has ended before it, and with captured words of
every kind. -/
theorem wit_replay : ∀ p ∈ [(0, 0), (1, 2)], ∀ ws ∈ [[addWord, addWord, addWord], [noWord, noWord, addWord], [fmtWord, addWord, fmtWord, addWord]],
    ∀ f ∈ [id, fun c => c.setLc 0 (lcMake true 1 0 2), fun c => c.setLc 0 (lcMake true 1 4 2)],
    let s := core0 (fun c => { c with xb := 0x100000 }) (replaying p.1 p.2 ws f)
    let v := issued s
    (s.powered && decide (s.turns = []) && decide (s.cur = 0) && !s.handlerDue 0 && decide (s.choose 0 = some 0) &&
      decide ((s.select 0 0).ctx.wait = .none) && !(issued s).ctx.spent) = true ∧
    (v.ctx.rep && v.insn v.ctx.pc.toNat == (Instr.rep h0 1 2 1 0 0).wordOf) = true ∧ v.cur < 2048 ∧
    ∀ a ∈ [v.ctx.pc.toNat, v.captureEnd v.ctx.rslot (v.ctx.pc.toNat + 4), v.captureEnd v.ctx.rslot (v.ctx.pc.toNat + 4) + 4],
      (decide (a < v.me.xb.toNat) && !v.poisoned (localPa v.cur a) 4 && v.me.loading.isEmpty) = true := by decide +kernel
/-- A hinge handler on the first stack core. -/
def stacked : State :=
  let s := { State.reset with cur := 2048, curCtx := 4 }
  s.setCtx { s.ctx with role := .hinge default 1, hbud := 256 }
theorem wit_step_stack : ∃ v, Issues stacked v ∧ v.ctx.rep = false ∧ stackCore v.cur = true ∧ v.codeAt v.ctx.slot v.ctx.pc.toNat = none := by
  have w : (stacked.select 2048 4).ctx.wait = .none := by decide +kernel
  refine ⟨(let x := stacked.select 2048 4
      let y := x.setCtx { x.ctx with wait := .none }
      y.freshFetch.codeSeen y.ctx.pc.toNat), ⟨stacked.select 2048 4,
    ⟨by decide +kernel, stacked, 2048, 4, .inl ⟨by decide +kernel, rfl, by decide +kernel⟩, by decide +kernel, by decide +kernel, rfl⟩,
    rfl, fun _ k => Wait.noConfusion (w.symm.trans k), fun _ k => Wait.noConfusion (w.symm.trans k), by decide +kernel⟩, by decide +kernel,
    by decide +kernel, by decide +kernel⟩
/-- A stack core whose code lies in this package or in another one, asked for or not. -/
def coded (pkg : Nat) (l : List (Nat × Nat × Option Answer)) : State :=
  let s := mapped 0xC 0 { stacked with fetched := l } pkg
  s.setSlot 0 { s.slot 0 with cmd := some { cmd 1 .running with code := some (2 ^ 44, 4096) } }
theorem wit_step_code : (∀ k ∈ [0, 1], ((coded k []).codeAt 0 0).map (fun x => (x.1, x.2.1)) = some (2 ^ 44, k)) ∧
    (coded 1 []).farCode 2048 (2 ^ 44) = none ∧ (coded 1 [(codeCmd 2048, 2 ^ 44, none)]).farCode 2048 (2 ^ 44) = some none ∧
    (coded 1 [(codeCmd 2048, 2 ^ 44, some (.word 5))]).farCode 2048 (2 ^ 44) = some (some (.word 5)) ∧
    (coded 1 []).powered = true ∧ (coded 1 []).handlerDue 2048 = false ∧ (coded 1 []).choose 2048 = some 4 := by decide +kernel
theorem wit_step_handler : let s := core0 (fun c => { c with arrivals := [.row job] }) task
    s.powered = true ∧ s.handlerDue s.cur = true := by decide +kernel
theorem wit_step_event : let s := { State.reset with turns := [.event .scrub] }
    s.turns = .event .scrub :: [] ∧ s.powered = true := by decide +kernel
theorem wit_no_power : ({ State.reset with powered := false } : State).powered = false ∧
    ({ State.reset with powered := false } : State).turns = [] := by decide +kernel
theorem wit_round_trip : encode (.add h0 10 11 12) = some 0x0054B600 ∧ (Instr.add h0 10 11 12).WellFormed ∧
    decodeWord 0x0054B600 = .ok (.add h0 10 11 12) := ⟨by decide +kernel, by decide +kernel, rfl⟩
theorem wit_memory_form : State.reset.memOk = true ∧ ∃ t, step State.reset = .next t := ⟨by decide +kernel, _, rfl⟩

theorem wit_checks_faulted : (task hurt).ctx.inh = false ∧ ((task hurt).ctx.faulted.find? fun e => e.1 == ux 6) = some (6, { cause := 0x40, va := 2 ^ 44 }) ∧
    [ux 5, ux 6] = [ux 5] ++ ux 6 :: [] ∧ ((task hurt).ctx.faulted.find? fun e => e.1 == ux 5) = none := by decide +kernel
theorem wit_guard_fails : ∃ c, laneCase (.vadd { h0 with g := 2 } 3 1 2 0) = some c ∧ ∀ s ∈ [task, behind (bodyFmt 3 3 3 6 0 0 0)],
    s.curCtx < 5 ∧ s.ctx.spent = false ∧ s.ctx.legal clsVec = true ∧ s.ctx.channelsLegal [c.d] c.srcs = true ∧ s.ctx.guard c.h.g = false :=
  ⟨_, rfl, by decide +kernel⟩
theorem wit_delivered : let s := task fun c => { hurt c with wait := .marker 0x40 }
    Chosen s (s.select 0 0) ∧ (s.select 0 0).ctx.wait = .marker 0x40 ∧ (s.select 0 0).ctx.inh = false ∧
      (s.select 0 0).ctx.faulted = (6, { cause := 0x40, va := 2 ^ 44 }) :: [] :=
  ⟨chosen_of (by decide +kernel), by decide +kernel, by decide +kernel, by decide +kernel⟩
/-- Two tasks of different priority on a core that switches, and a handler. -/
theorem wit_choose : let s := tile0 fun c => { c with switch := true, ctxs := (c.ctxs.set 0 { role := .task, prio := 1 }).set 1 { role := .task, prio := 2 } }
    s.ctxReady 0 0 = true ∧ s.ctxReady 0 1 = true ∧ s.choose 0 = some 1 ∧ (s.core 0).last < 4 ∧ (s.core 0).yielded = false ∧
      (hinge).ctxReady 0 4 = true := by decide +kernel
theorem wit_ready : ∀ w ∈ [Wait.none, .marker 0, .xlate (2 ^ 44), .chan 0, .key, .bar 5 1, .barFull 5 0, .fence 1 false, .acks, .answer, .doneRegs, .doneWrites],
    ((waits w).ctxOf 0 0).role = .task ∧ ((waits w).ctxOf 0 0).stopped = false ∧ ((waits w).core 0).halted = false ∧ (0 : Nat) ∉ ((waits w).core 0).atBrk ∧
      ((waits w).ctxOf 0 0).wait = w := by decide +kernel

end Sys2Proof.Tests
end

section
namespace Sys2Proof.Machine

/-! Right after reset (R3, R19, R52, R63, R87, R117, R119). -/

/-- Every core right after reset is the default core. -/
theorem reset_core (n : Nat) : State.reset.core n = {} := rfl

/-- Every context of a core right after reset is the default context. -/
theorem reset_ctxOf {n i : Nat} (hi : i < 5) : State.reset.ctxOf n i = {} := by
  simp only [State.ctxOf, reset_core, CoreSt.ctx]
  interval_cases i <;> rfl

/-- Every scalar register of the default context reads as zero. -/
theorem rx_default (r : Reg) : Ctx.rx {} r = 0 := by
  simp [Ctx.rx]

/-- Every vector register of the default context reads as zero. -/
theorem rv_default (r : Reg) : Ctx.rv {} r = 0 := by
  simp [Ctx.rv]

/-- Of the predicates of the default context p0 alone reads one. -/
theorem rp_default (r : BitVec 3) : Ctx.rp {} r = decide (r = 0) := by
  by_cases h : r = 0
  · simp [Ctx.rp, h]
  · have hr : r.toNat ≠ 0 := fun e => h (BitVec.eq_of_toNat_eq e)
    simp [Ctx.rp, hr]

/-- Settles O57: a register read right after reset is one of the default context of the default core. -/
theorem resetState : Obligations.ResetState := by
  refine ⟨rfl, rfl, rfl, rfl, rfl, rfl, rfl, rfl, rfl, rfl, fun _ => rfl, fun n i hi => ?_, fun n => ?_⟩
  · rw [reset_ctxOf hi]
    exact ⟨rfl, rx_default, rv_default, rp_default, rfl, rfl, rfl, rfl, rfl, rfl, rfl, rfl, rfl, rfl, rfl, rfl, rfl, rfl, rfl, rfl⟩
  · rw [reset_core]
    exact ⟨rfl, rfl, rfl⟩

end Sys2Proof.Machine
end

section
namespace Sys2Proof.Machine

/-! What it says that a result keeps the form: the state in it, where there is one. -/

/-- The state of an effect has both memories in canonical form. -/
def Eff.memOk : Eff → Bool
  | .done s | .jump _ s | .skip _ s | .stay _ s | .trap _ _ s | .left s => s.memOk

/-- The next state of an outcome has both memories in canonical form. -/
def Out.memOk : Out → Bool
  | .next s => s.memOk
  | .fault _ | .refused _ => true

/-- What an engine's access gives: a state that waits has both memories in canonical form, and `p` holds of a value. -/
def Got.memOk {α : Type} (p : α → Bool) : Got α → Bool
  | .ok a => p a
  | .wait s => s.memOk
  | .stop .. => true

/-- The state that an engine's queue leaves has both memories in canonical form. -/
def Handed.memOk : Handed → Bool
  | .taken s | .wait _ s => s.memOk
  | .bad .. => true

/-- The state that a row's writes leave has both memories in canonical form. -/
def RowDone.memOk : RowDone → Bool
  | .wait s | .ok s .. | .failed s => s.memOk

/-- `p` holds of an error and `q` of a value. -/
def exceptOk {ε α : Type} (p : ε → Bool) (q : α → Bool) : Except ε α → Bool
  | .error e => p e
  | .ok a => q a

section
variable {s t : State}

theorem memOk_iff : s.memOk ↔ Memory.wf s.mem ∧ Memory.wf s.hostMem := by simp [State.memOk]

/-- An update beside the memories. -/
theorem update_memOk (h : s.memOk) (hm : t.mem = s.mem := by with_reducible rfl)
    (hh : t.hostMem = s.hostMem := by with_reducible rfl) : t.memOk := by
  rw [memOk_iff] at h ⊢
  rwa [hm, hh]

/-- An update of the package's memory by an operation that keeps the form. -/
theorem write_memOk (h : s.memOk) (hm : Memory.wf s.mem → Memory.wf t.mem) (hh : t.hostMem = s.hostMem := by rfl) : t.memOk := by
  rw [memOk_iff] at h ⊢
  exact ⟨hm h.1, hh ▸ h.2⟩

/-- Bytes written into the package's memory. -/
theorem writeBytes_memOk {a : Nat} {bs : List Byte} (h : s.memOk) (hm : t.mem = writeBytes s.mem a bs := by with_reducible rfl)
    (hh : t.hostMem = s.hostMem := by with_reducible rfl) : t.memOk :=
  write_memOk h (fun w => hm ▸ wf_writeBytes bs _ a w) hh

/-- An update of the host's memory by an operation that keeps the form. -/
theorem hostWrite_memOk (h : s.memOk) (hh : Memory.wf s.hostMem → Memory.wf t.hostMem) (hm : t.mem = s.mem := by rfl) : t.memOk := by
  rw [memOk_iff] at h ⊢
  exact ⟨hm ▸ h.1, hh h.2⟩

/-- Bytes written into the host's memory. -/
theorem writeBytes_hostMem_memOk {a : Nat} {bs : List Byte} (h : s.memOk)
    (hh : t.hostMem = writeBytes s.hostMem a bs := by with_reducible rfl) (hm : t.mem = s.mem := by with_reducible rfl) : t.memOk :=
  hostWrite_memOk h (fun w => hh ▸ wf_writeBytes bs _ a w) hm

theorem ite_memOk {c : Prop} [Decidable c] (hs : s.memOk) (ht : t.memOk) : (if c then s else t).memOk := by
  split <;> assumption

theorem Eff.ite_memOk {c : Prop} [Decidable c] {e f : Eff} (he : e.memOk) (hf : f.memOk) : (if c then e else f).memOk := by
  split <;> assumption

theorem foldl_memOk {α : Type} {f : State → α → State} {l : List α} (hf : ∀ t x, t.memOk → (f t x).memOk) (h : s.memOk) :
    (l.foldl f s).memOk := by
  induction l generalizing s with
  | nil => exact h
  | cons x r ih => exact ih (hf s x h)

theorem foldl_fst_memOk {α β : Type} {f : State × β → α → State × β} {r : State × β} {l : List α}
    (hf : ∀ r x, r.1.memOk → (f r x).1.memOk) (h : r.1.memOk) : (l.foldl f r).1.memOk := by
  induction l generalizing r with
  | nil => exact h
  | cons x l ih => exact ih (hf r x h)

theorem foldlM_memOk {ε α : Type} {f : State → α → Except ε State} {l : List α}
    (hf : ∀ t x, t.memOk → exceptOk (fun _ => true) State.memOk (f t x)) (h : s.memOk) :
    exceptOk (fun _ => true) State.memOk (l.foldlM f s) := by
  induction l generalizing s with
  | nil => exact h
  | cons x r ih =>
    have hx := hf s x h
    rw [List.foldlM_cons]
    cases e : f s x with
    | error _ => rfl
    | ok u => exact ih (by rwa [e] at hx)

/-! The state in a result whose form is known. -/

theorem some_memOk {o : Option State} (h : o.all State.memOk) (e : o = some t) : t.memOk := by subst e; exact h
theorem fst_memOk {α : Type} {r : State × α} {x : α} (h : r.1.memOk) (e : r = (t, x)) : t.memOk := by subst e; exact h
theorem getD_memOk {o : Option State} (h : o.all State.memOk) (ht : t.memOk) : (o.getD t).memOk := by
  cases o with
  | none => exact ht
  | some u => exact h
theorem Got.wait_memOk {α : Type} {p : α → Bool} {g : Got α} (h : g.memOk p) (e : g = .wait t) : t.memOk := by subst e; exact h
theorem Got.ok_memOk {α : Type} {p : α → Bool} {g : Got α} {a : α} (h : g.memOk p) (e : g = .ok a) : p a := by subst e; exact h
theorem Handed.taken_memOk {r : Handed} (h : r.memOk) (e : r = .taken t) : t.memOk := by subst e; exact h
theorem Handed.wait_memOk {r : Handed} {w : Wait} (h : r.memOk) (e : r = .wait w t) : t.memOk := by subst e; exact h
theorem RowDone.wait_memOk {r : RowDone} (h : r.memOk) (e : r = .wait t) : t.memOk := by subst e; exact h
theorem RowDone.failed_memOk {r : RowDone} (h : r.memOk) (e : r = .failed t) : t.memOk := by subst e; exact h
theorem RowDone.ok_memOk {r : RowDone} {n : Nat} {b : Bool} (h : r.memOk) (e : r = .ok t n b) : t.memOk := by subst e; exact h
theorem exceptOk_ok {ε α : Type} {p : ε → Bool} {q : α → Bool} {r : Except ε α} {a : α} (h : exceptOk p q r) (e : r = .ok a) : q a := by
  subst e; exact h
theorem exceptOk_error {ε α : Type} {p : ε → Bool} {q : α → Bool} {r : Except ε α} {x : ε} (h : exceptOk p q r) (e : r = .error x) :
    p x := by
  subst e; exact h
end

end Sys2Proof.Machine
end

section
-- One proof after another: hundreds of short ones at once hold a thread's stack each, which comes close to the memory limit.
set_option Elab.async false

namespace Sys2Proof.Machine
variable {s t : State}

/-! What keeps the form: one lemma for each function of the model that makes a state, in the order of the model's files. -/

/-! Cores, quads, contexts and slots. -/

theorem setCore_memOk {n c} (hs : s.memOk) : (s.setCore n c).memOk := hs

theorem setQuad_memOk {q a} (hs : s.memOk) : (s.setQuad q a).memOk := hs

theorem setCtx_memOk {x} (hs : s.memOk) : (s.setCtx x).memOk := hs

theorem setMe_memOk {c} (hs : s.memOk) : (s.setMe c).memOk := hs

theorem setSlot_memOk {n x} (hs : s.memOk) : (s.setSlot n x).memOk := hs

/-! Pointers that a walk left. -/

theorem cachePointers_memOk {die slot va} (hs : s.memOk) : (s.cachePointers die slot va).memOk := ite_memOk hs hs

/-! Tasks, messages, traps and the issue of an instruction. -/

theorem bump_memOk {off} (hs : s.memOk) : (s.bump off).memOk := hs

theorem onTask_memOk {t f} (hs : s.memOk) : (s.onTask t f).all State.memOk := by
  fun_cases State.onTask
  case case2 | case3 | case6 => exact hs
  all_goals exact rfl

theorem onRun_memOk {core run f} (hs : s.memOk) : (s.onRun core run f).memOk := by
  fun_cases State.onRun <;> exact hs

theorem onCmd_memOk {n f} (hs : s.memOk) : (s.onCmd n f).memOk := by
  fun_cases State.onCmd <;> exact hs

theorem onTally_memOk {slot core f} (hs : s.memOk) : (s.onTally slot core f).memOk := onCmd_memOk hs

theorem report_memOk {i cause colour tval} (hs : s.memOk) : (s.report i cause colour tval).memOk := by
  fun_cases State.report
  · exact hs
  · exact some_memOk (onTask_memOk (bump_memOk hs)) ‹_›
  · exact hs
  · exact onTally_memOk hs

theorem reportAll_memOk {m cause tval} (hs : s.memOk) : (s.reportAll m cause tval).memOk :=
  foldl_memOk (fun _ _ h => report_memOk h) (report_memOk hs)

theorem syncSpill_memOk {core} (hs : s.memOk) : (s.syncSpill core).memOk := write_memOk hs fun w => wf_syncSpill s w core

theorem orFlags_memOk {i flags} (hs : s.memOk) : (s.orFlags i flags).memOk := by
  fun_cases State.orFlags
  case case3 => exact syncSpill_memOk (some_memOk (onTask_memOk hs) ‹_›)
  all_goals exact hs

theorem countSent_memOk {i} (hs : s.memOk) : (s.countSent i).memOk := by
  fun_cases State.countSent <;> exact hs

theorem received_memOk {i} (hs : s.memOk) : (s.received i).memOk := by
  fun_cases State.received <;> exact hs

theorem receivedAll_memOk {m} (hs : s.memOk) : (s.receivedAll m).memOk :=
  ite_memOk (foldl_memOk (fun _ _ h => received_memOk h) (received_memOk hs)) hs

theorem numberOut_memOk {m} (hs : s.memOk) : (s.numberOut m).memOk := ite_memOk hs hs

theorem numberIn_memOk {m} (hs : s.memOk) : (s.numberIn m).memOk := ite_memOk hs hs

theorem send_memOk {m} (hs : s.memOk) : (s.send m).memOk :=
  ite_memOk (update_memOk (numberOut_memOk (ite_memOk (countSent_memOk hs) hs)))
      (update_memOk (numberOut_memOk (ite_memOk (countSent_memOk hs) hs)))

theorem sendAgain_memOk {m} (hs : s.memOk) : (s.sendAgain m).memOk := ite_memOk hs hs

theorem chose_memOk {slot tile kind choice} (hs : s.memOk) : (s.chose slot tile kind choice).memOk := by
  fun_cases State.chose
  case case2 | case4 => exact writeBytes_memOk hs
  all_goals exact hs

theorem seen_memOk {key pa} (hs : s.memOk) : (s.seen key pa).memOk := by
  fun_cases State.seen
  · exact hs
  · exact writeBytes_memOk hs

theorem banks_memOk (hs : s.memOk) : s.banks.memOk := foldl_memOk (fun _ _ h => seen_memOk h) hs

theorem seenBy_memOk {m} (hs : s.memOk) : (s.seenBy m).memOk := by
  fun_cases State.seenBy
  case case12 => exact hs
  all_goals exact seen_memOk hs

theorem take_memOk {n m} (hs : s.memOk) : (s.take n m).memOk := by
  fun_cases State.take
  · exact update_memOk (ite_memOk (chose_memOk hs) hs)
  · exact numberIn_memOk (update_memOk (ite_memOk (chose_memOk hs) hs))
  · exact seenBy_memOk (update_memOk (ite_memOk (chose_memOk hs) hs))
  · exact seenBy_memOk (receivedAll_memOk (numberIn_memOk (update_memOk (ite_memOk (chose_memOk hs) hs))))

theorem answer_memOk {m b} (hs : s.memOk) : (s.answer m b).memOk := send_memOk hs

theorem park_memOk {w} (hs : s.memOk) : (s.park w).memOk := hs

theorem leftIdle_memOk {old : State} {n} (hs : s.memOk) : (old.leftIdle n s).memOk := ite_memOk hs hs

theorem select_memOk {n i} (hs : s.memOk) : (s.select n i).memOk := ite_memOk hs hs

theorem endRow_memOk {j} (hs : s.memOk) : (s.endRow j).memOk := setCtx_memOk (setQuad_memOk (orFlags_memOk hs))

theorem noteTo_memOk {k n} (hs : s.memOk) : (s.noteTo k n).memOk := send_memOk hs

theorem endCall_memOk {u k n} (hs : s.memOk) : (s.endCall u k n).memOk := by
  fun_cases State.endCall
  · exact report_memOk (setCore_memOk (received_memOk hs))
  · exact noteTo_memOk (setCore_memOk (received_memOk hs))

theorem endHinge_memOk {k n} (hs : s.memOk) : (s.endHinge k n).memOk :=
  endCall_memOk (setCtx_memOk (update_memOk (orFlags_memOk hs)))

theorem trapAt_memOk {cause tval resume pc} (hs : s.memOk) : (s.trapAt cause tval resume pc).memOk := by
  fun_cases State.trapAt
  case case1 => exact report_memOk (endRow_memOk hs)
  all_goals exact hs

theorem trap_memOk {cause tval} (hs : s.memOk) : (s.trap cause tval).memOk := trapAt_memOk hs

theorem delivered_memOk {n} (hs : s.memOk) : (s.delivered n).all State.memOk := by
  fun_cases State.delivered
  · exact trapAt_memOk hs
  · exact rfl

theorem marker_memOk {n} (hs : s.memOk) : (s.marker n).memOk := ite_memOk (park_memOk hs) hs

theorem repNext_memOk (hs : s.memOk) : s.repNext.memOk := hs

theorem complete_memOk {h} (hs : s.memOk) : (s.complete h).memOk :=
  ite_memOk (marker_memOk (ite_memOk (repNext_memOk hs) hs)) (ite_memOk (repNext_memOk hs) hs)

theorem forget_memOk {kind place ctx} (hs : s.memOk) : (s.forget kind place ctx).memOk := hs

theorem settle_memOk (hs : s.memOk) : s.settle.memOk := hs

theorem finish_memOk {e h} (hs : e.memOk) : (Eff.finish e h).memOk := by
  fun_cases Eff.finish
  case case1 => exact complete_memOk hs
  case case2 | case4 => exact marker_memOk hs
  case case6 => exact park_memOk hs
  case case7 => exact trap_memOk hs
  all_goals exact hs

theorem run_memOk {k i h legal uses act} (hs : s.memOk) (hact : ∀ t, t.memOk → (act t).memOk) :
    (s.run k i h legal uses act).memOk := by
  fun_cases State.run
  · exact trap_memOk hs
  · exact trapAt_memOk hs
  · exact trap_memOk hs
  · exact complete_memOk hs
  · exact finish_memOk (hact _ hs)

/-! Questions to the page walk. -/

theorem ask_memOk {a slot va} (hs : s.memOk) : (s.ask a slot va).memOk := by
  fun_cases State.ask <;> exact hs

theorem fill_memOk {a e} (hs : s.memOk) : (s.fill a e).memOk := ite_memOk hs (ite_memOk hs (ite_memOk hs hs))

theorem miss_memOk {va} (hs : s.memOk) : (s.miss va).memOk := ask_memOk hs

theorem withSpot_memOk {c f} (hs : s.memOk) (hf : ∀ x, (f x).memOk) : (s.withSpot c f).memOk := by
  fun_cases State.withSpot
  · exact hf _
  · exact miss_memOk hs
  · exact hs

/-! Jumps, ports and operands. -/

theorem goto_memOk {t f} (hs : s.memOk) : (s.goto t f).memOk := by
  fun_cases State.goto <;> exact hs

theorem popPorts_memOk {ps} (hs : s.memOk) : (s.popPorts ps).memOk := foldl_memOk (fun _ _ h => h) hs

theorem popping_memOk {e ps} (hs : e.memOk) : (Eff.popping e ps).memOk := by
  fun_cases Eff.popping
  case case5 => exact hs
  all_goals exact popPorts_memOk hs

theorem reading_memOk {srcs f} (hs : s.memOk) (hf : ∀ x, (f x).memOk) : (s.reading srcs f).memOk := by
  fun_cases State.reading
  · exact hs
  · exact popping_memOk (hf _)

/-! Flags. -/

theorem withFlags_memOk {f k} (hs : s.memOk) : (s.withFlags f k).memOk := by
  fun_cases State.withFlags <;> exact hs

/-! Cells, blocks and latches. -/

theorem poke_memOk {pa bs} (hs : s.memOk) : (s.poke pa bs).memOk := write_memOk hs fun w => wf_poke s w pa bs

theorem fillOnce_memOk {cell data} (hs : s.memOk) : (s.fillOnce cell data).1.memOk := by
  fun_cases State.fillOnce
  · exact update_memOk (poke_memOk hs)
  · exact hs
  · exact update_memOk (poke_memOk hs)

theorem joinCell_memOk {pa ty width data} (hs : s.memOk) : (s.joinCell pa ty width data).1.memOk := by
  fun_cases State.joinCell
  case case1 => exact hs
  case case4 | case5 => exact poke_memOk hs
  all_goals exact fillOnce_memOk hs

theorem setBlock_memOk {pa b} (hs : s.memOk) : (s.setBlock pa b).memOk := hs

theorem clearBlock_memOk {pa ty width} (hs : s.memOk) : (s.clearBlock pa ty width).memOk := by
  unfold State.clearBlock
  exact update_memOk (poke_memOk hs)

theorem reserve_memOk {l m} (hs : s.memOk) : (s.reserve l m).1.memOk := by
  fun_cases State.reserve <;> exact hs

theorem deliverSlot_memOk {l m} (hs : s.memOk) : (s.deliverSlot l m).1.memOk := by
  fun_cases State.deliverSlot
  case case4 => exact update_memOk (report_memOk (poke_memOk hs))
  case case6 => exact update_memOk (poke_memOk hs)
  all_goals exact hs

theorem decideAt_memOk {l} (hs : s.memOk) : (s.decideAt l).1.memOk := by
  fun_cases State.decideAt
  case case11 => exact reserve_memOk hs
  case case13 => exact deliverSlot_memOk hs
  all_goals exact hs

theorem wakeWaiter_memOk {l a} (hs : s.memOk) : (s.wakeWaiter l a).memOk := send_memOk hs

theorem addLatch_memOk {l} (hs : s.memOk) : (s.addLatch l).memOk :=
  ite_memOk (report_memOk (bump_memOk (ite_memOk hs hs))) (ite_memOk hs hs)

theorem refill_memOk {home n} (hs : s.memOk) : (s.refill home n).memOk := by
  fun_induction State.refill
  case case2 ih => exact ih hs
  all_goals exact hs

theorem decideAll_memOk {p l} (hs : s.memOk) : (s.decideAll p l).1.memOk := by
  fun_induction State.decideAll
  case case2 ih => exact ih (wakeWaiter_memOk (fst_memOk (decideAt_memOk hs) ‹_›))
  case case3 ih => exact ih (fst_memOk (decideAt_memOk hs) ‹_›)
  case case4 ih => exact ih hs
  all_goals exact hs

theorem redecide_memOk {pa p} (hs : s.memOk) : (s.redecide pa p).memOk := by
  unfold State.redecide
  refine refill_memOk (update_memOk (decideAll_memOk ?_))
  exact update_memOk (decideAll_memOk hs)

theorem serve_memOk {l} (hs : s.memOk) : (s.serve l).memOk := by
  fun_cases State.serve
  · exact redecide_memOk (wakeWaiter_memOk (fst_memOk (decideAt_memOk hs) ‹_›))
  · exact wakeWaiter_memOk (fst_memOk (decideAt_memOk hs) ‹_›)
  · exact addLatch_memOk (fst_memOk (decideAt_memOk hs) ‹_›)

/-! Loads, stores and the instructions on blocks. -/

theorem readHere_memOk {va n} (hs : s.memOk) : (s.readHere va n).1.memOk := by
  fun_cases State.readHere
  · exact report_memOk hs
  · exact hs

theorem writeHere_memOk {va bs} (hs : s.memOk) : (s.writeHere va bs).memOk :=
  ite_memOk (report_memOk (poke_memOk hs)) (poke_memOk hs)

theorem accessing_memOk {va n data here there} (hs : s.memOk) (hhere : here.memOk) (hthere : ∀ x, (there x).memOk) :
    (s.accessing va n data here there).memOk := by
  fun_cases State.accessing
  · exact hhere
  · exact hthere _
  · exact miss_memOk hs
  · exact hs

theorem load_memOk {d a n signed} (hs : s.memOk) : (s.load d a n signed).memOk :=
  accessing_memOk hs (setCtx_memOk (readHere_memOk hs)) fun _ => send_memOk hs

theorem store_memOk {a bs} (hs : s.memOk) : (s.store a bs).memOk := accessing_memOk hs (writeHere_memOk hs) fun _ => send_memOk hs

theorem loads_memOk {i h d a o n signed} (hs : s.memOk) : (s.loads i h d a o n signed).memOk :=
  run_memOk hs fun _ h => load_memOk h

theorem stores_memOk {i h d a o n} (hs : s.memOk) : (s.stores i h d a o n).memOk := run_memOk hs fun _ h => store_memOk h

theorem loadV_memOk {d a} (hs : s.memOk) : (s.loadV d a).memOk :=
  accessing_memOk hs (setCtx_memOk (readHere_memOk hs)) fun _ => send_memOk hs

theorem withLanes_memOk {n ls f} (hs : s.memOk) (hf : ∀ x, (f x).memOk) : (s.withLanes n ls f).memOk := by
  fun_cases State.withLanes
  · exact hf _
  · exact miss_memOk hs
  · exact hs
  · exact hs

theorem gatherLane_memOk {n d r l} (hs : r.1.memOk) : (State.gatherLane n d r l).1.memOk := by
  fun_cases State.gatherLane
  · exact readHere_memOk hs
  · exact send_memOk hs

theorem gather_memOk {w d ls} (hs : s.memOk) : (s.gather w d ls).memOk := by
  fun_cases State.gather
  refine withLanes_memOk hs fun _ => ?_
  dsimp only
  split
  · exact ite_memOk hs (setCtx_memOk (foldl_fst_memOk (fun _ _ h => gatherLane_memOk h) hs))
  · exact setCtx_memOk (foldl_fst_memOk (fun _ _ h => gatherLane_memOk h) hs)

theorem scatterLane_memOk {l} (hs : s.memOk) : (s.scatterLane l).memOk := by
  fun_cases State.scatterLane
  · exact writeHere_memOk hs
  · exact send_memOk hs

theorem scatter_memOk {w ls} (hs : s.memOk) : (s.scatter w ls).memOk :=
  withLanes_memOk hs fun _ => foldl_memOk (fun _ _ h => scatterLane_memOk h) hs

theorem formatTrap_memOk {a} (hs : s.memOk) : (s.formatTrap a).memOk := hs

theorem request_memOk {p w reg} (hs : s.memOk) : (s.request p w reg).memOk := send_memOk hs

theorem execGet_memOk {h d a i} (hs : s.memOk) : (execGet h d a i s).memOk := by
  refine run_memOk hs fun _ h => ?_
  dsimp only
  split
  · exact formatTrap_memOk h
  · refine withSpot_memOk h fun _ => ?_
    split
    · exact formatTrap_memOk h
    · exact request_memOk h

theorem execThr_memOk {h d a b n} (hs : s.memOk) : (execThr h d a b n s).memOk := by
  refine run_memOk hs fun _ h => reading_memOk h fun _ => ?_
  dsimp only
  split
  · exact formatTrap_memOk h
  · refine withSpot_memOk h fun _ => ?_
    split
    · exact formatTrap_memOk h
    · split
      · exact h
      · exact request_memOk h

theorem parkAt_memOk {phase w} (hs : s.memOk) : (s.parkAt phase w).memOk := hs

theorem onBlocks_memOk {a count f} (hs : s.memOk) (hf : ∀ x, (f x).memOk) : (s.onBlocks a count f).memOk := by
  fun_cases State.onBlocks
  case case3 => exact parkAt_memOk (ask_memOk hs)
  case case5 => exact hf _
  all_goals exact hs

theorem sendEach_memOk {ps b} (hs : s.memOk) : (s.sendEach ps b).memOk :=
  setCtx_memOk (foldl_memOk (fun _ _ h => send_memOk h) hs)

theorem execBolt_memOk {h a b} (hs : s.memOk) : (execBolt h a b s).memOk := by
  refine run_memOk hs fun _ h => onBlocks_memOk h fun _ => ?_
  split
  · split
    · exact parkAt_memOk h
    · exact parkAt_memOk (sendEach_memOk h)
  · exact h

theorem execClear_memOk {h a b} (hs : s.memOk) : (execClear h a b s).memOk := by
  refine run_memOk hs fun _ h => onBlocks_memOk h fun _ => ?_
  dsimp only
  split
  · split
    · exact h
    · exact parkAt_memOk (sendEach_memOk h)
  · split
    · split
      · exact h
      · exact parkAt_memOk (sendEach_memOk h)
    · exact h

theorem surface_memOk {m} (hs : s.memOk) : (s.surface m).1.memOk := by
  fun_cases State.surface <;> exact hs

theorem fencing_memOk {h m sys} (hs : s.memOk) : (s.fencing h m sys).memOk := by
  fun_cases State.fencing
  · exact hs
  · exact hs
  · exact surface_memOk hs
  · exact trapAt_memOk (complete_memOk (settle_memOk (surface_memOk hs)))

/-! Buffers and their fills. -/

theorem putBuf_memOk {h b} (hs : s.memOk) : (s.putBuf h b).memOk := write_memOk hs fun w => wf_putBuf s w h b

theorem joinFillCell_memOk {m fcell value} (hs : s.memOk) : (s.joinFillCell m fcell value).memOk := by
  fun_cases State.joinFillCell
  case case1 | case8 => exact hs
  case case5 => exact send_memOk hs
  all_goals exact report_memOk hs

theorem decideFill_memOk {m pa va ch bytes close} (hs : s.memOk) : (s.decideFill m pa va ch bytes close).memOk := by
  fun_cases State.decideFill
  case case3 => exact hs
  case case5 => exact joinFillCell_memOk (ite_memOk (report_memOk (putBuf_memOk (poke_memOk (numberIn_memOk hs))))
      (putBuf_memOk (poke_memOk (numberIn_memOk hs))))
  all_goals exact report_memOk (numberIn_memOk hs)

theorem retryFill_memOk {m} (hs : s.memOk) : (s.retryFill m).memOk := by
  fun_cases State.retryFill
  · exact decideFill_memOk hs
  · exact hs

theorem releaseFills_memOk {h} (hs : s.memOk) : (s.releaseFills h).memOk := foldl_memOk (fun _ _ h => retryFill_memOk h) hs

theorem execFillWrite_memOk {n} (hs : s.memOk) : (execFillWrite n s).memOk := by
  fun_cases execFillWrite
  · exact hs
  · exact decideFill_memOk (take_memOk hs)
  · exact hs

theorem ackHere_memOk {t a} (hs : s.memOk) : (s.ackHere t a).memOk := getD_memOk (onTask_memOk hs) hs

theorem acknowledge_memOk {m a} (hs : s.memOk) : (s.acknowledge m a).memOk := ite_memOk (ackHere_memOk hs) hs

theorem execBrelApply_memOk {n} (hs : s.memOk) : (execBrelApply n s).memOk := by
  fun_cases execBrelApply
  · exact hs
  · exact acknowledge_memOk (take_memOk hs)
  · exact acknowledge_memOk (putBuf_memOk (take_memOk hs))
  · exact acknowledge_memOk (releaseFills_memOk (putBuf_memOk (take_memOk hs)))
  · exact hs

theorem execBdeclApply_memOk {n} (hs : s.memOk) : (execBdeclApply n s).memOk := by
  fun_cases execBdeclApply
  · exact hs
  · exact acknowledge_memOk (take_memOk hs)
  · exact acknowledge_memOk (putBuf_memOk (take_memOk hs))
  · exact hs

theorem onHeader_memOk {h check b} (hs : s.memOk) : (s.onHeader h check b).memOk := by
  fun_cases State.onHeader
  case case5 =>
    refine withSpot_memOk hs fun _ => ?_
    split
    · exact hs
    · split
      · exact hs
      · exact parkAt_memOk (sendEach_memOk hs)
  all_goals exact hs

/-! What a home serves. -/

theorem stir_memOk {core} (hs : s.memOk) : (s.stir core).memOk := ite_memOk hs (syncSpill_memOk hs)

theorem wakeTask_memOk {t f} (hs : s.memOk) : (s.wakeTask t f).memOk := by
  fun_cases State.wakeTask
  · exact leftIdle_memOk (stir_memOk (some_memOk (onTask_memOk hs) ‹_›))
  · exact hs

theorem land_memOk {m d a} (hs : s.memOk) : (s.land m d a).memOk := by
  fun_cases State.land
  · exact onRun_memOk hs
  · exact wakeTask_memOk hs

theorem replyTo_memOk {m d a} (hs : s.memOk) : (s.replyTo m d a).memOk := by
  fun_cases State.replyTo
  · exact send_memOk hs
  · exact answer_memOk hs

theorem deliverWord_memOk {i q w} (hs : s.memOk) : (s.deliverWord i q w).memOk := by
  fun_cases State.deliverWord
  · exact hs
  · exact getD_memOk (onTask_memOk hs) hs
  · exact send_memOk (getD_memOk (onTask_memOk hs) hs)

theorem landQ5_memOk {i a} (hs : s.memOk) : (s.landQ5 i a).memOk := by
  fun_cases State.landQ5
  · exact deliverWord_memOk (getD_memOk (onTask_memOk hs) hs)
  · exact hs

theorem landEngine_memOk {cmd va a} (hs : s.memOk) : (s.landEngine cmd va a).memOk := hs

theorem execResultArrival_memOk {n} (hs : s.memOk) : (execResultArrival n s).memOk := by
  fun_cases execResultArrival
  · exact hs
  · split
    · exact landEngine_memOk (take_memOk hs)
    · exact ite_memOk (landQ5_memOk (take_memOk hs)) (land_memOk (take_memOk hs))
  · exact hs

theorem execWake_memOk {n} (hs : s.memOk) : (execWake n s).memOk := by
  fun_cases execWake
  · exact hs
  · exact wakeTask_memOk (take_memOk hs)
  · exact hs

theorem execMailboxReply_memOk {n} (hs : s.memOk) : (execMailboxReply n s).memOk := by
  fun_cases execMailboxReply
  · exact hs
  · exact wakeTask_memOk (take_memOk hs)
  · exact hs

theorem execStoreApply_memOk {n} (hs : s.memOk) : (execStoreApply n s).memOk := by
  fun_cases execStoreApply
  · exact hs
  · split
    · exact reportAll_memOk (poke_memOk (take_memOk hs))
    · exact poke_memOk (take_memOk hs)
  · exact hs

theorem applyJoin_memOk {m pa va ty width data} (hs : s.memOk) : (s.applyJoin m pa va ty width data).memOk := by
  fun_cases State.applyJoin
  · exact reportAll_memOk hs
  · refine redecide_memOk ?_
    subst ‹State›
    split
    · exact reportAll_memOk (joinCell_memOk hs)
    · exact joinCell_memOk hs

theorem execJoinCombine_memOk {n b} (hs : s.memOk) : (execJoinCombine n b s).memOk := by
  fun_cases execJoinCombine
  case case2 | case3 => exact chose_memOk hs
  all_goals exact hs

theorem unmerged_memOk {n m} (hs : s.memOk) : (s.unmerged n m).memOk := by
  fun_cases State.unmerged
  · exact foldl_memOk (fun _ _ h => chose_memOk h) hs
  · exact hs

theorem execJoinApply_memOk {n} (hs : s.memOk) : (execJoinApply n s).memOk := by
  fun_cases execJoinApply
  · exact hs
  · exact applyJoin_memOk (take_memOk (unmerged_memOk hs))
  · exact hs

theorem execLoadServe_memOk {n} (hs : s.memOk) : (execLoadServe n s).memOk := by
  fun_cases execLoadServe
  case case1 | case6 => exact hs
  case case4 => exact replyTo_memOk (report_memOk (take_memOk hs))
  all_goals exact replyTo_memOk (take_memOk hs)

theorem serveWant_memOk {n p} (hs : s.memOk) : (s.serveWant n p).memOk := by
  fun_cases State.serveWant
  case case2 => exact take_memOk hs
  case case3 => exact serve_memOk (ite_memOk (report_memOk (take_memOk hs)) (take_memOk hs))
  all_goals exact hs

theorem execGetServe_memOk {n} (hs : s.memOk) : (execGetServe n s).memOk := serveWant_memOk hs

theorem execThrServe_memOk {n} (hs : s.memOk) : (execThrServe n s).memOk := serveWant_memOk hs

theorem execMailboxServe_memOk {n} (hs : s.memOk) : (execMailboxServe n s).memOk := serveWant_memOk hs

theorem execLatchRetry_memOk {n} (hs : s.memOk) : (execLatchRetry n s).memOk := by
  fun_cases execLatchRetry
  · exact hs
  · exact hs
  · split
    · exact redecide_memOk (wakeWaiter_memOk (update_memOk (fst_memOk (decideAt_memOk (seen_memOk hs)) ‹_›)))
    · exact wakeWaiter_memOk (update_memOk (fst_memOk (decideAt_memOk (seen_memOk hs)) ‹_›))
  · exact seen_memOk hs
  · exact update_memOk (ite_memOk (bump_memOk (seen_memOk hs)) (seen_memOk hs))

theorem boltBlock_memOk {pa slot group} (hs : s.memOk) : (s.boltBlock pa slot group).memOk := ite_memOk hs (redecide_memOk hs)

theorem sendDigest_memOk {m pa va} (hs : s.memOk) : (s.sendDigest m pa va).memOk := by
  fun_cases State.sendDigest
  · exact send_memOk hs
  · exact hs

theorem execBoltApply_memOk {n} (hs : s.memOk) : (execBoltApply n s).memOk := by
  fun_cases execBoltApply
  · exact hs
  · exact answer_memOk (ite_memOk (sendDigest_memOk (boltBlock_memOk (take_memOk hs))) (boltBlock_memOk (take_memOk hs)))
  · exact hs

theorem execBoltAck_memOk {n} (hs : s.memOk) : (execBoltAck n s).memOk := by
  fun_cases execBoltAck
  · exact hs
  · exact ackHere_memOk (take_memOk hs)
  · exact hs

theorem execTwinDigest_memOk {n} (hs : s.memOk) : (execTwinDigest n s).memOk := by
  fun_cases execTwinDigest
  case case3 | case5 => exact take_memOk hs
  case case4 => exact report_memOk (take_memOk hs)
  all_goals exact hs

theorem execClearCheck_memOk {n} (hs : s.memOk) : (execClearCheck n s).memOk := by
  fun_cases execClearCheck
  · exact hs
  · exact acknowledge_memOk (take_memOk hs)
  · exact hs

theorem execClearApply_memOk {n} (hs : s.memOk) : (execClearApply n s).memOk := by
  fun_cases execClearApply
  · exact hs
  · exact acknowledge_memOk (clearBlock_memOk (take_memOk hs))
  · exact hs

theorem endWalk_memOk {n w} (hs : s.memOk) : (s.endWalk n w).memOk := by
  have hc : (({ s with walks := removeAt s.walks n } : State).cachePointers w.die w.slot w.va).memOk := cachePointers_memOk hs
  fun_cases State.endWalk
  · exact foldl_memOk (fun _ _ h => fill_memOk h) hc
  · exact update_memOk hc

theorem execWalkComplete_memOk {n} (hs : s.memOk) : (execWalkComplete n s).memOk := by
  fun_cases execWalkComplete
  · exact hs
  · exact endWalk_memOk hs
  · exact hs

/-! The copy engine. -/

theorem enqueueCopy_memOk {ws word} (hs : s.memOk) : (s.enqueueCopy ws word).memOk := by
  fun_cases State.enqueueCopy
  case case1 | case2 => exact rfl
  all_goals exact hs

theorem keep_memOk {ws} (hs : s.memOk) : (s.keep ws).memOk := hs

theorem copying_memOk {a word kind n} (hs : s.memOk) : (s.copying a word kind n).memOk := by
  fun_cases State.copying
  case case4 => exact Handed.taken_memOk (enqueueCopy_memOk (ite_memOk (report_memOk hs) hs)) ‹_›
  case case5 => exact keep_memOk (Handed.wait_memOk (enqueueCopy_memOk (ite_memOk (report_memOk hs) hs)) ‹_›)
  all_goals exact hs

theorem engineSpot_memOk {a va n k} (hs : s.memOk) : (s.engineSpot a va n k).memOk (fun _ => true) := by
  fun_cases State.engineSpot
  · exact rfl
  · exact ask_memOk hs
  · exact rfl

theorem engineHere_memOk {a va n} : (s.engineHere a va n).memOk (fun _ => true) := by
  fun_cases State.engineHere <;> exact rfl

theorem engineFar_memOk {a p n} (hs : s.memOk) : (s.engineFar a p n).memOk (fun _ => true) := by
  fun_cases State.engineFar
  case case4 => exact hs
  case case5 => exact send_memOk hs
  all_goals exact rfl

theorem engineRead_memOk {a va n code} (hs : s.memOk) : (s.engineRead a va n code).memOk (fun _ => true) := by
  fun_cases State.engineRead
  case case1 => exact engineHere_memOk
  case case2 => exact Got.wait_memOk (engineSpot_memOk hs) ‹_›
  case case5 => exact engineFar_memOk hs
  all_goals exact rfl

theorem serveReads_memOk {a good rs} (hs : s.memOk) : exceptOk (fun _ => true) State.memOk (s.serveReads a good rs) := by
  fun_cases State.serveReads
  · exact hs
  · refine foldlM_memOk (fun _ _ h => ?_) hs
    split
    · exact chose_memOk h
    · rfl

theorem engineWrite_memOk {a va bs red below stack} (hs : s.memOk) :
    (s.engineWrite a va bs red below stack).memOk (fun _ => true) := by
  fun_cases State.engineWrite
  case case4 => exact Got.wait_memOk (engineSpot_memOk hs) ‹_›
  all_goals exact rfl

theorem engineStore_memOk {a va bs} (hs : s.memOk) : (s.engineStore a va bs).memOk :=
  ite_memOk (report_memOk (poke_memOk hs)) (poke_memOk hs)

theorem copyValue_memOk {a c src inb} (hs : s.memOk) : (s.copyValue a c src inb).memOk (fun _ => true) := by
  fun_cases State.copyValue
  case case1 => exact Got.wait_memOk (engineRead_memOk hs) ‹_›
  all_goals exact rfl

theorem putCopy_memOk {core c} (hs : s.memOk) : (s.putCopy core c).memOk := hs

theorem flushFill_memOk {c close} (hs : s.memOk) : (s.flushFill c close).memOk := by
  fun_cases State.flushFill
  refine foldl_memOk (fun _ _ h => send_memOk h) ?_
  subst ‹State›
  split
  · exact hs
  · split
    · exact send_memOk hs
    · exact hs

theorem haltCopy_memOk {core c n cause tval} (hs : s.memOk) : (s.haltCopy core c n cause tval).memOk :=
  putCopy_memOk (forget_memOk (report_memOk (flushFill_memOk hs)))

theorem tileStop_memOk {core c t} (hs : s.memOk) : (s.tileStop core c t).memOk := haltCopy_memOk hs

theorem stopCopy_memOk {core c n cause tval} (hs : s.memOk) : (s.stopCopy core c n cause tval).memOk := by
  fun_cases State.stopCopy
  · exact tileStop_memOk hs
  · exact haltCopy_memOk hs

theorem putMsg_memOk {c m} (hs : s.memOk) : (s.putMsg c m).1.memOk := by
  fun_cases State.putMsg
  · exact hs
  · exact send_memOk (flushFill_memOk hs)

theorem gatherTile_memOk {core a c va base size p bs} (hs : s.memOk) :
    exceptOk State.memOk (fun r => r.1.memOk) (s.gatherTile core a c va base size p bs) := by
  fun_cases State.gatherTile
  · exact tileStop_memOk hs
  · exact hs
  · exact putMsg_memOk hs

theorem noteCode_memOk {core id va} (hs : s.memOk) : (s.noteCode core id va).memOk := hs

theorem copyPut_memOk {core a c va bs w} (hs : s.memOk) :
    exceptOk State.memOk (fun r => r.1.memOk) (s.copyPut core a c va bs w) := by
  fun_cases State.copyPut
  · exact gatherTile_memOk hs
  · exact tileStop_memOk hs
  · exact engineStore_memOk (ite_memOk (foldl_memOk (fun _ _ h => noteCode_memOk h) hs) hs)
  · exact hs
  · exact flushFill_memOk hs
  · exact putMsg_memOk hs
  · exact hs

theorem copyDests_memOk {core a c t bs l} (hs : s.memOk) : (s.copyDests core a c t bs l).memOk := by
  fun_induction State.copyDests
  case case1 => exact putCopy_memOk hs
  case case2 => exact putCopy_memOk (Got.wait_memOk (engineWrite_memOk hs) ‹_›)
  case case3 => exact stopCopy_memOk hs
  case case4 => exact exceptOk_error (copyPut_memOk hs) ‹_›
  case case5 q he ih =>
    have hq := exceptOk_ok (copyPut_memOk hs) he
    exact ih hq

theorem endCopy_memOk {core c} (hs : s.memOk) : (s.endCopy core c).memOk := by
  fun_cases State.endCopy
  · exact tileStop_memOk hs
  · exact putCopy_memOk (flushFill_memOk hs)

theorem sendImage_memOk {core c va image} (hs : s.memOk) : (s.sendImage core c va image).memOk := by
  fun_cases State.sendImage
  · exact Got.wait_memOk (engineSpot_memOk hs) ‹_›
  · exact stopCopy_memOk hs
  · exact putCopy_memOk (forget_memOk (send_memOk hs))

theorem copyOnce_memOk {a c src inb} (hs : s.memOk) : (s.copyOnce a c src inb).memOk (fun _ => true) := by
  fun_cases State.copyOnce
  · exact rfl
  · exact copyValue_memOk hs

theorem copyServes_memOk {a c src inb} (hs : s.memOk) : exceptOk (fun _ => true) State.memOk (s.copyServes a c src inb) := by
  fun_cases State.copyServes
  · exact serveReads_memOk hs
  · exact hs

theorem putElement_memOk {core c t r} (hs : s.memOk) (hr : r.memOk (fun _ => true)) : (s.putElement core c t r).memOk := by
  fun_cases State.putElement
  · exact hr
  · exact stopCopy_memOk hs
  · exact putCopy_memOk hs
  · exact copyDests_memOk (orFlags_memOk hs)

theorem runCopy_memOk {core c} (hs : s.memOk) : (s.runCopy core c).memOk := by
  fun_cases State.runCopy
  · exact sendImage_memOk hs
  · exact endCopy_memOk hs
  · exact Got.wait_memOk (copyOnce_memOk hs) ‹_›
  · exact hs
  · exact putElement_memOk (exceptOk_ok (copyServes_memOk hs) ‹_›) (copyOnce_memOk hs)

theorem serveCopy_memOk {core ctx c} (hs : s.memOk) : (s.serveCopy core ctx c).memOk := setCore_memOk (runCopy_memOk hs)

theorem execCopyCommandRun_memOk {core ctx} (hs : s.memOk) : (execCopyCommandRun core ctx s).memOk := by
  fun_cases execCopyCommandRun
  · exact hs
  · exact serveCopy_memOk hs
  · exact hs

theorem settleCopy_memOk {core c} (hs : s.memOk) : (s.settleCopy core c).memOk := by
  fun_cases State.settleCopy
  case case2 => exact tileStop_memOk hs
  case case4 | case6 => exact putCopy_memOk (flushFill_memOk hs)
  all_goals exact putCopy_memOk hs

theorem copyWalk_memOk {core c} (hs : s.memOk) : (s.copyWalk core c).memOk := by
  fun_cases State.copyWalk
  · exact endWalk_memOk hs
  · exact hs
  · exact hs

theorem boundary_memOk {core id n} (hs : s.memOk) : (s.boundary core id n).memOk := by
  fun_induction State.boundary
  case case3 => exact settleCopy_memOk hs
  case case4 ih => exact ih (runCopy_memOk (copyWalk_memOk hs))
  all_goals exact hs

theorem finishCopy_memOk {core c} (hs : s.memOk) : (s.finishCopy core c).memOk :=
  ite_memOk hs (ite_memOk (deliverWord_memOk (getD_memOk (onTask_memOk hs) hs)) (getD_memOk (onTask_memOk hs) hs))

theorem execCopyComplete_memOk {core ctx} (hs : s.memOk) : (execCopyComplete core ctx s).memOk := by
  fun_cases execCopyComplete
  · exact hs
  · exact finishCopy_memOk hs

/-! Status registers. -/

theorem writeStatus_memOk {idx v} (hs : s.memOk) : (s.writeStatus idx v).memOk := by
  fun_cases State.writeStatus <;> exact hs

/-! Vector instructions. -/

theorem prefixed_memOk {dflt ok rounds f} (hs : s.memOk) (hf : ∀ x y, (f x y).memOk) : (s.prefixed dflt ok rounds f).memOk := by
  fun_cases State.prefixed
  case case2 | case4 => exact hf _ _
  all_goals exact hs

theorem execVext_memOk {h d a b} (hs : s.memOk) : (execVext h d a b s).memOk :=
  run_memOk hs fun _ h => reading_memOk h fun _ => prefixed_memOk h fun _ _ => Eff.ite_memOk h h

theorem execVins_memOk {h d a b k} (hs : s.memOk) : (execVins h d a b k s).memOk :=
  run_memOk hs fun _ h => prefixed_memOk h fun _ _ => Eff.ite_memOk h h

theorem execVcvt_memOk {h d a k t} (hs : s.memOk) : (execVcvt h d a k t s).memOk := by
  refine run_memOk hs fun _ h => reading_memOk h fun _ => prefixed_memOk h fun _ _ => ?_
  split
  · exact withFlags_memOk h
  · split
    · exact h
    · split <;> exact withFlags_memOk h

/-! The array of a quad. -/

theorem writeFrame_memOk {t off bs} (hs : s.memOk) : (s.writeFrame t off bs).memOk := by
  fun_cases State.writeFrame
  case case1 => exact poke_memOk hs
  all_goals exact hs

theorem saveSet_memOk {t o busy live acc} (hs : s.memOk) : (s.saveSet t o busy live acc).memOk :=
  getD_memOk (onTask_memOk (writeFrame_memOk (writeFrame_memOk (ite_memOk hs (writeFrame_memOk hs)))))
      (writeFrame_memOk (writeFrame_memOk (ite_memOk hs (writeFrame_memOk hs))))

theorem settleSet_memOk {n} (hs : s.memOk) : (s.settleSet n).memOk := by
  fun_cases State.settleSet
  · exact hs
  · refine setQuad_memOk ?_
    subst ‹State›
    split
    · exact saveSet_memOk hs
    · exact hs
  · exact hs

theorem giveKey_memOk (hs : s.memOk) : s.giveKey.memOk := settleSet_memOk hs

theorem askKey_memOk (hs : s.memOk) : s.askKey.memOk := hs

theorem execAkey_memOk {h} (hs : s.memOk) : (execAkey h s).memOk :=
  run_memOk hs fun _ h => Eff.ite_memOk h (askKey_memOk h)

theorem execArel_memOk {h} (hs : s.memOk) : (execArel h s).memOk :=
  run_memOk hs fun _ h => Eff.ite_memOk h (Eff.ite_memOk h (giveKey_memOk h))

theorem unstop_memOk {t} (hs : s.memOk) : (s.unstop t).memOk := getD_memOk (onTask_memOk hs) hs

theorem grantKey_memOk {n p t} (hs : s.memOk) : (s.grantKey n p t).memOk := by
  fun_cases State.grantKey
  · exact leftIdle_memOk (stir_memOk (unstop_memOk (settleSet_memOk hs)))
  · exact hs
  · exact settleSet_memOk hs

theorem execKeyGrant_memOk {n} (hs : s.memOk) : (execKeyGrant n s).memOk := by
  fun_cases execKeyGrant
  case case3 => exact grantKey_memOk (chose_memOk hs)
  all_goals exact hs

theorem enqueueArray_memOk {d pre bad} (hs : s.memOk) : (s.enqueueArray d pre bad).memOk := by
  fun_cases State.enqueueArray
  case case4 => exact askKey_memOk (giveKey_memOk hs)
  case case5 | case6 => exact hs
  all_goals exact rfl

theorem arrDescriptor_memOk {a f} (hs : s.memOk) (hf : ∀ x, (f x).memOk) : (s.arrDescriptor a f).memOk := by
  fun_cases State.arrDescriptor
  · exact hs
  · exact hs
  · exact hf _

theorem execMma_memOk {h a} (hs : s.memOk) : (execMma h a s).memOk := by
  refine run_memOk hs fun _ h => arrDescriptor_memOk h fun _ => ?_
  split
  · exact Handed.taken_memOk (enqueueArray_memOk h) ‹_›
  · exact keep_memOk (Handed.wait_memOk (enqueueArray_memOk h) ‹_›)
  · exact h

theorem postBlocks_memOk {r d pre rnd l n} (hs : s.memOk) : (s.postBlocks r d pre rnd l n).memOk := by
  fun_induction State.postBlocks
  case case2 => exact keep_memOk hs
  case case3 ih => exact ih hs
  all_goals exact hs

theorem execMgang_memOk {h a b} (hs : s.memOk) : (execMgang h a b s).memOk := by
  refine run_memOk hs fun _ h => ?_
  dsimp only
  split
  · exact h
  · refine arrDescriptor_memOk h fun _ => ?_
    split
    · exact h
    · split
      · exact h
      · split
        · exact h
        · split
          · exact h
          · split
            · exact h
            · exact postBlocks_memOk h

theorem resumeFor_memOk {t n} (hs : s.memOk) : (State.resumeFor t s n).memOk := hs

theorem execMres_memOk {h} (hs : s.memOk) : (execMres h s).memOk :=
  run_memOk hs fun _ h => Eff.ite_memOk h (foldl_memOk (fun _ _ h => resumeFor_memOk h) h)

theorem discardHeld_memOk {t} (hs : s.memOk) : (s.discardHeld t).memOk := hs

theorem execMzero_memOk {h} (hs : s.memOk) : (execMzero h s).memOk := by
  refine run_memOk hs fun _ h => ?_
  dsimp only
  split
  · exact h
  · exact setCtx_memOk (ite_memOk (setQuad_memOk (discardHeld_memOk h))
      (saveSet_memOk (ite_memOk (setQuad_memOk (discardHeld_memOk h)) (discardHeld_memOk h))))

theorem arrayRead_memOk {a va n} (hs : s.memOk) : (s.arrayRead a va n).memOk (fun _ => true) := by
  fun_cases State.arrayRead
  case case3 => exact Got.wait_memOk (engineRead_memOk hs) ‹_›
  all_goals exact rfl

theorem arrayReads_memOk {a l} (hs : s.memOk) : (s.arrayReads a l).memOk (fun _ => true) := by
  fun_induction State.arrayReads
  case case2 => exact Got.wait_memOk (arrayRead_memOk hs) ‹_›
  case case5 ih => exact ih
  all_goals exact rfl

theorem arrayLines_memOk {a code scaled l} (hs : s.memOk) : (s.arrayLines a code scaled l).memOk (fun _ => true) := by
  fun_induction State.arrayLines
  case case2 => exact Got.wait_memOk (arrayReads_memOk hs) ‹_›
  case case5 ih => exact ih
  all_goals exact rfl

theorem startArray_memOk {n k} (hs : s.memOk) : (s.startArray n k).memOk := by
  unfold State.startArray
  extract_lets _ _ u _ v _
  have hu : u.memOk := by
    subst u
    split
    · exact saveSet_memOk hs
    · exact hs
  have hv : v.memOk := ite_memOk (getD_memOk (onTask_memOk hu) hu) hu
  exact setQuad_memOk hv

theorem holdArray_memOk {n o cause tval} (hs : s.memOk) : (s.holdArray n o cause tval).memOk := report_memOk hs

theorem endArray_memOk {n o} (hs : s.memOk) : (s.endArray n o).memOk :=
  settleSet_memOk (ite_memOk hs (getD_memOk (onTask_memOk hs) hs))

theorem stepLines_memOk {n o} (hs : s.memOk) : (s.stepLines n o).memOk (fun _ => true) := by
  fun_cases State.stepLines
  case case1 | case3 => exact Got.wait_memOk (arrayLines_memOk hs) ‹_›
  all_goals exact rfl

theorem sumLines_memOk {n o as bs} (hs : s.memOk) : (s.sumLines n o as bs).memOk :=
  ite_memOk (setQuad_memOk (orFlags_memOk hs)) (ite_memOk (setQuad_memOk (orFlags_memOk hs)) (endArray_memOk (orFlags_memOk hs)))

theorem stepServes_memOk {n o} (hs : s.memOk) : exceptOk (fun _ => true) State.memOk (s.stepServes n o) := serveReads_memOk hs

theorem runStep_memOk {n o} (hs : s.memOk) : (s.runStep n o).memOk := by
  fun_cases State.runStep
  · exact Got.wait_memOk (stepLines_memOk hs) ‹_›
  · exact holdArray_memOk (exceptOk_ok (stepServes_memOk hs) ‹_›)
  · exact sumLines_memOk (exceptOk_ok (stepServes_memOk hs) ‹_›)
  · exact hs

theorem returnOp_memOk {n o} (hs : s.memOk) : (s.returnOp n o).memOk := by
  unfold State.returnOp
  extract_lets _ u v
  have hu : u.memOk := by
    subst u
    split
    · exact saveSet_memOk hs
    · exact hs
  have hv : v.memOk := ite_memOk (getD_memOk (onTask_memOk hu) hu) hu
  clear_value v
  exact setQuad_memOk (update_memOk hv)

theorem execArrayKstep_memOk {n} (hs : s.memOk) : (execArrayKstep n s).memOk := by
  fun_cases execArrayKstep
  · exact hs
  · exact runStep_memOk hs
  · exact returnOp_memOk hs
  · exact hs
  · exact startArray_memOk hs

theorem rowPuts_memOk {a l} (hs : s.memOk) : (s.rowPuts a l).memOk (fun _ => true) := by
  fun_induction State.rowPuts
  case case2 va bs r t he =>
    have hg : (if isLocal va then Got.stop 0x25 (xlatTval 5 va) else s.engineWrite a va bs true false true).memOk
        fun _ => true := by
      split
      · rfl
      · exact engineWrite_memOk hs
    exact Got.wait_memOk hg he
  case case5 ih => exact ih
  all_goals exact rfl

theorem writeRow_memOk {n k i lanes} (hs : s.memOk) : (s.writeRow n k i lanes).memOk := by
  fun_cases State.writeRow
  · exact Got.wait_memOk (rowPuts_memOk hs) ‹_›
  · exact orFlags_memOk (forget_memOk (report_memOk hs))
  · exact forget_memOk (report_memOk (orFlags_memOk hs))
  · exact forget_memOk (foldl_memOk (fun _ _ h => send_memOk h) (orFlags_memOk hs))

theorem deliverRow_memOk {k bytes} (hs : s.memOk) : (s.deliverRow k bytes).memOk := by
  fun_cases State.deliverRow
  · exact hs
  · exact foldl_memOk (fun _ _ h => send_memOk h) (getD_memOk (onTask_memOk hs) hs)

theorem closeBuffer_memOk {n o} (hs : s.memOk) : (s.closeBuffer n o).memOk State.memOk := by
  fun_cases State.closeBuffer
  case case2 => exact Got.wait_memOk (engineSpot_memOk hs) ‹_›
  case case5 => exact send_memOk hs
  all_goals exact hs

theorem drainRow_memOk {n o} (hs : s.memOk) : (s.drainRow n o).memOk := by
  fun_cases State.drainRow
  case case1 => exact endArray_memOk (Got.ok_memOk (closeBuffer_memOk hs) ‹_›)
  case case2 => exact Got.wait_memOk (closeBuffer_memOk hs) ‹_›
  case case6 => exact setCore_memOk (setQuad_memOk (chose_memOk hs))
  case case8 => exact deliverRow_memOk (setQuad_memOk (orFlags_memOk hs))
  case case9 => exact RowDone.wait_memOk (writeRow_memOk hs) ‹_›
  case case10 => exact setQuad_memOk (RowDone.failed_memOk (writeRow_memOk hs) ‹_›)
  case case11 => exact setQuad_memOk (RowDone.ok_memOk (writeRow_memOk hs) ‹_›)
  all_goals exact hs

theorem execArrayDrainRow_memOk {n} (hs : s.memOk) : (execArrayDrainRow n s).memOk := by
  fun_cases execArrayDrainRow
  · exact drainRow_memOk hs
  · exact hs
  · exact hs

theorem execRowHandlerStart_memOk {core} (hs : s.memOk) : (execRowHandlerStart core s).memOk := by
  fun_cases execRowHandlerStart <;> exact hs

theorem notePast_memOk {j past closed} (hs : s.memOk) : (s.notePast j past closed).memOk := hs

theorem execRrow_memOk {h} (hs : s.memOk) : (execRrow h s).memOk := by
  refine run_memOk hs fun _ h => ?_
  split
  · split
    · exact RowDone.wait_memOk (writeRow_memOk h) ‹_›
    · exact endRow_memOk (RowDone.failed_memOk (writeRow_memOk h) ‹_›)
    · exact endRow_memOk (notePast_memOk (RowDone.ok_memOk (writeRow_memOk h) ‹_›))
  · exact h

theorem execRdrop_memOk {h} (hs : s.memOk) : (execRdrop h s).memOk := by
  refine run_memOk hs fun _ h => ?_
  split
  · exact endRow_memOk h
  · exact h

/-! Near-bank units. -/

theorem execNbcfg_memOk {h a b} (hs : s.memOk) : (execNbcfg h a b s).memOk := by
  refine run_memOk hs fun _ h => ?_
  dsimp only
  split
  · exact h
  · split
    · exact h
    · split
      · exact h
      · split
        · exact h
        · split
          · exact keep_memOk (ask_memOk h)
          · exact h
          · exact h
          · exact send_memOk h

theorem sendRun_memOk {w reg} (hs : s.memOk) : (s.sendRun w reg).memOk := send_memOk hs

theorem sendRel_memOk {w} (hs : s.memOk) : (s.sendRel w).memOk := send_memOk hs

theorem execNbrun_memOk {h a} (hs : s.memOk) : (execNbrun h a s).memOk :=
  run_memOk hs fun _ h => Eff.ite_memOk h (Eff.ite_memOk h (sendRun_memOk h))

theorem execNbget_memOk {h d a} (hs : s.memOk) : (execNbget h d a s).memOk :=
  run_memOk hs fun _ h => Eff.ite_memOk h (Eff.ite_memOk h (sendRun_memOk h))

theorem execNbrel_memOk {h a} (hs : s.memOk) : (execNbrel h a s).memOk :=
  run_memOk hs fun _ h => Eff.ite_memOk h (sendRel_memOk h)

theorem enqueueNb_memOk {w} (hs : s.memOk) : (s.enqueueNb w).memOk := by
  fun_cases State.enqueueNb
  case case1 => exact rfl
  case case3 | case6 => exact sendRun_memOk hs
  case case4 => exact sendRel_memOk hs
  all_goals exact hs

theorem setUnit_memOk {u x} (hs : s.memOk) : (s.setUnit u x).memOk := hs

theorem execNbBind_memOk {n} (hs : s.memOk) : (execNbBind n s).memOk := by
  fun_cases execNbBind
  · exact hs
  · exact report_memOk (take_memOk hs)
  · exact setUnit_memOk (take_memOk hs)
  · exact hs

theorem nbReply_memOk {m cmd reg status rows last} (hs : s.memOk) : (s.nbReply m cmd reg status rows last).memOk :=
  ite_memOk hs (send_memOk hs)

theorem nbReject_memOk {m u reg status} (hs : s.memOk) : (s.nbReject m u reg status).memOk := nbReply_memOk (report_memOk hs)

theorem nbCompute_memOk {m u r colour reg rnd} (hs : s.memOk) : (s.nbCompute m u r colour reg rnd).memOk := by
  fun_cases State.nbCompute
  · exact nbReply_memOk (foldl_memOk (fun _ _ h => send_memOk h) (orFlags_memOk hs))
  · exact nbReply_memOk (report_memOk (foldl_memOk (fun _ _ h => send_memOk h) (orFlags_memOk hs)))

theorem nbStart_memOk {m u reg frm fseed} (hs : s.memOk) : (s.nbStart m u reg frm fseed).memOk := by
  fun_cases State.nbStart
  case case6 => exact nbCompute_memOk (banks_memOk hs)
  all_goals exact nbReject_memOk (banks_memOk hs)

theorem execNbRun_memOk {u} (hs : s.memOk) : (execNbRun u s).memOk := by
  fun_cases execNbRun
  · exact hs
  · exact nbStart_memOk (take_memOk hs)
  · exact hs

theorem execNbUnbind_memOk {u} (hs : s.memOk) : (execNbUnbind u s).memOk := by
  fun_cases execNbUnbind
  · exact hs
  · exact ite_memOk (setUnit_memOk (take_memOk hs)) (take_memOk hs)
  · exact take_memOk hs

theorem unbindTask_memOk {t} (hs : s.memOk) : (s.unbindTask t).memOk := hs

/-! The queues of a context. -/

theorem handOver_memOk {q ws word} (hs : s.memOk) : (s.handOver q ws word).memOk := by
  fun_cases State.handOver
  · exact enqueueCopy_memOk hs
  · exact rfl
  · exact rfl
  · exact enqueueArray_memOk hs
  · exact enqueueNb_memOk hs

theorem drainAsm_memOk {q word n} (hs : s.memOk) : (State.drainAsm q word n s).memOk := by
  fun_induction State.drainAsm
  case case3 ih => exact ih (setCtx_memOk (Handed.taken_memOk (handOver_memOk hs) ‹_›))
  case case4 => exact setCtx_memOk (Handed.wait_memOk (handOver_memOk hs) ‹_›)
  all_goals exact hs

theorem pushWords_memOk {q word ws} (hs : s.memOk) : (s.pushWords q word ws).memOk := drainAsm_memOk hs

theorem execQrd_memOk {h d q} (hs : s.memOk) : (execQrd h d q s).memOk := by
  refine run_memOk hs fun _ h => ?_
  dsimp only
  split
  · exact send_memOk h
  · exact h

/-! Tasks. -/

theorem startOn_memOk {n c r} (hs : s.memOk) : (s.startOn n c r).memOk := leftIdle_memOk hs

theorem arbitrated_memOk {n rank} (hs : s.memOk) : (s.arbitrated n rank).memOk := hs

theorem pushRec_memOk {n who r} (hs : s.memOk) : (s.pushRec n who r).memOk :=
  ite_memOk (report_memOk hs) (leftIdle_memOk (setCore_memOk (ite_memOk hs hs)))

theorem startNewest_memOk {n c} (hs : s.memOk) : (s.startNewest n c).memOk := by
  fun_cases State.startNewest
  · exact startOn_memOk (arbitrated_memOk hs)
  · exact hs

theorem restore_memOk {n i p} (hs : s.memOk) : (s.restore n i p).memOk := write_memOk hs fun w => wf_restore s w n i p

theorem execTaskStart_memOk {core} (hs : s.memOk) : (execTaskStart core s).memOk := by
  fun_cases execTaskStart
  case case2 => exact leftIdle_memOk (restore_memOk hs)
  case case4 => exact startNewest_memOk hs
  all_goals exact hs

theorem execSpill_memOk {core} (hs : s.memOk) : (execSpill core s).memOk := by
  fun_cases execSpill
  · exact hs
  · exact hs
  · exact report_memOk hs
  · exact startNewest_memOk (syncSpill_memOk hs)

theorem cancelled_memOk (hs : s.memOk) : s.cancelled.memOk := park_memOk hs

theorem spawning_memOk {a f} (hs : s.memOk) (hf : ∀ t y, t.memOk → (f t y).memOk) : (s.spawning a f).memOk := by
  fun_cases State.spawning
  case case1 => exact cancelled_memOk hs
  case case6 => exact hf _ _ (readHere_memOk hs)
  all_goals exact hs

theorem walkEnds_memOk {n who r} (hs : s.memOk) : (s.walkEnds n who r).memOk :=
  ite_memOk (pushRec_memOk (chose_memOk hs)) (report_memOk hs)

theorem walkAt_memOk {n who group r} (hs : s.memOk) : (s.walkAt n who group r).memOk := by
  fun_cases State.walkAt
  · exact startOn_memOk (arbitrated_memOk (chose_memOk hs))
  · exact walkEnds_memOk hs
  · exact send_memOk hs

theorem execSpawnatWalk_memOk {n} (hs : s.memOk) : (execSpawnatWalk n s).memOk := by
  fun_cases execSpawnatWalk
  case case2 => exact walkAt_memOk (take_memOk hs)
  all_goals exact hs

theorem execFork_memOk {h e o} (hs : s.memOk) : (execFork h e o s).memOk := by
  refine run_memOk hs fun _ h => ?_
  dsimp only
  split
  · exact cancelled_memOk h
  · split
    · exact h
    · split
      · exact h
      · split
        · exact h
        · exact pushRec_memOk h

theorem execJoin_memOk {h a b} (hs : s.memOk) : (execJoin h a b s).memOk := by
  refine run_memOk hs fun _ h => ?_
  dsimp only
  split
  · split <;> exact h
  · split
    · exact formatTrap_memOk h
    · refine withSpot_memOk h fun _ => ?_
      split
      · exact formatTrap_memOk h
      · split
        · exact cancelled_memOk h
        · split
          · exact h
          · split
            · exact h
            · exact parkAt_memOk (request_memOk h)

theorem atCtx_memOk {n i f} (hs : s.memOk) (hf : ∀ t, t.memOk → (f t).memOk) : (s.atCtx n i f).memOk := by
  have h : (f { s with cur := n, curCtx := i }).memOk := hf _ hs
  unfold State.atCtx
  exact update_memOk h

theorem removeLatches_memOk {p} (hs : s.memOk) : (s.removeLatches p).memOk := foldl_memOk (fun _ _ h => refill_memOk h) hs

theorem leave_memOk {t x f} (hs : s.memOk) : (s.leave t x f).memOk :=
  setCore_memOk (removeLatches_memOk (setQuad_memOk (unbindTask_memOk (discardHeld_memOk (onTally_memOk hs)))))

theorem endTask_memOk {n i f} (hs : s.memOk) : (s.endTask n i f).memOk := setCore_memOk (leave_memOk hs)

theorem bumpExit_memOk {t x} (hs : s.memOk) : (s.bumpExit t x).memOk := by
  fun_cases State.bumpExit
  case case1 | case4 => exact hs
  case case6 => exact send_memOk hs
  all_goals exact report_memOk hs

theorem retire_memOk {n i} (hs : s.memOk) : (s.retire n i).memOk := bumpExit_memOk (endTask_memOk hs)

theorem execDone_memOk {h} (hs : s.memOk) : (execDone h s).memOk := by
  refine run_memOk hs fun _ h => ?_
  dsimp only
  split
  · exact h
  · split
    · exact h
    · exact park_memOk h

theorem letGo_memOk {t} (hs : s.memOk) : (s.letGo t).memOk := foldl_memOk (fun _ _ h => send_memOk h) (removeLatches_memOk hs)

theorem execTaskRetire_memOk {core ctx} (hs : s.memOk) : (execTaskRetire core ctx s).memOk := by
  fun_cases execTaskRetire
  · exact hs
  · refine atCtx_memOk hs fun _ h => ?_
    dsimp only
    split
    · exact trap_memOk (surface_memOk h)
    · exact retire_memOk (surface_memOk h)
  · exact endTask_memOk (letGo_memOk hs)
  · exact hs

theorem execTaskFailure_memOk {core ctx} (hs : s.memOk) : (execTaskFailure core ctx s).memOk := by
  fun_cases execTaskFailure
  · exact hs
  · exact endTask_memOk hs
  · exact hs

theorem cancelHere_memOk {iss exit slot} (hs : s.memOk) : (s.cancelHere iss exit slot).memOk :=
  foldl_memOk (fun _ _ h => send_memOk h) (onCmd_memOk hs)

theorem sendCancel_memOk {exit slot} (hs : s.memOk) : (s.sendCancel exit slot).memOk :=
  foldl_memOk (fun _ _ h => send_memOk h) (cancelHere_memOk hs)

theorem execCancel_memOk {h a} (hs : s.memOk) : (execCancel h a s).memOk :=
  run_memOk hs fun _ h => Eff.ite_memOk h (sendCancel_memOk h)

theorem cancelCore_memOk {n named queued} (hs : s.memOk) : (s.cancelCore n named queued).memOk :=
  foldl_memOk (fun _ _ h => letGo_memOk h) (syncSpill_memOk hs)

theorem dropTransit_memOk {queued} (hs : s.memOk) : (s.dropTransit queued).memOk := by
  fun_cases State.dropTransit
  refine foldl_memOk (fun _ _ h => ?_) hs
  split <;> exact receivedAll_memOk h

theorem cancelAt_memOk {exit slot n} (hs : s.memOk) : (s.cancelAt exit slot n).memOk := by
  unfold State.cancelAt
  exact cancelCore_memOk (dropTransit_memOk hs)

theorem execCancelRequest_memOk {n} (hs : s.memOk) : (execCancelRequest n s).memOk := by
  fun_cases execCancelRequest
  case case2 => exact cancelHere_memOk (take_memOk hs)
  case case4 => exact cancelAt_memOk (arbitrated_memOk (take_memOk hs))
  all_goals exact hs

theorem execStealBackoff_memOk {core} (hs : s.memOk) : (execStealBackoff core s).memOk := by
  fun_cases execStealBackoff
  case case4 => exact send_memOk hs
  all_goals exact hs

theorem execStealRequest_memOk {n} (hs : s.memOk) : (execStealRequest n s).memOk := by
  fun_cases execStealRequest
  case case3 | case4 => exact send_memOk (setCore_memOk (arbitrated_memOk (chose_memOk (take_memOk hs))))
  all_goals exact hs

theorem execStolenRecord_memOk {n} (hs : s.memOk) : (execStolenRecord n s).memOk := by
  fun_cases execStolenRecord
  · exact hs
  · exact startOn_memOk (setCore_memOk (take_memOk hs))
  · exact pushRec_memOk (setCore_memOk (take_memOk hs))
  · exact hs

theorem execStealRefusal_memOk {n} (hs : s.memOk) : (execStealRefusal n s).memOk := by
  fun_cases execStealRefusal
  · exact hs
  · exact setCore_memOk (take_memOk hs)
  · exact hs

/-! Barriers. -/

theorem onBarrier_memOk {b f} (hs : s.memOk) (hf : ∀ x, (f x).memOk) : (s.onBarrier b f).memOk := by
  fun_cases State.onBarrier
  · exact hs
  · exact hs
  · exact hf _

theorem arrive_memOk {b f} (hs : s.memOk) (hf : ∀ t, t.memOk → (f t).memOk) : (s.arrive b f).memOk := by
  fun_cases State.arrive
  · exact hs
  · exact hf _ hs

theorem await_memOk {b} (hs : s.memOk) : (s.await b).memOk := by
  fun_cases State.await
  · exact ite_memOk hs hs
  · exact parkAt_memOk (ite_memOk hs hs)

theorem execBar_memOk {h a} (hs : s.memOk) : (execBar h a s).memOk :=
  run_memOk hs fun _ h => Eff.ite_memOk h (onBarrier_memOk h fun _ => arrive_memOk h fun _ h => await_memOk h)

theorem execBara_memOk {h a} (hs : s.memOk) : (execBara h a s).memOk :=
  run_memOk hs fun _ h => Eff.ite_memOk h (onBarrier_memOk h fun _ => arrive_memOk h fun _ h => h)

theorem execBarw_memOk {h a} (hs : s.memOk) : (execBarw h a s).memOk :=
  run_memOk hs fun _ h => Eff.ite_memOk h (onBarrier_memOk h fun _ => await_memOk h)

theorem releaseAt_memOk {b n} (hs : s.memOk) : (State.releaseAt b s n).memOk := hs

theorem releaseBar_memOk {b} (hs : s.memOk) : (s.releaseBar b).memOk :=
  foldl_memOk (fun _ _ h => leftIdle_memOk (stir_memOk h)) (foldl_memOk (fun _ _ h => releaseAt_memOk h) hs)

theorem flitTo_memOk {p vnet ws} (hs : s.memOk) : (s.flitTo p vnet ws).memOk := send_memOk hs

theorem gangArrival_memOk {p b} (hs : s.memOk) : (s.gangArrival p b).memOk :=
  ite_memOk (foldl_memOk (fun _ _ h => ite_memOk h (flitTo_memOk h)) (releaseBar_memOk hs)) hs

theorem execBarrierRelease_memOk {b} (hs : s.memOk) : (execBarrierRelease b s).memOk := by
  fun_cases execBarrierRelease
  · exact hs
  · exact releaseBar_memOk hs
  · exact gangArrival_memOk hs
  · exact flitTo_memOk hs

theorem execBarrierArrivalFlit_memOk {pkg b} (hs : s.memOk) : (execBarrierArrivalFlit pkg b s).memOk := by
  fun_cases execBarrierArrivalFlit
  · exact hs
  · exact gangArrival_memOk hs

theorem execBarrierReleaseFlit_memOk {b} (hs : s.memOk) : (execBarrierReleaseFlit b s).memOk := by
  fun_cases execBarrierReleaseFlit
  · exact hs
  · exact releaseBar_memOk hs

theorem breakTask_memOk {link t} (hs : s.memOk) : (State.breakTask link s t).memOk :=
  stir_memOk (report_memOk (getD_memOk (onTask_memOk hs) hs))

theorem breakAt_memOk {b link n} (hs : s.memOk) : (State.breakAt b link s n).memOk :=
  leftIdle_memOk (foldl_memOk (fun _ _ h => breakTask_memOk h) hs)

theorem breakBar_memOk {b link} (hs : s.memOk) : (s.breakBar b link).memOk := by
  fun_cases State.breakBar
  · exact foldl_memOk (fun _ _ h => breakAt_memOk h) hs
  · exact hs

/-! Hinges. -/

theorem callTo_memOk {pkg unit d t e n w} (hs : s.memOk) : (s.callTo pkg unit d t e n w).memOk := send_memOk hs

theorem execHcall_memOk {h d a e n w} (hs : s.memOk) : (execHcall h d a e n w s).memOk :=
  run_memOk hs fun _ h => Eff.ite_memOk (Eff.ite_memOk h (callTo_memOk h)) (withSpot_memOk h fun _ => callTo_memOk h)

theorem execHret_memOk {h a} (hs : s.memOk) : (execHret h a s).memOk := by
  refine run_memOk hs fun _ h => ?_
  split
  · dsimp only
    split
    · exact h
    · split
      · exact h
      · exact endHinge_memOk h
  · exact h

theorem acceptCall_memOk {u k} (hs : s.memOk) : (s.acceptCall u k).memOk := noteTo_memOk (leftIdle_memOk (chose_memOk hs))

theorem execHingeCallArrival_memOk {n} (hs : s.memOk) : (execHingeCallArrival n s).memOk := by
  fun_cases execHingeCallArrival
  · exact hs
  · exact hs
  · split
    · exact acceptCall_memOk (chose_memOk (take_memOk hs))
    · exact endCall_memOk (chose_memOk (take_memOk hs))
  · exact hs

theorem execHingeHandlerStart_memOk {core} (hs : s.memOk) : (execHingeHandlerStart core s).memOk := by
  fun_cases execHingeHandlerStart
  case case2 => exact endCall_memOk hs
  all_goals exact hs

theorem onCaller_memOk {k f} (hs : s.memOk) : (s.onCaller k f).memOk := by
  fun_cases State.onCaller
  · exact onRun_memOk hs
  · exact wakeTask_memOk hs

theorem landNote_memOk {k n} (hs : s.memOk) : (s.landNote k n).memOk := by
  fun_cases State.landNote
  refine onCaller_memOk ?_
  subst ‹State›
  split
  · exact report_memOk (ite_memOk hs (ite_memOk hs hs))
  · exact ite_memOk hs (ite_memOk hs hs)

theorem execHingeStatusArrival_memOk {n} (hs : s.memOk) : (execHingeStatusArrival n s).memOk := by
  fun_cases execHingeStatusArrival
  case case2 => exact landNote_memOk (take_memOk hs)
  case case4 => exact take_memOk hs
  all_goals exact hs

theorem withdraw_memOk {k} (hs : s.memOk) : (s.withdraw k).memOk := by
  fun_cases State.withdraw <;> exact hs

theorem loseCall_memOk {k} (hs : s.memOk) : (s.loseCall k).memOk := landNote_memOk (report_memOk (withdraw_memOk hs))

theorem loseEnd_memOk {link k} (hs : s.memOk) : (s.loseEnd link k).memOk := report_memOk (update_memOk (withdraw_memOk hs))

theorem execHingeReplyTimeout_memOk {id} (hs : s.memOk) : (execHingeReplyTimeout id s).memOk := by
  fun_cases execHingeReplyTimeout
  · exact hs
  · exact loseCall_memOk hs
  · exact hs

/-! Channels. -/

theorem unbind_memOk {n} (hs : s.memOk) : (s.unbind n).memOk := ite_memOk hs hs

theorem execChbind_memOk {h n a b} (hs : s.memOk) : (execChbind h n a b s).memOk := by
  refine run_memOk hs fun _ h => ?_
  dsimp only
  split
  · exact h
  · split
    · exact h
    · split
      · exact unbind_memOk h
      · split
        · exact h
        · exact setCtx_memOk (setMe_memOk (unbind_memOk h))

theorem execSend_memOk {h a b} (hs : s.memOk) : (execSend h a b s).memOk :=
  run_memOk hs fun _ h => reading_memOk h fun _ => Eff.ite_memOk h (Eff.ite_memOk h (Eff.ite_memOk h (send_memOk h)))

theorem packetNote_memOk {m p placed} (hs : s.memOk) : (s.packetNote m p placed).memOk := send_memOk hs

theorem serverTakes_memOk {n} (hs : s.memOk) : (s.serverTakes n).memOk := ite_memOk hs hs

theorem decidePacket_memOk {m p} (hs : s.memOk) : (s.decidePacket m p).memOk := by
  fun_cases State.decidePacket
  · exact packetNote_memOk (leftIdle_memOk (stir_memOk (chose_memOk
      (serverTakes_memOk (setCore_memOk (receivedAll_memOk (numberIn_memOk hs)))))))
  · exact packetNote_memOk hs
  · exact packetNote_memOk (report_memOk (receivedAll_memOk (numberIn_memOk hs)))

theorem execChannelPacketArrival_memOk {n} (hs : s.memOk) : (execChannelPacketArrival n s).memOk := by
  fun_cases execChannelPacketArrival
  case case2 => exact decidePacket_memOk (take_memOk hs)
  all_goals exact hs

theorem execChannelPacketReply_memOk {n} (hs : s.memOk) : (execChannelPacketReply n s).memOk := by
  fun_cases execChannelPacketReply
  · exact hs
  · split
    · exact update_memOk (take_memOk hs)
    · exact setCore_memOk (update_memOk (take_memOk hs))
  · exact hs

theorem execChannelResend_memOk {n} (hs : s.memOk) : (execChannelResend n s).memOk := by
  fun_cases execChannelResend
  · exact hs
  · exact sendAgain_memOk hs

theorem reportFormats_memOk {ps} (hs : s.memOk) : (s.reportFormats ps).memOk := foldl_memOk (fun _ _ h => report_memOk h) hs

theorem endRound_memOk {core ps} (hs : s.memOk) : (s.endRound core ps).memOk := by
  fun_cases State.endRound
  · exact reportFormats_memOk (leftIdle_memOk (stir_memOk (chose_memOk (serverTakes_memOk hs))))
  · exact hs
  · exact reportFormats_memOk (send_memOk (serverTakes_memOk hs))

theorem execReductionRound_memOk {core} (hs : s.memOk) : (execReductionRound core s).memOk := by
  fun_cases execReductionRound
  · exact hs
  · exact endRound_memOk (serverTakes_memOk hs)
  · exact serverTakes_memOk hs

/-! Control instructions. -/

theorem execJalr_memOk {h d a i} (hs : s.memOk) : (execJalr h d a i s).memOk :=
  run_memOk hs fun _ h => Eff.ite_memOk h (Eff.ite_memOk h (goto_memOk h))

theorem openLoop_memOk {n len count} (hs : s.memOk) : (s.openLoop n len count).memOk := by
  fun_cases State.openLoop <;> exact hs

theorem execBrk_memOk {h c} (hs : s.memOk) : (execBrk h c s).memOk :=
  run_memOk hs fun _ h => Eff.ite_memOk h h

theorem execYield_memOk {h} (hs : s.memOk) : (execYield h s).memOk :=
  run_memOk hs fun _ h => Eff.ite_memOk h (Eff.ite_memOk (park_memOk h) h)

/-! Gaussian blocks. -/

theorem gbp_memOk {k i h legal blocks uses f} (hs : s.memOk) (hf : ∀ t, t.memOk → (f t).memOk) :
    (s.gbp k i h legal blocks uses f).memOk :=
  run_memOk hs fun _ h => prefixed_memOk h fun _ _ => hf _ h

theorem putBlock_memOk {d r} (hs : s.memOk) : (s.putBlock d r).memOk := withFlags_memOk hs

theorem withDims_memOk {k f} (hs : s.memOk) (hf : ∀ x, (f x).memOk) : (s.withDims k f).memOk := by
  fun_cases State.withDims
  · exact hs
  · exact hf _

theorem execGacc_memOk {h d a k} (hs : s.memOk) : (execGacc h d a k s).memOk :=
  gbp_memOk hs fun _ h => withDims_memOk h fun _ => Eff.ite_memOk h (putBlock_memOk h)

theorem solving_memOk {d a k keep result} (hs : s.memOk) : (s.solving d a k keep result).memOk := by
  fun_cases State.solving
  refine withDims_memOk hs fun _ => ?_
  dsimp only
  split
  · exact hs
  · split
    · exact hs
    · exact putBlock_memOk hs

theorem onMailbox_memOk {h k w} (hs : s.memOk) : (s.onMailbox h k w).memOk := by
  fun_cases State.onMailbox
  · exact hs
  · exact hs
  · refine withSpot_memOk hs fun _ => ?_
    split
    · exact hs
    · exact parkAt_memOk (request_memOk hs)

theorem onReply_memOk {f} (hs : s.memOk) (hf : ∀ x, (f x).memOk) : (s.onReply f).memOk := by
  fun_cases State.onReply
  · exact hs
  · exact hf _
  · exact hs

theorem enqueueSlot_memOk {va image} (hs : s.memOk) : (s.enqueueSlot va image).memOk := by
  fun_cases State.enqueueSlot <;> exact hs

theorem execGsnd_memOk {h d a} (hs : s.memOk) : (execGsnd h d a s).memOk := by
  refine gbp_memOk hs fun _ h => ?_
  dsimp only
  split
  · refine onReply_memOk h fun _ => ?_
    split
    · exact enqueueSlot_memOk h
    · exact h
  · exact onMailbox_memOk h

theorem execGrcv_memOk {h d a} (hs : s.memOk) : (execGrcv h d a s).memOk := by
  refine gbp_memOk hs fun _ h => ?_
  split
  · refine onReply_memOk h fun _ => ?_
    split <;> exact h
  · exact onMailbox_memOk h

theorem damp_memOk {d a delta} (hs : s.memOk) : (s.damp d a delta).memOk := by
  fun_cases State.damp
  · exact hs
  · exact putBlock_memOk hs

theorem execGdmp_memOk {h d a b} (hs : s.memOk) : (execGdmp h d a b s).memOk := by
  refine gbp_memOk hs fun _ h => ?_
  split
  · exact damp_memOk h
  · split
    · refine onReply_memOk h fun _ => ?_
      split
      · exact damp_memOk h
      · exact h
    · exact onMailbox_memOk h

/-! Command rings and the admin queue. -/

theorem takeBackRows_memOk {o} (hs : s.memOk) : (s.takeBackRows o).1.memOk := ite_memOk hs hs

theorem displace_memOk {n o} (hs : s.memOk) : (s.displace n o).memOk :=
  ite_memOk (poke_memOk (poke_memOk (poke_memOk (setQuad_memOk (update_memOk (takeBackRows_memOk hs))))))
      (saveSet_memOk (setQuad_memOk (update_memOk (takeBackRows_memOk hs))))

theorem stopQuad_memOk {slot n} (hs : s.memOk) : (State.stopQuad slot s n).memOk := by
  unfold State.stopQuad
  extract_lets u v _
  have hu : u.memOk := by
    subst u
    split
    · exact ite_memOk (displace_memOk hs) hs
    · exact hs
  have hv : v.memOk := setQuad_memOk hu
  clear_value u v
  split
  · exact ite_memOk hv (ite_memOk (setQuad_memOk hv) (settleSet_memOk (setQuad_memOk hv)))
  · exact hv

theorem stopCopies_memOk {slot n} (hs : s.memOk) : (State.stopCopies slot s n).memOk :=
  foldl_memOk (fun _ _ h => boundary_memOk h) hs

theorem saveTile_memOk {n} (hs : s.memOk) : (s.saveTile n).memOk := ite_memOk hs hs

theorem preempt_memOk {q} (hs : s.memOk) : (s.preempt q).memOk :=
  foldl_memOk (fun _ _ h => saveTile_memOk h) (foldl_memOk (fun _ _ h => stopQuad_memOk h)
      (foldl_memOk (fun _ _ h => stopCopies_memOk h) (onCmd_memOk hs)))

theorem restoreTile_memOk {n} (hs : s.memOk) : (s.restoreTile n).memOk := by
  fun_cases State.restoreTile
  · exact hs
  · exact foldl_memOk (fun _ _ h => letGo_memOk h) hs

theorem resume_memOk {q} (hs : s.memOk) : (s.resume q).memOk :=
  ite_memOk hs (foldl_memOk (fun _ _ h => restoreTile_memOk h) (update_memOk (onCmd_memOk hs)))

theorem setQueue_memOk {q x} (hs : s.memOk) : (s.setQueue q x).memOk := hs

theorem hostWord_memOk {q i w} (hs : s.memOk) : (s.hostWord q i w).memOk := by
  fun_cases State.hostWord
  · exact writeBytes_hostMem_memOk hs
  · exact hs

theorem writeBack_memOk {q b} (hs : s.memOk) : (s.writeBack q b).memOk :=
  foldl_memOk (fun _ _ h => ite_memOk h (hostWord_memOk h)) hs

theorem onQcb_memOk {q f} (hs : s.memOk) : (s.onQcb q f).memOk := ite_memOk hs (writeBack_memOk hs)

theorem noteWaiting_memOk {q} (hs : s.memOk) : (s.noteWaiting q).memOk := ite_memOk (ite_memOk hs hs) (ite_memOk hs hs)

theorem map_memOk {q hw} (hs : s.memOk) : (s.map q hw).memOk := resume_memOk hs

theorem unmap_memOk {q} (hs : s.memOk) : (s.unmap q).memOk :=
  ite_memOk hs (noteWaiting_memOk (setQueue_memOk (setSlot_memOk (writeBack_memOk hs))))

theorem mapFree_memOk (hs : s.memOk) : s.mapFree.memOk := by
  fun_cases State.mapFree
  refine foldl_memOk (fun _ _ h => ?_) hs
  split
  · exact map_memOk h
  · exact h

theorem atBoundary_memOk {q} (hs : s.memOk) : (s.atBoundary q).memOk := by
  fun_cases State.atBoundary
  case case1 => exact mapFree_memOk hs
  case case2 => exact mapFree_memOk (unmap_memOk hs)
  case case5 => exact map_memOk (unmap_memOk hs)
  all_goals exact hs

theorem execKick_memOk {q tail} (hs : s.memOk) : (execKick q tail s).memOk := by
  fun_cases execKick
  · exact hs
  · exact hs
  · exact onQcb_memOk hs
  · exact mapFree_memOk (noteWaiting_memOk hs)

theorem writeResponse_memOk (hs : s.memOk) : s.writeResponse.memOk := by
  unfold State.writeResponse
  exact update_memOk hs

theorem respond_memOk {ok} (hs : s.memOk) : (s.respond ok).memOk := ite_memOk (writeResponse_memOk hs) (writeResponse_memOk hs)

theorem admin_memOk {ok f} (hs : s.memOk) (hf : ∀ t, t.memOk → (f t).memOk) : (s.admin ok f).memOk := by
  fun_cases State.admin
  · exact hs
  · exact respond_memOk (hf _ hs)
  · exact respond_memOk hs

theorem execQtab_memOk {base count} (hs : s.memOk) : (execQtab base count s).memOk := admin_memOk hs fun _ h => h

theorem execQcreate_memOk {q} (hs : s.memOk) : (execQcreate q s).memOk := by
  unfold execQcreate
  refine admin_memOk hs fun t h => ?_
  exact mapFree_memOk (noteWaiting_memOk (setQueue_memOk (setSlot_memOk (writeBack_memOk h))))

theorem execSlots_memOk {count ageing} (hs : s.memOk) : (execSlots count ageing s).memOk :=
  admin_memOk hs fun _ h => mapFree_memOk h

theorem execCcreate_memOk {q session} (hs : s.memOk) : (execCcreate q session s).memOk := admin_memOk hs fun _ h => onQcb_memOk h

theorem execReplay_memOk {q mode log len} (hs : s.memOk) : (execReplay q mode log len s).memOk := by
  unfold execReplay
  exact admin_memOk hs fun _ h => setQueue_memOk h

theorem execTwin_memOk {q on} (hs : s.memOk) : (execTwin q on s).memOk := admin_memOk hs fun _ h => h

theorem execMboxlim_memOk {q limit} (hs : s.memOk) : (execMboxlim q limit s).memOk := admin_memOk hs fun _ h => h

theorem execSample_memOk {tick host len} (hs : s.memOk) : (execSample tick host len s).memOk := by
  unfold execSample
  exact admin_memOk hs fun _ h => update_memOk h

theorem execAgeingBoundary_memOk (hs : s.memOk) : (execAgeingBoundary s).memOk := by
  fun_cases execAgeingBoundary <;> exact hs

theorem chargeQueue_memOk {c} (hs : s.memOk) : (s.chargeQueue c).memOk := by
  fun_cases State.chargeQueue
  · exact hs
  · exact onCmd_memOk (onQcb_memOk hs)
  · refine unmap_memOk (setQueue_memOk ?_)
    subst ‹State›
    split
    · split
      · exact preempt_memOk (onCmd_memOk (onQcb_memOk hs))
      · exact onCmd_memOk (onQcb_memOk hs)
    · exact onCmd_memOk (onQcb_memOk hs)

theorem execPeriodBoundary_memOk {q} (hs : s.memOk) : (execPeriodBoundary q s).memOk := by
  fun_cases execPeriodBoundary
  · exact hs
  · exact mapFree_memOk (noteWaiting_memOk (setQueue_memOk (onQcb_memOk hs)))

/-! Packets. -/

theorem setCmd_memOk {q c} (hs : s.memOk) : (s.setCmd q c).memOk := hs

theorem setOuter_memOk {q c} (hs : s.memOk) : (s.setOuter q c).memOk := hs

theorem haltRing_memOk {q} (hs : s.memOk) : (s.haltRing q).memOk := mapFree_memOk (unmap_memOk (setQueue_memOk (onQcb_memOk hs)))

theorem skipIb_memOk {q status} (hs : s.memOk) : (s.skipIb q status).memOk := by
  fun_cases State.skipIb
  · exact setOuter_memOk hs
  · exact hs

theorem fetchPacket_memOk {q} (hs : s.memOk) : (s.fetchPacket q).memOk := by
  unfold State.fetchPacket
  split
  · exact hs
  · extract_lets b
    have hb {t phase status} (ht : t.memOk) : (b t phase status).memOk :=
      ite_memOk (setQueue_memOk (setCmd_memOk ht)) (setCmd_memOk ht)
    clear_value b
    split
    · exact ite_memOk (haltRing_memOk hs) (ite_memOk (hb hs) (hb hs))
    · refine ite_memOk (hb (skipIb_memOk hs)) (ite_memOk (hb (skipIb_memOk hs)) (ite_memOk (hb hs) (ite_memOk (hb hs) ?_)))
      exact ite_memOk (onCmd_memOk (hb hs)) (hb hs)

theorem starts_memOk {q op} (hs : s.memOk) : (s.starts q op).memOk := by
  fun_cases State.starts
  · exact fetchPacket_memOk hs
  · exact hs
  · exact hs

theorem packet_memOk {q op f} (hs : s.memOk) (hf : ∀ t y, t.memOk → (f t y).memOk) : (s.packet q op f).memOk := by
  fun_cases State.packet
  · exact hf _ _ (starts_memOk hs)
  · exact starts_memOk hs
  · exact starts_memOk hs

theorem phase_memOk {q p} (hs : s.memOk) : (s.phase q p).memOk := onCmd_memOk hs

theorem reject_memOk {q status} (hs : s.memOk) : (s.reject q status).memOk := onCmd_memOk hs

theorem copyhRead_memOk {q group x p} (hs : s.memOk) : (s.copyhRead q group x p).memOk (fun r => r.1.memOk) := by
  fun_cases State.copyhRead
  · exact hs
  · exact Got.wait_memOk (engineFar_memOk hs) ‹_›
  · exact rfl
  · exact report_memOk hs
  · exact seen_memOk hs

theorem copyhReads_memOk {q group l} (hs : s.memOk) : (s.copyhReads q group l).1.memOk := by
  fun_induction State.copyhReads
  case case3 he _ _ ih =>
    have ht := Got.wait_memOk (copyhRead_memOk hs) he
    exact fst_memOk (ih ht) ‹_›
  case case4 he _ _ _ _ ih =>
    have ht := Got.wait_memOk (copyhRead_memOk hs) he
    exact fst_memOk (ih ht) ‹_›
  case case5 he _ _ _ ih =>
    have ht := Got.ok_memOk (copyhRead_memOk hs) he
    exact fst_memOk (ih ht) ‹_›
  case case6 he _ ih =>
    have ht := Got.ok_memOk (copyhRead_memOk hs) he
    exact ih ht
  all_goals exact hs

theorem copyToHost_memOk {q host va group xs} (hs : s.memOk) : (s.copyToHost q host va group xs).memOk := by
  fun_cases State.copyToHost
  · exact hs
  · exact reject_memOk hs
  · exact phase_memOk (hostWrite_memOk (copyhReads_memOk hs) (wf_foldl_writeBytes _ _ _ _))

theorem execCopyh_memOk {q} (hs : s.memOk) : (execCopyh q s).memOk := by
  refine packet_memOk hs fun _ _ h => ?_
  dsimp only
  split
  · exact reject_memOk h
  · split
    · exact copyToHost_memOk h
    · exact phase_memOk (foldl_memOk (fun _ _ h => send_memOk h) h)

theorem blockPacket_memOk {q c f} (hs : s.memOk) : (s.blockPacket q c f).memOk := by
  fun_cases State.blockPacket
  · exact reject_memOk hs
  · exact phase_memOk (foldl_memOk (fun _ _ h => send_memOk h) hs)

theorem execBoltPacket_memOk {q} (hs : s.memOk) : (execBoltPacket q s).memOk := packet_memOk hs fun _ _ h => blockPacket_memOk h

theorem execClearPacket_memOk {q} (hs : s.memOk) : (execClearPacket q s).memOk := packet_memOk hs fun _ _ h => blockPacket_memOk h

theorem execFencePacket_memOk {q} (hs : s.memOk) : (execFencePacket q s).memOk := packet_memOk hs fun _ _ h => phase_memOk h

theorem execSignal_memOk {q} (hs : s.memOk) : (execSignal q s).memOk := by
  refine packet_memOk hs fun _ _ h => ?_
  dsimp only
  split
  · exact reject_memOk h
  · exact ite_memOk (phase_memOk (send_memOk h)) (reject_memOk h)

theorem streamAll_memOk {q store epoch links xs} (hs : s.memOk) : (s.streamAll q store epoch links xs).memOk := by
  unfold State.streamAll
  refine update_memOk (foldl_memOk (fun _ _ h => ?_) hs)
  exact ite_memOk (setBlock_memOk h) h

theorem onChkpt_memOk {q f} (hs : s.memOk) : (s.onChkpt q f).memOk := by
  fun_cases State.onChkpt
  · exact hs
  · exact onCmd_memOk hs

theorem checkpoint_memOk {q c} (hs : s.memOk) : (s.checkpoint q c).memOk := by
  fun_cases State.checkpoint
  case case4 => exact onChkpt_memOk (streamAll_memOk hs)
  all_goals exact onChkpt_memOk hs

theorem execChkpt_memOk {q} (hs : s.memOk) : (execChkpt q s).memOk := by
  fun_cases execChkpt
  · exact checkpoint_memOk hs
  · exact hs
  · exact packet_memOk hs fun _ _ h => checkpoint_memOk h

theorem execChkptBlockAck_memOk {q} (hs : s.memOk) : (execChkptBlockAck q s).memOk := by
  fun_cases execChkptBlockAck
  · exact onChkpt_memOk hs
  · exact hs
  · exact hs

theorem execChknow_memOk {q host} (hs : s.memOk) : (execChknow q host s).memOk :=
  admin_memOk hs fun _ h => setSlot_memOk (ite_memOk (preempt_memOk h) h)

theorem execIb_memOk {q} (hs : s.memOk) : (execIb q s).memOk := packet_memOk hs fun _ _ h => h

theorem wipe_memOk {pa len} (hs : s.memOk) : (s.wipe pa len).memOk := write_memOk hs fun w => wf_putCells _ w _ _ _

theorem zeroise_memOk {q} (hs : s.memOk) : (s.zeroise q).memOk := by
  fun_cases State.zeroise
  refine foldl_memOk (fun _ _ h => ?_) hs
  split
  · exact ite_memOk h (ite_memOk (wipe_memOk h) (send_memOk h))
  · exact h

theorem drain_memOk {q} (hs : s.memOk) : (s.drain q).memOk := onQcb_memOk hs

theorem cancelAll_memOk {q} (hs : s.memOk) : (s.cancelAll q).memOk := by
  fun_cases State.cancelAll
  case case4 => exact cancelHere_memOk hs
  all_goals exact hs

theorem cancelBehind_memOk {q} (hs : s.memOk) : (s.cancelBehind q).memOk := by
  fun_cases State.cancelBehind
  refine cancelAll_memOk ?_
  subst ‹State›
  split
  · exact hs
  · split
    · exact setOuter_memOk hs
    · exact hs

theorem execDestroy_memOk {q} (hs : s.memOk) : (execDestroy q s).memOk := by
  fun_cases execDestroy
  · exact packet_memOk hs fun _ _ h => phase_memOk (zeroise_memOk (drain_memOk h))
  · exact ite_memOk (drain_memOk (cancelBehind_memOk hs)) (drain_memOk hs)
  · exact packet_memOk hs fun _ _ h => phase_memOk (zeroise_memOk (drain_memOk h))

/-! Launch and gangs. -/

theorem overwrite_memOk {pa bs} (hs : s.memOk) : (s.overwrite pa bs).memOk := write_memOk hs fun w => wf_state_overwrite s w pa bs

theorem emptyBufs_memOk {ch n h} (hs : s.memOk) : (s.emptyBufs ch n h).memOk := by
  fun_induction State.emptyBufs
  case case3 => exact writeBytes_memOk (putBuf_memOk hs)
  case case4 ih => exact ih (writeBytes_memOk (putBuf_memOk hs))
  all_goals exact hs

theorem initBlock_memOk {q r off pa ch bytes} (hs : s.memOk) : (s.initBlock q r off pa ch bytes).memOk := by
  unfold State.initBlock
  extract_lets _ e u v
  have he : e.memOk := ite_memOk (emptyBufs_memOk hs) hs
  have hu : u.memOk := ite_memOk (update_memOk he) (overwrite_memOk hs)
  have hv : v.memOk := by
    subst v
    exact update_memOk hu
  exact ite_memOk (boltBlock_memOk hv) hv

theorem initSpot_memOk {q r off p ch} (hs : s.memOk) : (s.initSpot q r off p ch).memOk :=
  ite_memOk (initBlock_memOk (seen_memOk hs)) (send_memOk hs)

theorem initAt_memOk {q twin r off} (hs : s.memOk) : (s.initAt q twin r off).memOk := by
  fun_cases State.initAt
  · exact hs
  · exact initSpot_memOk (initSpot_memOk hs)
  · exact initSpot_memOk hs

theorem initRegion_memOk {q twin r} (hs : s.memOk) : (State.initRegion q twin s r).memOk :=
  ite_memOk hs (foldl_memOk (fun _ _ h => initAt_memOk h) hs)

theorem loadTile_memOk {img n} (hs : s.memOk) : (s.loadTile img n).memOk :=
  foldl_memOk (fun _ _ h => ite_memOk (overwrite_memOk h) h) hs

theorem bindBars_memOk {q n twin gs} (hs : s.memOk) : (s.bindBars q n twin gs).memOk :=
  foldl_memOk (fun _ _ h => foldl_memOk (fun _ _ h => h) h) hs

theorem invalidate_memOk {q} (hs : s.memOk) : (s.invalidate q).memOk := hs

theorem beginLog_memOk {q c} (hs : s.memOk) : (s.beginLog q c).memOk := by
  fun_cases State.beginLog
  · exact writeBytes_memOk hs
  · exact hs

theorem prepare_memOk {q c p} (hs : s.memOk) : (s.prepare q c p).memOk :=
  beginLog_memOk (invalidate_memOk (foldl_memOk (fun _ _ h => h)
      (foldl_memOk (fun _ _ h => loadTile_memOk h) (foldl_memOk (fun _ _ h => initRegion_memOk h) (bindBars_memOk hs)))))

theorem dispatch_memOk {q t} (hs : s.memOk) : (s.dispatch q t).memOk := by
  unfold State.dispatch
  split
  · exact hs
  · extract_lets _ u one
    have hu : u.memOk := onCmd_memOk hs
    have one_memOk {t n} (ht : t.memOk) : (one t n).memOk := by
      simp only [one]
      split
      · exact startOn_memOk ht
      · exact ht
    split
    · exact hu
    · exact ite_memOk (one_memOk (one_memOk hu)) (one_memOk hu)

theorem whenReady_memOk {q f} (hs : s.memOk) (hf : ∀ t y, t.memOk → (f t y).memOk) : (s.whenReady q f).memOk := by
  fun_cases State.whenReady
  · exact phase_memOk hs
  · exact hf _ _ hs
  · exact hs

theorem launchReady_memOk {q} (hs : s.memOk) : (s.launchReady q).memOk :=
  whenReady_memOk hs fun _ _ h => ite_memOk (phase_memOk h) (dispatch_memOk h)

theorem execLaunch_memOk {q} (hs : s.memOk) : (execLaunch q s).memOk := by
  fun_cases execLaunch
  · exact launchReady_memOk hs
  · refine packet_memOk hs fun _ _ h => ?_
    split
    · exact onCmd_memOk h
    · exact ite_memOk h (launchReady_memOk (prepare_memOk h))

theorem gangFlit_memOk {q p vnet ws} (hs : s.memOk) : (s.gangFlit q p vnet ws).memOk := flitTo_memOk hs

theorem onGang_memOk {q f} (hs : s.memOk) : (s.onGang q f).memOk := onCmd_memOk hs

theorem armed_memOk {q pkg status start counts} (hs : s.memOk) : (s.armed q pkg status start counts).memOk :=
  ite_memOk (onGang_memOk hs) (ite_memOk hs hs)

theorem sendArm_memOk {q status} (hs : s.memOk) : (s.sendArm q status).memOk :=
  ite_memOk (armed_memOk (phase_memOk hs)) (gangFlit_memOk (phase_memOk hs))

theorem gangReady_memOk {q} (hs : s.memOk) : (s.gangReady q).memOk := whenReady_memOk hs fun _ _ h => sendArm_memOk h

theorem takeEarly_memOk {q} (hs : s.memOk) : (s.takeEarly q).memOk := hs

theorem execGang_memOk {q} (hs : s.memOk) : (execGang q s).memOk := by
  fun_cases execGang
  · exact gangReady_memOk hs
  · refine packet_memOk hs fun _ _ h => ?_
    dsimp only
    split
    · exact reject_memOk h
    · split
      · exact reject_memOk (setCmd_memOk (ite_memOk (takeEarly_memOk h) h))
      · split
        · exact sendArm_memOk (onCmd_memOk (setCmd_memOk (ite_memOk (takeEarly_memOk h) h)))
        · split
          · split
            · exact setCmd_memOk (takeEarly_memOk h)
            · exact gangReady_memOk (prepare_memOk (setCmd_memOk (takeEarly_memOk h)))
          · exact ite_memOk h (gangReady_memOk (prepare_memOk h))

theorem execArm_memOk {q pkg status} (hs : s.memOk) : (execArm q pkg status s).memOk := by
  fun_cases execArm
  · exact hs
  · exact armed_memOk hs

theorem decided_memOk {q status} (hs : s.memOk) : (s.decided q status).memOk :=
  ite_memOk (onGang_memOk hs) (onCmd_memOk (onGang_memOk hs))

theorem decideGang_memOk {q} (hs : s.memOk) : (s.decideGang q).memOk := by
  fun_cases State.decideGang
  · exact decided_memOk (foldl_memOk (fun _ _ h => gangFlit_memOk h) hs)
  · exact hs
  · exact hs

theorem execGangDecide_memOk {q} (hs : s.memOk) : (execGangDecide q s).memOk := by
  fun_cases execGangDecide
  · exact hs
  · exact decideGang_memOk hs
  · exact hs

theorem relay_memOk {q status start} (hs : s.memOk) : (s.relay q status start).memOk :=
  foldl_memOk (fun _ _ h => gangFlit_memOk h) hs

theorem execGangDecision_memOk {q status} (hs : s.memOk) : (execGangDecision q status s).memOk := by
  fun_cases execGangDecision
  · exact hs
  · exact ite_memOk (decided_memOk (relay_memOk hs)) hs
  · exact hs
  · exact setQueue_memOk (relay_memOk hs)

theorem dropOver_memOk {link} (hs : s.memOk) : (s.dropOver link).memOk := by
  unfold State.dropOver
  refine foldl_memOk (fun t m h => ?_) (update_memOk hs)
  have hr : (if m.body.lostCounts then t.receivedAll m else t).memOk := ite_memOk (receivedAll_memOk h) h
  dsimp only
  split
  case h_12 => exact reportAll_memOk hr
  all_goals exact hr

theorem loseOver_memOk {link} (hs : s.memOk) : (s.loseOver link).memOk :=
  foldl_memOk (fun _ _ h => ite_memOk (loseEnd_memOk h) (loseCall_memOk h)) hs

theorem breakBars_memOk {link} (hs : s.memOk) : (s.breakBars link).memOk := foldl_memOk (fun _ _ h => breakBar_memOk h) hs

theorem breakStreams_memOk {link} (hs : s.memOk) : (s.breakStreams link).memOk := by
  fun_cases State.breakStreams
  refine foldl_memOk (fun _ _ h => ?_) hs
  split
  · exact ite_memOk (onChkpt_memOk h) h
  · exact h

theorem failLink_memOk {link} (hs : s.memOk) : (s.failLink link).memOk :=
  ite_memOk hs (breakStreams_memOk (breakBars_memOk (loseOver_memOk (dropOver_memOk hs))))

theorem gangDispatch_memOk {q t} (hs : s.memOk) : (s.gangDispatch q t).memOk :=
  ite_memOk (preempt_memOk (dispatch_memOk hs)) (dispatch_memOk hs)

theorem execGangStart_memOk {q} (hs : s.memOk) : (execGangStart q s).memOk := by
  fun_cases execGangStart
  case case1 | case2 => exact hs
  case case5 => exact phase_memOk (decideGang_memOk hs)
  case case6 => exact gangDispatch_memOk (decideGang_memOk hs)
  case case8 => exact foldl_memOk (fun _ _ h => failLink_memOk h) (onCmd_memOk (decideGang_memOk hs))
  all_goals exact decideGang_memOk hs

theorem cleanTiles_memOk {ms} (hs : s.memOk) : (s.cleanTiles ms).memOk := foldl_memOk (fun _ _ h => h) hs

theorem endParked_memOk {q n} (hs : s.memOk) : (State.endParked q s n).memOk :=
  setCore_memOk (foldl_memOk (fun _ _ h => leave_memOk h) (foldl_memOk (fun _ _ h => ite_memOk (endTask_memOk h) h) hs))

theorem quiesce_memOk {q} (hs : s.memOk) : (s.quiesce q).memOk :=
  phase_memOk (removeLatches_memOk (foldl_memOk (fun _ _ h => endParked_memOk h) hs))

theorem countWave_memOk {q clean} (hs : s.memOk) : (s.countWave q clean).memOk :=
  ite_memOk (quiesce_memOk (onCmd_memOk hs)) (onCmd_memOk hs)

theorem countSide_memOk {q zero} (hs : s.memOk) : (s.countSide q zero).memOk := by
  fun_cases State.countSide <;> exact hs

theorem combineWaves_memOk {q} (hs : s.memOk) : (s.combineWaves q).memOk := by
  fun_cases State.combineWaves
  · exact hs
  · exact hs
  · exact foldl_memOk (fun _ _ h => gangFlit_memOk h) (countSide_memOk (countWave_memOk (onGang_memOk hs)))

theorem noteWave_memOk {q pkg w} (hs : s.memOk) : (s.noteWave q pkg w).memOk := combineWaves_memOk (onGang_memOk hs)

theorem execTerminationWave_memOk {q} (hs : s.memOk) : (execTerminationWave q s).memOk := by
  fun_cases execTerminationWave
  · exact hs
  · exact hs
  · exact countSide_memOk (countWave_memOk (cleanTiles_memOk hs))
  · exact noteWave_memOk (cleanTiles_memOk hs)
  · exact gangFlit_memOk (cleanTiles_memOk hs)

theorem execGangWaveResult_memOk {q pkg idle dirty sum} (hs : s.memOk) : (execGangWaveResult q pkg idle dirty sum s).memOk := by
  fun_cases execGangWaveResult
  case case3 => exact noteWave_memOk hs
  case case5 => exact countSide_memOk hs
  case case6 => exact quiesce_memOk hs
  all_goals exact hs

theorem execGangFenceReport_memOk {q pkg status fclass cancel} (hs : s.memOk) :
    (execGangFenceReport q pkg status fclass cancel s).memOk :=
  onGang_memOk hs

/-! Fences, replay and records. -/

theorem countRecord_memOk (hs : s.memOk) : s.countRecord.memOk := hs

theorem joinRecord_memOk {q c ws} (hs : s.memOk) : (s.joinRecord q c ws).memOk := by
  fun_cases State.joinRecord
  · exact hs
  · exact countRecord_memOk hs
  · exact send_memOk hs
  · exact countRecord_memOk hs
  · exact redecide_memOk (ite_memOk (countRecord_memOk (joinCell_memOk (seen_memOk hs))) (joinCell_memOk (seen_memOk hs)))

theorem compareHalves_memOk {q c} (hs : s.memOk) : (s.compareHalves q c).1.memOk := by
  fun_cases State.compareHalves <;> exact hs

theorem releaseCmd_memOk {c} (hs : s.memOk) : (s.releaseCmd c).memOk :=
  foldl_memOk (fun _ _ h => foldl_memOk (fun _ _ h => h) h) (foldl_memOk (fun _ _ h => h) hs)

theorem interrupt_memOk {q c} (hs : s.memOk) : (s.interrupt q c).memOk := ite_memOk hs hs

theorem advanceHead_memOk {q beats} (hs : s.memOk) : (s.advanceHead q beats).memOk := hostWord_memOk (onQcb_memOk hs)

theorem destroyed_memOk {q} (hs : s.memOk) : (s.destroyed q).memOk :=
  mapFree_memOk (unmap_memOk (setQueue_memOk (onQcb_memOk hs)))

theorem giveRecord_memOk {q c v} (hs : s.memOk) : (s.giveRecord q c v).memOk := joinRecord_memOk hs

theorem closePacket_memOk {q c} (hs : s.memOk) : (s.closePacket q c).memOk := releaseCmd_memOk (interrupt_memOk hs)

theorem finishPacket_memOk {q c} (hs : s.memOk) : (s.finishPacket q c).memOk := by
  fun_cases State.finishPacket
  · exact destroyed_memOk (setOuter_memOk (setOuter_memOk (setCmd_memOk (closePacket_memOk hs))))
  · exact setOuter_memOk (setCmd_memOk (closePacket_memOk hs))
  · exact destroyed_memOk (advanceHead_memOk (setCmd_memOk (closePacket_memOk hs)))
  · exact atBoundary_memOk (advanceHead_memOk (setCmd_memOk (closePacket_memOk hs)))

theorem endPacket_memOk {q c v} (hs : s.memOk) : (s.endPacket q c v).memOk :=
  ite_memOk (setCmd_memOk (giveRecord_memOk hs)) (finishPacket_memOk (giveRecord_memOk hs))

theorem finishIb_memOk {q o} (hs : s.memOk) : (s.finishIb q o).memOk :=
  atBoundary_memOk (advanceHead_memOk (setOuter_memOk (closePacket_memOk hs)))

theorem endIb_memOk {q o} (hs : s.memOk) : (s.endIb q o).memOk :=
  ite_memOk (setOuter_memOk (giveRecord_memOk hs)) (finishIb_memOk (giveRecord_memOk hs))

theorem finishSide_memOk {q c} (hs : s.memOk) : (s.finishSide q c).memOk := resume_memOk (setSlot_memOk (closePacket_memOk hs))

theorem endSide_memOk {q c} (hs : s.memOk) : (s.endSide q c).memOk :=
  ite_memOk (setSlot_memOk (giveRecord_memOk hs)) (finishSide_memOk (giveRecord_memOk hs))

theorem endGang_memOk {q c g} (hs : s.memOk) : (s.endGang q c g).memOk :=
  ite_memOk (foldl_memOk (fun _ _ h => gangFlit_memOk h) (onGang_memOk (setCmd_memOk (compareHalves_memOk hs))))
      (ite_memOk (endPacket_memOk hs) hs)

theorem endFence_memOk {q c} (hs : s.memOk) : (s.endFence q c).memOk := by
  fun_cases State.endFence
  · exact hs
  · exact endGang_memOk hs
  · exact endPacket_memOk (compareHalves_memOk hs)
  · exact endPacket_memOk (compareHalves_memOk hs)

theorem odd_memOk {q} (hs : s.memOk) : (s.odd q).memOk := by
  fun_cases State.odd
  · exact fetchPacket_memOk hs
  · exact hs
  · exact hs

theorem execPacketComplete_memOk {q} (hs : s.memOk) : (execPacketComplete q s).memOk := by
  fun_cases execPacketComplete
  case case2 => exact ite_memOk (finishSide_memOk hs) (endSide_memOk hs)
  case case3 | case4 => exact endPacket_memOk hs
  case case6 => exact endFence_memOk hs
  case case8 => exact finishPacket_memOk hs
  case case11 => exact finishIb_memOk hs
  case case12 => exact endIb_memOk hs
  case case13 | case14 => exact odd_memOk hs
  all_goals exact hs

/-! Links. -/

theorem after_memOk {r} (hs : s.memOk) (hr : r.memOk) : (s.after r).memOk := by
  fun_cases State.after
  · exact hr
  · exact hs

theorem control_memOk {vnet ws} (hs : s.memOk) : (s.control vnet ws).memOk := by
  fun_cases State.control
  · exact after_memOk hs (execBarrierReleaseFlit_memOk hs)
  · exact after_memOk hs (execBarrierArrivalFlit_memOk hs)
  · exact after_memOk hs (execGangWaveResult_memOk hs)
  · exact after_memOk hs (execGangWaveResult_memOk hs)
  · exact after_memOk hs (execArm_memOk hs)
  · exact after_memOk hs (execGangDecision_memOk hs)
  · exact after_memOk hs (execGangFenceReport_memOk hs)
  · exact hs

theorem balance_memOk {m} (hs : s.memOk) : (s.balance m).memOk := by
  fun_cases State.balance
  case case2 | case4 => exact countSent_memOk hs
  case case5 => exact hs
  all_goals exact received_memOk (countSent_memOk hs)

theorem answered_memOk {a} (hs : s.memOk) : (s.answered a).memOk := by
  fun_cases State.answered <;> exact hs

theorem deliver_memOk {m} (hs : s.memOk) : (s.deliver m).memOk := by
  fun_cases State.deliver
  · exact hs
  · exact report_memOk (answered_memOk hs)
  · exact orFlags_memOk (answered_memOk hs)
  · exact ackHere_memOk (answered_memOk hs)
  · exact control_memOk (answered_memOk hs)
  · exact initBlock_memOk (seen_memOk (answered_memOk hs))
  · exact wipe_memOk (answered_memOk hs)
  · exact removeLatches_memOk (answered_memOk hs)
  · exact update_memOk (balance_memOk (answered_memOk hs))

theorem remoteDone_memOk {n reports} (hs : s.memOk) : (s.remoteDone n reports).memOk := by
  fun_cases State.remoteDone
  · exact hs
  · exact hs
  · refine foldl_memOk (fun _ _ h => reportAll_memOk h) ?_
    subst ‹State›
    split
    · exact ite_memOk (receivedAll_memOk hs) hs
    · exact hs

theorem sendFlit_memOk {link n} (hs : s.memOk) : (s.sendFlit link n).memOk := by
  fun_cases State.sendFlit <;> exact hs

theorem linkFlit_memOk {link tick} (hs : s.memOk) : (s.linkFlit link tick).memOk := ite_memOk hs hs

theorem streamFlit_memOk {link} (hs : s.memOk) : (s.streamFlit link).memOk := by
  fun_cases State.streamFlit <;> exact hs

theorem replayRequest_memOk {link last} (hs : s.memOk) : (s.replayRequest link last).memOk := ite_memOk hs hs

theorem retrain_memOk {l} (hs : s.memOk) : (s.retrain l).memOk := ite_memOk hs hs

theorem askReplay_memOk {l} (hs : s.memOk) : (s.askReplay l).memOk := ite_memOk (retrain_memOk hs) hs

theorem takeFlit_memOk {f} (hs : s.memOk) : (s.takeFlit f).memOk := by
  fun_cases State.takeFlit
  case case3 | case4 => exact hs
  all_goals exact foldl_memOk (fun _ _ h => deliver_memOk h) hs

theorem execFlitReceive_memOk {link flit} (hs : s.memOk) : (execFlitReceive link flit s).memOk := by
  fun_cases execFlitReceive
  · exact hs
  · exact askReplay_memOk hs
  · exact ite_memOk hs (askReplay_memOk hs)
  · exact takeFlit_memOk hs

theorem execLinkRetrainComplete_memOk {link} (hs : s.memOk) : (execLinkRetrainComplete link s).memOk := by
  fun_cases execLinkRetrainComplete <;> exact hs

theorem execLinkFailTimeout_memOk {link} (hs : s.memOk) : (execLinkFailTimeout link s).memOk := by
  fun_cases execLinkFailTimeout
  · exact failLink_memOk hs
  · exact hs

/-! Power, clock, errors and the debugger. -/

theorem writeLife_memOk (hs : s.memOk) : s.writeLife.memOk := hs

theorem execPowerDown_memOk (hs : s.memOk) : (execPowerDown s).memOk := by
  unfold execPowerDown
  exact update_memOk (writeLife_memOk hs)

theorem fence_memOk {cause tile} (hs : s.memOk) : (s.fence cause tile).memOk := ite_memOk hs hs

theorem powerOn_memOk (hs : s.memOk) : s.powerOn.memOk := by
  fun_cases State.powerOn
  · exact hs
  · exact write_memOk hs fun _ => rfl

theorem execFirmwareStart_memOk {patchOk failed} (hs : s.memOk) : (execFirmwareStart patchOk failed s).memOk := by
  fun_cases execFirmwareStart
  case case1 => exact hs
  case case2 =>
    refine update_memOk ?_
    subst ‹State›
    exact foldl_memOk (fun _ _ h => fence_memOk h) (update_memOk (powerOn_memOk hs))

theorem execInfo_memOk (hs : s.memOk) : (execInfo s).memOk := by
  unfold execInfo
  refine admin_memOk hs fun t h => ?_
  dsimp only
  split
  · exact update_memOk (overwrite_memOk (seen_memOk (seen_memOk h)))
  · exact update_memOk h

theorem execBar2WindowBase_memOk {v} (hs : s.memOk) : (execBar2WindowBase v s).memOk := by
  fun_cases execBar2WindowBase <;> exact hs

theorem bar2Seen_memOk {off len} (hs : s.memOk) : (s.bar2Seen off len).memOk := by
  fun_cases State.bar2Seen
  refine foldl_memOk (fun _ _ h => ?_) hs
  split
  · exact seen_memOk h
  · exact h

theorem execBar2Read_memOk {off len} (hs : s.memOk) : (execBar2Read off len s).memOk := by
  unfold execBar2Read
  exact update_memOk (bar2Seen_memOk hs)

theorem execBar2Write_memOk {off bytes} (hs : s.memOk) : (execBar2Write off bytes s).memOk := by
  fun_cases execBar2Write
  refine foldl_memOk (fun _ _ h => ?_) (bar2Seen_memOk hs)
  split
  · exact poke_memOk h
  · exact h

theorem resizeBar2_memOk {n} (hs : s.memOk) : (s.resizeBar2 n).memOk := ite_memOk hs hs

theorem registerRead_memOk {off} (hs : s.memOk) : (s.registerRead off).memOk := ite_memOk hs hs

theorem submit_memOk (hs : s.memOk) : s.submit.memOk := by
  fun_cases State.submit
  · exact execQtab_memOk hs
  · exact execQcreate_memOk hs
  · exact execSlots_memOk hs
  · exact execCcreate_memOk hs
  · exact execInfo_memOk hs
  · exact execSample_memOk hs
  · exact execReplay_memOk hs
  · exact execTwin_memOk hs
  · exact execChknow_memOk hs
  · exact execMboxlim_memOk hs
  · exact admin_memOk hs fun _ h => h

theorem execRegisterWrite_memOk {off v} (hs : s.memOk) : (execRegisterWrite off v s).memOk := by
  fun_cases execRegisterWrite
  case case3 => exact submit_memOk hs
  case case4 => exact execBar2WindowBase_memOk hs
  case case5 => exact execKick_memOk hs
  all_goals exact hs

theorem execDebugResume_memOk {core} (hs : s.memOk) : (execDebugResume core s).memOk := by
  fun_cases execDebugResume <;> exact hs

theorem execSingleStep_memOk {core ctx} (hs : s.memOk) : (execSingleStep core ctx s).memOk := by
  fun_cases execSingleStep <;> exact hs

theorem latchSamples_memOk (hs : s.memOk) : s.latchSamples.memOk := foldl_memOk (fun _ _ h => h) hs

theorem execSamplePulse_memOk (hs : s.memOk) : (execSamplePulse s).memOk := by
  unfold execSamplePulse
  split
  · exact hs
  · generalize (List.range 16).flatMap _ = bytes
    exact writeBytes_hostMem_memOk (latchSamples_memOk hs)

theorem parityFail_memOk {n i} (hs : s.memOk) : (State.parityFail n s i).memOk := by
  fun_cases State.parityFail
  case case3 | case4 => exact atCtx_memOk hs fun _ h => trap_memOk h
  all_goals exact hs

theorem failSaved_memOk {n i} (hs : s.memOk) : (State.failSaved n s i).memOk := by
  fun_cases State.failSaved
  case case5 => exact atCtx_memOk (orFlags_memOk hs) fun _ h => trap_memOk h
  all_goals exact hs

theorem faultTile_memOk {n} (hs : s.memOk) : (s.faultTile n).memOk :=
  foldl_memOk (fun _ _ h => failSaved_memOk h) (foldl_memOk (fun _ _ h => parityFail_memOk h) (fence_memOk hs))

theorem countError_memOk {die} (hs : s.memOk) : (s.countError die).memOk := hs

theorem sramError_memOk {n} (hs : s.memOk) : (s.sramError n).memOk := ite_memOk (faultTile_memOk hs) hs

theorem poisonAt_memOk {pa} (hs : s.memOk) : (s.poisonAt pa).memOk :=
  ite_memOk (sramError_memOk (countError_memOk (ite_memOk hs hs))) (countError_memOk (ite_memOk hs hs))

theorem failSpilled_memOk {n place} (hs : s.memOk) : (s.failSpilled n place).memOk := hs

theorem loseRecord_memOk {n k} (hs : s.memOk) : (s.loseRecord n k).memOk := by
  fun_cases State.loseRecord
  · exact onTally_memOk hs
  · exact hs

theorem loseLatch_memOk {k} (hs : s.memOk) : (s.loseLatch k).memOk := by
  fun_cases State.loseLatch
  · exact hs
  · exact countError_memOk (report_memOk (refill_memOk hs))

theorem loseEntry_memOk {n k} (hs : s.memOk) : (s.loseEntry n k).memOk := by
  fun_cases State.loseEntry
  case case1 => exact hs
  case case4 | case5 => exact countError_memOk hs
  all_goals exact endCall_memOk (setCore_memOk (countError_memOk hs))

theorem losePacket_memOk {n port k} (hs : s.memOk) : (s.losePacket n port k).memOk := by
  fun_cases State.losePacket
  · exact hs
  · exact countError_memOk (report_memOk hs)

theorem execUncorrectableError_memOk {kind place} (hs : s.memOk) : (execUncorrectableError kind place s).memOk := by
  fun_cases execUncorrectableError
  case case1 => exact poisonAt_memOk hs
  case case2 => exact faultTile_memOk (parityFail_memOk hs)
  case case3 => exact parityFail_memOk hs
  case case4 => exact sramError_memOk (countError_memOk (failSpilled_memOk hs))
  case case5 =>
    split
    · exact sramError_memOk (countError_memOk (loseRecord_memOk hs))
    · exact countError_memOk (loseRecord_memOk hs)
  case case7 => exact countError_memOk (faultTile_memOk hs)
  case case8 => exact countError_memOk (failSaved_memOk hs)
  case case11 => exact loseLatch_memOk hs
  case case12 => exact loseEntry_memOk hs
  case case13 => exact losePacket_memOk hs
  all_goals exact hs

theorem elapse_memOk {ticks cycles} (hs : s.memOk) : (s.elapse ticks cycles).memOk := hs

theorem execReplayAbandon_memOk {q} (hs : s.memOk) : (execReplayAbandon q s).memOk := by
  fun_cases execReplayAbandon
  · exact onCmd_memOk hs
  · exact hs

/-! Every instruction and every event. -/

theorem exec_memOk {i} (hs : s.memOk) : Out.memOk (exec i s) := by
  cases i
  case nop | trap | setc | add | sub | and | or | xor | andn | orn | sll | srl | sra | ror | slt | sltu | seq | sne | min |
      max | minu | maxu | sh1add | sh2add | sh3add | clz | ctz | popc | sextb | sexth | sextw | zextb | zexth | zextw | rev8 |
      mul | mulh | mulhu | mulhsu | div | divu | rem | remu | addi | andi | ori | xori | slli | srli | srai | rori | slti |
      sltiu | lui | lil | peq | pne | plt | pge | pltu | pgeu | pand | por | pxor | pnot | pmovx | movpx | mfs | rep | fmt |
      qcnt | kand | kor | kxor | knot | kmovx | xmovk | kpopc | kfirst | mstat | cstat =>
    exact run_memOk hs fun _ h => h
  case brk => exact execBrk_memOk hs
  case iret => exact run_memOk hs fun _ h => ite_memOk (marker_memOk h) h
  case yield => exact execYield_memOk hs
  case done => exact execDone_memOk hs
  case lb | lh | lw | ld | lbu | lhu | lwu => exact loads_memOk hs
  case sb | sh | sw | sd => exact stores_memOk hs
  case vld => exact run_memOk hs fun _ h => loadV_memOk h
  case vst => exact run_memOk hs fun _ h => reading_memOk h fun _ => store_memOk h
  case vldx => exact run_memOk hs fun _ h => reading_memOk h fun _ => gather_memOk h
  case vstx | vsts => exact run_memOk hs fun _ h => reading_memOk h fun _ => scatter_memOk h
  case vlds => exact run_memOk hs fun _ h => gather_memOk h
  case get => exact execGet_memOk hs
  case thr => exact execThr_memOk hs
  case bolt => exact execBolt_memOk hs
  case clear => exact execClear_memOk hs
  case brel | bdecl => exact run_memOk hs fun _ h => onHeader_memOk h
  case ctype => exact run_memOk hs fun _ h => send_memOk h
  case fence | fenceSys => exact run_memOk hs fun _ h => fencing_memOk h
  case beq | bne | blt | bge | bltu | bgeu | brp => exact run_memOk hs fun _ h => Eff.ite_memOk (goto_memOk h) h
  case j | jal => exact run_memOk hs fun _ h => goto_memOk h
  case jalr => exact execJalr_memOk hs
  case loop | loopi => exact run_memOk hs fun _ h => openLoop_memOk h
  case spawn => exact run_memOk hs fun _ h => spawning_memOk h fun _ _ h => pushRec_memOk h
  case spawnat => exact run_memOk hs fun _ h => spawning_memOk h fun _ _ h => ite_memOk (walkAt_memOk h) (send_memOk h)
  case join => exact execJoin_memOk hs
  case cancel => exact execCancel_memOk hs
  case bar => exact execBar_memOk hs
  case bara => exact execBara_memOk hs
  case barw => exact execBarw_memOk hs
  case chbind => exact execChbind_memOk hs
  case fork => exact execFork_memOk hs
  case hcall => exact execHcall_memOk hs
  case hret => exact execHret_memOk hs
  case send => exact execSend_memOk hs
  case mts => exact run_memOk hs fun _ h => writeStatus_memOk h
  case qwr => exact run_memOk hs fun _ h => pushWords_memOk h
  case qrd => exact execQrd_memOk hs
  case qwrv => exact run_memOk hs fun _ h => reading_memOk h fun _ => pushWords_memOk h
  case qrdv => exact run_memOk hs fun _ h => foldl_memOk (fun _ _ h => send_memOk h) h
  case vadd | vsub | vmul | vfma | vfms | vfnma | vmin | vmax | vabs | vneg | vdiv | vsqrt | vrcp | vrsq | vexp2 | vlog2 |
      viadd | visub | vimul | vimin | vimax | viminu | vimaxu | vand | vor | vxor | vsll | vsrl | vsra | viabs | vsadd |
      vdot4 | vrsum | vrmax | vrmin | vror | vrand | vrisum =>
    exact run_memOk hs fun _ h => reading_memOk h fun _ => prefixed_memOk h fun _ _ => withFlags_memOk h
  case vceq | vcne | vclt | vcle | vcltu | vcleu | vfeq | vfne | vflt | vfle | vbcast | vsel | vshuf | vsldn | vslup | vzip |
      vunzip | vrev =>
    exact run_memOk hs fun _ h => reading_memOk h fun _ => prefixed_memOk h fun _ _ => h
  case vext => exact execVext_memOk hs
  case vins => exact execVins_memOk hs
  case vcvt => exact execVcvt_memOk hs
  case gzero => exact gbp_memOk hs fun _ h => h
  case gacc => exact execGacc_memOk hs
  case gadd | gsub => exact gbp_memOk hs fun _ h => putBlock_memOk h
  case gsch | gmean => exact gbp_memOk hs fun _ h => solving_memOk h
  case gdmp => exact execGdmp_memOk hs
  case gsnd => exact execGsnd_memOk hs
  case grcv => exact execGrcv_memOk hs
  case akey => exact execAkey_memOk hs
  case arel => exact execArel_memOk hs
  case mma => exact execMma_memOk hs
  case mgang => exact execMgang_memOk hs
  case mres => exact execMres_memOk hs
  case mzero => exact execMzero_memOk hs
  case rrow => exact execRrow_memOk hs
  case rdrop => exact execRdrop_memOk hs
  case nbcfg => exact execNbcfg_memOk hs
  case nbrun => exact execNbrun_memOk hs
  case nbget => exact execNbget_memOk hs
  case nbrel => exact execNbrel_memOk hs
  case cpy | cpyx => exact run_memOk hs fun _ h => copying_memOk h
  case taskFailure => exact execTaskFailure_memOk hs
  case kick => exact execKick_memOk hs
  case qtab => exact execQtab_memOk hs
  case qcreate => exact execQcreate_memOk hs
  case slots => exact execSlots_memOk hs
  case ccreate => exact execCcreate_memOk hs
  case info => exact execInfo_memOk hs
  case sample => exact execSample_memOk hs
  case replay => exact execReplay_memOk hs
  case twin => exact execTwin_memOk hs
  case chknow => exact execChknow_memOk hs
  case mboxlim => exact execMboxlim_memOk hs
  case bar2WindowBase => exact execBar2WindowBase_memOk hs
  case bar2Read => exact execBar2Read_memOk hs
  case bar2Write => exact execBar2Write_memOk hs
  case registerWrite => exact execRegisterWrite_memOk hs
  case firmwareStart => exact execFirmwareStart_memOk hs
  case launch => exact execLaunch_memOk hs
  case gang => exact execGang_memOk hs
  case copyh => exact execCopyh_memOk hs
  case boltPacket => exact execBoltPacket_memOk hs
  case clearPacket => exact execClearPacket_memOk hs
  case fencePacket => exact execFencePacket_memOk hs
  case signal => exact execSignal_memOk hs
  case destroy => exact execDestroy_memOk hs
  case chkpt => exact execChkpt_memOk hs
  case ib => exact execIb_memOk hs
  case packetComplete => exact execPacketComplete_memOk hs
  case ageingBoundary => exact execAgeingBoundary_memOk hs
  case energySample => exact mapFree_memOk (foldl_memOk (fun _ _ h => chargeQueue_memOk h) hs)
  case periodBoundary => exact execPeriodBoundary_memOk hs
  case arm => exact execArm_memOk hs
  case gangDecide => exact execGangDecide_memOk hs
  case gangDecision => exact execGangDecision_memOk hs
  case gangStart => exact execGangStart_memOk hs
  case terminationWave => exact execTerminationWave_memOk hs
  case gangWaveResult => exact execGangWaveResult_memOk hs
  case gangFenceReport => exact execGangFenceReport_memOk hs
  case taskStart => exact execTaskStart_memOk hs
  case taskRetire => exact execTaskRetire_memOk hs
  case stealRequest => exact execStealRequest_memOk hs
  case stolenRecord => exact execStolenRecord_memOk hs
  case stealRefusal => exact execStealRefusal_memOk hs
  case stealBackoff => exact execStealBackoff_memOk hs
  case spawnatWalk => exact execSpawnatWalk_memOk hs
  case spill => exact execSpill_memOk hs
  case cancelRequest => exact execCancelRequest_memOk hs
  case resultArrival => exact execResultArrival_memOk hs
  case wake => exact execWake_memOk hs
  case storeApply => exact execStoreApply_memOk hs
  case joinApply => exact execJoinApply_memOk hs
  case joinCombine => exact execJoinCombine_memOk hs
  case loadServe => exact execLoadServe_memOk hs
  case getServe => exact execGetServe_memOk hs
  case thrServe => exact execThrServe_memOk hs
  case latchRetry => exact execLatchRetry_memOk hs
  case boltApply => exact execBoltApply_memOk hs
  case boltAck => exact execBoltAck_memOk hs
  case clearCheck => exact execClearCheck_memOk hs
  case clearApply => exact execClearApply_memOk hs
  case fillWrite => exact execFillWrite_memOk hs
  case brelApply => exact execBrelApply_memOk hs
  case bdeclApply => exact execBdeclApply_memOk hs
  case copyCommandRun => exact execCopyCommandRun_memOk hs
  case copyComplete => exact execCopyComplete_memOk hs
  case keyGrant => exact execKeyGrant_memOk hs
  case arrayKstep => exact execArrayKstep_memOk hs
  case arrayDrainRow => exact execArrayDrainRow_memOk hs
  case rowHandlerStart => exact execRowHandlerStart_memOk hs
  case nbBind => exact execNbBind_memOk hs
  case nbRun => exact execNbRun_memOk hs
  case nbUnbind => exact execNbUnbind_memOk hs
  case hingeCallArrival => exact execHingeCallArrival_memOk hs
  case hingeHandlerStart => exact execHingeHandlerStart_memOk hs
  case hingeStatusArrival => exact execHingeStatusArrival_memOk hs
  case hingeReplyTimeout => exact execHingeReplyTimeout_memOk hs
  case channelPacketArrival => exact execChannelPacketArrival_memOk hs
  case channelResend => exact execChannelResend_memOk hs
  case reductionRound => exact execReductionRound_memOk hs
  case barrierRelease => exact execBarrierRelease_memOk hs
  case barrierArrivalFlit => exact execBarrierArrivalFlit_memOk hs
  case barrierReleaseFlit => exact execBarrierReleaseFlit_memOk hs
  case flitReceive => exact execFlitReceive_memOk hs
  case linkRetrain => exact retrain_memOk hs
  case linkFailTimeout => exact execLinkFailTimeout_memOk hs
  case clockStep | debugHalt | scrub | powerFailure => exact hs
  case singleStep => exact execSingleStep_memOk hs
  case debugResume => exact execDebugResume_memOk hs
  case samplePulse => exact execSamplePulse_memOk hs
  case uncorrectableError => exact execUncorrectableError_memOk hs
  case lifetimeRecordWrite => exact writeLife_memOk hs
  case powerDown => exact execPowerDown_memOk hs
  case replayAbandon => exact execReplayAbandon_memOk hs
  case twinDigest => exact execTwinDigest_memOk hs
  case chkptBlockAck => exact execChkptBlockAck_memOk hs
  case linkRetrainComplete => exact execLinkRetrainComplete_memOk hs
  case walkComplete => exact execWalkComplete_memOk hs
  case mailboxServe => exact execMailboxServe_memOk hs
  case mailboxReply => exact execMailboxReply_memOk hs
  case channelPacketReply => exact execChannelPacketReply_memOk hs

/-! What a package does by itself, and a turn. -/

theorem codeSeen_memOk {n} (hs : s.memOk) : (s.codeSeen n).memOk := by
  fun_cases State.codeSeen
  · exact seen_memOk hs
  · exact hs
  · exact hs

theorem freshFetch_memOk (hs : s.memOk) : s.freshFetch.memOk := ite_memOk hs hs

theorem askCode_memOk {n va pkg pa} (hs : s.memOk) : (s.askCode n va pkg pa).memOk := send_memOk hs

theorem fetchPoison_memOk {n} (hs : s.memOk) : (s.fetchPoison n).1.memOk := report_memOk hs

theorem fetching_memOk {n f} (hs : s.memOk) (hf : ∀ t y, t.memOk → (f t y).memOk) : (s.fetching n f).memOk := by
  fun_cases State.fetching
  · exact hf _ _ (fetchPoison_memOk hs)
  · exact hf _ _ hs
  · exact trap_memOk hs
  · exact park_memOk hs
  · exact park_memOk (askCode_memOk hs)

theorem runWord_memOk {w} (hs : s.memOk) : (s.runWord w).memOk := by
  fun_cases State.runWord
  · exact exec_memOk hs
  · exact trapAt_memOk hs

theorem issueWord_memOk (hs : s.memOk) : s.issueWord.memOk := fetching_memOk hs fun _ _ h => runWord_memOk h

theorem badCapture_memOk {w} (hs : s.memOk) : (s.badCapture w).memOk := trap_memOk hs

theorem replayWord_memOk {rep n w} (hs : s.memOk) : (State.replayWord rep n s w).memOk := by
  fun_cases State.replayWord
  · exact badCapture_memOk hs
  · exact runWord_memOk hs

theorem replay_memOk {rep} (hs : s.memOk) : (s.replay rep).memOk := by
  fun_cases State.replay
  refine fetching_memOk hs fun _ _ h => ?_
  split
  · split
    · exact badCapture_memOk h
    · exact fetching_memOk h fun _ _ h => replayWord_memOk h
  · exact replayWord_memOk h

theorem issueNext_memOk (hs : s.memOk) : s.issueNext.memOk := by
  fun_cases State.issueNext
  · exact trap_memOk (codeSeen_memOk (freshFetch_memOk hs))
  · refine fetching_memOk (codeSeen_memOk (freshFetch_memOk hs)) fun _ _ h => ?_
    split
    · exact replay_memOk h
    · exact runWord_memOk h
  · exact issueWord_memOk (codeSeen_memOk (freshFetch_memOk hs))

theorem issueOne_memOk (hs : s.memOk) : s.issueOne.memOk := by
  fun_cases State.issueOne
  case case1 => exact some_memOk (delivered_memOk (setCtx_memOk hs)) ‹_›
  case case3 => exact endHinge_memOk hs
  all_goals exact issueNext_memOk hs

theorem startHandler_memOk {n} (hs : s.memOk) : (s.startHandler n).memOk := by
  fun_cases State.startHandler
  · exact execRowHandlerStart_memOk hs
  · exact execHingeHandlerStart_memOk hs

theorem issueCore_memOk {n} (hs : s.memOk) : (s.issueCore n).memOk := by
  fun_cases State.issueCore
  · exact startHandler_memOk hs
  · exact issueOne_memOk (select_memOk hs)
  · exact hs

theorem haltAgain_memOk {n r} (hs : r.memOk) : (haltAgain n r).memOk := by
  fun_cases haltAgain
  · exact hs
  · exact rfl
  · exact rfl

theorem issueSingle_memOk {n i} (hs : s.memOk) : (s.issueSingle n i).memOk := by
  fun_cases State.issueSingle
  · exact haltAgain_memOk (issueOne_memOk (select_memOk hs))
  · exact hs

theorem debugWrite_memOk {n i x tvec xb} (hs : s.memOk) : (s.debugWrite n i x tvec xb).memOk := ite_memOk hs hs

theorem body_serve_memOk {b n} (hs : s.memOk) : (Body.serve b n s).memOk := by
  unfold Body.serve
  split
  case h_1 => exact execStoreApply_memOk hs
  case h_2 => exact execJoinApply_memOk hs
  case h_3 => exact execFillWrite_memOk hs
  case h_4 => exact execLoadServe_memOk hs
  case h_5 =>
    split
    case h_1 => exact execGetServe_memOk hs
    case h_2 | h_3 => exact execThrServe_memOk hs
    all_goals exact execMailboxServe_memOk hs
  case h_6 => exact execResultArrival_memOk hs
  case h_7 => exact execWake_memOk hs
  case h_8 => exact execMailboxReply_memOk hs
  case h_9 => exact execBoltApply_memOk hs
  case h_10 => exact execBoltAck_memOk hs
  case h_11 => exact execClearCheck_memOk hs
  case h_12 => exact execClearApply_memOk hs
  case h_13 => exact execBrelApply_memOk hs
  case h_14 => exact execBdeclApply_memOk hs
  case h_15 => exact execHingeCallArrival_memOk hs
  case h_16 => exact execHingeStatusArrival_memOk hs
  case h_17 => exact execChannelPacketArrival_memOk hs
  case h_18 => exact execChannelPacketReply_memOk hs
  case h_19 =>
    split
    · exact execNbBind_memOk hs
    · exact execNbRun_memOk hs
    · exact execNbUnbind_memOk hs
  case h_20 => exact execStealRequest_memOk hs
  case h_21 => exact execStolenRecord_memOk hs
  case h_22 => exact execStealRefusal_memOk hs
  case h_23 => exact execSpawnatWalk_memOk hs
  case h_24 => exact execCancelRequest_memOk hs
  case h_25 => exact execTwinDigest_memOk hs
  all_goals exact hs

theorem ends_memOk {x core i} (hs : s.memOk) : ∀ f ∈ Ctx.ends x core i, (f s).memOk := by
  fun_cases Ctx.ends
  · exact List.forall_mem_singleton.2 (execTaskFailure_memOk hs)
  · exact List.forall_mem_singleton.2 (execTaskRetire_memOk hs)
  · exact List.forall_mem_singleton.2 (execTaskRetire_memOk hs)
  · exact List.forall_mem_nil _

theorem movers_memOk (hs : s.memOk) : ∀ f ∈ s.movers, (f s).memOk := by
  intro f hf
  simp only [State.movers, List.mem_append, List.mem_map, List.mem_flatMap, List.mem_cons, List.not_mem_nil, or_false] at hf
  obtain ((⟨p, _, rfl⟩ | ⟨n, _, rfl⟩) | ⟨c, _, ⟨i, _, (rfl | rfl) | hf⟩ | rfl | rfl | rfl⟩) | ⟨q, _, rfl | rfl | rfl⟩ := hf
  · exact body_serve_memOk hs
  · exact execWalkComplete_memOk hs
  · exact execCopyCommandRun_memOk hs
  · exact execCopyComplete_memOk hs
  · exact ends_memOk hs f hf
  · exact execRowHandlerStart_memOk hs
  · exact execHingeHandlerStart_memOk hs
  · exact execTaskStart_memOk hs
  · exact execKeyGrant_memOk hs
  · exact execArrayKstep_memOk hs
  · exact execArrayDrainRow_memOk hs

theorem firstMove_memOk {l} (hs : s.memOk) (hl : ∀ f ∈ l, (f s).memOk) : (s.firstMove l).memOk := by
  induction l with
  | nil => exact hs
  | cons f r ih =>
    unfold State.firstMove
    split
    · exact hl f List.mem_cons_self
    · exact ih fun g hg => hl g (List.mem_cons_of_mem f hg)

theorem idle_memOk (hs : s.memOk) : s.idle.memOk := firstMove_memOk hs (movers_memOk hs)

theorem overtake_memOk {n} (hs : s.memOk) : (s.overtake n).memOk := by
  fun_cases State.overtake <;> exact hs

theorem takeTurn_memOk {a} (hs : s.memOk) : (s.takeTurn a).memOk := by
  fun_cases State.takeTurn
  case case1 => exact exec_memOk hs
  case case2 => exact issueCore_memOk hs
  case case3 => exact issueSingle_memOk hs
  case case4 => exact elapse_memOk hs
  case case5 => exact deliver_memOk hs
  case case6 => exact overtake_memOk hs
  case case7 => exact writeBytes_hostMem_memOk hs
  case case8 => exact debugWrite_memOk hs
  case case10 => exact remoteDone_memOk hs
  case case11 => exact registerRead_memOk hs
  case case12 => exact resizeBar2_memOk hs
  case case13 => exact sendFlit_memOk hs
  case case14 => exact linkFlit_memOk hs
  case case15 => exact streamFlit_memOk hs
  case case16 => exact replayRequest_memOk hs
  all_goals exact hs

theorem advance_memOk (hs : s.memOk) : s.advance.memOk := by
  fun_cases State.advance
  · exact startHandler_memOk hs
  · exact issueOne_memOk (select_memOk hs)
  · exact idle_memOk hs

/-! A step. -/

theorem step_memOk (hs : s.memOk) : (step s).memOk := by
  fun_cases step
  · exact takeTurn_memOk hs
  · exact rfl
  · exact advance_memOk hs
  · exact rfl

/-- Settles O60: the memories' form is an invariant of the step, by one lemma for each function that makes a state. -/
theorem memoryForm : Obligations.MemoryForm := by
  intro s t hs e
  have h := step_memOk hs
  rwa [e] at h

end Sys2Proof.Machine
end

section
namespace Sys2Proof.Machine

/-! Flits (R17): what the sending side builds is whole and carries the fields given to it. -/

theorem crcBit_lt {w poly c : Nat} (hp : poly < 2 ^ w) : crcBit w poly c < 2 ^ w := by
  have hm : c * 2 % 2 ^ w < 2 ^ w := Nat.mod_lt _ (Nat.two_pow_pos w)
  unfold crcBit
  split
  · exact Nat.xor_lt_two_pow hm hp
  · exact hm

theorem crc64_lt (bs : List Byte) : crc64 bs < 2 ^ 64 := by
  have step (c : Nat) (b : Byte) : crcByte 64 0x42F0E1EBA9EA3693 c b < 2 ^ 64 := crcBit_lt (by decide)
  have run (bs : List Byte) (c : Nat) (hc : c < 2 ^ 64) : bs.foldl (crcByte 64 0x42F0E1EBA9EA3693) c < 2 ^ 64 := by
    induction bs generalizing c with
    | nil => exact hc
    | cons b bs ih => exact ih _ (step c b)
  exact run bs 0 (by decide)

/-- The header of a flit as a number (R17). -/
def flitHead (ty vnet seq ack credit cvnet len : Nat) : Nat :=
  ty % 16 * 2 ^ 60 + vnet % 16 * 2 ^ 56 + seq % 4096 * 2 ^ 44 + ack % 4096 * 2 ^ 32 + credit % 65536 * 2 ^ 16 +
    cvnet % 16 * 2 ^ 12 + len

/-- Header and payload of a flit, filled up with zeroes: what its CRC covers. -/
def flitBody (ty vnet seq ack credit cvnet : Nat) (payload : List Byte) : List Byte :=
  natBytes 8 (flitHead ty vnet seq ack credit cvnet payload.length) ++ (payload ++ List.replicate (240 - payload.length) 0)

theorem flitBytes_eq (ty vnet seq ack credit cvnet : Nat) (payload : List Byte) :
    flitBytes ty vnet seq ack credit cvnet payload =
      flitBody ty vnet seq ack credit cvnet payload ++ natBytes 8 (crc64 (flitBody ty vnet seq ack credit cvnet payload)) := by
  simp only [flitBytes, flitBody, flitHead, List.append_assoc]

/-- A field of a header that stands as bytes before others. -/
theorem flitField_natBytes (h : Nat) (bs : List Byte) (hi lo : Nat) :
    flitField (natBytes 8 h ++ bs) hi lo = h % 2 ^ 64 / 2 ^ lo % 2 ^ (hi + 1 - lo) := by
  have hl : (natBytes 8 h).length = 8 := natBytes_length 8 h
  have ht : (natBytes 8 h ++ bs).take 8 = natBytes 8 h := List.take_left' hl
  unfold flitField Word.field
  rw [ht, bytesNat_natBytes, BitVec.toNat_ofNat, Nat.shiftRight_eq_div_pow, show (256 : Nat) ^ 8 = 2 ^ 64 from rfl, Nat.mod_mod]

section
variable {ty vnet : Nat} (seq ack credit cvnet : Nat) {payload : List Byte}

theorem length_flitBody (hl : payload.length ≤ 240) : (flitBody ty vnet seq ack credit cvnet payload).length = 248 := by
  simp only [flitBody, List.length_append, natBytes_length, List.length_replicate]
  omega

/-- A field of the flit that is built. -/
theorem flitField_flitBytes (hi lo : Nat) : flitField (flitBytes ty vnet seq ack credit cvnet payload) hi lo =
    flitHead ty vnet seq ack credit cvnet payload.length % 2 ^ 64 / 2 ^ lo % 2 ^ (hi + 1 - lo) := by
  rw [flitBytes_eq, flitBody, List.append_assoc, flitField_natBytes]

theorem flitField_type (ht : ty ≤ 5) (hl : payload.length ≤ 240) :
    flitField (flitBytes ty vnet seq ack credit cvnet payload) 63 60 = ty := by
  rw [flitField_flitBytes, flitHead]
  omega

theorem flitField_vnet (hv : vnet ≤ 8) (hl : payload.length ≤ 240) :
    flitField (flitBytes ty vnet seq ack credit cvnet payload) 59 56 = vnet := by
  rw [flitField_flitBytes, flitHead]
  omega

theorem flitField_seq (hl : payload.length ≤ 240) :
    flitField (flitBytes ty vnet seq ack credit cvnet payload) 55 44 = seq % 4096 := by
  rw [flitField_flitBytes, flitHead]
  omega

theorem flitField_ack (hl : payload.length ≤ 240) :
    flitField (flitBytes ty vnet seq ack credit cvnet payload) 43 32 = ack % 4096 := by
  rw [flitField_flitBytes, flitHead]
  omega

theorem flitField_len (hl : payload.length ≤ 240) :
    flitField (flitBytes ty vnet seq ack credit cvnet payload) 11 0 = payload.length := by
  rw [flitField_flitBytes, flitHead]
  omega

theorem flitPayload_flitBytes (hl : payload.length ≤ 240) :
    flitPayload (flitBytes ty vnet seq ack credit cvnet payload) = payload := by
  rw [flitPayload, flitField_len seq ack credit cvnet hl, flitBytes_eq, flitBody, List.append_assoc,
    List.drop_left' (natBytes_length 8 _), List.append_assoc, List.take_left]

/-- A flit that is built is whole. -/
theorem flitOk_flitBytes (ht : ty ≤ 5) (hv : vnet ≤ 8) (hl : payload.length ≤ 240) :
    flitOk (flitBytes ty vnet seq ack credit cvnet payload) = true := by
  have hb : (flitBody ty vnet seq ack credit cvnet payload).length = 248 := length_flitBody seq ack credit cvnet hl
  have hcrc := Nat.mod_eq_of_lt (crc64_lt (flitBody ty vnet seq ack credit cvnet payload))
  simp only [flitOk, flitField_type seq ack credit cvnet ht hl, flitField_vnet seq ack credit cvnet hv hl,
    flitField_len seq ack credit cvnet hl, ht, hv, hl, decide_true, Bool.and_true]
  rw [flitBytes_eq, List.take_left' hb, List.drop_left' hb, bytesNat_natBytes, show (256 : Nat) ^ 8 = 2 ^ 64 from rfl, hcrc]
  simp [hb, natBytes_length]

end

/-- A whole flit of a type and a vnet. -/
def WholeFlit (ty vnet : Nat) (f : List Byte) : Prop := flitOk f = true ∧ flitField f 63 60 = ty ∧ flitField f 59 56 = vnet

theorem wholeFlit_flitBytes {ty vnet : Nat} {payload : List Byte} (seq ack credit cvnet : Nat) (ht : ty ≤ 5) (hv : vnet ≤ 8)
    (hl : payload.length ≤ 240) : WholeFlit ty vnet (flitBytes ty vnet seq ack credit cvnet payload) :=
  ⟨flitOk_flitBytes seq ack credit cvnet ht hv hl, flitField_type seq ack credit cvnet ht hl,
    flitField_vnet seq ack credit cvnet hv hl⟩

/-- The flit that leaves next over a link. -/
def Link.flit (k : Link) (ty vnet : Nat) (payload : List Byte) : List Byte :=
  flitBytes ty vnet k.next (k.expect + 4095) (k.owed.headD (0, 0)).2 (k.owed.headD (0, 0)).1 payload

@[simp] theorem put_wire (k : Link) (ty vnet : Nat) (bs : List Byte) : (k.put ty vnet bs).wire = k.wire ++ [k.flit ty vnet bs] := rfl

/-- Pieces of a message that leave over a link are whole flits behind those that have left. -/
theorem wire_foldl_put {ty vnet : Nat} (ht : ty ≤ 5) (hv : vnet ≤ 8) (ps : List (List Byte))
    (hp : ∀ p ∈ ps, p.length ≤ 240) (k : Link) : ∃ fs, (ps.foldl (fun k p => k.put ty vnet p) k).wire = k.wire ++ fs ∧ fs.length = ps.length ∧
      ∀ f ∈ fs, WholeFlit ty vnet f := by
  induction ps generalizing k with
  | nil => exact ⟨[], by simp, rfl, by simp⟩
  | cons p ps ih =>
    obtain ⟨hl, hp⟩ := List.forall_mem_cons.1 hp
    obtain ⟨fs, hw, hn, hf⟩ := ih hp (k.put ty vnet p)
    refine ⟨k.flit ty vnet p :: fs, ?_, by simp [hn], ?_⟩
    · rw [List.foldl_cons, hw, put_wire, List.append_assoc, List.singleton_append]
    · exact List.forall_mem_cons.2 ⟨wholeFlit_flitBytes _ _ _ _ ht hv hl, hf⟩

theorem length_le_of_mem_chunks {α : Type} {n fuel : Nat} {l p : List α} (h : p ∈ chunks n fuel l) : p.length ≤ n := by
  induction fuel generalizing l with
  | zero => simp [chunks] at h
  | succ fuel ih =>
    cases l with
    | nil => simp [chunks] at h
    | cons a l =>
      obtain rfl | h := List.mem_cons.1 h
      · exact List.length_take_le _ _
      · exact ih h

theorem flitType_le (b : Body) : b.flitType ≤ 5 := by
  unfold Body.flitType
  split <;> decide

/-- An acknowledgement of a number that the replay buffer holds empties the buffer up to it. -/
theorem acked_replayBuf (k : Link) {r : Nat} (hr : r ≤ k.replayBuf.length) (hk : k.replayBuf.length < 4096) (hn : k.next < 4096) :
    (k.acked ((k.next + 4095 - r) % 4096)).replayBuf = k.replayBuf.drop (k.replayBuf.length - r) := by
  have hdrop : ((k.next + 4095 - r) % 4096 + 1 + k.replayBuf.length + 4096 - k.next) % 4096 = k.replayBuf.length - r := by omega
  simp only [Link.acked, hdrop, Nat.sub_le, if_true]

/-- An acknowledgement changes the replay buffer alone. -/
theorem acked_eq (k : Link) (last : Nat) : k.acked last = { k with replayBuf := (k.acked last).replayBuf } := by
  unfold Link.acked
  dsimp only
  split <;> rfl

@[simp] theorem acked_wire (k : Link) (last : Nat) : (k.acked last).wire = k.wire := by rw [acked_eq]
@[simp] theorem acked_expect (k : Link) (last : Nat) : (k.acked last).expect = k.expect := by rw [acked_eq]
@[simp] theorem acked_credits (k : Link) (last : Nat) : (k.acked last).credits = k.credits := by rw [acked_eq]

/-- What leaves over a link (R17): a whole flit with the fields given to it. -/
theorem put_fields (k : Link) {ty vnet : Nat} {payload : List Byte} (ht : ty ≤ 5) (hv : vnet ≤ 8) (hl : payload.length ≤ 240) :
    flitOk (k.flit ty vnet payload) = true ∧ flitField (k.flit ty vnet payload) 63 60 = ty ∧
      flitField (k.flit ty vnet payload) 59 56 = vnet ∧ flitField (k.flit ty vnet payload) 55 44 = k.next % 4096 ∧
      flitField (k.flit ty vnet payload) 43 32 = (k.expect + 4095) % 4096 ∧ flitPayload (k.flit ty vnet payload) = payload :=
  ⟨flitOk_flitBytes _ _ _ _ ht hv hl, flitField_type _ _ _ _ ht hl, flitField_vnet _ _ _ _ hv hl, flitField_seq _ _ _ _ hl,
    flitField_ack _ _ _ _ hl, flitPayload_flitBytes _ _ _ _ hl⟩

end Sys2Proof.Machine
end

section
namespace Sys2Proof.Machine

/-! Links (R17, R18): what each step does to its link. -/

/-- A turn of a package with power. -/
theorem step_turn {s : State} {a : Turn} {rest : List Turn} (h : s.turns = a :: rest) (hp : s.powered = true) :
    step s = State.takeTurn { s with turns := rest } a := by
  simp [step, h, hp]

/-- A counter of the lifetime record after another one, or the same, has been counted (R361). -/
theorem look_bump (s : State) (off o : Nat) :
    look 0 (s.bump off).life.counts o =
      if o = off then min (look 0 s.life.counts off + 1) (2 ^ 64 - 1) else look 0 s.life.counts o :=
  look_setAt ..

/-- A link of the package (R17). -/
abbrev State.link (s : State) (l : Nat) : Link := look {} s.links l

/-- The failed replays in a row, with the one that a flit out of order stands for (R18). -/
def Link.failedReplays (k : Link) : Nat := if k.replayAsked then k.replays + 1 else k.replays

/-- A link that is not down. -/
theorem linkDown_eq_false {s : State} {l : Nat} :
    s.linkDown l = false ↔ (s.link l).up = true ∧ (s.link l).retraining = false ∧ (s.link l).failed = false := by
  simp [State.linkDown, and_assoc]

section
variable {s : State} {l : Nat}

/-- A link of the package that neither retrains nor has failed starts to retrain (R18). -/
theorem retrain_eq (hl : l < 12) (hr : (s.link l).retraining = false) (hf : (s.link l).failed = false) :
    s.retrain l = ({ s with links := setAt s.links l { s.link l with
      up := false, retraining := true, retrains := (s.link l).retrains + 1, replays := 0, replayAsked := false } } : State).bump
        (0x09D0 + 8 * l) := by
  simp [State.retrain, hr, hf, hl]

/-- A flit that is not whole, or not in sequence, on a link that is up (R18): a replay is asked for. -/
theorem askReplay_of_lt (h : (s.link l).failedReplays < 8) :
    s.askReplay l = { s with links := setAt s.links l (Link.put { s.link l with
      replays := (s.link l).failedReplays, replayAsked := true } 2 0 []) } :=
  if_neg (Nat.not_le.2 h)

/-- The eighth failed replay in a row starts a retrain (R18). -/
theorem askReplay_of_le (h : 8 ≤ (s.link l).failedReplays) :
    s.askReplay l = State.retrain { s with links := setAt s.links l { s.link l with replays := (s.link l).failedReplays } } l :=
  if_pos h

theorem execFlitReceive_down (f : List Byte) (hd : s.linkDown l = true) : execFlitReceive l f s = .next s := by
  simp [execFlitReceive, hd]

theorem execFlitReceive_broken {f : List Byte} (hl : l < 12) (hd : s.linkDown l = false) (hf : flitOk f = false) :
    execFlitReceive l f s = .next (s.askReplay l) := by
  simp [execFlitReceive, hd, hl, hf]

theorem execFlitReceive_gap {f : List Byte} (hl : l < 12) (hd : s.linkDown l = false) (hf : flitOk f = true)
    (hq : flitField f 55 44 ≠ (s.link l).expect) :
    execFlitReceive l f s = .next (if (s.link l).replayAsked then s else s.askReplay l) := by
  simp [execFlitReceive, hd, hl, hf, hq]

theorem execFlitReceive_next {f : List Byte} (hl : l < 12) (hd : s.linkDown l = false) (hf : flitOk f = true)
    (hq : flitField f 55 44 = (s.link l).expect) :
    execFlitReceive l f s = .next (State.takeFlit { s with links := setAt s.links l ((s.link l).takes f) } f) := by
  simp [execFlitReceive, hd, hl, hf, hq]

/-- What the header of a flit in order does to its link (R17). -/
theorem takes_fields (k : Link) (f : List Byte) :
    (k.takes f).expect = (k.expect + 1) % 4096 ∧ (k.takes f).replays = 0 ∧ (k.takes f).replayAsked = false ∧
      (k.takes f).replayBuf = (k.acked (flitField f 43 32)).replayBuf ∧
      look 0 (k.takes f).credits (flitField f 15 12) = look 0 k.credits (flitField f 15 12) + flitField f 31 16 := by
  refine ⟨by simp [Link.takes], rfl, rfl, rfl, ?_⟩
  simp only [Link.takes, acked_credits]
  split
  · next h => rw [h, Nat.add_zero]
  · exact look_setAt_same ..

/-- Flits of data and of barriers bring messages. -/
theorem takeFlit_messages {f : List Byte} (h : flitField f 63 60 = 1 ∨ flitField f 63 60 = 3) :
    s.takeFlit f = (Config.messagesIn (flitField f 59 56) (flitPayload f)).foldl State.deliver
      { s with flits := s.flits ++ [(flitField f 59 56, flitPayload f)] } := by
  obtain h | h := h <;> simp only [State.takeFlit, h]

/-- A tick-alignment flit adjusts the tick counter, never back. -/
theorem takeFlit_tick {f : List Byte} (h : flitField f 63 60 = 4) :
    s.takeFlit f = { s with tick := (s.takeFlit f).tick } ∧ s.tick.toNat ≤ (s.takeFlit f).tick.toNat := by
  simp only [State.takeFlit, h, true_and]
  split
  · assumption
  · rfl

/-- A flit of another type brings nothing more. -/
theorem takeFlit_other {f : List Byte} (h : ¬(flitField f 63 60 = 1 ∨ flitField f 63 60 = 3 ∨ flitField f 63 60 = 4)) :
    s.takeFlit f = s := by
  unfold State.takeFlit
  split
  · next e => exact absurd (.inl e) h
  · next e => exact absurd (.inr (.inl e)) h
  · next e => exact absurd (.inr (.inr e)) h
  · rfl

end

/-- What no step of a run changes stands at its end. -/
theorem foldl_keeps {α β : Type} {f : State → α → State} (g : State → β) (hf : ∀ t x, g (f t x) = g t)
    (l : List α) (s : State) :
    g (l.foldl f s) = g s := by
  induction l generalizing s with
  | nil => rfl
  | cons x l ih => rw [List.foldl_cons, ih, hf]

/-! What follows when a link fails (R18, R299, R310, R359) changes no link. -/

section
variable {s t : State}

theorem onTask_links {T : TaskId} {f : Ctx → Ctx} (h : s.onTask T f = some t) : t.links = s.links := by
  revert h
  fun_cases State.onTask <;> rintro ⟨⟩ <;> rfl

@[simp] theorem onRun_links (core run : Nat) (f : Ctx → Ctx) : (s.onRun core run f).links = s.links := by
  fun_cases State.onRun <;> rfl

@[simp] theorem onCmd_links (q : Nat) (f : Cmd → Cmd) : (s.onCmd q f).links = s.links := by
  fun_cases State.onCmd <;> rfl

@[simp] theorem onTally_links (q core : Nat) (f : Tally → Tally) : (s.onTally q core f).links = s.links := onCmd_links ..

@[simp] theorem report_links (i : Issuer) (cause colour : Nat) (w : Word) : (s.report i cause colour w).links = s.links := by
  fun_cases State.report
  · rfl
  · exact onTask_links (s := s.bump _) ‹_›
  · rfl
  · exact onTally_links ..

@[simp] theorem reportAll_links (m : Msg) (cause : Nat) (w : Word) : (s.reportAll m cause w).links = s.links := by
  rw [State.reportAll, foldl_keeps State.links fun _ _ => report_links .., report_links]

@[simp] theorem received_links (i : Issuer) : (s.received i).links = s.links := by
  fun_cases State.received <;> rfl

@[simp] theorem receivedAll_links (m : Msg) : (s.receivedAll m).links = s.links := by
  fun_cases State.receivedAll
  · rw [foldl_keeps State.links fun _ _ => received_links .., received_links]
  · rfl

@[simp] theorem leftIdle_links (old : State) (n : Nat) : (old.leftIdle n s).links = s.links := by
  fun_cases State.leftIdle <;> rfl

@[simp] theorem stir_links (n : Nat) : (s.stir n).links = s.links := by
  fun_cases State.stir <;> rfl

@[simp] theorem wakeTask_links (T : TaskId) (f : Ctx → Ctx) : (s.wakeTask T f).links = s.links := by
  fun_cases State.wakeTask
  · rw [leftIdle_links, stir_links, onTask_links ‹_›]
  · rfl

@[simp] theorem onCaller_links (k : Call) (f : Ctx → Ctx) : (s.onCaller k f).links = s.links := by
  fun_cases State.onCaller
  · exact onRun_links ..
  · exact wakeTask_links ..

@[simp] theorem landNote_links (k : Call) (n : HingeNote) : (s.landNote k n).links = s.links := by
  unfold State.landNote
  dsimp only
  rw [onCaller_links]
  split
  · rw [report_links]
    split_ifs <;> rfl
  · split_ifs <;> rfl

@[simp] theorem withdraw_links (k : Call) : (s.withdraw k).links = s.links := by
  fun_cases State.withdraw <;> rfl

@[simp] theorem loseCall_links (k : Call) : (s.loseCall k).links = s.links := by simp [State.loseCall]

@[simp] theorem loseEnd_links (link : Nat) (k : Call) : (s.loseEnd link k).links = s.links := by simp [State.loseEnd]

@[simp] theorem breakTask_links (link : Nat) (T : TaskId) : (State.breakTask link s T).links = s.links := by
  rw [State.breakTask, stir_links, report_links]
  cases h : s.onTask T fun x => { x with wait := .none, phase := 1 } with
  | none => rfl
  | some u => exact onTask_links h

@[simp] theorem breakAt_links (b link n : Nat) : (State.breakAt b link s n).links = s.links := by
  rw [State.breakAt, leftIdle_links, foldl_keeps State.links fun _ _ => breakTask_links ..]

@[simp] theorem breakBar_links (b link : Nat) : (s.breakBar b link).links = s.links := by
  fun_cases State.breakBar
  · exact foldl_keeps State.links (fun _ _ => breakAt_links ..) ..
  · rfl

@[simp] theorem onChkpt_links (q : Nat) (f : Cmd → Cmd) : (s.onChkpt q f).links = s.links := by
  fun_cases State.onChkpt
  · rfl
  · exact onCmd_links ..

@[simp] theorem dropOver_links (link : Nat) : (s.dropOver link).links = s.links := by
  unfold State.dropOver
  refine (foldl_keeps State.links (fun t m => ?_) ..).trans rfl
  have hr : (if m.body.lostCounts then t.receivedAll m else t).links = t.links := by split <;> simp
  dsimp only
  split
  case h_12 => rw [reportAll_links, hr]
  all_goals exact hr

@[simp] theorem loseOver_links (link : Nat) : (s.loseOver link).links = s.links :=
  foldl_keeps State.links (fun t k => by split <;> simp) ..

@[simp] theorem breakBars_links (link : Nat) : (s.breakBars link).links = s.links :=
  foldl_keeps State.links (fun _ _ => breakBar_links ..) ..

@[simp] theorem breakStreams_links (link : Nat) : (s.breakStreams link).links = s.links := by
  unfold State.breakStreams
  refine (foldl_keeps State.links (fun t x => ?_) ..).trans rfl
  split
  · split <;> simp
  · rfl

/-- A link of the package fails (R18): of all links its own state alone changes. -/
theorem failLink_links {l : Nat} (hl : l < 12) (hf : (s.link l).failed = false) :
    (s.failLink l).links = setAt s.links l { s.link l with
      up := false, retraining := false, failed := true, failures := (s.link l).failures + 1 } := by
  unfold State.failLink
  rw [if_neg (by simp [hf, hl])]
  simp only [breakStreams_links, breakBars_links, loseOver_links, dropOver_links]
  rfl

end

/-! Flits that leave over a link. -/

section
variable {s : State} {l : Nat}

/-- An idle or a tick-alignment flit leaves over a link with room. -/
theorem linkFlit_eq (tick : Bool) (h : s.linkFull l 1 = false) :
    s.linkFlit l tick = { s with links := setAt s.links l ((s.link l).put (if tick then 4 else 0) 0
      (if tick then (Config.tickFlit s.tick).take 240 else [])) } := by
  cases tick <;> simp [State.linkFlit, h]

/-- The next piece of a checkpoint message leaves over a link with room. -/
theorem streamFlit_eq {i : Nat} {bs : List Byte} (hi : s.stream.findIdx? (·.1 == l) = some i) (hb : s.stream[i]? = some (l, bs))
    (h : s.linkFull l 1 = false) :
    s.streamFlit l = { s with
      links := setAt s.links l ((s.link l).put 1 7 (bs.take 240))
      stream := if bs.length ≤ 240 then removeAt s.stream i else replaceAt s.stream i (l, bs.drop 240) } := by
  simp [State.streamFlit, hi, hb, h]

theorem replayRequest_eq (last : Nat) (hl : l < 12) (hd : s.linkDown l = false) :
    s.replayRequest l last = { s with links := setAt s.links l { (s.link l).acked last with
      wire := (s.link l).wire ++ ((s.link l).acked last).replayBuf } } := by
  simp [State.replayRequest, hl, hd]

/-- The pieces that a message leaves in. -/
def flitPieces (m : Msg) : List (List Byte) :=
  if (Config.messageBytes m).isEmpty then [[]] else chunks 240 (Config.messageBytes m).length (Config.messageBytes m)

theorem length_le_of_mem_flitPieces {m : Msg} {p : List Byte} (h : p ∈ flitPieces m) : p.length ≤ 240 := by
  unfold flitPieces at h
  split at h
  · rw [List.mem_singleton.1 h]
    decide
  · exact length_le_of_mem_chunks h

theorem flitPieces_ne_nil (m : Msg) : flitPieces m ≠ [] := by
  unfold flitPieces
  split
  · simp
  · next h =>
    cases hb : Config.messageBytes m with
    | nil => simp [hb] at h
    | cons b bs => simp [chunks]

/-- A message that the link may not take now: it has left, the link is not on its way, or one that it must not pass stands before
it in the outbox (R194). -/
def State.waits (s : State) (l n : Nat) (m : Msg) : Bool :=
  m.wired.isSome || !m.way.contains l || (s.outbox.take n).any fun e => e.wired.isNone && e.pkg == m.pkg && mustWait e m

theorem waits_iff {n : Nat} {m : Msg} : s.waits l n m = true ↔
    m.wired.isSome = true ∨ l ∉ m.way ∨ ∃ e ∈ s.outbox.take n, e.wired = none ∧ e.pkg = m.pkg ∧ mustWait e m = true := by
  simp [State.waits, or_assoc, and_assoc]

theorem sendFlit_eq {n : Nat} {m : Msg} (hm : s.outbox[n]? = some m) :
    s.sendFlit l n = if s.linkFull l (flitPieces m).length || s.waits l n m then s else { s with
      links := setAt s.links l ((flitPieces m).foldl (fun k p => k.put m.body.flitType m.body.vnet p) (s.link l))
      outbox := replaceAt s.outbox n { m with wired := some l } } := by
  simp only [State.sendFlit, hm, State.waits, ← Bool.or_assoc]
  rfl

theorem sendFlit_of_waits {n : Nat} {m : Msg} (hm : s.outbox[n]? = some m) (h : s.waits l n m = true) : s.sendFlit l n = s := by
  simp [sendFlit_eq hm, h]

/-- A message that leaves does so over a link on its way, in flits of its pieces. -/
theorem sendFlit_cases {n : Nat} {m : Msg} (hm : s.outbox[n]? = some m) :
    s.sendFlit l n = s ∨ (l ∈ m.way ∧ s.sendFlit l n = { s with
      links := setAt s.links l ((flitPieces m).foldl (fun k p => k.put m.body.flitType m.body.vnet p) (s.link l))
      outbox := replaceAt s.outbox n { m with wired := some l } }) := by
  rw [sendFlit_eq hm]
  split
  · exact .inl rfl
  · next h =>
    refine .inr ⟨?_, rfl⟩
    by_contra hl
    exact h (by simp [waits_iff.2 (.inr (.inl hl))])

end
end Sys2Proof.Machine
end

section
namespace Sys2Proof.Machine

/-! The debugger (R348, R349). -/

theorem getElem?_setIfInBounds_ctx (v : Vector Ctx 5) (i j : Nat) (x : Ctx) :
    (v.setIfInBounds i x)[j]? = if j = i then v[j]?.map fun _ => x else v[j]? := by
  rw [Vector.getElem?_setIfInBounds]
  by_cases e : j = i
  · subst e
    by_cases hj : j < 5 <;> simp [hj]
  · simp [e, Ne.symm e]

/-- A context of a tile record after one of them has been replaced. -/
theorem savedCtx_setSaved (c : CoreSt) (i j : Nat) (x : Ctx) :
    (c.setSaved i x).savedCtx j = if j = i then (c.savedCtx j).map fun _ => x else c.savedCtx j := by
  cases h : c.saved with
  | none => simp [CoreSt.savedCtx, CoreSt.setSaved, h]
  | some v => simp [CoreSt.savedCtx, CoreSt.setSaved, h, getElem?_setIfInBounds_ctx]

/-- A context that goes on behind the word at its PC. -/
def Ctx.pastWord (x : Ctx) : Ctx := { x with pc := x.pc + 4 }

/-- Context `j` of a core as it will be once those at a BRK have gone on. -/
def CoreSt.pastBrk (c : CoreSt) (j : Nat) : Ctx :=
  if j ∈ c.atBrk ∧ c.savedCtx j = none then (c.ctx j).pastWord else c.ctx j

/-- The same of the tile record. -/
def CoreSt.savedPastBrk (c : CoreSt) (j : Nat) : Option Ctx :=
  if j ∈ c.atBrk then (c.savedCtx j).map Ctx.pastWord else c.savedCtx j

theorem passBrk_of_not_mem {c : CoreSt} {i : Nat} (h : i ∉ c.atBrk) : c.passBrk i = c := by
  simp [CoreSt.passBrk, h]

theorem passBrk_of_saved {c : CoreSt} {i : Nat} {x : Ctx} (h : i ∈ c.atBrk) (hx : c.savedCtx i = some x) :
    c.passBrk i = { c.setSaved i x.pastWord with atBrk := c.atBrk.filter (· != i) } := by
  simp [CoreSt.passBrk, h, hx, Ctx.pastWord]

theorem passBrk_of_unsaved {c : CoreSt} {i : Nat} (h : i ∈ c.atBrk) (hx : c.savedCtx i = none) :
    c.passBrk i = { c.setCtx i (c.ctx i).pastWord with atBrk := c.atBrk.filter (· != i) } := by
  simp [CoreSt.passBrk, h, hx, Ctx.pastWord]

theorem mem_atBrk_passBrk {c : CoreSt} {i j : Nat} : j ∈ (c.passBrk i).atBrk ↔ j ∈ c.atBrk ∧ j ≠ i := by
  by_cases h : i ∈ c.atBrk
  · cases hx : c.savedCtx i with
    | none => simp [passBrk_of_unsaved h hx]
    | some x => simp [passBrk_of_saved h hx]
  · rw [passBrk_of_not_mem h]
    exact ⟨fun hj => ⟨hj, fun e => h (e ▸ hj)⟩, And.left⟩

theorem passBrk_ctx (c : CoreSt) {i : Nat} (hi : i < 5) (j : Nat) :
    (c.passBrk i).ctx j = if j = i then c.pastBrk i else c.ctx j := by
  by_cases h : i ∈ c.atBrk
  · cases hx : c.savedCtx i with
    | none =>
      rw [passBrk_of_unsaved h hx]
      exact (ctx_setCtx_core c i j _ hi).trans (by simp [CoreSt.pastBrk, h, hx])
    | some x =>
      rw [passBrk_of_saved h hx]
      exact (show _ = c.ctx j from rfl).trans (by simp +contextual [CoreSt.pastBrk, hx])
  · simp +contextual [passBrk_of_not_mem h, CoreSt.pastBrk, h]

theorem passBrk_savedCtx (c : CoreSt) (i j : Nat) :
    (c.passBrk i).savedCtx j = if j = i then c.savedPastBrk i else c.savedCtx j := by
  by_cases h : i ∈ c.atBrk
  · cases hx : c.savedCtx i with
    | none =>
      rw [passBrk_of_unsaved h hx]
      exact (show _ = c.savedCtx j from rfl).trans (by simp +contextual [CoreSt.savedPastBrk, hx])
    | some x =>
      rw [passBrk_of_saved h hx]
      exact (savedCtx_setSaved c i j _).trans (by simp +contextual [CoreSt.savedPastBrk, h, hx])
  · simp +contextual [passBrk_of_not_mem h, CoreSt.savedPastBrk, h]

/-- What the contexts will be stands from the start. -/
theorem pastBrk_passBrk (c : CoreSt) {i : Nat} (hi : i < 5) (j : Nat) :
    (c.passBrk i).pastBrk j = c.pastBrk j ∧ (c.passBrk i).savedPastBrk j = c.savedPastBrk j := by
  by_cases e : j = i
  · subst e
    simp [CoreSt.pastBrk, CoreSt.savedPastBrk, mem_atBrk_passBrk, passBrk_ctx c hi, passBrk_savedCtx]
  · simp [CoreSt.pastBrk, CoreSt.savedPastBrk, mem_atBrk_passBrk, passBrk_ctx c hi, passBrk_savedCtx, e]

theorem foldl_passBrk (c : CoreSt) (l : List Nat) (hl : ∀ i ∈ l, i < 5) (j : Nat) :
    (l.foldl CoreSt.passBrk c).pastBrk j = c.pastBrk j ∧ (l.foldl CoreSt.passBrk c).savedPastBrk j = c.savedPastBrk j ∧
      (j ∈ (l.foldl CoreSt.passBrk c).atBrk ↔ j ∈ c.atBrk ∧ j ∉ l) := by
  induction l generalizing c with
  | nil => simp
  | cons i l ih =>
    obtain ⟨hi, hl⟩ := List.forall_mem_cons.1 hl
    obtain ⟨hc, hs⟩ := pastBrk_passBrk c hi j
    obtain ⟨hc', hs', hb⟩ := ih (c.passBrk i) hl
    refine ⟨hc'.trans hc, hs'.trans hs, ?_⟩
    rw [List.foldl_cons, hb, mem_atBrk_passBrk, List.mem_cons, not_or, and_assoc]

/-- Every context of a core that stands at a BRK goes on behind it (R349). -/
theorem passBrks_ctx (c : CoreSt) {j : Nat} (hj : j < 5) :
    c.passBrks.ctx j = c.pastBrk j ∧ c.passBrks.savedCtx j = c.savedPastBrk j := by
  obtain ⟨hc, hs, hb⟩ := foldl_passBrk c [0, 1, 2, 3, 4] (by decide) j
  have hout : j ∉ c.passBrks.atBrk := fun h => (hb.1 h).2 (by interval_cases j <;> decide)
  rw [← hc, ← hs]
  exact ⟨(if_neg fun h => hout h.1).symm, (if_neg hout).symm⟩

theorem execDebugResume_eq {s : State} {n : Nat} (h : (s.core n).halted = true) :
    execDebugResume n s = .next (s.setCore n { (s.core n).passBrks with halted := false, stepping := false }) := by
  simp [execDebugResume, h]

/-- The debugger may not write to a core: it runs, or belongs to a confidential context (R62, R348). -/
theorem debugWrite_refused {s : State} {n i : Nat} {x : Ctx} {tvec xb : Word}
    (h : (s.core n).halted = false ∨ ∃ q, (s.core n).slot = some q ∧ qcbConf (s.slot q).qcb = true) :
    s.debugWrite n i x tvec xb = s := by
  unfold State.debugWrite
  obtain h | ⟨q, hq, hc⟩ := h
  · simp [h]
  · simp [hq, hc]

/-- What the debugger leaves of a context of a halted core. -/
theorem debugWrite_eq {s : State} {n i : Nat} {x : Ctx} {tvec xb : Word} (hh : (s.core n).halted = true)
    (hc : ¬∃ q, (s.core n).slot = some q ∧ qcbConf (s.slot q).qcb = true) :
    ∃ brk, s.debugWrite n i x tvec xb =
      s.setCore n { ((s.core n).debugged tvec xb).setCtx i (((s.core n).ctx i).debugged x) with atBrk := brk } := by
  unfold State.debugWrite
  cases hs : (s.core n).slot with
  | none => exact ⟨_, by simp only [hh, Bool.not_true, Bool.or_false, Bool.false_eq_true, if_false, hs]; rfl⟩
  | some q =>
    have hq : qcbConf (s.slot q).qcb = false := by simpa [hs] using hc
    exact ⟨_, by simp only [hh, Bool.not_true, Bool.or_false, Bool.false_eq_true, if_false, hs, hq]; rfl⟩

theorem debugged_xb {c : CoreSt} {tvec xb : Word} (h1 : xb.toNat % 4096 = 0) (h2 : 0x1000 ≤ xb.toNat) (h3 : xb.toNat ≤ 0x100000) :
    (c.debugged tvec xb).xb = xb :=
  if_pos ⟨h1, h2, h3⟩

/-- An aligned address below the execute boundary's limit is taken as it stands. -/
theorem debugged_tvec {c : CoreSt} {tvec xb : Word} (h1 : tvec.toNat < 0x100000) (h2 : tvec.toNat % 4 = 0) :
    (c.debugged tvec xb).tvec = tvec := by
  have hm : tvec &&& 0xFFFFFC = tvec := by
    apply BitVec.eq_of_toNat_eq
    rw [BitVec.toNat_and, show (0xFFFFFC : Word).toNat = (2 ^ 22 - 1) <<< 2 from rfl,
      show tvec.toNat = (tvec.toNat / 4) <<< 2 by rw [Nat.shiftLeft_eq]; omega, ← Nat.shiftLeft_and_distrib, Nat.and_two_pow_sub_one_eq_mod,
      Nat.mod_eq_of_lt (by omega)]
  unfold CoreSt.debugged
  simp only [hm, h1, if_true]

/-! The sampling pulse (R354). -/

theorem foldl_sample (s : State) (l : List Nat) (t : State) (n : Nat) :
    ((l.foldl (fun t n => t.setCore n { t.core n with sample := s.sampleOf n }) t).core n).sample =
      if n ∈ l then s.sampleOf n else (t.core n).sample := by
  induction l generalizing t with
  | nil => simp
  | cons k l ih =>
    rw [List.foldl_cons, ih, core_setCore]
    by_cases e : n = k
    · subst e
      simp
    · simp [e]

/-- Every tile's core latches its sample. -/
theorem latchSamples_sample (s : State) {n : Nat} (hn : n < 2048) : (s.latchSamples.core n).sample = s.sampleOf n := by
  rw [State.latchSamples, foldl_sample, if_pos (List.mem_range.2 hn)]

theorem latchSamples_sampling (s : State) : s.latchSamples.sampling = s.sampling := by
  unfold State.latchSamples
  generalize List.range 2048 = l
  refine foldl_keeps State.sampling (fun t n => ?_) l s
  rfl

theorem latchSamples_mem (s : State) : s.latchSamples.mem = s.mem := by
  unfold State.latchSamples
  generalize List.range 2048 = l
  refine foldl_keeps State.mem (fun t n => ?_) l s
  rfl

/-! The lifetime record (R361). -/

/-- What is written holds until the next write, for its CRC is right. -/
theorem newest_keep (h : Hub) {c : LifeCopy} (hc : c.valid = true) : (h.keep c).newest = some c := by
  by_cases e : h.latest = 0 <;> simp [Hub.newest, Hub.keep, e, hc]

/-- A write replaces the older of the two copies. -/
theorem keep_older (h : Hub) (c : LifeCopy) :
    if h.latest = 0 then (h.keep c).copies.1 = h.copies.1 else (h.keep c).copies.2 = h.copies.2 := by
  split <;> simp [Hub.keep, *]

/-- A copy with the CRC that closes it. -/
def LifeCopy.seal (c : LifeCopy) : LifeCopy := { c with crc := crc64 c.image }

/-- The CRC covers no CRC. -/
theorem image_crc (c : LifeCopy) (crc : Nat) : LifeCopy.image { c with crc := crc } = c.image := by
  simp only [LifeCopy.image]

theorem seal_valid (c : LifeCopy) : c.seal.valid = true := by
  simp only [LifeCopy.valid, LifeCopy.seal, image_crc, beq_self_eq_true]

/-- The copy that is written now. -/
def State.lifeCopy (s : State) : LifeCopy := LifeCopy.seal { life := s.life, fenced := s.fenced, log := s.fenceLog }

theorem writeLife_eq (s : State) : s.writeLife = { s with hubs := (s.hubs.1.keep s.lifeCopy, s.hubs.2.keep s.lifeCopy) } := by
  simp only [State.writeLife, State.lifeCopy, LifeCopy.seal]

/-- Seconds that begin are counted up to the counter's end. -/
theorem countSeconds_seconds {s : State} {ticks : Nat}
    (h : s.life.seconds + ((s.tick.toNat + ticks) / 10 ^ 9 - s.tick.toNat / 10 ^ 9) < 2 ^ 64) :
    (s.countSeconds ticks).seconds = s.life.seconds + ((s.tick.toNat + ticks) / 10 ^ 9 - s.tick.toNat / 10 ^ 9) := by
  unfold State.countSeconds
  dsimp only
  split
  · next e => rw [e, Nat.add_zero]
  · exact min_eq_left (by omega)

end Sys2Proof.Machine
end

section
namespace Sys2Proof.Machine

/-! What an error does not touch beside the place where it stands (R358, R362). -/

/-- The place of a spilled task and what it waits for. -/
def Spilled.stands (p : Spilled) : Nat × Wait := (p.place, p.ctx.wait)

/-- A core whose records, calls, packets and spilled tasks stand as they stood. -/
structure CoreKept (c d : CoreSt) : Prop where
  deque : d.deque = c.deque
  overflow : d.overflow = c.overflow
  mailbox : d.mailbox = c.mailbox
  ports : d.ports = c.ports
  spilled : d.spilled.map Spilled.stands = c.spilled.map Spilled.stands

/-- The lifetime counters of SRAM and memory errors, which lie below those of links and causes (R361), stand as they stood. -/
def ErrorsKept (s t : State) : Prop := ∀ off < 0x9D0, look 0 t.life.counts off = look 0 s.life.counts off

/-- What the failing of tasks and handlers and the fencing of tiles leave as it stood. -/
structure Beside (s t : State) : Prop where
  pkg : t.pkg = s.pkg
  poison : t.poison = s.poison
  fenced : s.fenced ⊆ t.fenced
  errors : ErrorsKept s t
  cores : ∀ n, CoreKept (s.core n) (t.core n)

theorem CoreKept.refl (c : CoreSt) : CoreKept c c := ⟨rfl, rfl, rfl, rfl, rfl⟩

theorem CoreKept.trans {a b c : CoreSt} (p : CoreKept a b) (q : CoreKept b c) : CoreKept a c :=
  ⟨q.deque.trans p.deque, q.overflow.trans p.overflow, q.mailbox.trans p.mailbox, q.ports.trans p.ports, q.spilled.trans p.spilled⟩

theorem Beside.trans {a b c : State} (p : Beside a b) (q : Beside b c) : Beside a c where
  pkg := q.pkg.trans p.pkg
  poison := q.poison.trans p.poison
  fenced := List.Subset.trans p.fenced q.fenced
  errors off h := (q.errors off h).trans (p.errors off h)
  cores n := (p.cores n).trans (q.cores n)

section
variable {s t : State}

/-- A change of other parts of the state. -/
theorem beside_of_cores (hc : t.cores = s.cores := by rfl) (hp : t.pkg = s.pkg := by rfl) (hq : t.poison = s.poison := by rfl)
    (hf : t.fenced = s.fenced := by rfl) (hl : t.life = s.life := by rfl) : Beside s t where
  pkg := hp
  poison := hq
  fenced := hf ▸ List.Subset.refl _
  errors _ _ := by rw [hl]
  cores n := by
    rw [State.core, State.core, hc]
    exact CoreKept.refl _

theorem Beside.refl (s : State) : Beside s s := beside_of_cores

theorem foldl_beside {α : Type} {f : State → α → State} (hf : ∀ t x, Beside t (f t x)) (l : List α) (s : State) :
    Beside s (l.foldl f s) := by
  induction l generalizing s with
  | nil => exact Beside.refl s
  | cons x l ih => exact (hf s x).trans (ih (f s x))

theorem beside_bump {off : Nat} (h : 0x9D0 ≤ off) : Beside s (s.bump off) where
  pkg := rfl
  poison := rfl
  fenced := List.Subset.refl _
  errors o ho := by rw [look_bump, if_neg (by omega)]
  cores _ := CoreKept.refl _

theorem beside_setCore {n : Nat} {c : CoreSt} (h : CoreKept (s.core n) c) : Beside s (s.setCore n c) where
  pkg := rfl
  poison := rfl
  fenced := List.Subset.refl _
  errors _ _ := rfl
  cores m := by
    rw [core_setCore]
    split
    · next e => rwa [e]
    · exact CoreKept.refl _

theorem beside_setCtxOf (n i : Nat) (x : Ctx) : Beside s (s.setCtxOf n i x) := beside_setCore ⟨rfl, rfl, rfl, rfl, rfl⟩

theorem beside_setSaved (n i : Nat) (x : Ctx) : Beside s (s.setCore n ((s.core n).setSaved i x)) := beside_setCore ⟨rfl, rfl, rfl, rfl, rfl⟩

/-- An element of a list replaced by one that `g` does not tell from it. -/
theorem map_replaceAt {α β : Type} (g : α → β) {l : List α} {i : Nat} {a b : α} (h : l[i]? = some a) (hg : g b = g a) :
    (replaceAt l i b).map g = l.map g := by
  apply List.ext_getElem?
  intro j
  rw [replaceAt, List.getElem?_map, List.getElem?_map, List.getElem?_set]
  by_cases e : i = j
  · subst e
    obtain ⟨hi, -⟩ := List.getElem?_eq_some_iff.1 h
    rw [if_pos rfl, if_pos hi, h, Option.map_some, Option.map_some, hg]
  · rw [if_neg e]

theorem onTask_beside {T : TaskId} {f : Ctx → Ctx} (h : s.onTask T f = some t) (hf : ∀ x, (f x).wait = x.wait) : Beside s t := by
  revert h
  fun_cases State.onTask <;> rintro ⟨⟩
  · exact beside_setCtxOf ..
  · exact beside_setSaved ..
  · next i _ p hp =>
    exact beside_setCore ⟨rfl, rfl, rfl, rfl, map_replaceAt _ hp (by simp [Spilled.stands, hf])⟩

theorem onCmd_eq (q : Nat) (f : Cmd → Cmd) : ∃ z, s.onCmd q f = { s with slots := z } := by
  fun_cases State.onCmd
  · exact ⟨s.slots, rfl⟩
  · exact ⟨_, rfl⟩

theorem onTally_eq (q core : Nat) (f : Tally → Tally) : ∃ z, s.onTally q core f = { s with slots := z } := onCmd_eq ..

theorem onTally_beside (q core : Nat) (f : Tally → Tally) : Beside s (s.onTally q core f) := by
  obtain ⟨z, hz⟩ := onTally_eq (s := s) q core f
  rw [hz]
  exact beside_of_cores

theorem report_beside (i : Issuer) (cause colour : Nat) (w : Word) : Beside s (s.report i cause colour w) := by
  have hb : Beside s (s.bump (0x0A90 + 8 * cause)) := beside_bump (by omega)
  fun_cases State.report
  · exact hb.trans beside_of_cores
  · next h => exact hb.trans (onTask_beside h fun _ => rfl)
  · exact hb.trans (beside_bump (by decide))
  · exact hb.trans (onTally_beside ..)

theorem orFlags_beside (i : Issuer) (flags : BitVec 6) : Beside s (s.orFlags i flags) := by
  fun_cases State.orFlags
  · exact Beside.refl s
  · exact beside_of_cores
  · next h => exact (onTask_beside h fun _ => rfl).trans beside_of_cores
  · exact Beside.refl s

theorem endRow_beside (j : RowJob) : Beside s (s.endRow j) :=
  (orFlags_beside ..).trans (Beside.trans (b := State.setQuad _ _ _) beside_of_cores (beside_setCtxOf ..))

theorem trapAt_beside (cause : Nat) (tval resume : Word) (pc : Nat) : Beside s (s.trapAt cause tval resume pc) := by
  have hb : Beside s (s.bump (0x0A90 + 8 * cause)) := beside_bump (by omega)
  fun_cases State.trapAt
  · exact hb.trans ((endRow_beside ..).trans (report_beside ..))
  all_goals exact hb.trans (beside_setCtxOf ..)

theorem atCtx_beside {n i : Nat} {f : State → State} (hf : ∀ s, Beside s (f s)) : Beside s (s.atCtx n i f) :=
  Beside.trans (b := { s with cur := n, curCtx := i }) beside_of_cores ((hf _).trans beside_of_cores)

theorem parityFail_beside (n i : Nat) : Beside s (State.parityFail n s i) := by
  fun_cases State.parityFail
  · exact beside_of_cores
  · exact Beside.trans beside_of_cores (beside_setCtxOf ..)
  · exact Beside.trans beside_of_cores (atCtx_beside fun _ => trapAt_beside ..)
  · exact Beside.trans beside_of_cores (atCtx_beside fun _ => trapAt_beside ..)
  · exact beside_of_cores

theorem failSaved_beside (n i : Nat) : Beside s (State.failSaved n s i) := by
  fun_cases State.failSaved
  · exact Beside.refl s
  · exact beside_of_cores
  · exact Beside.trans beside_of_cores (beside_setSaved ..)
  · exact Beside.trans beside_of_cores (beside_setSaved ..)
  · exact Beside.trans beside_of_cores ((beside_setSaved ..).trans ((orFlags_beside ..).trans
      (atCtx_beside fun _ => (beside_setCtxOf ..).trans (trapAt_beside ..))))
  · exact beside_of_cores

/-! A tile that is fenced (R362). -/

theorem subset_fence (cause tile : Nat) : s.fenced ⊆ (s.fence cause tile).fenced := by
  fun_cases State.fence
  · exact List.Subset.refl _
  · exact List.subset_append_left ..

theorem mem_fence (cause tile : Nat) : tile ∈ (s.fence cause tile).fenced := by
  fun_cases State.fence
  · next h => exact List.contains_iff_mem.1 h
  · exact List.mem_append_right _ (List.mem_singleton_self _)

/-- A fence changes the availability map and its log alone. -/
theorem fence_eq (cause tile : Nat) : ∃ m l, s.fence cause tile = { s with fenced := m, fenceLog := l } := by
  fun_cases State.fence
  · exact ⟨s.fenced, s.fenceLog, rfl⟩
  · exact ⟨_, _, rfl⟩

theorem fence_beside (cause tile : Nat) : Beside s (s.fence cause tile) := by
  have hf := subset_fence (s := s) cause tile
  obtain ⟨m, l, h⟩ := fence_eq (s := s) cause tile
  rw [h] at hf ⊢
  exact ⟨rfl, rfl, hf, fun _ _ => rfl, fun _ => CoreKept.refl _⟩

/-- The tasks and handlers of a faulty tile fail once it is fenced. -/
theorem fenced_beside_faultTile (n : Nat) : Beside ((s.bump (0x0A90 + 8 * 0x28)).fence 0x28 n) (s.faultTile n) :=
  (foldl_beside (fun _ _ => parityFail_beside ..) ..).trans (foldl_beside (fun _ _ => failSaved_beside ..) ..)

theorem faultTile_beside (n : Nat) : Beside s (s.faultTile n) :=
  (beside_bump (by decide)).trans ((fence_beside ..).trans (fenced_beside_faultTile n))

theorem mem_faultTile_fenced (n : Nat) : n ∈ (s.faultTile n).fenced := (fenced_beside_faultTile n).fenced (mem_fence ..)

/-- The errors of a tile's SRAM within the last 24 hours (R362). -/
def State.recentErrors (s : State) (n : Nat) : List Nat :=
  (look [] s.sramErrors n).filter fun k => decide (s.tick.toNat ≤ k + 86400000000000)

/-- The error is noted beside those. -/
def State.noteSram (s : State) (n : Nat) : State := { s with sramErrors := setAt s.sramErrors n (s.tick.toNat :: s.recentErrors n) }

theorem sramError_eq (n : Nat) : s.sramError n =
    if 4 < (s.tick.toNat :: s.recentErrors n).length ∧ n < 2048 ∧ !s.fenced.contains n then (s.noteSram n).faultTile n
    else s.noteSram n := rfl

/-- The fifth error within 24 hours fences the tile, an earlier one does not (R362). -/
theorem sramError_fenced (n : Nat) : ((s.recentErrors n).length < 4 → (s.sramError n).fenced = s.fenced) ∧
    (4 ≤ (s.recentErrors n).length → n < 2048 → n ∈ (s.sramError n).fenced) := by
  rw [sramError_eq]
  constructor
  · intro h
    rw [if_neg (by simp; omega)]
    rfl
  · intro h hn
    split
    · exact mem_faultTile_fenced n
    · next hf =>
      change n ∈ s.fenced
      simpa [hn, Nat.lt_succ_of_le h] using hf

theorem sramError_beside (n : Nat) : Beside s (s.sramError n) := by
  have hn : Beside s (s.noteSram n) := beside_of_cores
  rw [sramError_eq]
  split
  · exact hn.trans (faultTile_beside n)
  · exact hn

/-- An uncorrectable error of a die is counted once, whatever else follows from it (R361). -/
theorem countError_counted {u : State} {die : Nat} (hd : die < 18) (hs : ErrorsKept s u) (ht : ErrorsKept (u.countError die) t) :
    look 0 t.life.counts (0x0940 + 8 * die) = min (look 0 s.life.counts (0x0940 + 8 * die) + 1) (2 ^ 64 - 1) := by
  rw [ht _ (by omega), State.countError, look_bump, if_pos rfl, hs _ (by omega)]

end
end Sys2Proof.Machine
end

section
namespace Sys2Proof.Machine

/-! What the completion of an error's step tells (R358, R361, R362). -/

/-- The uncorrectable error of a die is counted, saturating (R361). -/
def DieCounted (s t : State) (die : Nat) : Prop :=
  die < 18 → look 0 t.life.counts (0x0940 + 8 * die) = min (look 0 s.life.counts (0x0940 + 8 * die) + 1) (2 ^ 64 - 1)

/-- The error in the SRAM of a tile has fenced it when four came before within 24 hours, and no tile when fewer did (R362). -/
def SramFenced (s t : State) (n : Nat) : Prop :=
  ((s.recentErrors n).length < 4 → t.fenced = s.fenced) ∧ (4 ≤ (s.recentErrors n).length → n < 2048 → n ∈ t.fenced)

section
variable {s t u : State}

theorem dieCounted_of {die : Nat} (hs : ErrorsKept s u) (ht : ErrorsKept (u.countError die) t) : DieCounted s t die :=
  fun hd => countError_counted hd hs ht

theorem sramFenced_of (n : Nat) (he : u.sramErrors = s.sramErrors) (hk : u.tick = s.tick) (hf : u.fenced = s.fenced) :
    SramFenced s (u.sramError n) n := by
  have hr : u.recentErrors n = s.recentErrors n := by rw [State.recentErrors, State.recentErrors, he, hk]
  have h := sramError_fenced (s := u) n
  rwa [hr, hf] at h

/-! Memory. -/

/-- The unit of a byte is poisoned, if it is not already. -/
def State.marked (s : State) (pa : Nat) : State :=
  if s.poison.contains (poisonUnit pa) then s else { s with poison := s.poison ++ [poisonUnit pa] }

theorem marked_eq (pa : Nat) : ∃ p, s.marked pa = { s with poison := p } ∧ poisonUnit pa ∈ p := by
  unfold State.marked
  split
  · next h => exact ⟨s.poison, rfl, List.contains_iff_mem.1 h⟩
  · exact ⟨_, rfl, List.mem_append_right _ (List.mem_singleton_self _)⟩

theorem poisonAt_slice {pa : Nat} (h : pa < 2 ^ 40) : s.poisonAt pa = ((s.marked pa).countError (dieOf pa)).sramError (pa / 2 ^ 22) :=
  if_pos h

theorem poisonAt_stack {pa : Nat} (h : 2 ^ 40 ≤ pa) : s.poisonAt pa = (s.marked pa).countError (dieOf pa) := if_neg (by omega)

/-- An error in memory (R358): its unit is poisoned and the error counted; in a slice it is one of its tile's SRAM. -/
theorem poisonAt_effect (pa : Nat) : poisonUnit pa ∈ (s.poisonAt pa).poison ∧ DieCounted s (s.poisonAt pa) (dieOf pa) ∧
    (2 ^ 40 ≤ pa → (s.poisonAt pa).mem = s.mem ∧ pa / 32 * 32 ∈ (s.poisonAt pa).poison ∧ (s.poisonAt pa).fenced = s.fenced) ∧
    (pa < 2 ^ 40 → SramFenced s (s.poisonAt pa) (pa / 2 ^ 22)) := by
  obtain ⟨p, hm, hp⟩ := marked_eq (s := s) pa
  by_cases h : pa < 2 ^ 40
  · have hb : Beside ((s.marked pa).countError (dieOf pa)) (s.poisonAt pa) := poisonAt_slice h ▸ sramError_beside _
    rw [hm] at hb
    refine ⟨?_, dieCounted_of (fun _ _ => rfl) hb.errors, fun h' => absurd h (by omega), fun _ => ?_⟩
    · rw [hb.poison]
      exact hp
    · rw [poisonAt_slice h, hm]
      exact sramFenced_of _ rfl rfl rfl
  · have hu : poisonUnit pa = pa / 32 * 32 := if_neg h
    rw [poisonAt_stack (by omega), hm]
    exact ⟨hp, dieCounted_of (fun _ _ => rfl) (fun _ _ => rfl), fun _ => ⟨rfl, hu ▸ hp, rfl⟩, fun h' => absurd h' h⟩

/-! Spilled tasks and records. -/

/-- What an error at a place of a core's spilled tasks leaves of the task there (R358). -/
theorem failSpilled_spilled {n place : Nat} {p : Spilled} (hp : p ∈ (s.core n).spilled) (hk : p.place = place) :
    ∃ f : Failure, f.cause = 0x28 ∧ (place, Wait.failing f) ∈ ((s.failSpilled n place).core n).spilled.map Spilled.stands := by
  unfold State.failSpilled
  rw [core_setCore_same]
  refine ⟨_, ?_, List.mem_map.2 ⟨_, List.mem_map.2 ⟨p, hp, if_pos hk⟩, Prod.ext hk rfl⟩⟩
  rfl

theorem failSpilled_effect (n place : Nat) :
    let t := (((({ s with free := s.free + 1 } : State).failSpilled n place).countError (coreDie n)).sramError n)
    DieCounted s t (coreDie n) ∧ SramFenced s t n ∧ ∀ p ∈ (s.core n).spilled, p.place = place →
      ∃ p' ∈ (t.core n).spilled, p'.place = p.place ∧ ∃ f, p'.ctx.wait = .failing f ∧ f.cause = 0x28 := by
  intro t
  have hb : Beside ((({ s with free := s.free + 1 } : State).failSpilled n place).countError (coreDie n)) t := sramError_beside n
  refine ⟨dieCounted_of (fun _ _ => rfl) hb.errors, sramFenced_of n rfl rfl rfl, fun p hp hk => ?_⟩
  obtain ⟨f, hf, hm⟩ := failSpilled_spilled (s := { s with free := s.free + 1 }) hp hk
  obtain ⟨p', hp', he⟩ := List.mem_map.1 ((hb.cores n).spilled.symm ▸ hm)
  exact ⟨p', hp', (congrArg Prod.fst he).trans hk.symm, f, congrArg Prod.snd he, hf⟩

/-- Records that move up from the overflow area keep their order. -/
theorem refilled_queued (c : CoreSt) : c.refilled.queued = c.queued := by
  have h (fuel : Nat) (c : CoreSt) : (CoreSt.refillDeque fuel c).queued = c.queued := by
    induction fuel generalizing c with
    | zero => rfl
    | succ fuel ih =>
      unfold CoreSt.refillDeque
      split
      · rfl
      · rw [ih, CoreSt.queued, CoreSt.queued, List.append_assoc, List.take_append_drop]
  exact h 64 c

theorem dropRecord_queued {c : CoreSt} {k : Nat} (hk : k < c.queued.length) : (c.dropRecord k).queued = removeAt c.queued k := by
  have hl : c.queued.length = c.deque.length + c.overflow.length := List.length_append
  unfold CoreSt.dropRecord
  dsimp only
  split
  · next h => exact (List.eraseIdx_append_of_lt_length h _).symm
  · next h =>
    split
    · exact (List.eraseIdx_append_of_length_le (Nat.not_lt.1 h) _).symm
    · next h' => exact absurd (hl ▸ hk) h'

/-- The records that a core holds, those of its tile record last. -/
def CoreSt.records (c : CoreSt) : List Rec := c.deque ++ c.overflow ++ (c.saved.map (·.deque)).getD []

/-- The core that has lost a record, and the count of its cause. -/
def State.withoutRecord (s : State) (n k : Nat) : State :=
  (s.setCore n ((s.core n).dropRecord k).refilled).bump (0x0A90 + 8 * 0x28)

/-- A lost record is told to its command. -/
theorem loseRecord_of_some {n k : Nat} {r : Rec} (h : (s.core n).records[k]? = some r) :
    ∃ z, s.loseRecord n k = { s.withoutRecord n k with slots := z } := by
  obtain ⟨z, hz⟩ := onTally_eq (s := s.withoutRecord n k) r.slot n fun y =>
    { y with faults := y.faults.add 0x28 8 (Config.freeWord s.free) }
  refine ⟨z, hz ▸ ?_⟩
  unfold State.loseRecord
  unfold CoreSt.records at h
  simp only [h]
  rfl

theorem loseRecord_of_none {n k : Nat} (h : (s.core n).records[k]? = none) : s.loseRecord n k = s := by
  unfold State.loseRecord
  unfold CoreSt.records at h
  simp only [h]

/-- A lost record changes its core, its command and a count that is none of an error (R361). -/
theorem loseRecord_eq (n k : Nat) : ErrorsKept s (s.loseRecord n k) ∧
    ∃ c l z, s.loseRecord n k = { s with cores := c, life := l, slots := z } := by
  cases h : (s.core n).records[k]? with
  | none =>
    rw [loseRecord_of_none h]
    exact ⟨fun _ _ => rfl, s.cores, s.life, s.slots, rfl⟩
  | some r =>
    obtain ⟨z, hz⟩ := loseRecord_of_some h
    have hb : Beside (s.setCore n ((s.core n).dropRecord k).refilled) (s.withoutRecord n k) := beside_bump (by decide)
    rw [hz]
    exact ⟨hb.errors, _, _, z, rfl⟩

/-- The record goes from where it stands in a core without a tile record. -/
theorem loseRecord_queued {n k : Nat} (hk : k < (s.core n).queued.length) (hs : (s.core n).saved = none) :
    ((s.loseRecord n k).core n).queued = removeAt (s.core n).queued k := by
  have hr : (s.core n).records = (s.core n).queued := by simp [CoreSt.records, CoreSt.queued, hs]
  obtain ⟨z, hz⟩ := loseRecord_of_some (s := s) (n := n) (k := k) (by rw [hr, List.getElem?_eq_getElem hk])
  rw [hz, ← dropRecord_queued hk, ← refilled_queued (CoreSt.dropRecord _ k)]
  exact congrArg CoreSt.queued (core_setCore_same ..)

/-- An error in a record (R358): one in the overflow area is one of the tile's SRAM. -/
theorem recordError_effect (n k : Nat) :
    let u := (({ s with free := s.free + 1 } : State).loseRecord n k).countError (coreDie n)
    let t := if (s.core n).inOverflow k then u.sramError n else u
    DieCounted s t (coreDie n) ∧ ((s.core n).inOverflow k = true → SramFenced s t n) ∧
      ((s.core n).inOverflow k = false → t.fenced = s.fenced) ∧
      (k < (s.core n).queued.length → (s.core n).saved = none → (t.core n).queued = removeAt (s.core n).queued k) := by
  intro u t
  have hq (hk : k < (s.core n).queued.length) (hs : (s.core n).saved = none) : (u.core n).queued = removeAt (s.core n).queued k :=
    loseRecord_queued (s := { s with free := s.free + 1 }) hk hs
  obtain ⟨he, c, l, z, hu⟩ := loseRecord_eq (s := { s with free := s.free + 1 }) n k
  have hb : Beside u t := by
    unfold t
    split
    · exact sramError_beside n
    · exact Beside.refl u
  refine ⟨dieCounted_of he hb.errors, fun h => ?_, fun h => ?_, fun hk hs => ?_⟩
  · unfold t u
    rw [if_pos h, hu]
    exact sramFenced_of n rfl rfl rfl
  · unfold t u
    rw [if_neg (by simp [h]), hu]
    rfl
  · rw [← hq hk hs, CoreSt.queued, (hb.cores n).deque, (hb.cores n).overflow, CoreSt.queued]

end
end Sys2Proof.Machine
end

section
namespace Sys2Proof.Machine

/-! A task that is told of an error (R340): it is held, and its fault cell takes the report. -/

section
variable {s t : State}

/-- A change of a task's state that leaves the task what it is. -/
structure SameTask (f : Ctx → Ctx) : Prop where
  role : ∀ x, (f x).role = x.role
  serial : ∀ x, (f x).serial = x.serial
  slot : ∀ x, (f x).slot = x.slot

theorem SameTask.runs {f : Ctx → Ctx} (hf : SameTask f) (x : Ctx) (T : TaskId) : (f x).runs T = x.runs T := by
  simp only [Ctx.runs, hf.role, hf.serial, hf.slot]

/-- A context beyond the five is free. -/
theorem lt_of_role {c : CoreSt} {i : Nat} (h : (c.ctx i).role ≠ .free) : i < 5 := by
  by_contra hi
  exact h (by rw [CoreSt.ctx, Vector.getElem?_eq_none (by omega), Option.getD_none])

theorem lt_of_runs {c : CoreSt} {i : Nat} {T : TaskId} (h : (c.ctx i).runs T = true) : i < 5 := by
  refine lt_of_role (c := c) fun hf => ?_
  simp [Ctx.runs, hf] at h

theorem spilledAt_replaceAt {c : CoreSt} {T : TaskId} {f : Ctx → Ctx} (hf : SameTask f) {i : Nat} {p : Spilled}
    (hp : c.spilled[i]? = some p) :
    CoreSt.spilledAt { c with spilled := replaceAt c.spilled i { p with ctx := f p.ctx } } T = c.spilledAt T := by
  have hm := map_replaceAt (fun p : Spilled => p.num == T.ctx && p.ctx.serial == T.serial && p.ctx.slot == T.slot)
    (b := { p with ctx := f p.ctx }) hp (by simp only [hf.serial, hf.slot])
  have h (l : List Spilled) : (l.findIdx? fun p => p.num == T.ctx && p.ctx.serial == T.serial && p.ctx.slot == T.slot) =
      (l.map fun p => p.num == T.ctx && p.ctx.serial == T.serial && p.ctx.slot == T.slot).findIdx? id := by
    rw [List.findIdx?_map]
    rfl
  rw [CoreSt.spilledAt, CoreSt.spilledAt, h, h]
  exact congrArg (List.findIdx? id) hm

theorem savedTask_setSaved {c : CoreSt} {T : TaskId} {f : Ctx → Ctx} (hf : SameTask f) {x : Ctx} (hx : c.savedTask T = some x) :
    (c.setSaved T.ctx (f x)).savedTask T = some (f x) := by
  obtain ⟨hs, hr⟩ := Option.filter_eq_some_iff.1 hx
  rw [CoreSt.savedTask, savedCtx_setSaved, if_pos rfl, hs]
  simp [hf.runs, hr]

/-- Task `T` as a core holds it: in its context, its tile record or its spill slot. -/
def CoreSt.taskAt (c : CoreSt) (T : TaskId) : Option Ctx :=
  if (c.ctx T.ctx).runs T then some (c.ctx T.ctx)
  else match c.savedTask T with
    | some x => some x
    | none => (c.spilledAt T).bind fun i => (c.spilled[i]?).map (·.ctx)

/-- The core with that task changed. -/
def CoreSt.onTaskAt (c : CoreSt) (T : TaskId) (f : Ctx → Ctx) : Option CoreSt :=
  if (c.ctx T.ctx).runs T then some (c.setCtx T.ctx (f (c.ctx T.ctx)))
  else match c.savedTask T with
    | some x => some (c.setSaved T.ctx (f x))
    | none => (c.spilledAt T).bind fun i => (c.spilled[i]?).map fun p => { c with spilled := replaceAt c.spilled i { p with ctx := f p.ctx } }

theorem taskCtx_eq (T : TaskId) : s.taskCtx T = if T.pkg ≠ s.pkg then none else (s.core T.core).taskAt T := rfl

theorem onTask_eq (T : TaskId) (f : Ctx → Ctx) :
    s.onTask T f = if T.pkg ≠ s.pkg then none else ((s.core T.core).onTaskAt T f).map (s.setCore T.core) := by
  unfold State.onTask CoreSt.onTaskAt
  dsimp only
  split
  · rfl
  · split
    · rfl
    · cases (s.core T.core).savedTask T with
      | some x => rfl
      | none =>
        cases hi : (s.core T.core).spilledAt T with
        | none => rfl
        | some i => cases hp : (s.core T.core).spilled[i]? <;> simp [hp]

/-- A task that a core holds takes a change that leaves it what it is. -/
theorem onTaskAt_told {c : CoreSt} {T : TaskId} {x : Ctx} {f : Ctx → Ctx} (hf : SameTask f) (hx : c.taskAt T = some x) :
    ∃ d, c.onTaskAt T f = some d ∧ d.taskAt T = some (f x) := by
  unfold CoreSt.taskAt at hx
  by_cases hr : (c.ctx T.ctx).runs T = true
  · rw [if_pos hr] at hx
    obtain rfl := Option.some.inj hx
    have hs : (c.setCtx T.ctx (f (c.ctx T.ctx))).ctx T.ctx = f (c.ctx T.ctx) := by
      rw [ctx_setCtx_core _ _ _ _ (lt_of_runs hr), if_pos rfl]
    exact ⟨_, if_pos hr, by rw [CoreSt.taskAt, hs, hf.runs, if_pos hr]⟩
  · rw [if_neg hr] at hx
    cases hs : c.savedTask T with
    | some y =>
      rw [hs] at hx
      obtain rfl := Option.some.inj hx
      refine ⟨c.setSaved T.ctx (f y), by simp [CoreSt.onTaskAt, hr, hs], ?_⟩
      have hr' : ¬((c.setSaved T.ctx (f y)).ctx T.ctx).runs T = true := hr
      rw [CoreSt.taskAt, if_neg hr', savedTask_setSaved hf hs]
    | none =>
      rw [hs] at hx
      obtain ⟨i, hi, hx⟩ := Option.bind_eq_some_iff.1 hx
      obtain ⟨p, hp, rfl⟩ := Option.map_eq_some_iff.1 hx
      refine ⟨{ c with spilled := replaceAt c.spilled i { p with ctx := f p.ctx } }, by simp [CoreSt.onTaskAt, hr, hs, hi, hp], ?_⟩
      have hr' : ¬(CoreSt.ctx { c with spilled := replaceAt c.spilled i { p with ctx := f p.ctx } } T.ctx).runs T = true := hr
      have hs' : CoreSt.savedTask { c with spilled := replaceAt c.spilled i { p with ctx := f p.ctx } } T = none := hs
      obtain ⟨hl, -⟩ := List.getElem?_eq_some_iff.1 hp
      rw [CoreSt.taskAt, if_neg hr', hs', spilledAt_replaceAt hf hp, hi]
      simp [replaceAt, hl]

theorem onTask_told {T : TaskId} {x : Ctx} {f : Ctx → Ctx} (hf : SameTask f) (hx : s.taskCtx T = some x) :
    ∃ t, s.onTask T f = some t ∧ t.taskCtx T = some (f x) := by
  rw [taskCtx_eq] at hx
  by_cases hp : T.pkg ≠ s.pkg
  · simp [hp] at hx
  · rw [if_neg hp] at hx
    obtain ⟨d, hd, ht⟩ := onTaskAt_told hf hx
    refine ⟨s.setCore T.core d, by rw [onTask_eq, if_neg hp, hd, Option.map_some], ?_⟩
    have hp' : ¬T.pkg ≠ (s.setCore T.core d).pkg := hp
    rw [taskCtx_eq, if_neg hp', core_setCore_same, ht]

/-- A report reaches the task that it names (R340). -/
theorem report_told (i : Issuer) (cause colour : Nat) (w : Word) :
    Told s (s.report i cause colour w) i.task fun c => { c with faults := c.faults.add cause colour w } := by
  intro x hx
  have hp : ¬i.task.pkg ≠ s.pkg := fun h => by simp [taskCtx_eq, h] at hx
  obtain ⟨t, ht, hc⟩ := onTask_told (s := s.bump (0x0A90 + 8 * cause)) (T := i.task) (x := x)
    (f := fun c => { c with faults := c.faults.add cause colour w }) ⟨fun _ => rfl, fun _ => rfl, fun _ => rfl⟩ hx
  have hr : s.report i cause colour w = t := by
    unfold State.report
    dsimp only
    rw [if_neg (show ¬i.task.pkg ≠ (s.bump _).pkg from hp), ht]
  rwa [hr]

/-! Latches. -/

/-- Overflow entries that move up change the latches alone. -/
theorem refill_eq (home n : Nat) : ∃ l, s.refill home n = { s with latches := l } := by
  induction n generalizing s with
  | zero => exact ⟨s.latches, rfl⟩
  | succ n ih =>
    unfold State.refill
    split
    · obtain ⟨l, hl⟩ := ih (s := { s with latches := promote home s.latches })
      exact ⟨l, hl⟩
    · exact ⟨s.latches, rfl⟩

/-- A lost latch is told to its task (R358). -/
theorem loseLatch_tells {k : Nat} {l : Latch} (h : s.latches[k]? = some l) :
    DieCounted s (s.loseLatch k) (tileDie (logTile l.home)) ∧
      Told s (s.loseLatch k) l.iss.task fun c => { c with faults := c.faults.add 0x28 l.colour (BitVec.ofNat 64 l.va) } := by
  obtain ⟨z, hz⟩ := refill_eq (s := { s with latches := removeAt s.latches k }) l.home s.latches.length
  have ht : s.loseLatch k = (State.report { s with latches := z } l.iss 0x28 l.colour (BitVec.ofNat 64 l.va)).countError
      (tileDie (logTile l.home)) := by
    simp only [State.loseLatch, h, hz]
  rw [ht]
  have hb : Beside { s with latches := z } _ := report_beside l.iss 0x28 l.colour (BitVec.ofNat 64 l.va)
  exact ⟨dieCounted_of hb.errors fun _ _ => rfl, report_told (s := { s with latches := z }) l.iss 0x28 l.colour (BitVec.ofNat 64 l.va)⟩

/-! Packets. -/

theorem port_setPort {c : CoreSt} {q : Nat} (hq : q < 4) (p : Port) : (c.setPort q p).port q = p := by
  simp [CoreSt.port, CoreSt.setPort, hq]

/-- A lost packet is told to its sender (R358). -/
theorem losePacket_tells {n q k : Nat} {p : Packet} (hq : q < 4) (h : ((s.core n).port q).pkts[k]? = some p) :
    DieCounted s (s.losePacket n q k) (coreDie n) ∧
      (((s.losePacket n q k).core n).port q).pkts = removeAt ((s.core n).port q).pkts k ∧
      Told s (s.losePacket n q k) p.iss.task fun c => { c with faults := c.faults.add 0x28 p.colour (Config.freeWord s.free) } := by
  let u : State := ({ s with free := s.free + 1 } : State).setCore n ((s.core n).setPort q
    { (s.core n).port q with pkts := removeAt ((s.core n).port q).pkts k })
  have ht : s.losePacket n q k = (u.report p.iss 0x28 p.colour (Config.freeWord s.free)).countError (coreDie n) := by
    simp only [State.losePacket, h, u]
  have hb : Beside u _ := report_beside p.iss 0x28 p.colour (Config.freeWord s.free)
  have hc : u.core n = (s.core n).setPort q { (s.core n).port q with pkts := removeAt ((s.core n).port q).pkts k } := core_setCore_same ..
  rw [ht]
  refine ⟨dieCounted_of hb.errors fun _ _ => rfl, ?_, fun x hx => report_told (s := u) p.iss 0x28 p.colour (Config.freeWord s.free) x ?_⟩
  · have hp := (hb.cores n).ports
    change (CoreSt.port (State.core (State.report _ _ _ _ _) n) q).pkts = _
    rw [CoreSt.port, hp, hc]
    exact congrArg Port.pkts (port_setPort hq _)
  · have hk : (u.core p.iss.task.core).taskAt p.iss.task = (s.core p.iss.task.core).taskAt p.iss.task := by
      by_cases e : p.iss.task.core = n
      · rw [e, hc]
        rfl
      · exact congrArg (CoreSt.taskAt · p.iss.task) (core_setCore_ne _ _ e)
    rw [taskCtx_eq] at hx ⊢
    rw [hk]
    exact hx

/-! Calls. -/

/-- A message that leaves is on its way, under the number that its lane has given it. -/
theorem send_onWay (m : Msg) : OnWay (s.send m) m := by
  have hs : ∃ l, s.stamp m = { m with seq := l } := by
    unfold State.stamp
    split
    · exact ⟨_, rfl⟩
    · exact ⟨m.seq, rfl⟩
  obtain ⟨l, hl⟩ := hs
  refine ⟨l, ?_⟩
  unfold State.send
  rw [hl]
  dsimp only
  split
  · exact .inl (by simp)
  · exact .inr (by simp)

theorem countSent_beside (i : Issuer) : Beside s (s.countSent i) := by
  fun_cases State.countSent
  · exact beside_setCore ⟨rfl, rfl, rfl, rfl, rfl⟩
  · exact Beside.refl s

theorem received_beside (i : Issuer) : Beside s (s.received i) := by
  fun_cases State.received
  · exact beside_setCore ⟨rfl, rfl, rfl, rfl, rfl⟩
  · exact Beside.refl s

theorem numberOut_beside (m : Msg) : Beside s (s.numberOut m) := by
  fun_cases State.numberOut
  · exact beside_of_cores
  · exact Beside.refl s

theorem send_beside (m : Msg) : Beside s (s.send m) := by
  have hc : Beside s (if m.body.counted then s.countSent m.iss else s) := by
    split
    · exact countSent_beside _
    · exact Beside.refl s
  have hn := hc.trans (numberOut_beside m)
  unfold State.send
  dsimp only
  split
  · exact hn.trans beside_of_cores
  · exact hn.trans beside_of_cores

/-- A call has left its mailbox, and counts as received. -/
def State.callGone (s : State) (u : Nat) (k : Call) : State :=
  (s.received k.caller).setCore u { (s.received k.caller).core u with
    mailbox := ((s.received k.caller).core u).mailbox.filter (·.id != k.id) }

theorem callGone_pkg (u : Nat) (k : Call) : (s.callGone u k).pkg = s.pkg := (received_beside k.caller).pkg

/-- A failed call (R309): a caller that waits, or of another package, is told by a note, and the failure of another one is joined
into its caller's fault cell. -/
theorem endCall_failed (u : Nat) (k : Call) (rc : Nat) : s.endCall u k (.failed rc) =
    bif k.w || k.back.1 != (s.callGone u k).pkg then (s.callGone u k).noteTo k (.failed rc)
    else (s.callGone u k).report k.caller 0x23 k.colour (BitVec.ofNat 64 (rc * 2 ^ 56 + k.target % 2 ^ 48)) := by
  simp only [State.endCall, ← State.callGone.eq_def]
  cases k.w || k.back.1 != (s.callGone u k).pkg <;> simp only [cond_true, cond_false]

theorem endCall_noteTo (u : Nat) (k : Call) (rc : Nat) (h : k.w = true ∨ k.back.1 ≠ s.pkg) :
    s.endCall u k (.failed rc) = (s.callGone u k).noteTo k (.failed rc) := by
  have hb : (k.w || k.back.1 != (s.callGone u k).pkg) = true := by simpa [callGone_pkg] using h
  rw [endCall_failed, hb, cond_true]

/-- A failed call leaves its mailbox. -/
theorem endCall_beside (u : Nat) (k : Call) (rc : Nat) : Beside (s.callGone u k) (s.endCall u k (.failed rc)) := by
  rw [endCall_failed]
  cases k.w || k.back.1 != (s.callGone u k).pkg with
  | true => exact send_beside _
  | false => exact report_beside ..

/-- An error in a mailbox entry whose handler is due (R358): the call ends, and its caller is told. -/
theorem loseEntry_ends_call {n i : Nat} {k : Call} (hk : (s.core n).mailbox[i]? = some k) (ha : .hinge k ∈ (s.core n).arrivals) :
    DieCounted s (s.loseEntry n i) (coreDie n) ∧ (∀ j ∈ ((s.loseEntry n i).core n).mailbox, j.id ≠ k.id) ∧
      (k.w = true ∨ k.back.1 ≠ s.pkg →
        OnWay (s.loseEntry n i) (msgOf k.caller k.back.1 k.back.2 k.colour k.group (.hnote k (.failed 0x28)))) := by
  have ht : ∃ l, s.loseEntry n i = State.endCall ((s.countError (coreDie n)).setCore n { (s.countError (coreDie n)).core n with arrivals := l }) n k
      (.failed 0x28) := by
    unfold State.loseEntry
    simp only [hk]
    rw [if_pos (List.any_eq_true.2 ⟨_, ha, by simp⟩)]
    exact ⟨_, rfl⟩
  obtain ⟨l, ht⟩ := ht
  let u := (s.countError (coreDie n)).setCore n { (s.countError (coreDie n)).core n with arrivals := l }
  have hb : Beside (u.callGone n k) (s.loseEntry n i) := ht ▸ endCall_beside n k 0x28
  refine ⟨dieCounted_of (u := s) (fun _ _ => rfl) fun o ho => ?_, fun j hj => ?_, fun h => ?_⟩
  · exact (hb.errors o ho).trans ((received_beside (s := u) k.caller).errors o ho)
  · rw [(hb.cores n).mailbox, State.callGone, core_setCore_same] at hj
    simpa using (List.mem_filter.1 hj).2
  · rw [ht, endCall_noteTo (s := u) n k 0x28 h]
    exact send_onWay _

end
end Sys2Proof.Machine
end

section
namespace Sys2Proof.Machine

/-! The tasks of a faulty tile (R358, R362): each that is not ending already fails with 0x28. -/

/-- A task that fails with 0x28. -/
def Ctx.fails (x : Ctx) : Prop := ∃ f, x.wait = .failing f ∧ f.cause = 0x28

/-- A context as an error leaves it: as it was, or failing. -/
def Struck (x y : Ctx) : Prop := y.role = x.role ∧ (y = x ∨ y.fails)

/-- A context on which no task is left to fail. -/
def Settled (x : Ctx) : Prop := x.role = .task → x.wait.ending = true

/-- A context that holds no handler. -/
def Ctx.noHandler (x : Ctx) : Prop := x.role = .task ∨ x.role = .free

theorem Struck.refl (x : Ctx) : Struck x x := ⟨rfl, .inl rfl⟩

theorem Struck.trans {x y z : Ctx} (p : Struck x y) (q : Struck y z) : Struck x z := by
  refine ⟨q.1.trans p.1, ?_⟩
  obtain rfl | hz := q.2
  · exact p.2
  · exact .inr hz

theorem Ctx.fails.ending {x : Ctx} (h : x.fails) : x.wait.ending = true := by
  obtain ⟨f, hf, -⟩ := h
  rw [hf]
  rfl

theorem Struck.settled {x y : Ctx} (p : Struck x y) (h : Settled x) : Settled y := by
  obtain ⟨-, rfl | hy⟩ := p
  · exact h
  · exact fun _ => hy.ending

/-- A task that was not ending fails once its context is settled. -/
theorem Struck.fails {x y : Ctx} (p : Struck x y) (h : Settled y) (hr : x.role = .task) (hw : x.wait.ending = false) : y.fails := by
  obtain ⟨hy, rfl | hf⟩ := p
  · exact absurd (h hr) (by simp [hw])
  · exact hf

theorem exists_right_of_rel {o p : Option Ctx} (h : Option.Rel Struck o p) {x : Ctx} (hx : o = some x) :
    ∃ y, p = some y ∧ Struck x y := by
  subst hx
  cases h with
  | some hy => exact ⟨_, rfl, hy⟩

theorem exists_left_of_rel {o p : Option Ctx} (h : Option.Rel Struck o p) {y : Ctx} (hy : p = some y) :
    ∃ x, o = some x ∧ Struck x y := by
  subst hy
  cases h with
  | some hx => exact ⟨_, rfl, hx⟩

theorem rel_refl (o : Option Ctx) : Option.Rel Struck o o := by
  cases o with
  | none => exact .none
  | some x => exact .some (Struck.refl x)

theorem rel_trans {o p q : Option Ctx} (h : Option.Rel Struck o p) (h' : Option.Rel Struck p q) : Option.Rel Struck o q := by
  cases h with
  | none => exact h'
  | some hx =>
    cases h' with
    | some hy => exact .some (hx.trans hy)

/-- What an error in tile `n` leaves where no handler runs: memory as it was, and each of the tile's contexts and those of its tile
record struck. -/
structure Strikes (n : Nat) (s t : State) : Prop where
  mem : t.mem = s.mem
  ctx : ∀ i, Struck (s.ctxOf n i) (t.ctxOf n i)
  saved : ∀ i, Option.Rel Struck ((s.core n).savedCtx i) ((t.core n).savedCtx i)

/-- No handler runs on the tile, and none stands in its tile record. -/
structure Quiet (n : Nat) (s : State) : Prop where
  ctx : ∀ i, (s.ctxOf n i).noHandler
  saved : ∀ i x, (s.core n).savedCtx i = some x → x.noHandler

section
variable {s t u : State} {n : Nat}

theorem Strikes.trans (p : Strikes n s t) (q : Strikes n t u) : Strikes n s u where
  mem := q.mem.trans p.mem
  ctx i := (p.ctx i).trans (q.ctx i)
  saved i := rel_trans (p.saved i) (q.saved i)

theorem strikes_of_core (hm : t.mem = s.mem) (hc : t.core n = s.core n) : Strikes n s t where
  mem := hm
  ctx i := by
    rw [State.ctxOf, State.ctxOf, hc]
    exact Struck.refl _
  saved i := by
    rw [hc]
    exact rel_refl _

theorem Quiet.strikes (h : Quiet n s) (p : Strikes n s t) : Quiet n t where
  ctx i := by
    rw [Ctx.noHandler, (p.ctx i).1]
    exact h.ctx i
  saved i y hy := by
    obtain ⟨x, hx, hs⟩ := exists_left_of_rel (p.saved i) hy
    rw [Ctx.noHandler, hs.1]
    exact h.saved i x hx

theorem strikes_setCtxOf {i : Nat} {y : Ctx} (hi : i < 5) (h : Struck (s.ctxOf n i) y) : Strikes n s (s.setCtxOf n i y) where
  mem := rfl
  ctx j := by
    rw [core_setCtxOf_ctx _ _ _ _ _ _ hi]
    split
    · next e => rwa [e.2]
    · exact Struck.refl _
  saved j := by
    have hs : ((s.setCtxOf n i y).core n).savedCtx j = (s.core n).savedCtx j := by
      rw [State.setCtxOf, core_setCore_same]
      rfl
    rw [hs]
    exact rel_refl _

theorem savedCtx_setCore_setSaved (i j : Nat) (y : Ctx) : ((s.setCore n ((s.core n).setSaved i y)).core n).savedCtx j =
    if j = i then ((s.core n).savedCtx j).map fun _ => y else (s.core n).savedCtx j := by
  rw [core_setCore_same, savedCtx_setSaved]

theorem strikes_setSaved {i : Nat} {x y : Ctx} (hx : (s.core n).savedCtx i = some x) (h : Struck x y) :
    Strikes n s (s.setCore n ((s.core n).setSaved i y)) where
  mem := rfl
  ctx j := by
    have hc : (s.setCore n ((s.core n).setSaved i y)).ctxOf n j = s.ctxOf n j := by
      rw [State.ctxOf, core_setCore_same]
      rfl
    rw [hc]
    exact Struck.refl _
  saved j := by
    rw [savedCtx_setCore_setSaved]
    split
    · next e =>
      rw [e, hx]
      exact .some h
    · exact rel_refl _

/-- A task in a context fails (R358). -/
theorem parityFail_task {i : Nat} (hr : (s.ctxOf n i).role = .task) (hw : (s.ctxOf n i).wait.ending = false) :
    ∃ y, y.role = .task ∧ y.fails ∧ State.parityFail n s i = State.setCtxOf { s with free := s.free + 1 } n i y := by
  refine ⟨{ s.ctxOf n i with
    wait := .failing { cause := 0x28, tval := Config.freeWord s.free, pc := (s.ctxOf n i).pc.toNat, double := false }
    pfx := none, rep := false }, hr, ⟨_, rfl, rfl⟩, ?_⟩
  simp only [State.parityFail, hr, hw, Bool.false_eq_true, if_false]

/-- A context without a handler on which no task is left to fail stays as it is. -/
theorem parityFail_settled {i : Nat} (hn : (s.ctxOf n i).noHandler) (h : Settled (s.ctxOf n i)) :
    State.parityFail n s i = { s with free := s.free + 1 } := by
  obtain hr | hr := hn
  · simp only [State.parityFail, hr, h hr, if_true]
  · simp only [State.parityFail, hr]

/-- A task in a tile record fails once it resumes (R346, R358). -/
theorem failSaved_task {i : Nat} {x : Ctx} (hx : (s.core n).savedCtx i = some x) (hr : x.role = .task) (hw : x.wait.ending = false) :
    ∃ y, y.role = .task ∧ y.fails ∧
      State.failSaved n s i = State.setCore { s with free := s.free + 1 } n ((s.core n).setSaved i y) := by
  refine ⟨{ x with
    wait := .failing { cause := 0x28, tval := Config.freeWord s.free, pc := x.pc.toNat, double := false }
    pfx := none, rep := false, stopped := false }, hr, ⟨_, rfl, rfl⟩, ?_⟩
  simp only [State.failSaved, hx, hr, hw, Bool.false_eq_true, if_false]
  rfl

theorem failSaved_settled {i : Nat} {x : Ctx} (hx : (s.core n).savedCtx i = some x) (hn : x.noHandler) (h : Settled x) :
    State.failSaved n s i = { s with free := s.free + 1 } := by
  obtain hr | hr := hn
  · simp only [State.failSaved, hx, hr, h hr, if_true]
  · simp only [State.failSaved, hx, hr]

theorem failSaved_none {i : Nat} (hx : (s.core n).savedCtx i = none) : State.failSaved n s i = s := by
  simp only [State.failSaved, hx]

theorem not_settled {x : Ctx} (h : ¬Settled x) : x.role = .task ∧ x.wait.ending = false := by
  obtain ⟨hr, hw⟩ := Classical.not_imp.1 h
  exact ⟨hr, Bool.eq_false_iff.2 hw⟩

/-- Where no handler runs, an error in a context strikes it and leaves no task to fail there. -/
theorem parityFail_strikes (h : Quiet n s) (i : Nat) :
    Strikes n s (State.parityFail n s i) ∧ Settled ((State.parityFail n s i).ctxOf n i) := by
  by_cases hs : Settled (s.ctxOf n i)
  · rw [parityFail_settled (h.ctx i) hs]
    exact ⟨strikes_of_core rfl rfl, hs⟩
  · obtain ⟨hr, hw⟩ := not_settled hs
    obtain ⟨y, hy, hf, ht⟩ := parityFail_task hr hw
    have hi : i < 5 := lt_of_role (c := s.core n) (by rw [show (s.core n).ctx i = s.ctxOf n i from rfl, hr]; simp)
    rw [ht]
    refine ⟨Strikes.trans (t := { s with free := s.free + 1 }) (strikes_of_core rfl rfl)
      (strikes_setCtxOf (s := { s with free := s.free + 1 }) hi ⟨hy.trans hr.symm, .inr hf⟩), ?_⟩
    rw [core_setCtxOf_ctx _ _ _ _ _ _ hi, if_pos ⟨rfl, rfl⟩]
    exact fun _ => hf.ending

/-- A context of the tile record on which no task is left to fail, or none. -/
def SavedSettled (n : Nat) (s : State) (i : Nat) : Prop := ∀ x, (s.core n).savedCtx i = some x → Settled x

theorem failSaved_strikes (h : Quiet n s) (i : Nat) :
    Strikes n s (State.failSaved n s i) ∧ SavedSettled n (State.failSaved n s i) i := by
  cases hx : (s.core n).savedCtx i with
  | none =>
    rw [failSaved_none hx]
    exact ⟨strikes_of_core rfl rfl, fun x hx' => by simp [hx] at hx'⟩
  | some x =>
    by_cases hs : Settled x
    · rw [failSaved_settled hx (h.saved i x hx) hs]
      refine ⟨strikes_of_core rfl rfl, fun y hy => ?_⟩
      obtain rfl := Option.some.inj (hx.symm.trans hy)
      exact hs
    · obtain ⟨hr, hw⟩ := not_settled hs
      obtain ⟨y, hy, hf, ht⟩ := failSaved_task hx hr hw
      rw [ht]
      refine ⟨Strikes.trans (t := { s with free := s.free + 1 }) (strikes_of_core rfl rfl)
        (strikes_setSaved (s := { s with free := s.free + 1 }) hx ⟨hy.trans hr.symm, .inr hf⟩),
        fun z hz => ?_⟩
      have hz' := (savedCtx_setCore_setSaved (s := { s with free := s.free + 1 }) (n := n) i i y).symm.trans hz
      rw [if_pos rfl, show (State.core { s with free := s.free + 1 } n).savedCtx i = some x from hx] at hz'
      obtain rfl := Option.some.inj hz'
      exact fun _ => hf.ending

/-- Strikes one after the other: what one of them settles stays settled. -/
theorem foldl_strikes {F : State → Nat → State} {P : State → Nat → Prop} (hF : ∀ s i, Quiet n s → Strikes n s (F s i) ∧ P (F s i) i)
    (hP : ∀ s t i, Strikes n s t → P s i → P t i) (l : List Nat) (s : State) (h : Quiet n s) :
    Strikes n s (l.foldl F s) ∧ ∀ i ∈ l, P (l.foldl F s) i := by
  induction l generalizing s with
  | nil => exact ⟨strikes_of_core rfl rfl, by simp⟩
  | cons i l ih =>
    obtain ⟨hs, hp⟩ := hF s i h
    obtain ⟨hs', hp'⟩ := ih (F s i) (h.strikes hs)
    exact ⟨hs.trans hs', List.forall_mem_cons.2 ⟨hP _ _ i hs' hp, hp'⟩⟩

theorem Strikes.savedSettled (p : Strikes n s t) {i : Nat} (h : SavedSettled n s i) : SavedSettled n t i := by
  intro y hy
  obtain ⟨x, hx, hxy⟩ := exists_left_of_rel (p.saved i) hy
  exact hxy.settled (h x hx)

/-- A faulty tile without handlers (R362): its tasks are struck, and none is left to fail. -/
theorem faultTile_strikes (h : Quiet n s) : Strikes n s (s.faultTile n) ∧
    ∀ i ∈ [0, 1, 2, 3, 4], Settled ((s.faultTile n).ctxOf n i) ∧ SavedSettled n (s.faultTile n) i := by
  let u := (s.bump (0x0A90 + 8 * 0x28)).fence 0x28 n
  have hu : Strikes n s u := by
    obtain ⟨m, l, hf⟩ := fence_eq (s := s.bump (0x0A90 + 8 * 0x28)) 0x28 n
    unfold u
    rw [hf]
    exact strikes_of_core rfl rfl
  obtain ⟨hv, hvs⟩ := foldl_strikes (fun _ i h => parityFail_strikes h i) (fun _ _ i p hs => (p.ctx i).settled hs)
    [0, 1, 2, 3, 4] u (h.strikes hu)
  obtain ⟨ht, hts⟩ := foldl_strikes (fun _ i h => failSaved_strikes h i) (fun _ _ i p => p.savedSettled)
    [0, 1, 2, 3, 4] _ (h.strikes (hu.trans hv))
  exact ⟨hu.trans (hv.trans ht), fun i hi => ⟨(ht.ctx i).settled (hvs i hi), hts i hi⟩⟩

/-- The logic of a tile without handlers is faulty (R358, R362): its tasks fail. -/
theorem faultTile_tasks (hc : ∀ i, i < 5 → (s.ctxOf n i).noHandler) (hs : ∀ i x, (s.core n).savedCtx i = some x → x.noHandler) :
    (s.faultTile n).mem = s.mem ∧
      (∀ i, i < 5 → (s.ctxOf n i).role = .task → (s.ctxOf n i).wait.ending = false → ((s.faultTile n).ctxOf n i).fails) ∧
      ∀ i x, i < 5 → (s.core n).savedCtx i = some x → x.role = .task → x.wait.ending = false →
        ∃ y, ((s.faultTile n).core n).savedCtx i = some y ∧ y.fails := by
  have hq : Quiet n s := by
    refine ⟨fun i => ?_, hs⟩
    by_cases hi : i < 5
    · exact hc i hi
    · by_contra hn
      exact hi (lt_of_role (c := s.core n) fun hf => hn (.inr hf))
  obtain ⟨ht, hd⟩ := faultTile_strikes hq
  have hmem (i : Nat) (hi : i < 5) : i ∈ [0, 1, 2, 3, 4] := by
    interval_cases i <;> decide
  refine ⟨ht.mem, fun i hi hr hw => ?_, fun i x hi hx hr hw => ?_⟩
  · exact (ht.ctx i).fails (hd i (hmem i hi)).1 hr hw
  · obtain ⟨y, hy, hxy⟩ := exists_right_of_rel (ht.saved i) hx
    exact ⟨y, hy, hxy.fails ((hd i (hmem i hi)).2 y hy) hr hw⟩

/-- The tile is fenced, its tasks fail, and the error is counted. -/
theorem exec_tileError (hc : ∀ i, i < 5 → (s.ctxOf n i).noHandler) (hs : ∀ i x, (s.core n).savedCtx i = some x → x.noHandler) :
    ∃ t, exec (.uncorrectableError 5 n) s = .next t ∧ t.mem = s.mem ∧ n ∈ t.fenced ∧ DieCounted s t (tileDie n) ∧
      (∀ i, i < 5 → (s.ctxOf n i).role = .task → (s.ctxOf n i).wait.ending = false → (t.ctxOf n i).fails) ∧
      ∀ i x, i < 5 → (s.core n).savedCtx i = some x → x.role = .task → x.wait.ending = false →
        ∃ y, (t.core n).savedCtx i = some y ∧ y.fails := by
  have hx : exec (.uncorrectableError 5 n) s = .next ((s.faultTile n).countError (tileDie n)) := rfl
  obtain ⟨hm, ht, hv⟩ := faultTile_tasks hc hs
  have hf := mem_faultTile_fenced (s := s) n
  have he := (faultTile_beside (s := s) n).errors
  obtain ⟨u, hu⟩ : ∃ u, s.faultTile n = u := ⟨_, rfl⟩
  rw [hu] at hx hm ht hv hf he
  exact ⟨_, hx, hm, hf, dieCounted_of he fun _ _ => rfl, ht, hv⟩

/-- An error in the save store (R358): the owning task fails once it resumes. -/
theorem failSaved_effect (i : Nat) :
    let t := (State.failSaved n s i).countError (coreDie n)
    DieCounted s t (coreDie n) ∧ ∀ x, (s.core n).savedCtx i = some x → x.role = .task → x.wait.ending = false →
      ∃ y, (t.core n).savedCtx i = some y ∧ y.fails := by
  refine ⟨dieCounted_of (failSaved_beside n i).errors fun _ _ => rfl, fun x hx hr hw => ?_⟩
  obtain ⟨y, -, hf, ht⟩ := failSaved_task hx hr hw
  refine ⟨y, ?_, hf⟩
  have hc := savedCtx_setCore_setSaved (s := { s with free := s.free + 1 }) (n := n) i i y
  rw [if_pos rfl, show (State.core { s with free := s.free + 1 } n).savedCtx i = some x from hx] at hc
  rw [ht]
  exact hc

end
end Sys2Proof.Machine
end

section
namespace Sys2Proof.Machine

/-! The links' steps (R17, R18), each with its effect. -/

section
variable {s : State} {l : Nat}

/-- A request for a replay changes its link and the counters of the part's life alone. -/
theorem askReplay_frame : (s.askReplay l).flits = s.flits ∧ (s.askReplay l).net = s.net ∧ (s.askReplay l).mem = s.mem := by
  unfold State.askReplay State.retrain
  dsimp only
  split_ifs <;> exact ⟨rfl, rfl, rfl⟩

theorem link_setAt (x : Link) : State.link { s with links := setAt s.links l x } l = x := look_setAt_same ..

/-- The eighth failed replay in a row starts a retrain of a link that is up, which is counted (R18, R361). -/
theorem askReplay_retrains (hl : l < 12) (hd : s.linkDown l = false) (h : 8 ≤ (s.link l).failedReplays) :
    ((s.askReplay l).link l).retraining = true ∧ ((s.askReplay l).link l).up = false ∧
      ((s.askReplay l).link l).retrains = (s.link l).retrains + 1 ∧
      look 0 (s.askReplay l).life.counts (0x09D0 + 8 * l) = min (look 0 s.life.counts (0x09D0 + 8 * l) + 1) (2 ^ 64 - 1) := by
  obtain ⟨-, hr, hf⟩ := linkDown_eq_false.1 hd
  have hk := link_setAt (s := s) (l := l) { s.link l with replays := (s.link l).failedReplays }
  have hb (u : State) (x : Link) : (State.bump { u with links := setAt u.links l x } (0x09D0 + 8 * l)).link l = x := look_setAt_same ..
  rw [askReplay_of_le h, retrain_eq hl (by rw [hk]; exact hr) (by rw [hk]; exact hf), hb, hk, look_bump, if_pos rfl]
  exact ⟨rfl, rfl, rfl, rfl⟩

/-- R18: FLIT_RECEIVE of a flit that is not whole. -/
theorem flitReceive_broken {f : List Byte} (hl : l < 12) (hd : s.linkDown l = false) (hf : flitOk f = false) :
    ∃ t, exec (.flitReceive l f) s = .next t ∧ t.flits = s.flits ∧ t.net = s.net ∧ t.mem = s.mem ∧
      ((s.link l).failedReplays < 8 →
        t.link l = Link.put { s.link l with replays := (s.link l).failedReplays, replayAsked := true } 2 0 []) ∧
      (8 ≤ (s.link l).failedReplays → (t.link l).retraining = true ∧ (t.link l).up = false ∧
        (t.link l).retrains = (s.link l).retrains + 1 ∧
        look 0 t.life.counts (0x09D0 + 8 * l) = min (look 0 s.life.counts (0x09D0 + 8 * l) + 1) (2 ^ 64 - 1)) := by
  obtain ⟨hflits, hnet, hmem⟩ := askReplay_frame (s := s) (l := l)
  refine ⟨s.askReplay l, execFlitReceive_broken hl hd hf, hflits, hnet, hmem, fun h => ?_, askReplay_retrains hl hd⟩
  rw [askReplay_of_lt h, link_setAt]

/-- R18: FLIT_RECEIVE of a flit that is not the next one. -/
theorem flitReceive_gap {f : List Byte} (hl : l < 12) (hd : s.linkDown l = false) (hf : flitOk f = true)
    (hq : flitField f 55 44 ≠ (s.link l).expect) :
    ∃ t, exec (.flitReceive l f) s = .next t ∧ t.flits = s.flits ∧ t.net = s.net ∧ t.mem = s.mem ∧
      ((s.link l).replayAsked = true → t = s) ∧
      ((s.link l).replayAsked = false →
        t.link l = Link.put { s.link l with replayAsked := true } 2 0 [] ∨ 8 ≤ (s.link l).replays) := by
  have hx : exec (.flitReceive l f) s = _ := execFlitReceive_gap hl hd hf hq
  cases ha : (s.link l).replayAsked with
  | true =>
    rw [if_pos ha] at hx
    exact ⟨s, hx, rfl, rfl, rfl, fun _ => rfl, nofun⟩
  | false =>
    have hn : (s.link l).failedReplays = (s.link l).replays := if_neg (by simp [ha])
    obtain ⟨hflits, hnet, hmem⟩ := askReplay_frame (s := s) (l := l)
    rw [if_neg (by simp [ha])] at hx
    refine ⟨_, hx, hflits, hnet, hmem, nofun, fun _ => ?_⟩
    obtain h | h := Nat.lt_or_ge (s.link l).failedReplays 8
    · rw [askReplay_of_lt h, link_setAt, hn]
      exact .inl rfl
    · exact .inr (hn ▸ h)

/-- R17, R18: FLIT_RECEIVE in sequence. -/
theorem flitReceive_next {f : List Byte} (hl : l < 12) (hd : s.linkDown l = false) (hf : flitOk f = true)
    (hq : flitField f 55 44 = (s.link l).expect) :
    let k := look {} s.links l
    let link := fun (t : State) => t.link l
    ∃ u, u.net = s.net ∧ u.mem = s.mem ∧
      u.tick = s.tick ∧ (link u).expect = (k.expect + 1) % 4096 ∧ (link u).replays = 0 ∧ (link u).replayAsked = false ∧
      (link u).replayBuf = (k.acked (flitField f 43 32)).replayBuf ∧
      look 0 (link u).credits (flitField f 15 12) = look 0 k.credits (flitField f 15 12) + flitField f 31 16 ∧
      (let v := flitField f 59 56;
        (flitField f 63 60 = 1 ∨ flitField f 63 60 = 3 → u.flits = s.flits ++ [(v, flitPayload f)] ∧
          exec (.flitReceive l f) s = .next ((Config.messagesIn v (flitPayload f)).foldl State.deliver u)) ∧
        (flitField f 63 60 = 4 → u.flits = s.flits ∧ ∃ t, exec (.flitReceive l f) s = .next t ∧ t = { u with tick := t.tick } ∧
          s.tick.toNat ≤ t.tick.toNat) ∧
        (¬(flitField f 63 60 = 1 ∨ flitField f 63 60 = 3 ∨ flitField f 63 60 = 4) → u.flits = s.flits ∧
          exec (.flitReceive l f) s = .next u)) := by
  intro k link
  let u : State := { s with links := setAt s.links l (k.takes f) }
  have hu : u.link l = k.takes f := look_setAt_same ..
  have hx : exec (.flitReceive l f) s = .next (u.takeFlit f) := execFlitReceive_next hl hd hf hq
  have ht := takes_fields k f
  rw [← hu] at ht
  obtain ⟨h1, h2, h3, h4, h5⟩ := ht
  by_cases hm : flitField f 63 60 = 1 ∨ flitField f 63 60 = 3
  · refine ⟨{ u with flits := s.flits ++ [(flitField f 59 56, flitPayload f)] }, rfl, rfl, rfl, h1, h2, h3, h4, h5,
      fun _ => ⟨rfl, hx.trans (congrArg _ (takeFlit_messages hm))⟩, fun h => ?_, fun h => absurd ?_ h⟩
    · omega
    · omega
  · refine ⟨u, rfl, rfl, rfl, h1, h2, h3, h4, h5, fun h => absurd h hm, fun h => ⟨rfl, _, hx, takeFlit_tick h⟩,
      fun h => ⟨rfl, hx.trans (congrArg _ (takeFlit_other h))⟩⟩

/-- R18: the other side asks for a replay. -/
theorem step_replayRequest {last : Nat} {rest : List Turn} (ht : s.turns = .replayRequest l last :: rest) (hp : s.powered = true)
    (hl : l < 12) (hd : s.linkDown l = false) : ∃ t, step s = .next t ∧ t.link l =
      { (s.link l).acked last with
        wire := (s.link l).wire ++ ((s.link l).acked last).replayBuf } := by
  rw [step_turn ht hp, State.takeTurn, replayRequest_eq (s := { s with turns := rest }) last hl hd]
  exact ⟨_, rfl, look_setAt_same ..⟩

/-- R18: LINK_RETRAIN. -/
theorem exec_linkRetrain (hl : l < 12) (hr : (s.link l).retraining = false) (hf : (s.link l).failed = false) :
    ∃ t, exec (.linkRetrain l) s = .next t ∧ t.link l = { s.link l with
      up := false, retraining := true, retrains := (s.link l).retrains + 1, replays := 0, replayAsked := false } :=
  ⟨s.retrain l, rfl, by rw [retrain_eq hl hr hf]; exact look_setAt_same ..⟩

/-- R18: LINK_FAIL_TIMEOUT. -/
theorem exec_linkFailTimeout (hl : l < 12) (hr : (s.link l).retraining = true) (hf : (s.link l).failed = false) :
    ∃ t, exec (.linkFailTimeout l) s = .next t ∧ t.link l = { s.link l with
      up := false, retraining := false, failed := true, failures := (s.link l).failures + 1 } :=
  ⟨s.failLink l, if_pos hr, (congrArg (look {} · l) (failLink_links hl hf)).trans (look_setAt_same ..)⟩

/-- R17: an idle or a tick-alignment flit. -/
theorem step_linkFlit {tick : Bool} {rest : List Turn} (ht : s.turns = .linkFlit l tick :: rest) (hp : s.powered = true)
    (h : s.linkFull l 1 = false) : ∃ t, step s = .next t ∧ ∃ bs, (tick = false → bs = []) ∧
      t.link l = (s.link l).put (if tick then 4 else 0) 0 bs := by
  rw [step_turn ht hp, State.takeTurn, linkFlit_eq (s := { s with turns := rest }) tick h]
  exact ⟨_, rfl, _, fun e => if_neg (by simp [e]), look_setAt_same ..⟩

/-- R17, R18: a piece of a checkpoint message. -/
theorem step_streamFlit {i : Nat} {bs : List Byte} {rest : List Turn} (ht : s.turns = .streamFlit l :: rest) (hp : s.powered = true)
    (hi : s.stream.findIdx? (·.1 == l) = some i) (hb : s.stream[i]? = some (l, bs)) (h : s.linkFull l 1 = false) :
    ∃ t, step s = .next t ∧ t.link l = (s.link l).put 1 7 (bs.take 240) ∧
      t.stream = if bs.length ≤ 240 then removeAt s.stream i else replaceAt s.stream i (l, bs.drop 240) := by
  rw [step_turn ht hp, State.takeTurn, streamFlit_eq (s := { s with turns := rest }) hi hb h]
  exact ⟨_, rfl, look_setAt_same .., rfl⟩

/-- R17, R194: what of a message's leaving follows from its step. -/
theorem step_sendFlit {n : Nat} {m : Msg} {rest : List Turn} {t : State} (ht : s.turns = .sendFlit l n :: rest) (hp : s.powered = true)
    (hm : s.outbox[n]? = some m) (hv : m.body.vnet ≤ 8) (h : step s = .next t) : t.outbox = s.outbox ∨
      (t.outbox = replaceAt s.outbox n { m with wired := some l } ∧ l ∈ m.way ∧
        ∃ fs, (t.link l).wire = (s.link l).wire ++ fs ∧ fs ≠ [] ∧
          ∀ f ∈ fs, WholeFlit m.body.flitType m.body.vnet f) := by
  rw [step_turn ht hp, State.takeTurn] at h
  injection h with h
  subst h
  obtain h | ⟨hw, h⟩ := sendFlit_cases (s := { s with turns := rest }) (l := l) hm
  · exact .inl (by rw [h])
  · obtain ⟨fs, hfs, hn, hf⟩ := wire_foldl_put (flitType_le m.body) hv (flitPieces m) (fun _ => length_le_of_mem_flitPieces)
      (s.link l)
    refine .inr ⟨by rw [h], hw, fs, ?_, fun e => flitPieces_ne_nil m ?_, hf⟩
    · rw [h, link_setAt, hfs]
    · exact List.length_eq_zero_iff.1 (by rw [← hn, e, List.length_nil])

end

/-! The debugger's steps (R348, R349), the error turns and the lifetime record (R361). -/

section
variable {s : State} {n i : Nat}

/-- R348: DEBUG_HALT. -/
theorem exec_debugHalt : ∃ t, exec (.debugHalt n) s = .next t ∧ t = s.setCore n (t.core n) ∧ (t.core n).halted = true ∧
    (t.core n).haltCause = 0x41 ∧ (t.core n).ctxs = (s.core n).ctxs := by
  refine ⟨_, rfl, ?_⟩
  rw [core_setCore_same]
  exact ⟨rfl, rfl, rfl, rfl⟩

/-- R348: what the debugger leaves of a halted core. -/
theorem step_debugWrite {x : Ctx} {tvec xb : Word} {rest : List Turn} (ht : s.turns = .debugWrite n i x tvec xb :: rest)
    (hp : s.powered = true) (hh : (s.core n).halted = true) (hc : ¬∃ q, (s.core n).slot = some q ∧ qcbConf (s.slot q).qcb = true) :
    ∃ t brk, step s = .next t ∧ t = State.setCore { s with turns := rest } n (t.core n) ∧
      t.core n = { ((s.core n).debugged tvec xb).setCtx i ((s.ctxOf n i).debugged x) with atBrk := brk } := by
  obtain ⟨brk, hw⟩ := debugWrite_eq (s := { s with turns := rest }) (i := i) (x := x) (tvec := tvec) (xb := xb) hh hc
  refine ⟨_, brk, (step_turn ht hp).trans (congrArg _ hw), ?_⟩
  rw [core_setCore_same]
  exact ⟨rfl, rfl⟩

/-- R349: DEBUG_RESUME. -/
theorem exec_debugResume (hh : (s.core n).halted = true) : ∃ t, exec (.debugResume n) s = .next t ∧ t = s.setCore n (t.core n) ∧
    (t.core n).halted = false ∧
    ∀ j, j < 5 → t.ctxOf n j = (s.core n).pastBrk j ∧ (t.core n).savedCtx j = (s.core n).savedPastBrk j := by
  refine ⟨_, execDebugResume_eq hh, ?_⟩
  rw [core_setCore_same]
  refine ⟨rfl, rfl, fun j hj => ?_⟩
  have h := passBrks_ctx (s.core n) hj
  rw [State.ctxOf, core_setCore_same]
  generalize (s.core n).passBrks = d at h ⊢
  exact h

theorem pastBrk_of_unsaved {c : CoreSt} {j : Nat} (h : j ∈ c.atBrk) (hs : c.savedCtx j = none) : c.pastBrk j = (c.ctx j).pastWord :=
  if_pos ⟨h, hs⟩

theorem pastBrk_of_saved {c : CoreSt} {j : Nat} {x : Ctx} (hs : c.savedCtx j = some x) : c.pastBrk j = c.ctx j :=
  if_neg fun h => by simp [hs] at h

theorem pastBrk_of_not_mem {c : CoreSt} {j : Nat} (h : j ∉ c.atBrk) : c.pastBrk j = c.ctx j := if_neg fun h' => h h'.1

/-- The pulse that was armed first is done: every core has latched its sample, and the host has the records. -/
theorem execSamplePulse_eq {a : SampleArm} (ha : (s.sampling.find? fun a => decide (a.tick ≤ s.tick.toNat)) = some a) :
    ∃ m, execSamplePulse s = .next { s.latchSamples with sampling := s.latchSamples.sampling.erase a, hostMem := m } := by
  rw [execSamplePulse, ha]
  exact ⟨_, rfl⟩

/-- R354: SAMPLE_PULSE. -/
theorem exec_samplePulse {a : SampleArm} (ha : (s.sampling.find? fun a => decide (a.tick ≤ s.tick.toNat)) = some a) :
    ∃ t, exec .samplePulse s = .next t ∧ t.sampling = s.sampling.erase a ∧ t.mem = s.mem ∧
      ∀ n, n < 2048 → (t.core n).sample = s.sampleOf n := by
  obtain ⟨m, hx⟩ := execSamplePulse_eq ha
  obtain ⟨u, hu⟩ : ∃ u, s.latchSamples = u := ⟨_, rfl⟩
  have hs := latchSamples_sampling s
  have hm := latchSamples_mem s
  have hc (n : Nat) (hn : n < 2048) := latchSamples_sample s hn
  rw [hu] at hx hs hm hc
  exact ⟨_, hx, congrArg (List.erase · a) hs, hm, hc⟩

/-- R358, R361: a corrected error is counted by its die, temperature band and kind. -/
theorem step_corrected {die band kind : Nat} {rest : List Turn} (hd : die < 18) (hb : band < 8) (hk : kind < 2)
    (ht : s.turns = .corrected (die, band, kind) :: rest) (hp : s.powered = true) :
    ∃ t, step s = .next t ∧ t = { s with turns := rest, life := t.life } ∧
      look 0 t.life.counts (0x40 + 8 * (16 * die + 2 * band + kind)) =
        min (look 0 s.life.counts (0x40 + 8 * (16 * die + 2 * band + kind)) + 1) (2 ^ 64 - 1) := by
  have ho : scrubCounter (die, band, kind) = 0x40 + 8 * (16 * die + 2 * band + kind) := by
    rw [scrubCounter, Nat.mod_eq_of_lt hd, Nat.mod_eq_of_lt hb, Nat.mod_eq_of_lt hk]
    omega
  refine ⟨_, step_turn ht hp, rfl, ?_⟩
  rw [look_bump, ho, if_pos rfl]

/-- R361: a record written in a hub. -/
theorem keep_kept (h : Hub) :
    (∃ c, (h.keep s.lifeCopy).newest = some c ∧ c.life = s.life ∧ c.fenced = s.fenced ∧ c.log = s.fenceLog) ∧
    (if h.latest = 0 then (h.keep s.lifeCopy).copies.1 = h.copies.1 else (h.keep s.lifeCopy).copies.2 = h.copies.2) ∧
    (h.keep s.lifeCopy).table = h.table :=
  ⟨⟨_, newest_keep h (seal_valid _), rfl, rfl, rfl⟩, keep_older h _, rfl⟩

/-- R15, R361: the record written in both hubs. -/
theorem writeLife_kept {h : Hub × Hub} (hh : h = (s.hubs.1, s.writeLife.hubs.1) ∨ h = (s.hubs.2, s.writeLife.hubs.2)) :
    (∃ c, h.2.newest = some c ∧ c.life = s.life ∧ c.fenced = s.fenced ∧ c.log = s.fenceLog) ∧
      (if h.1.latest = 0 then h.2.copies.1 = h.1.copies.1 else h.2.copies.2 = h.1.copies.2) ∧ h.2.table = h.1.table := by
  rw [writeLife_eq] at hh
  obtain rfl | rfl := hh
  · exact keep_kept s.hubs.1
  · exact keep_kept s.hubs.2

end

/-- Settles O54, clause by clause from the steps' own effects: of a link by what each step leaves of it (`State.link`), of the
debugger by what it leaves of its core, of an error by what the count and the fence leave beside them (`Beside`), so that
`DieCounted` and `SramFenced` reach from the state at the error to the step's end. -/
theorem healthSteps : Obligations.HealthSteps := by
  refine ⟨fun k ty vnet payload ht hv hl => ⟨⟨_, rfl, rfl, rfl, put_fields k ht hv hl⟩, fun r => acked_replayBuf k⟩,
    fun s l f hl => ?_, fun s => ⟨rfl, rfl⟩, fun s n i => ?_, fun s a ha => ?_, fun s place => ?_, fun s => ?_⟩
  · refine ⟨fun hd => execFlitReceive_down f hd, flitReceive_broken hl, flitReceive_gap hl, flitReceive_next hl,
      fun last rest ht hp hd => ?_, fun hr hf => ?_, fun hr => ⟨_, if_pos hr, look_setAt_same ..⟩,
      fun tick rest ht hp => ⟨fun h => (step_turn ht hp).trans (congrArg _ (if_pos h)), step_linkFlit ht hp⟩,
      fun i bs rest ht hp hi hb hk => step_streamFlit ht hp hi hb hk,
      fun n m rest ht hp hm => ⟨fun h => ?_, fun t hv => step_sendFlit ht hp hm hv⟩, fun hr hf => ?_⟩
    · obtain ⟨t, hx, hk⟩ := step_replayRequest ht hp hl hd
      exact ⟨t, hx, (congrArg Link.replayBuf hk).trans rfl, (congrArg Link.wire hk).trans rfl⟩
    · obtain ⟨t, hx, hk⟩ := exec_linkRetrain hl hr hf
      exact ⟨t, hx, congrArg Link.retraining hk, congrArg Link.up hk, congrArg Link.retrains hk⟩
    · exact (step_turn ht hp).trans (congrArg _ (sendFlit_of_waits (s := { s with turns := rest }) hm (waits_iff.2 h)))
    · obtain ⟨t, hx, hk⟩ := exec_linkFailTimeout hl hr hf
      exact ⟨t, hx, congrArg Link.failed hk, congrArg Link.up hk, congrArg Link.failures hk⟩
  · refine ⟨exec_debugHalt, fun x tvec xb rest ht hp hi => ⟨fun h => ?_, fun hh hc => ?_⟩, fun hh => ⟨if_pos hh, ?_⟩⟩
    · exact (step_turn ht hp).trans (congrArg _ (debugWrite_refused (s := { s with turns := rest }) h))
    · obtain ⟨t, brk, hx, ht, hw⟩ := step_debugWrite ht hp hh hc
      have hctx (j : Nat) : t.ctxOf n j = if j = i then (s.ctxOf n i).debugged x else s.ctxOf n j := by
        rw [State.ctxOf, hw]
        exact ctx_setCtx_core _ _ _ _ hi
      refine ⟨t, hx, ht, ?_, fun j hj => (hctx j).trans (if_neg hj), fun h1 h2 h3 => ?_, fun h1 h2 => ?_⟩
      · rw [hctx i, if_pos rfl]
        exact ⟨rfl, rfl, rfl, rfl, rfl, rfl, rfl, rfl, rfl, rfl⟩
      · rw [hw]
        exact debugged_xb (tvec := tvec) h1 h2 h3
      · rw [hw]
        exact debugged_tvec (xb := xb) h1 h2
    · obtain ⟨t, hx, ht, hr, hc⟩ := exec_debugResume hh
      refine ⟨t, hx, ht, hr, fun j hj => ⟨fun hb hs => ?_, fun x hb hs => ⟨x.pastWord, ?_, rfl, ?_⟩, fun hb => ?_⟩⟩
      · rw [(hc j hj).1, pastBrk_of_unsaved hb hs]
        rfl
      · rw [(hc j hj).2, CoreSt.savedPastBrk, if_pos hb, hs, Option.map_some]
      · rw [(hc j hj).1, pastBrk_of_saved hs, State.ctxOf]
      · rw [(hc j hj).1, pastBrk_of_not_mem hb, State.ctxOf]
  · exact exec_samplePulse ha
  · refine ⟨rfl, fun die band kind rest hd hb hk ht hp => step_corrected hd hb hk ht hp, ⟨_, rfl, poisonAt_effect place⟩,
      ⟨_, rfl, failSpilled_effect (place / 8) (place % 8)⟩, ⟨_, rfl, recordError_effect (place / 2048) (place % 2048)⟩,
      ⟨_, rfl, ?_⟩, rfl, fun l hl => ⟨_, rfl, loseLatch_tells hl⟩,
      fun k hk ha => ⟨_, rfl, loseEntry_ends_call hk ha⟩,
      fun p hp => ⟨_, _, rfl, losePacket_tells (Nat.mod_lt _ (by decide)) hp⟩,
      ⟨_, rfl, ?_⟩, fun hc hs => ?_⟩
    · obtain ⟨hd, hf⟩ := failSaved_effect (s := s) (n := place / 8) (place % 8)
      refine ⟨hd, fun x hx hr hw => ?_⟩
      obtain ⟨y, hy, f, hf⟩ := hf x hx hr hw
      exact ⟨y, f, hy, hf⟩
    · rw [core_setCore_same]
      exact ⟨rfl, rfl, rfl, rfl⟩
    · obtain ⟨t, hx, hm, hf, hd, ht, hv⟩ := exec_tileError hc hs
      refine ⟨t, hx, hm, hf, hd, ht, fun i x hi hx hr hw => ?_⟩
      obtain ⟨y, hy, f, hf⟩ := hv i x hi hx hr hw
      exact ⟨y, f, hy, hf⟩
  · refine ⟨⟨_, rfl, writeLife_eq s ▸ rfl, fun h => writeLife_kept⟩, ⟨_, rfl, ?_, fun h => writeLife_kept⟩, rfl,
      fun ticks cycles rest ht hp => ⟨_, step_turn ht hp, rfl, rfl, countSeconds_seconds⟩⟩
    rw [writeLife_eq]

end Sys2Proof.Machine
end

section
namespace Sys2Proof.Machine

/-! Where the commands stand: what leaves the slots, the tick and the package as they are. -/

/-- The slots of the queues, the tick and the package. -/
def State.seat (s : State) : Sparse Slot × Word × Nat := (s.slots, s.tick, s.pkg)

section
variable {s t : State}

/-- A change of other parts of the state. -/
theorem seat_eq (hz : t.slots = s.slots := by with_reducible rfl) (ht : t.tick = s.tick := by with_reducible rfl)
    (hp : t.pkg = s.pkg := by with_reducible rfl) : t.seat = s.seat := by
  rw [State.seat, State.seat, hz, ht, hp]

/-- A change of other parts of the state behind one that changes nothing here. -/
theorem seat_update {u : State} (h : u.seat = s.seat) (hz : t.slots = u.slots := by with_reducible rfl)
    (ht : t.tick = u.tick := by with_reducible rfl) (hp : t.pkg = u.pkg := by with_reducible rfl) : t.seat = s.seat :=
  (seat_eq hz ht hp).trans h

/-- What both branches of a choice keep stands at its end. -/
theorem ite_keeps {β : Type} (g : State → β) {c : Prop} [Decidable c] {y : β} (hs : g s = y) (ht : g t = y) :
    g (if c then s else t) = y := by
  split <;> assumption

@[simp] theorem setCore_seat (n : Nat) (c : CoreSt) : (s.setCore n c).seat = s.seat := rfl
@[simp] theorem setQuad_seat (n : Nat) (q : Quad) : (s.setQuad n q).seat = s.seat := rfl
@[simp] theorem poke_seat (pa : Nat) (bs : List Byte) : (s.poke pa bs).seat = s.seat := rfl
@[simp] theorem overwrite_seat (pa : Nat) (bs : List Byte) : (s.overwrite pa bs).seat = s.seat := rfl
@[simp] theorem syncSpill_seat (core : Nat) : (s.syncSpill core).seat = s.seat := rfl
@[simp] theorem invalidate_seat (q : Nat) : (s.invalidate q).seat = s.seat := rfl

theorem onTask_seat {T : TaskId} {f : Ctx → Ctx} (h : s.onTask T f = some t) : t.seat = s.seat := by
  revert h
  fun_cases State.onTask <;> rintro ⟨⟩ <;> rfl

@[simp] theorem onRun_seat (core run : Nat) (f : Ctx → Ctx) : (s.onRun core run f).seat = s.seat := by
  fun_cases State.onRun <;> rfl

/-! Messages. -/

@[simp] theorem countSent_seat (i : Issuer) : (s.countSent i).seat = s.seat := by
  fun_cases State.countSent <;> rfl

@[simp] theorem received_seat (i : Issuer) : (s.received i).seat = s.seat := by
  fun_cases State.received <;> rfl

@[simp] theorem receivedAll_seat (m : Msg) : (s.receivedAll m).seat = s.seat := by
  fun_cases State.receivedAll
  · rw [foldl_keeps State.seat fun _ _ => received_seat .., received_seat]
  · rfl

@[simp] theorem numberOut_seat (m : Msg) : (s.numberOut m).seat = s.seat := by
  fun_cases State.numberOut <;> rfl

@[simp] theorem send_seat (m : Msg) : (s.send m).seat = s.seat := by
  have h : ((if m.body.counted then s.countSent m.iss else s).numberOut m).seat = s.seat := by
    rw [numberOut_seat]
    exact ite_keeps State.seat (countSent_seat _) rfl
  exact ite_keeps State.seat h h

@[simp] theorem orFlags_seat (i : Issuer) (flags : BitVec 6) : (s.orFlags i flags).seat = s.seat := by
  fun_cases State.orFlags
  case case3 => exact (syncSpill_seat _).trans (onTask_seat ‹_›)
  all_goals rfl

@[simp] theorem chose_seat (slot tile kind choice : Nat) : (s.chose slot tile kind choice).seat = s.seat := by
  fun_cases State.chose <;> exact seat_eq

@[simp] theorem seen_seat (key : Option Word) (pa : Nat) : (s.seen key pa).seat = s.seat := by
  fun_cases State.seen <;> exact seat_eq

/-! Tasks that go on. -/

@[simp] theorem leftIdle_seat (old : State) (n : Nat) : (old.leftIdle n s).seat = s.seat := by
  fun_cases State.leftIdle <;> rfl

@[simp] theorem stir_seat (n : Nat) : (s.stir n).seat = s.seat := by
  fun_cases State.stir <;> rfl

@[simp] theorem wakeTask_seat (T : TaskId) (f : Ctx → Ctx) : (s.wakeTask T f).seat = s.seat := by
  fun_cases State.wakeTask
  · rw [leftIdle_seat, stir_seat, onTask_seat ‹_›]
  · rfl

@[simp] theorem onCaller_seat (k : Call) (f : Ctx → Ctx) : (s.onCaller k f).seat = s.seat := by
  fun_cases State.onCaller
  · exact onRun_seat ..
  · exact wakeTask_seat ..

@[simp] theorem withdraw_seat (k : Call) : (s.withdraw k).seat = s.seat := by
  fun_cases State.withdraw <;> rfl

@[simp] theorem startOn_seat (n c : Nat) (r : Rec) : (s.startOn n c r).seat = s.seat := by
  rw [State.startOn, leftIdle_seat, setCore_seat]

/-! Page walks. -/

@[simp] theorem ask_seat (a : Asker) (slot va : Nat) : (s.ask a slot va).seat = s.seat := by
  fun_cases State.ask <;> rfl

@[simp] theorem fill_seat (a : Asker) (e : TlbEntry) : (s.fill a e).seat = s.seat := by
  fun_cases State.fill <;> rfl

@[simp] theorem cachePointers_seat (die slot va : Nat) : (s.cachePointers die slot va).seat = s.seat := by
  fun_cases State.cachePointers <;> rfl

@[simp] theorem endWalk_seat (n : Nat) (w : Walk) : (s.endWalk n w).seat = s.seat := by
  have h : (({ s with walks := removeAt s.walks n } : State).cachePointers w.die w.slot w.va).seat = s.seat :=
    cachePointers_seat ..
  fun_cases State.endWalk
  · rw [foldl_keeps State.seat fun _ _ => fill_seat ..]
    exact h
  · exact h

/-! The array's save areas. -/

@[simp] theorem writeFrame_seat (T : TaskId) (off : Nat) (bs : List Byte) : (s.writeFrame T off bs).seat = s.seat := by
  fun_cases State.writeFrame
  case case1 => exact poke_seat ..
  case case4 => exact setCore_seat ..
  all_goals rfl

@[simp] theorem saveSet_seat (T : TaskId) (o : ArrOp) (busy live : Bool) (acc : Sparse (BitVec 32)) :
    (s.saveSet T o busy live acc).seat = s.seat := by
  have getD (u : State) (f : Ctx → Ctx) : ((u.onTask T f).getD u).seat = u.seat := by
    cases h : u.onTask T f with
    | none => rfl
    | some v => exact onTask_seat h
  rw [State.saveSet, getD, writeFrame_seat, writeFrame_seat]
  exact ite_keeps State.seat rfl (writeFrame_seat ..)

@[simp] theorem settleSet_seat (n : Nat) : (s.settleSet n).seat = s.seat := by
  unfold State.settleSet
  dsimp only
  split
  · refine ite_keeps State.seat rfl ((setQuad_seat ..).trans ?_)
    split
    · exact saveSet_seat ..
    · rfl
  · rfl

@[simp] theorem takeBackRows_seat (o : ArrOp) : (s.takeBackRows o).1.seat = s.seat :=
  ite_keeps State.seat rfl rfl

@[simp] theorem displace_seat (n : Nat) (o : ArrOp) : (s.displace n o).seat = s.seat := by
  refine ite_keeps State.seat ?_ ?_
  · rw [poke_seat, poke_seat, poke_seat, setQuad_seat]
    exact takeBackRows_seat o
  · rw [saveSet_seat, setQuad_seat]
    exact takeBackRows_seat o

@[simp] theorem stopQuad_seat (slot n : Nat) : (State.stopQuad slot s n).seat = s.seat := by
  unfold State.stopQuad
  extract_lets u v _
  have hu : u.seat = s.seat := by
    subst u
    split
    · exact ite_keeps State.seat (displace_seat ..) rfl
    · rfl
  have hv : v.seat = s.seat := hu
  clear_value v
  split
  · exact ite_keeps State.seat hv (ite_keeps State.seat hv ((settleSet_seat _).trans hv))
  · exact hv

@[simp] theorem saveTile_seat (n : Nat) : (s.saveTile n).seat = s.seat := by
  fun_cases State.saveTile <;> rfl

end
end Sys2Proof.Machine
end

section
namespace Sys2Proof.Machine

/-! The command of a queue. -/

section
variable {s : State} {q : Nat} {c : Cmd}

theorem onCmd_of_none (f : Cmd → Cmd) (h : (s.slot q).cmd = none) : s.onCmd q f = s := by
  unfold State.onCmd
  rw [h]

theorem onCmd_eq_setCmd (f : Cmd → Cmd) (h : Runs s q c) : s.onCmd q f = s.setCmd q (some (f c)) := by
  unfold State.onCmd
  rw [show (s.slot q).cmd = some c from h]
  rfl

@[simp] theorem slot_setCmd (x : Option Cmd) : (s.setCmd q x).slot q = { s.slot q with cmd := x } := slot_setSlot_same ..

theorem slot_onCmd_ne (f : Cmd → Cmd) {n : Nat} (h : q ≠ n) : (s.onCmd n f).slot q = s.slot q := by
  fun_cases State.onCmd
  · rfl
  · exact slot_setSlot_ne _ _ h

theorem slot_onCmd (f : Cmd → Cmd) (h : Runs s q c) : (s.onCmd q f).slot q = { s.slot q with cmd := some (f c) } := by
  rw [onCmd_eq_setCmd f h, slot_setCmd]

theorem runs_onCmd (f : Cmd → Cmd) (h : Runs s q c) : Runs (s.onCmd q f) q (f c) := by
  rw [Runs, slot_onCmd f h]

theorem runs_setCmd : Runs (s.setCmd q (some c)) q c := by
  rw [Runs, slot_setCmd]

theorem runs_of_slots {t : State} (h : Runs s q c) (hz : t.slots = s.slots) : Runs t q c := by
  rwa [Runs, State.slot, hz]

end

/-! A command beside what its completion record counts (R340, R350): what reports leave of it. -/

/-- A command without its counts. -/
def Cmd.uncounted (c : Cmd) : Cmd := { c with west := {}, east := {} }

/-- A queue's slot, its command without its counts. -/
def State.bare (s : State) (q : Nat) : Slot := { s.slot q with cmd := (s.slot q).cmd.map Cmd.uncounted }

section
variable {s t : State} {q : Nat}

theorem bare_of_seat (h : t.seat = s.seat) : t.bare q = s.bare q := by
  obtain ⟨hz, -⟩ := Prod.ext_iff.1 h
  rw [State.bare, State.bare, State.slot, State.slot, show t.slots = s.slots from hz]

@[simp] theorem setCore_bare (n : Nat) (c : CoreSt) : (s.setCore n c).bare q = s.bare q := rfl
@[simp] theorem send_bare (m : Msg) : (s.send m).bare q = s.bare q := bare_of_seat (send_seat m)

/-- A change of a command that only its counts show. -/
theorem onCmd_bare {n : Nat} {f : Cmd → Cmd} (hf : ∀ c, (f c).uncounted = c.uncounted) : (s.onCmd n f).bare q = s.bare q := by
  by_cases e : q = n
  · subst e
    cases hc : (s.slot q).cmd with
    | none => rw [onCmd_of_none f hc]
    | some c => simp only [State.bare, slot_onCmd f hc, hc, Option.map_some, hf]
  · rw [State.bare, State.bare, slot_onCmd_ne _ e]

@[simp] theorem onTally_bare (n core : Nat) (f : Tally → Tally) : (s.onTally n core f).bare q = s.bare q :=
  onCmd_bare fun c => by split <;> rfl

@[simp] theorem report_bare (i : Issuer) (cause colour : Nat) (w : Word) : (s.report i cause colour w).bare q = s.bare q := by
  fun_cases State.report
  · rfl
  · exact bare_of_seat (onTask_seat (s := s.bump _) ‹_›)
  · rfl
  · exact onTally_bare ..

@[simp] theorem reportAll_bare (m : Msg) (cause : Nat) (w : Word) : (s.reportAll m cause w).bare q = s.bare q := by
  rw [State.reportAll, foldl_keeps (State.bare · q) fun _ _ => report_bare .., report_bare]

/-! The copy engine (R238): an engine's wait changes no slot, and a command that stops is reported. -/

theorem engineSpot_wait {a : Agent} {va n : Nat} {k : AKind} (h : s.engineSpot a va n k = .wait t) : t.seat = s.seat := by
  revert h
  fun_cases State.engineSpot <;> rintro ⟨⟩
  exact ask_seat ..

theorem engineFar_wait {a : Agent} {p : Spot} {n : Nat} (h : s.engineFar a p n = .wait t) : t.seat = s.seat := by
  revert h
  fun_cases State.engineFar <;> rintro ⟨⟩
  · rfl
  · exact send_seat ..

theorem engineRead_wait {a : Agent} {va n : Nat} {code : Bool} (h : s.engineRead a va n code = .wait t) : t.seat = s.seat := by
  revert h
  fun_cases State.engineRead
  case case1 => fun_cases State.engineHere <;> rintro ⟨⟩
  case case2 he =>
    rintro ⟨⟩
    exact engineSpot_wait he
  case case5 => exact engineFar_wait
  all_goals rintro ⟨⟩

theorem engineWrite_wait {a : Agent} {va : Nat} {bs : List Byte} {red below stack : Bool}
    (h : s.engineWrite a va bs red below stack = .wait t) : t.seat = s.seat := by
  revert h
  fun_cases State.engineWrite
  case case4 he =>
    rintro ⟨⟩
    exact engineSpot_wait he
  all_goals simp +zetaDelta

theorem copyOnce_wait {a : Agent} {c : CopyCmd} {src : Nat} {inb : Bool} (h : s.copyOnce a c src inb = .wait t) :
    t.seat = s.seat := by
  revert h
  fun_cases State.copyOnce
  · rintro ⟨⟩
  · fun_cases State.copyValue
    case case1 he =>
      rintro ⟨⟩
      exact engineRead_wait he
    all_goals rintro ⟨⟩

/-- What no step of a run changes stands at its end, when it ends well. -/
theorem foldlM_keeps {ε α β : Type} {f : State → α → Except ε State} (g : State → β) (hf : ∀ s x t, f s x = .ok t → g t = g s)
    {l : List α} (h : l.foldlM f s = .ok t) : g t = g s := by
  induction l generalizing s with
  | nil =>
    obtain rfl := Except.ok.inj h
    rfl
  | cons x l ih =>
    rw [List.foldlM_cons] at h
    cases hx : f s x with
    | error e => simp [hx, bind, Except.bind] at h
    | ok u => exact (ih (by simpa [hx, bind, Except.bind] using h)).trans (hf s x u hx)

theorem copyServes_ok {a : Agent} {c : CopyCmd} {src : Nat} {inb : Bool} (h : s.copyServes a c src inb = .ok t) :
    t.seat = s.seat := by
  revert h
  fun_cases State.copyServes
  · fun_cases State.serveReads
    · rintro ⟨⟩
      rfl
    · refine foldlM_keeps State.seat fun u x v h => ?_
      split at h
      · obtain rfl := Except.ok.inj h
        exact chose_seat ..
      · exact absurd h nofun
  · rintro ⟨⟩
    rfl

@[simp] theorem engineStore_bare (a : Agent) (va : Nat) (bs : List Byte) : (s.engineStore a va bs).bare q = s.bare q :=
  ite_keeps (State.bare · q) (report_bare ..) rfl

@[simp] theorem flushFill_bare (c : CopyCmd) (close : Bool) : (s.flushFill c close).bare q = s.bare q := by
  unfold State.flushFill
  rw [foldl_keeps (State.bare · q) fun _ _ => send_bare _]
  split
  · rfl
  · split
    · exact send_bare _
    · rfl

@[simp] theorem haltCopy_bare (core : Nat) (c : CopyCmd) (n cause : Nat) (w : Word) :
    (s.haltCopy core c n cause w).bare q = s.bare q :=
  (report_bare ..).trans (flushFill_bare ..)

@[simp] theorem tileStop_bare (core : Nat) (c : CopyCmd) (p : Nat × Nat × List (Nat × List Byte)) :
    (s.tileStop core c p).bare q = s.bare q := haltCopy_bare ..

@[simp] theorem stopCopy_bare (core : Nat) (c : CopyCmd) (n cause : Nat) (w : Word) :
    (s.stopCopy core c n cause w).bare q = s.bare q := by
  fun_cases State.stopCopy
  · exact tileStop_bare ..
  · exact haltCopy_bare ..

@[simp] theorem putMsg_bare (c : CopyCmd) (m : Msg) : (s.putMsg c m).1.bare q = s.bare q := by
  fun_cases State.putMsg
  · rfl
  · exact (send_bare _).trans (flushFill_bare ..)

/-- The state that a write leaves, whether the command goes on or stops. -/
def written : Except State (State × CopyCmd) → State
  | .error u => u
  | .ok r => r.1

theorem gatherTile_bare (core : Nat) (a : Agent) (c : CopyCmd) (va base size : Nat) (p : Spot) (bs : List Byte) :
    (written (s.gatherTile core a c va base size p bs)).bare q = s.bare q := by
  fun_cases State.gatherTile
  · exact tileStop_bare ..
  · rfl
  · exact putMsg_bare ..

theorem copyPut_bare (core : Nat) (a : Agent) (c : CopyCmd) (va : Nat) (bs : List Byte) (w : Put) :
    (written (s.copyPut core a c va bs w)).bare q = s.bare q := by
  fun_cases State.copyPut
  · exact gatherTile_bare ..
  · exact tileStop_bare ..
  · refine (engineStore_bare ..).trans (ite_keeps (State.bare · q) ?_ rfl)
    exact foldl_keeps (State.bare · q) (fun u i => setCore_bare (s := u) core _) ..
  · rfl
  · exact flushFill_bare ..
  · exact putMsg_bare ..
  · rfl

theorem copyPut_error {core : Nat} {a : Agent} {c : CopyCmd} {va : Nat} {bs : List Byte} {w : Put}
    (h : s.copyPut core a c va bs w = .error t) : t.bare q = s.bare q := by
  simpa only [h, written] using copyPut_bare (s := s) core a c va bs w

theorem copyPut_ok {core : Nat} {a : Agent} {c : CopyCmd} {va : Nat} {bs : List Byte} {w : Put} {r : State × CopyCmd}
    (h : s.copyPut core a c va bs w = .ok r) : r.1.bare q = s.bare q := by
  simpa only [h, written] using copyPut_bare (s := s) core a c va bs w

@[simp] theorem copyDests_bare (core : Nat) (a : Agent) (c : CopyCmd) (n : Nat) (bs : List Byte) (l : List Nat) :
    (s.copyDests core a c n bs l).bare q = s.bare q := by
  fun_induction State.copyDests
  case case1 => rfl
  case case2 he => exact (setCore_bare ..).trans (bare_of_seat (engineWrite_wait he))
  case case3 => exact stopCopy_bare ..
  case case4 he => exact copyPut_error he
  case case5 he ih => exact ih.trans (copyPut_ok he)

@[simp] theorem endCopy_bare (core : Nat) (c : CopyCmd) : (s.endCopy core c).bare q = s.bare q := by
  fun_cases State.endCopy
  · exact tileStop_bare ..
  · exact flushFill_bare ..

@[simp] theorem sendImage_bare (core : Nat) (c : CopyCmd) (va : Nat) (image : List Byte) :
    (s.sendImage core c va image).bare q = s.bare q := by
  fun_cases State.sendImage
  · exact bare_of_seat (engineSpot_wait ‹_›)
  · exact stopCopy_bare ..
  · exact send_bare _

theorem putElement_bare (core : Nat) (c : CopyCmd) (n : Nat) {r : Got (Option (Nat × FlagSet))} (hr : ∀ u, r = .wait u → False) :
    (s.putElement core c n r).bare q = s.bare q := by
  fun_cases State.putElement
  · exact (hr _ rfl).elim
  · exact stopCopy_bare ..
  · rfl
  · exact (copyDests_bare ..).trans (bare_of_seat (orFlags_seat ..))

@[simp] theorem runCopy_bare (core : Nat) (c : CopyCmd) : (s.runCopy core c).bare q = s.bare q := by
  fun_cases State.runCopy
  · exact sendImage_bare ..
  · exact endCopy_bare ..
  · exact bare_of_seat (copyOnce_wait ‹_›)
  · rfl
  · next _ ht hr => exact (putElement_bare _ _ _ hr).trans (bare_of_seat (copyServes_ok ht))

@[simp] theorem settleCopy_bare (core : Nat) (c : CopyCmd) : (s.settleCopy core c).bare q = s.bare q := by
  fun_cases State.settleCopy
  case case2 => exact tileStop_bare ..
  case case4 | case6 => exact flushFill_bare ..
  all_goals rfl

@[simp] theorem copyWalk_bare (core : Nat) (c : CopyCmd) : (s.copyWalk core c).bare q = s.bare q := by
  fun_cases State.copyWalk
  · exact bare_of_seat (endWalk_seat ..)
  · rfl
  · rfl

@[simp] theorem boundary_bare (core id n : Nat) : (s.boundary core id n).bare q = s.bare q := by
  fun_induction State.boundary
  case case3 => exact settleCopy_bare ..
  case case4 ih => rw [ih, runCopy_bare, copyWalk_bare]
  all_goals rfl

/-! Pre-emption (R346). -/

@[simp] theorem stopCopies_bare (slot n : Nat) : (State.stopCopies slot s n).bare q = s.bare q :=
  foldl_keeps (State.bare · q) (fun _ _ => boundary_bare ..) ..

/-- A pre-emption changes its command's phase and waves alone, beside what its record counts. -/
theorem preempt_bare (n : Nat) : (s.preempt n).bare q = (s.onCmd n fun c => { c with phase := .preempted, clean := 0 }).bare q := by
  unfold State.preempt
  dsimp only
  rw [foldl_keeps (State.bare · q) fun _ _ => bare_of_seat (saveTile_seat _),
    foldl_keeps (State.bare · q) fun _ _ => bare_of_seat (stopQuad_seat ..),
    foldl_keeps (State.bare · q) fun _ _ => stopCopies_bare ..]

end
end Sys2Proof.Machine
end

section
namespace Sys2Proof.Machine

/-! What a failed link leaves of a command (R18): its counts, and the end of a checkpoint that streams over it. -/

section
variable {s t : State} {q : Nat}

/-- The command of a queue after a change that only its counts show. -/
theorem runs_of_bare {c : Cmd} (h : t.bare q = s.bare q) (hc : Runs s q c) : ∃ k, Runs t q k ∧ k.uncounted = c.uncounted := by
  have hk : (t.slot q).cmd.map Cmd.uncounted = (s.slot q).cmd.map Cmd.uncounted := congrArg Slot.cmd h
  rw [show (s.slot q).cmd = some c from hc] at hk
  exact Option.map_eq_some_iff.1 hk

@[simp] theorem landNote_bare (k : Call) (n : HingeNote) : (s.landNote k n).bare q = s.bare q := by
  unfold State.landNote
  extract_lets u v
  have hu : u.bare q = s.bare q := ite_keeps (State.bare · q) rfl (ite_keeps (State.bare · q) rfl rfl)
  have hv : v.bare q = u.bare q := by
    subst v
    split
    · exact report_bare ..
    · rfl
  exact (bare_of_seat (onCaller_seat ..)).trans (hv.trans hu)

@[simp] theorem loseCall_bare (k : Call) : (s.loseCall k).bare q = s.bare q := by
  rw [State.loseCall, landNote_bare, report_bare, bare_of_seat (withdraw_seat k)]

@[simp] theorem loseEnd_bare (link : Nat) (k : Call) : (s.loseEnd link k).bare q = s.bare q :=
  (report_bare ..).trans (bare_of_seat (withdraw_seat k))

@[simp] theorem breakTask_bare (link : Nat) (T : TaskId) : (State.breakTask link s T).bare q = s.bare q := by
  rw [State.breakTask, bare_of_seat (stir_seat _), report_bare]
  cases h : s.onTask T fun x => { x with wait := .none, phase := 1 } with
  | none => rfl
  | some u => exact bare_of_seat (onTask_seat h)

@[simp] theorem breakAt_bare (b link n : Nat) : (State.breakAt b link s n).bare q = s.bare q := by
  rw [State.breakAt, bare_of_seat (leftIdle_seat ..), foldl_keeps (State.bare · q) fun _ _ => breakTask_bare ..]

@[simp] theorem breakBar_bare (b link : Nat) : (s.breakBar b link).bare q = s.bare q := by
  fun_cases State.breakBar
  · exact foldl_keeps (State.bare · q) (fun _ _ => breakAt_bare ..) ..
  · rfl

@[simp] theorem dropOver_bare (link : Nat) : (s.dropOver link).bare q = s.bare q := by
  unfold State.dropOver
  refine (foldl_keeps (State.bare · q) (fun t m => ?_) ..).trans rfl
  have hr : (if m.body.lostCounts then t.receivedAll m else t).bare q = t.bare q :=
    ite_keeps (State.bare · q) (bare_of_seat (receivedAll_seat m)) rfl
  dsimp only
  split
  case h_12 => rw [reportAll_bare, hr]
  all_goals exact hr

@[simp] theorem loseOver_bare (link : Nat) : (s.loseOver link).bare q = s.bare q :=
  foldl_keeps (State.bare · q) (fun _ _ => ite_keeps (State.bare · q) (loseEnd_bare ..) (loseCall_bare _)) ..

@[simp] theorem breakBars_bare (link : Nat) : (s.breakBars link).bare q = s.bare q :=
  foldl_keeps (State.bare · q) (fun _ _ => breakBar_bare ..) ..

/-- The command of a queue has ended by itself, with a status and a link failure. -/
def Cut (q status : Nat) (s : State) : Prop := ∃ k, Runs s q k ∧ k.phase = .finished ∧ k.status = status ∧ k.link = true

variable {status : Nat}

theorem cut_of_bare (h : t.bare q = s.bare q) (hc : Cut q status s) : Cut q status t := by
  obtain ⟨c, hr, hp, hs, hl⟩ := hc
  obtain ⟨k, hk, he⟩ := runs_of_bare h hr
  exact ⟨k, hk, (congrArg Cmd.phase he).trans hp, (congrArg Cmd.status he).trans hs, (congrArg Cmd.link he).trans hl⟩

/-- The end of a checkpoint, of whatever queue, leaves such a command as it has ended. -/
theorem cut_onChkpt (n : Nat) (h : Cut q status s) :
    Cut q status (s.onChkpt n fun c => { c with phase := .finished, link := true }) := by
  obtain ⟨c, hc, hp, hs, hl⟩ := h
  fun_cases State.onChkpt
  · refine ⟨c, ?_, hp, hs, hl⟩
    by_cases e : q = n
    · subst e
      rwa [Runs, slot_setSlot_same]
    · rwa [Runs, slot_setSlot_ne _ _ e]
  · by_cases e : q = n
    · subst e
      exact ⟨_, runs_onCmd _ hc, rfl, hs, rfl⟩
    · exact ⟨c, by rwa [Runs, slot_onCmd_ne _ e], hp, hs, hl⟩

theorem cut_failLink (l : Nat) (h : Cut q status s) : Cut q status (s.failLink l) := by
  unfold State.failLink
  dsimp only
  split
  · exact h
  · unfold State.breakStreams
    refine List.foldlRecOn _ _ ?_ fun u hu x _ => ?_
    · refine cut_of_bare (q := q) ?_ h
      exact (breakBars_bare _).trans ((loseOver_bare _).trans ((dropOver_bare _).trans rfl))
    · split
      · split
        · exact cut_onChkpt _ hu
        · exact hu
      · exact hu

end
end Sys2Proof.Machine
end

section
namespace Sys2Proof.Machine

/-! What the checks of a LAUNCH say of its plan (R64, R66, R67). -/

theorem exists_of_mem_mapM {α β : Type} {f : α → Option β} {l : List α} {r : List β} {b : β} (h : l.mapM f = some r) (hb : b ∈ r) :
    ∃ a ∈ l, f a = some b := by
  induction l generalizing r with
  | nil =>
    obtain rfl := Option.some.inj h
    exact absurd hb List.not_mem_nil
  | cons x l ih =>
    simp only [List.mapM_cons, Option.pure_def, Option.bind_eq_bind, Option.bind_eq_some_iff, Option.some.injEq] at h
    obtain ⟨y, hy, ys, hl, rfl⟩ := h
    obtain rfl | hb := List.mem_cons.1 hb
    · exact ⟨x, List.mem_cons_self, hy⟩
    · obtain ⟨a, ha, hf⟩ := ih hl hb
      exact ⟨a, List.mem_cons_of_mem _ ha, hf⟩

section
variable {s : State} {q : Nat} {c : Cmd} {p : Plan}

/-- The leader of a group is one of its members (R67). -/
theorem leader_mem_groupOf {twin : Bool} (id : Nat) {ws : List Word} (h : (s.entryMembers twin ws).isEmpty = false) :
    (s.groupOf twin id ws).leader ∈ (s.groupOf twin id ws).members := by
  unfold State.groupOf
  dsimp only
  split
  · next hc => exact List.contains_iff_mem.1 hc
  · cases hm : s.entryMembers twin ws with
    | nil => simp [hm] at h
    | cons m ms => exact List.mem_cons_self

theorem readGroup_leader {twin : Bool} {table i : Nat} {g : Group} (h : s.readGroup twin table i = some (some g)) :
    g.leader ∈ g.members := by
  revert h
  fun_cases State.readGroup
  · rintro ⟨⟩
  · rintro ⟨⟩
  · rintro ⟨⟩
  · next h =>
    rintro ⟨⟩
    obtain ⟨-, hm⟩ := not_or.1 (Bool.or_eq_true .. ▸ h)
    exact leader_mem_groupOf i (Bool.eq_false_of_not_eq_true hm)

theorem readGroups_leader {twin : Bool} {table : Nat} {gs : List Group} (h : s.readGroups twin table = some gs) {g : Group} (hg : g ∈ gs) :
    g.leader ∈ g.members := by
  obtain ⟨l, hl, h⟩ := Option.bind_eq_some_iff.1 h
  dsimp only at h
  split at h
  · obtain rfl := Option.some.inj h
    obtain ⟨o, ho, he⟩ := List.mem_filterMap.1 hg
    obtain ⟨i, -, hi⟩ := exists_of_mem_mapM hl ho
    exact readGroup_leader (hi.trans (congrArg some he))
  · exact absurd h nofun

/-- The root record of a plan is the packet's, and the leaders of its groups are among its members. -/
theorem plan_eq_some {twin : Bool} {b : List Byte} (h : s.plan q twin b = some p) :
    p.root = pkRoot q b ∧ ∀ g ∈ p.groups, g.leader ∈ p.members := by
  unfold State.plan at h
  dsimp only at h
  split at h
  · exact absurd h nofun
  · next gs hgs =>
    split at h
    · obtain rfl := Option.some.inj h
      refine ⟨rfl, fun g hg => ?_⟩
      have hm : g.leader ∈ (gs.flatMap (·.members)).eraseDups :=
        List.mem_eraseDups.2 (List.mem_flatMap.2 ⟨g, hg, readGroups_leader hgs hg⟩)
      dsimp only
      split
      · exact List.mem_append_left _ hm
      · exact hm
    · exact absurd h nofun

theorem checkLaunch_ok (h : s.checkLaunch q c = .ok p) : s.plan q c.twin c.packet = some p := by
  revert h
  fun_cases State.checkLaunch <;> rintro ⟨⟩
  assumption

/-- A LAUNCH that a check rejects has a status (R64). -/
theorem checkLaunch_error {status : Nat} {w : Word} (h : s.checkLaunch q c = .error (status, w)) : status ≠ 0 := by
  revert h
  fun_cases State.checkLaunch <;> rintro ⟨⟩ <;> decide

end

/-! What the preparation of a LAUNCH leaves as it is (R46, R47, R64). -/

/-- A link failed under the messages of a queue's packet. -/
def State.lostLink (s : State) (q : Nat) : Bool := (s.slot q).cmd.any Cmd.lostLink

/-- The tick, the package, a queue's slot beside its command's counts, and whether a link failed under its messages. -/
def State.stand (s : State) (q : Nat) : Word × Nat × Slot × Bool := (s.tick, s.pkg, s.bare q, s.lostLink q)

section
variable {s t : State} {q : Nat}

theorem stand_of_seat (h : t.seat = s.seat) : t.stand q = s.stand q := by
  have hb := bare_of_seat (q := q) h
  simp only [State.seat, Prod.mk.injEq] at h
  obtain ⟨hz, ht, hp⟩ := h
  rw [State.stand, State.stand, hb, ht, hp, State.lostLink, State.slot, hz]
  rfl

theorem setCore_stand (n : Nat) (c : CoreSt) : (s.setCore n c).stand q = s.stand q := rfl

theorem any_setAt {α : Type} (m : Sparse α) (k j : Nat) (a : α) :
    ((setAt m k a).any fun r => r.1 == j) = (m.any (fun r => r.1 == j) || k == j) := by
  fun_induction setAt
  case case1 => simp
  case case2 => simp [Bool.or_comm]
  case case3 => simp [Bool.or_comm]
  case case4 ih => simp only [List.any_cons, ih, Bool.or_assoc]

theorem onCmd_lostLink {n : Nat} {f : Cmd → Cmd} (hf : ∀ c, (f c).lostLink = c.lostLink) : (s.onCmd n f).lostLink q = s.lostLink q := by
  by_cases e : q = n
  · subst e
    cases hc : (s.slot q).cmd with
    | none => rw [onCmd_of_none f hc]
    | some c => simp only [State.lostLink, slot_onCmd f hc, hc, Option.any_some, hf]
  · rw [State.lostLink, State.lostLink, slot_onCmd_ne _ e]

/-- A report of another cause than a failed link. -/
theorem report_stand (i : Issuer) {cause : Nat} (colour : Nat) (w : Word) (h : cause ≠ 0x2B) :
    (s.report i cause colour w).stand q = s.stand q := by
  fun_cases State.report
  · rfl
  · exact stand_of_seat (onTask_seat (s := s.bump _) ‹_›)
  · rfl
  · obtain ⟨z, hz⟩ := onTally_eq (s := s.bump (0x0A90 + 8 * cause)) i.task.slot i.task.core fun y => { y with faults := y.faults.add cause colour w }
    have hl : (State.onTally (s.bump (0x0A90 + 8 * cause)) i.task.slot i.task.core fun y =>
        { y with faults := y.faults.add cause colour w }).lostLink q = s.lostLink q := by
      refine onCmd_lostLink fun c => ?_
      split
      · rfl
      · simp [Cmd.lostLink, FaultCell.add, any_setAt, h]
    rw [State.stand, State.stand, hl, onTally_bare, hz]
    rfl

/-! Latches that a block's bolting decides (R206, R207, R211). -/

theorem deliverSlot_stand (l : Latch) (m : MboxHead) : (s.deliverSlot l m).1.stand q = s.stand q := by
  fun_cases State.deliverSlot
  case case4 =>
    refine (stand_of_seat (seat_update rfl)).trans ((report_stand _ _ _ (by decide)).trans (stand_of_seat (poke_seat ..)))
  case case6 => exact stand_of_seat (seat_update (poke_seat ..))
  all_goals rfl

theorem decideAt_stand (l : Latch) : (s.decideAt l).1.stand q = s.stand q := by
  fun_cases State.decideAt
  case case11 => fun_cases State.reserve <;> rfl
  case case13 => exact deliverSlot_stand ..
  all_goals rfl

theorem decideAt_fst {l : Latch} {a : Option Answer} (h : s.decideAt l = (t, a)) : t.stand q = s.stand q := by
  simpa only [h] using decideAt_stand (s := s) l

theorem wakeWaiter_stand (l : Latch) (a : Answer) : (s.wakeWaiter l a).stand q = s.stand q := stand_of_seat (send_seat _)

theorem decideAll_stand (p : Latch → Bool) (l : List Latch) : (s.decideAll p l).1.stand q = s.stand q := by
  fun_induction State.decideAll
  case case1 => rfl
  case case2 he ih => rw [ih, wakeWaiter_stand, decideAt_fst he]
  case case3 he _ ih => exact ih.trans (decideAt_fst he)
  case case4 ih => exact ih

theorem refill_stand (home n : Nat) : (s.refill home n).stand q = s.stand q := by
  obtain ⟨l, hl⟩ := refill_eq (s := s) home n
  rw [hl]
  rfl

theorem redecide_stand (pa : Nat) (p : Latch → Bool) : (s.redecide pa p).stand q = s.stand q := by
  unfold State.redecide
  exact (refill_stand ..).trans ((stand_of_seat seat_eq).trans ((decideAll_stand ..).trans ((stand_of_seat seat_eq).trans (decideAll_stand ..))))

theorem boltBlock_stand (pa slot group : Nat) : (s.boltBlock pa slot group).stand q = s.stand q :=
  ite_keeps (State.stand · q) rfl (redecide_stand (s := s.setBlock _ _) ..)

/-! Regions (R46). -/

theorem putBuf_seat (h : Nat) (b : BufHead) : (s.putBuf h b).seat = s.seat := seat_eq rfl rfl rfl

theorem emptyBufs_seat (ch : Chain) (n h : Nat) : (s.emptyBufs ch n h).seat = s.seat := by
  fun_induction State.emptyBufs
  case case3 => exact seat_update (putBuf_seat ..)
  case case4 ih => exact ih.trans (seat_update (putBuf_seat ..))
  all_goals rfl

theorem initBlock_stand (n : Nat) (r : Region) (off pa : Nat) (ch : Chain) (bs : List Byte) :
    (s.initBlock n r off pa ch bs).stand q = s.stand q := by
  unfold State.initBlock
  extract_lets _ e u v
  have he : e.seat = s.seat := ite_keeps State.seat (emptyBufs_seat ..) rfl
  have hu : u.seat = s.seat := ite_keeps State.seat he rfl
  have hv : v.stand q = s.stand q := stand_of_seat hu
  exact ite_keeps (State.stand · q) ((boltBlock_stand ..).trans hv) hv

theorem initSpot_stand (n : Nat) (r : Region) (off : Nat) (p : Spot) (ch : Chain) : (s.initSpot n r off p ch).stand q = s.stand q :=
  ite_keeps (State.stand · q) ((initBlock_stand ..).trans (stand_of_seat (seen_seat ..))) (stand_of_seat (send_seat _))

theorem initAt_stand (n : Nat) (twin : Bool) (r : Region) (off : Nat) : (s.initAt n twin r off).stand q = s.stand q := by
  fun_cases State.initAt
  · rfl
  · exact (initSpot_stand ..).trans (initSpot_stand ..)
  · exact initSpot_stand ..

theorem initRegion_stand (n : Nat) (twin : Bool) (r : Region) : (State.initRegion n twin s r).stand q = s.stand q :=
  ite_keeps (State.stand · q) rfl (foldl_keeps (State.stand · q) (fun _ _ => initAt_stand ..) ..)

/-! Tiles. -/

theorem loadTile_seat (img : List Byte) (n : Nat) : (s.loadTile img n).seat = s.seat :=
  foldl_keeps State.seat (fun _ _ => ite_keeps State.seat (overwrite_seat ..) rfl) ..

theorem setBar_seat (b : Nat) (x : Bar) : (s.setBar b x).seat = s.seat := rfl

theorem bindBars_seat (n m : Nat) (twin : Bool) (gs : List Group) : (s.bindBars n m twin gs).seat = s.seat :=
  foldl_keeps State.seat (fun t g => foldl_keeps State.seat (fun u b => setBar_seat (s := u) b _) (Group.bars g) t) ..

theorem beginLog_seat (n : Nat) (c : Cmd) : (s.beginLog n c).seat = s.seat := by
  fun_cases State.beginLog
  · exact seat_eq
  · rfl

/-- A command with what its plan says (R64). -/
def Cmd.planned (c : Cmd) (p : Plan) : Cmd :=
  { c with groups := p.groups, hinge := p.hinge, regions := p.regions, code := p.code, members := p.members, x3 := firstImage p.regions }

/-- Of where the commands stand, the preparation of a LAUNCH changes its own command alone, which takes what its plan says. -/
theorem prepare_stand (c : Cmd) (p : Plan) : (s.prepare q c p).stand q = (s.setCmd q (some (c.planned p))).stand q := by
  unfold State.prepare
  dsimp only
  rw [stand_of_seat (beginLog_seat ..), stand_of_seat (invalidate_seat _), foldl_keeps (State.stand · q) fun u n => setCore_stand (s := u) n _,
    foldl_keeps (State.stand · q) fun _ _ => stand_of_seat (loadTile_seat ..),
    foldl_keeps (State.stand · q) fun _ _ => initRegion_stand .., stand_of_seat (bindBars_seat ..)]
  rfl

end
end Sys2Proof.Machine
end

section
namespace Sys2Proof.Machine

/-! Where a root record starts (R64, R72, R75). -/

section
variable {s t : State} {q n : Nat}

theorem freeCtx_isSome {c : CoreSt} : c.freeCtx.isSome = true ↔ ∃ i, i < 4 ∧ (c.ctx i).role = .free := by
  constructor
  · intro h
    obtain ⟨i, hi⟩ := Option.isSome_iff_exists.1 h
    have hm : i ∈ [0, 1, 2, 3] := List.mem_of_find?_eq_some hi
    exact ⟨i, by simp at hm; omega, by simpa using List.find?_some hi⟩
  · rintro ⟨i, hi, hr⟩
    exact List.find?_isSome.2 ⟨i, by simp; omega, by simpa using hr⟩

theorem freeCtx_eq_some {c : CoreSt} {i : Nat} (h : c.freeCtx = some i) : i < 4 := by
  have hm : i ∈ [0, 1, 2, 3] := List.mem_of_find?_eq_some h
  simp at hm
  omega

theorem ctx_setCtx_ne (c : CoreSt) {i j : Nat} (x : Ctx) (h : i ≠ j) : (c.setCtx j x).ctx i = c.ctx i := by
  rw [CoreSt.ctx, CoreSt.setCtx, Vector.getElem?_setIfInBounds, if_neg (Ne.symm h)]
  rfl

/-- A member tile as a LAUNCH leaves it has a context for a task: its reduction server takes one at most (R64, R315). -/
theorem configured_freeCtx (c : CoreSt) (pkg m slot : Nat) (gs : List Group) (xb k : Nat) (east : Bool) :
    (c.configured pkg m slot gs xb k east).freeCtx.isSome = true := by
  rw [freeCtx_isSome]
  unfold CoreSt.configured
  extract_lets mine tree u v
  have hv (i : Nat) (hi : i < 4) : v.ctx i = {} := by
    simp only [v, List.foldl_cons, List.foldl_nil, ctx_setCtx_core _ _ _ _ (show 0 < 5 by decide),
      ctx_setCtx_core _ _ _ _ (show 1 < 5 by decide), ctx_setCtx_core _ _ _ _ (show 2 < 5 by decide),
      ctx_setCtx_core _ _ _ _ (show 3 < 5 by decide)]
    interval_cases i <;> rfl
  clear_value tree
  cases tree with
  | none => exact ⟨0, by decide, by rw [hv 0 (by decide)]⟩
  | some g =>
    obtain ⟨i, hi, hg⟩ : ∃ i, i < 4 ∧ i ≠ g.server := ⟨if g.server = 0 then 1 else 0, by split <;> decide, by split <;> omega⟩
    have hc : ((v.setCtx g.server { role := .server }).setPort 3 { bound := some (g.server, 3, true, Word.field v.rtree 20 16 + 1) }).ctx i =
        v.ctx i := ctx_setCtx_ne v _ hg
    exact ⟨i, hi, by rw [hc, hv i hi]⟩

/-- What a map that keeps the default does to an entry. -/
theorem look_map {α : Type} {d : α} {f : α → α} (hf : f d = d) (m : Sparse α) (k : Nat) :
    look d (m.map fun e => (e.1, f e.2)) k = f (look d m k) := by
  fun_induction look d m k
  case case1 => simp [look, hf]
  case case2 => simp [look]
  case case3 => simp [look, *]
  case case4 => simp [look, *]

theorem invalidate_freeCtx (n : Nat) : ((s.invalidate q).core n).freeCtx = (s.core n).freeCtx := by
  have h : (s.invalidate q).core n = { s.core n with
      tlb := (s.core n).tlb.filter fun e => e.slot != q, copyTlb := (s.core n).copyTlb.filter fun e => e.slot != q } :=
    look_map (f := fun c : CoreSt => { c with tlb := c.tlb.filter fun e => e.slot != q, copyTlb := c.copyTlb.filter fun e => e.slot != q }) rfl
      s.cores n
  rw [h]
  rfl

theorem beginLog_core (c : Cmd) (n : Nat) : (s.beginLog q c).core n = s.core n := by
  have h : (s.beginLog q c).cores = s.cores := by
    fun_cases State.beginLog <;> with_reducible rfl
  rw [State.core, State.core, h]

/-- Cores that are changed one after the other: each of them is as its own change left it. -/
theorem foldl_setCore_prop {P : CoreSt → Prop} {f : State → Nat → CoreSt} (hf : ∀ t n, P (f t n)) {l : List Nat} (hn : n ∈ l) :
    P ((l.foldl (fun t n => t.setCore n (f t n)) s).core n) := by
  induction l using List.reverseRecOn with
  | nil => exact absurd hn List.not_mem_nil
  | append_singleton l m ih =>
    rw [List.foldl_append, List.foldl_cons, List.foldl_nil, core_setCore]
    split
    · exact hf ..
    · next h => exact ih ((List.mem_append.1 hn).resolve_right fun e => h (List.mem_singleton.1 e))

/-- A prepared LAUNCH leaves each of its members a context for a task. -/
theorem prepare_freeCtx {c : Cmd} {p : Plan} (hn : n ∈ p.members) : ((s.prepare q c p).core n).freeCtx.isSome = true := by
  unfold State.prepare
  extract_lets k u v w x xb y
  rw [beginLog_core, invalidate_freeCtx]
  exact foldl_setCore_prop (P := fun c => c.freeCtx.isSome = true) (fun _ _ => configured_freeCtx ..) hn

/-- The context where a record starts holds its task. -/
theorem startOn_role {i : Nat} (r : Rec) (hi : i < 4) : ((s.startOn n i r).ctxOf n i).role = .task := by
  have h (t old : State) : ((old.leftIdle n t).ctxOf n i) = t.ctxOf n i := by
    fun_cases State.leftIdle
    · rw [State.ctxOf, core_setCore_same]
      rfl
    · rfl
  rw [State.startOn, h, State.ctxOf, core_setCore_same, ctx_setCtx_core _ _ _ _ (by omega), if_pos rfl]
  simp [State.freshTask]

theorem startOn_core_ne {m i : Nat} (r : Rec) (h : m ≠ n) : (s.startOn n i r).core m = s.core m := by
  have hl (t old : State) : (old.leftIdle n t).core m = t.core m := by
    fun_cases State.leftIdle
    · exact core_setCore_ne _ _ h
    · rfl
  rw [State.startOn, hl, core_setCore_ne _ _ h]

end
end Sys2Proof.Machine
end

section
namespace Sys2Proof.Machine

/-! LAUNCH (R64, R72): a prepared command waits for other packages, ends, or starts. -/

section
variable {s t : State} {q : Nat} {c : Cmd} {w : Word}

/-- A record starts on a core that has a free context (R72, R75). -/
def State.startFree (s : State) (n : Nat) (r : Rec) : State :=
  match (s.core n).freeCtx with
  | some i => s.startOn n i r
  | none => s

theorem startFree_seat (n : Nat) (r : Rec) : (s.startFree n r).seat = s.seat := by
  fun_cases State.startFree
  · exact startOn_seat ..
  · rfl

theorem startFree_core_ne {n m : Nat} (r : Rec) (h : m ≠ n) : (s.startFree n r).core m = s.core m := by
  fun_cases State.startFree
  · exact startOn_core_ne _ h
  · rfl

theorem startFree_role {n : Nat} (r : Rec) (h : (s.core n).freeCtx.isSome = true) :
    ∃ i, i < 4 ∧ ((s.startFree n r).ctxOf n i).role = .task := by
  obtain ⟨i, hi⟩ := Option.isSome_iff_exists.1 h
  rw [State.startFree, hi]
  exact ⟨i, freeCtx_eq_some hi, startOn_role r (freeCtx_eq_some hi)⟩

/-- A command as it starts at a tick. -/
def Cmd.started (c : Cmd) (w : Word) : Cmd := { c with phase := .running, tstart := w, clean := 0 }

theorem dispatch_of_none (h : Runs s q c) (hg : (c.groups.find? fun g => g.id == (pkRoot q c.packet).group) = none) :
    s.dispatch q w = s.onCmd q fun c => c.started w := by
  unfold State.dispatch
  rw [show (s.slot q).cmd = some c from h]
  simp only [hg]
  rfl

theorem dispatch_of_some {g : Group} (h : Runs s q c)
    (hg : (c.groups.find? fun g => g.id == (pkRoot q c.packet).group) = some g) :
    s.dispatch q w = if c.twin then ((s.onCmd q fun c => c.started w).startFree g.leader (pkRoot q c.packet)).startFree (g.leader + 16) (pkRoot q c.packet)
      else (s.onCmd q fun c => c.started w).startFree g.leader (pkRoot q c.packet) := by
  unfold State.dispatch
  rw [show (s.slot q).cmd = some c from h]
  simp only [hg]
  rfl

/-- Of where the commands stand, a dispatch changes its own command alone. -/
theorem dispatch_seat (h : Runs s q c) : (s.dispatch q w).seat = (s.onCmd q fun c => c.started w).seat := by
  cases hg : c.groups.find? fun g => g.id == (pkRoot q c.packet).group with
  | none => rw [dispatch_of_none h hg]
  | some g =>
    rw [dispatch_of_some h hg]
    exact ite_keeps State.seat ((startFree_seat ..).trans (startFree_seat ..)) (startFree_seat ..)

theorem slots_of_seat (h : t.seat = s.seat) : t.slots = s.slots := congrArg Prod.fst h
theorem pkg_of_seat (h : t.seat = s.seat) : t.pkg = s.pkg := congrArg (fun x => x.2.2) h

theorem runs_dispatch (h : Runs s q c) : Runs (s.dispatch q w) q (c.started w) :=
  runs_of_slots (runs_onCmd _ h) (slots_of_seat (dispatch_seat h))

theorem onCmd_core (n m : Nat) (f : Cmd → Cmd) : (s.onCmd n f).core m = s.core m := by
  fun_cases State.onCmd <;> rfl

/-- The root record starts on the leader of its group where that core has a free context (R72). -/
theorem dispatch_role {g : Group} (h : Runs s q c) (hg : (c.groups.find? fun g => g.id == (pkRoot q c.packet).group) = some g)
    (hf : (s.core g.leader).freeCtx.isSome = true) : ∃ i, i < 4 ∧ ((s.dispatch q w).ctxOf g.leader i).role = .task := by
  have hr := startFree_role (s := s.onCmd q fun c => c.started w) (pkRoot q c.packet) (by rwa [onCmd_core])
  rw [dispatch_of_some h hg]
  split
  · simp only [State.ctxOf, startFree_core_ne _ (show g.leader ≠ g.leader + 16 by omega)]
    exact hr
  · exact hr

/-! Preparing. -/

theorem whenReady_of_owes {f : State → Cmd → State} (h : Runs s q c) (ho : s.frontOwes q = true) :
    s.whenReady q f = s.phase q .preparing := by
  simp [State.whenReady, show (s.slot q).cmd = some c from h, ho]

theorem whenReady_of_ready {f : State → Cmd → State} (h : Runs s q c) (ho : s.frontOwes q = false) (hw : (s.slot q).hw.isSome = true) :
    s.whenReady q f = f s c := by
  have hn : (s.slot q).hw.isNone = false := by simpa using hw
  simp [State.whenReady, show (s.slot q).cmd = some c from h, ho, hn]

theorem launchReady_ended (h : Runs s q c) (ho : s.frontOwes q = false) (hw : (s.slot q).hw.isSome = true)
    (he : c.cancel = true ∨ c.lostLink = true) : s.launchReady q = s.phase q .finished := by
  rw [State.launchReady, whenReady_of_ready h ho hw, if_pos (by simpa using he)]

theorem launchReady_starts (h : Runs s q c) (ho : s.frontOwes q = false) (hw : (s.slot q).hw.isSome = true)
    (hc : c.cancel = false) (hl : c.lostLink = false) : s.launchReady q = s.dispatch q s.tick := by
  rw [State.launchReady, whenReady_of_ready h ho hw, if_neg (by simp [hc, hl])]

theorem runs_phase (p : CmdPhase) (h : Runs s q c) : Runs (s.phase q p) q { c with phase := p } := runs_onCmd _ h

/-- What a prepared LAUNCH leads to keeps what its plan says. -/
theorem runs_launchReady (h : Runs s q c) (hw : (s.slot q).hw.isSome = true) :
    ∃ k, Runs (s.launchReady q) q k ∧ k.members = c.members ∧ k.groups = c.groups ∧ (s.frontOwes q = true → k.phase = .preparing) := by
  cases ho : s.frontOwes q with
  | true =>
    refine ⟨{ c with phase := .preparing }, ?_, rfl, rfl, fun _ => rfl⟩
    rw [State.launchReady, whenReady_of_owes h ho]
    exact runs_phase _ h
  | false =>
    by_cases he : c.cancel = true ∨ c.lostLink = true
    · refine ⟨{ c with phase := .finished }, ?_, rfl, rfl, nofun⟩
      rw [launchReady_ended h ho hw he]
      exact runs_phase _ h
    · simp only [not_or, Bool.not_eq_true] at he
      obtain ⟨hc, hl⟩ := he
      refine ⟨c.started s.tick, ?_, rfl, rfl, nofun⟩
      rw [launchReady_starts h ho hw hc hl]
      exact runs_dispatch h

/-- What the preparation of a command leaves: its slot still mapped, with the QCB that it had, at the same tick, and its command
with what the plan says, beside its counts. -/
structure Prepared (s : State) (q : Nat) (c : Cmd) (p : Plan) (t : State) (k : Cmd) : Prop where
  tick : t.tick = s.tick
  pkg : t.pkg = s.pkg
  hw : (t.slot q).hw = (s.slot q).hw
  qcb : (t.slot q).qcb = (s.slot q).qcb
  runs : Runs t q k
  cmd : k.uncounted = (c.planned p).uncounted
  lost : k.lostLink = c.lostLink

theorem prepare_prepared (c : Cmd) (p : Plan) : ∃ k, Prepared s q c p (s.prepare q c p) k := by
  have h := prepare_stand (s := s) (q := q) c p
  simp only [State.stand, Prod.mk.injEq] at h
  obtain ⟨ht, hp, hb, hl⟩ := h
  obtain ⟨k, hk, he⟩ := runs_of_bare hb runs_setCmd
  have hq : (s.setCmd q (some (c.planned p))).slot q = { s.slot q with cmd := some (c.planned p) } := slot_setCmd _
  have hx : (s.setCmd q (some (c.planned p))).bare q = { s.slot q with cmd := some (c.planned p).uncounted } := by
    rw [State.bare, hq]
    rfl
  have hr := hb.trans hx
  refine ⟨k, ht, hp, (congrArg Slot.hw hr).trans rfl, (congrArg Slot.qcb hr).trans rfl, hk, he, ?_⟩
  rw [State.lostLink, State.lostLink, show ((s.prepare q c p).slot q).cmd = some k from hk, hq] at hl
  exact hl

end
end Sys2Proof.Machine
end

section
namespace Sys2Proof.Machine

/-! LAUNCH's step. -/

section
variable {s : State} {q : Nat} {c : Cmd} {p : Plan}

/-- A packet of the step's opcode that has been fetched takes its effect (R55, R57). -/
theorem packet_due {op : Nat} (f : State → Cmd → State) (h : Due s q op c) : s.packet q op f = .next (f s c) := by
  obtain ⟨hc, ho, hp, hw⟩ := h
  have hs : s.starts q op = s := by simp [State.starts, State.peek, hc]
  simp [State.packet, hs, hc, ho, hp, hw]

theorem isPreparing_of_due {op : Nat} (h : Due s q op c) : s.isPreparing q op = false := by
  obtain ⟨hc, -, hp, -⟩ := h
  simp [State.isPreparing, hc, hp]

theorem exec_launch_error {status : Nat} {w : Word} (h : Due s q 1 c) (he : s.checkLaunch q c = .error (status, w)) :
    exec (.launch q) s = .next (s.onCmd q fun c => { c with phase := .finished, status := status, ftval := w }) := by
  change execLaunch q s = _
  rw [execLaunch, isPreparing_of_due h, if_neg (by decide), packet_due _ h]
  simp only [he]

theorem exec_launch_ok (h : Due s q 1 c) (hk : s.checkLaunch q c = .ok p) :
    exec (.launch q) s = .next (if s.blockedBy q p then s else (s.prepare q c p).launchReady q) := by
  change execLaunch q s = _
  rw [execLaunch, isPreparing_of_due h, if_neg (by decide), packet_due _ h]
  simp only [hk]

theorem exec_launch_preparing (hc : Runs s q c) (ho : c.op = 1) (hp : c.phase = .preparing) :
    exec (.launch q) s = .next (s.launchReady q) := by
  change execLaunch q s = _
  have h : s.isPreparing q 1 = true := by simp [State.isPreparing, show (s.slot q).cmd = some c from hc, ho, hp]
  rw [execLaunch, if_pos h]

end
end Sys2Proof.Machine
end

section
namespace Sys2Proof.Machine

/-! The control flits of a gang (R53, R73). -/

section
variable {s t : State} {q : Nat}

/-- The gang identity in a queue's QCB (R53). -/
def State.gangName (s : State) (q : Nat) : Nat := Word.field (wordAt (s.slot q).qcb 5) 47 32

/-- A control flit on vnet 8 from a package's front end to that of package `p`. -/
def gangMsg (pkg p : Nat) (ws : List Nat) : Msg := msgOf (frontEnd pkg 4096) p 8192 8 0 (.control 8 ws)

@[simp] theorem gangFlit_seat (p v : Nat) (ws : List Nat) : (s.gangFlit q p v ws).seat = s.seat := send_seat _
@[simp] theorem gangFlit_mem (p v : Nat) (ws : List Nat) : (s.gangFlit q p v ws).mem = s.mem := send_mem ..

theorem gangFlit_onWay (p : Nat) (ws : List Nat) : OnWay (s.gangFlit q p 8 ws) (gangMsg s.pkg p (s.gangName q :: ws)) := send_onWay _

theorem onWay_of_net {m : Msg} (h : OnWay s m) (hn : t.net = s.net) (ho : t.outbox = s.outbox) : OnWay t m := by
  rwa [OnWay, hn, ho]

/-- A message on its way stays there while others leave. -/
theorem onWay_send {m : Msg} (h : OnWay s m) (k : Msg) : OnWay (s.send k) m := by
  obtain ⟨l, h⟩ := h
  have hc (i : Issuer) : (s.countSent i).net = s.net ∧ (s.countSent i).outbox = s.outbox := by
    fun_cases State.countSent <;> exact ⟨rfl, rfl⟩
  have hn (u : State) : (u.numberOut k).net = u.net ∧ (u.numberOut k).outbox = u.outbox := by
    fun_cases State.numberOut <;> exact ⟨rfl, rfl⟩
  have hu : ((if k.body.counted then s.countSent k.iss else s).numberOut k).net = s.net ∧
      ((if k.body.counted then s.countSent k.iss else s).numberOut k).outbox = s.outbox := by
    rw [(hn _).1, (hn _).2]
    split
    · exact hc _
    · exact ⟨rfl, rfl⟩
  refine ⟨l, ?_⟩
  unfold State.send
  dsimp only
  split
  · rw [hu.1, hu.2]
    exact h.imp_left (List.mem_append_left _)
  · rw [hu.1, hu.2]
    exact h.imp_right (List.mem_append_left _)

theorem gangName_of_slots (h : t.slots = s.slots) : t.gangName q = s.gangName q := by
  rw [State.gangName, State.gangName, State.slot, State.slot, h]

/-- The same flit to each of several packages. -/
def State.gangFlits (s : State) (q : Nat) (ws : List Nat) (ps : List Nat) : State := ps.foldl (fun s p => s.gangFlit q p 8 ws) s

theorem gangFlits_seat (ws ps : List Nat) : (s.gangFlits q ws ps).seat = s.seat := foldl_keeps State.seat (fun _ _ => gangFlit_seat ..) ..
theorem gangFlits_mem (ws ps : List Nat) : (s.gangFlits q ws ps).mem = s.mem := foldl_keeps State.mem (fun _ _ => gangFlit_mem ..) ..

theorem gangFlits_onWay (ws : List Nat) {ps : List Nat} {p : Nat} (hp : p ∈ ps) :
    OnWay (s.gangFlits q ws ps) (gangMsg s.pkg p (s.gangName q :: ws)) := by
  induction ps using List.reverseRecOn with
  | nil => exact absurd hp List.not_mem_nil
  | append_singleton l m ih =>
    have hs := gangFlits_seat (s := s) (q := q) ws l
    rw [State.gangFlits, List.foldl_append, List.foldl_cons, List.foldl_nil, ← State.gangFlits.eq_def]
    obtain h | h := List.mem_append.1 hp
    · exact onWay_send (ih h) _
    · obtain rfl := List.mem_singleton.1 h
      have hf := gangFlit_onWay (s := s.gangFlits q ws l) (q := q) p ws
      rwa [pkg_of_seat hs, gangName_of_slots (slots_of_seat hs)] at hf

end

/-! ARM (R73). -/

section
variable {s t : State} {q : Nat} {c : Cmd} {g : Gang}

theorem armedBy_tick (pkg status start : Nat) (counts : List (Nat × Nat)) (now : Nat) :
    (g.armedBy pkg status start counts now).tick = g.tick := by
  fun_cases Gang.armedBy <;> rfl

/-- An ARM for the gang's own start tick counts where none of its package came before it, not after tick T - M. -/
theorem armedBy_eq (pkg status : Nat) (counts : List (Nat × Nat)) (now : Nat) :
    g.armedBy pkg status g.tick counts now =
      if g.arms.any (·.1 == pkg) ∨ g.tick < now + g.margin then g else { g with arms := g.arms ++ [(pkg, status, counts)] } :=
  if_congr (by simp) rfl rfl

theorem gangAt_of_gang (hc : Runs s q c) (hg : c.gang = some g) : s.gangAt q g.tick = true := by
  simp [State.gangAt, show (s.slot q).cmd = some c from hc, hg]

theorem gangAt_of_ne {start : Nat} (h : ∀ c g, (s.slot q).cmd = some c → c.gang = some g → g.tick ≠ start) : s.gangAt q start = false := by
  cases hc : (s.slot q).cmd with
  | none => simp [State.gangAt, hc]
  | some c =>
    cases hg : c.gang with
    | none => simp [State.gangAt, hc, hg]
    | some g => simp [State.gangAt, hc, hg, h c g hc hg]

/-- A command with its gang's side. -/
def Cmd.inGang (c : Cmd) (g : Gang) : Cmd := { c with gang := some g }

theorem runs_onGang (f : Gang → Gang) (hc : Runs s q c) (hg : c.gang = some g) : Runs (s.onGang q f) q (c.inGang (f g)) := by
  have h := runs_onCmd (fun c => { c with gang := c.gang.map f }) hc
  rwa [hg] at h

theorem runs_armed (pkg status : Nat) (counts : List (Nat × Nat)) (hc : Runs s q c) (hg : c.gang = some g) :
    Runs (s.armed q pkg status g.tick counts) q (c.inGang (g.armedBy pkg status g.tick counts s.tick.toNat)) := by
  rw [State.armed, if_pos (gangAt_of_gang hc hg)]
  exact runs_onGang _ hc hg

/-- What follows when a package with package number `pkg`, at a tick, arms its gang, or says with a status why not: package 0
counts it itself, another one sends it there. -/
structure Arms (pkg now name q : Nat) (g : Gang) (status : Nat) (counts : List (Nat × Nat)) (t : State) : Prop where
  armed : ∃ x y, Runs t q x ∧ x.phase = .armed ∧ x.gang = some y ∧ (pkg = 0 → y.arms =
    if g.arms.any (·.1 == 0) ∨ g.tick < now + g.margin then g.arms else g.arms ++ [(0, status, counts)])
  sent : pkg ≠ 0 → OnWay t (gangMsg pkg 0 ([name, 0, pkg, status, g.tick] ++ counts.flatMap fun n => [n.1, n.2]))

/-- The counts that an ARM with a status carries. -/
def Cmd.armCounts (c : Cmd) (status : Nat) : List (Nat × Nat) := if status = 0 then c.counts else []

theorem sendArm_eq (hc : Runs s q c) (hg : c.gang = some g) (status : Nat) :
    s.sendArm q status = if s.pkg = 0 then (s.phase q .armed).armed q 0 status g.tick (c.armCounts status)
      else (s.phase q .armed).gangFlit q 0 8 ([0, s.pkg, status, g.tick] ++ (c.armCounts status).flatMap fun n => [n.1, n.2]) := by
  have hp : ((s.phase q .armed).slot q).cmd = some { c with phase := .armed } := runs_phase _ hc
  have hk : (s.phase q .armed).pkg = s.pkg := by
    obtain ⟨z, hz⟩ := onCmd_eq (s := s) q fun c => { c with phase := .armed }
    rw [State.phase, hz]
  unfold State.sendArm
  simp only [hp, hk, Option.bind_some, hg, Option.map_some, Option.getD_some]
  rfl

theorem armed_mem (pkg status start : Nat) (counts : List (Nat × Nat)) : (s.armed q pkg status start counts).mem = s.mem :=
  ite_keeps State.mem (onCmd_mem ..) (ite_keeps State.mem rfl rfl)

theorem sendArm_mem (status : Nat) : (s.sendArm q status).mem = s.mem := by
  have hp : (s.phase q .armed).mem = s.mem := onCmd_mem ..
  exact ite_keeps State.mem ((armed_mem ..).trans hp) ((gangFlit_mem ..).trans hp)

theorem sendArm_arms (hc : Runs s q c) (hg : c.gang = some g) (status : Nat) :
    Arms s.pkg s.tick.toNat (s.gangName q) q g status (c.armCounts status) (s.sendArm q status) := by
  have hp : Runs (s.phase q .armed) q { c with phase := .armed } := runs_phase _ hc
  obtain ⟨z, hz⟩ := onCmd_eq (s := s) q fun c => { c with phase := .armed }
  have hk : (s.phase q .armed).pkg = s.pkg := by rw [State.phase, hz]
  have ht : (s.phase q .armed).tick = s.tick := by rw [State.phase, hz]
  have hn : (s.phase q .armed).gangName q = s.gangName q := by rw [State.gangName, State.phase, slot_onCmd _ hc, State.gangName]
  rw [sendArm_eq hc hg]
  constructor
  · split
    · have hr := runs_armed 0 status (c.armCounts status) hp hg
      rw [ht] at hr
      refine ⟨_, _, hr, rfl, rfl, fun _ => ?_⟩
      rw [armedBy_eq]
      split <;> rfl
    · next h => exact ⟨_, g, runs_of_slots hp (slots_of_seat (gangFlit_seat ..)), rfl, hg, fun e => absurd e h⟩
  · intro h
    rw [if_neg h]
    have hf := gangFlit_onWay (s := s.phase q .armed) (q := q) 0
      ([0, s.pkg, status, g.tick] ++ (c.armCounts status).flatMap fun n => [n.1, n.2])
    rwa [hk, hn] at hf

end
end Sys2Proof.Machine
end

section
namespace Sys2Proof.Machine

/-! GANG_DECIDE and GANG_DECISION (R73). -/

section
variable {g : Gang}

theorem verdict_of_all_armed (h : ∀ a ∈ g.arms, a.2.1 = 0) : g.verdict =
    if g.arms.any fun a => a.2.2 != (g.arms.headD (0, 0, [])).2.2 then 2
    else if (List.range g.n).all fun p => g.arms.any (·.1 == p) then 0 else 4 := by
  have hn : (g.arms.find? fun a => a.2.1 != 0) = none := by simpa [List.find?_eq_none] using h
  rw [Gang.verdict, hn]

theorem verdict_ne_zero {a : Nat × Nat × List (Nat × Nat)} (ha : a ∈ g.arms) (h : a.2.1 ≠ 0) : g.verdict ≠ 0 := by
  have hs : (g.arms.find? fun a => a.2.1 != 0).isSome = true := List.find?_isSome.2 ⟨a, ha, by simpa using h⟩
  obtain ⟨b, hb⟩ := Option.isSome_iff_exists.1 hs
  rw [Gang.verdict, hb]
  simpa using List.find?_some hb

/-- Member counts that all agree with the first package's. -/
theorem counts_agree_iff : (g.arms.any fun a => a.2.2 != (g.arms.headD (0, 0, [])).2.2) = false ↔
    ∀ a ∈ g.arms, ∀ b ∈ g.arms, a.2.2 = b.2.2 := by
  cases g.arms with
  | nil => simp
  | cons x l =>
    simp only [List.headD_cons, List.any_eq_false, bne_iff_ne, ne_eq, not_not]
    exact ⟨fun h a ha b hb => (h a ha).trans (h b hb).symm, fun h a ha => h a ha x List.mem_cons_self⟩

theorem verdict_eq_zero_iff : g.verdict = 0 ↔ (∀ p, p < g.n → ∃ a ∈ g.arms, a.1 = p) ∧ (∀ a ∈ g.arms, a.2.1 = 0) ∧
    ∀ a ∈ g.arms, ∀ b ∈ g.arms, a.2.2 = b.2.2 := by
  by_cases hz : ∀ a ∈ g.arms, a.2.1 = 0
  · rw [verdict_of_all_armed hz, ← counts_agree_iff]
    cases g.arms.any fun a => a.2.2 != (g.arms.headD (0, 0, [])).2.2 with
    | true => simp
    | false => simpa using fun _ => hz
  · refine iff_of_false ?_ fun h => hz h.2.1
    simp only [not_forall] at hz
    obtain ⟨a, ha, hn⟩ := hz
    exact verdict_ne_zero ha hn

/-- R68: unequal member counts abort. -/
theorem verdict_of_counts_differ (h : ∀ a ∈ g.arms, a.2.1 = 0) (hd : ∃ a ∈ g.arms, ∃ b ∈ g.arms, a.2.2 ≠ b.2.2) : g.verdict = 2 := by
  obtain ⟨a, ha, b, hb, hn⟩ := hd
  have hc : (g.arms.any fun a => a.2.2 != (g.arms.headD (0, 0, [])).2.2) = true := by
    rw [← Bool.not_eq_false, counts_agree_iff]
    exact fun h => hn (h a ha b hb)
  rw [verdict_of_all_armed h, if_pos hc]

end

section
variable {s t : State} {q : Nat} {c : Cmd} {g : Gang} {v : Nat}

/-- A command whose gang has its decision: it goes on, or ends with the status. -/
def Decided (q : Nat) (c : Cmd) (g : Gang) (t : State) (v : Nat) : Prop :=
  ∃ x, Runs t q x ∧ x.gang = some { g with decision := some v } ∧ (v = 0 → x.phase = c.phase) ∧
    (v ≠ 0 → x.phase = .finished ∧ x.status = v)

theorem decided_eq (v : Nat) : ∃ z, s.decided q v = { s with slots := z } := by
  obtain ⟨y, hy⟩ := onCmd_eq (s := s) q fun c => { c with gang := c.gang.map fun g => { g with decision := some v } }
  unfold State.decided State.onGang
  rw [hy]
  split
  · exact ⟨y, rfl⟩
  · obtain ⟨z, hz⟩ := onCmd_eq (s := { s with slots := y }) q fun c => { c with phase := .finished, status := v }
    exact ⟨z, hz⟩

theorem decided_decided (hc : Runs s q c) (hg : c.gang = some g) (v : Nat) : Decided q c g (s.decided q v) v := by
  have hr := runs_onGang (fun g => { g with decision := some v }) hc hg
  unfold State.decided
  split
  · next h => exact ⟨_, hr, rfl, fun _ => rfl, fun e => absurd h e⟩
  · next h => exact ⟨_, runs_onCmd _ hr, rfl, fun e => absurd e h, fun _ => ⟨rfl, rfl⟩⟩

theorem undecided_of_none (hc : Runs s q c) (hg : c.gang = some g) (hp : c.phase = .armed ∨ c.phase = .fetched ∨ c.phase = .preparing)
    (hd : g.decision = none) : s.undecided q = some g := by
  simp [State.undecided, show (s.slot q).cmd = some c from hc, hp, hg, hd]

theorem undecided_of_some (hc : Runs s q c) (hg : c.gang = some g) (hd : g.decision = some v) : s.undecided q = none := by
  simp [State.undecided, show (s.slot q).cmd = some c from hc, hg, hd]

theorem others_eq (hc : Runs s q c) (hg : c.gang = some g) : s.others q = (List.range g.n).filter (· != s.pkg) := by
  simp [State.others, show (s.slot q).cmd = some c from hc, hg]

theorem decideGang_of_none (h : s.undecided q = none) : s.decideGang q = s := by
  rw [State.decideGang, h]

theorem decideGang_of_pkg (h : s.pkg ≠ 0) : s.decideGang q = s := by
  unfold State.decideGang
  split
  · exact if_neg h
  · rfl

theorem decideGang_eq (hu : s.undecided q = some g) (hp : s.pkg = 0) :
    s.decideGang q = (s.gangFlits q [1, g.verdict, g.tick] (s.others q)).decided q g.verdict := by
  simp only [State.decideGang, hu, hp, if_true]
  rfl

/-- A decision that flits carry to other packages takes effect here. -/
theorem gangFlits_decided (hc : Runs s q c) (hg : c.gang = some g) (ps : List Nat) (k v : Nat) :
    ∃ t, t = (s.gangFlits q [1, v, k] ps).decided q v ∧ t.mem = s.mem ∧ Decided q c g t v ∧
      ∀ p ∈ ps, OnWay t (gangMsg s.pkg p [s.gangName q, 1, v, k]) := by
  have hs := gangFlits_seat (s := s) (q := q) [1, v, k] ps
  obtain ⟨z, hz⟩ := decided_eq (s := s.gangFlits q [1, v, k] ps) (q := q) v
  refine ⟨_, rfl, ?_, decided_decided (runs_of_slots hc (slots_of_seat hs)) hg v, fun p hp => ?_⟩
  · rw [hz]
    exact gangFlits_mem ..
  · rw [hz]
    exact onWay_of_net (gangFlits_onWay _ hp) rfl rfl

theorem exec_gangDecide_early (hu : s.undecided q = some g) (h : s.tick.toNat + g.margin < g.tick) : exec (.gangDecide q) s = .next s := by
  change execGangDecide q s = _
  simp only [execGangDecide, hu, if_pos h]

/-- GANG_DECIDE at package 0 from tick T - M on. -/
theorem exec_gangDecide (hc : Runs s q c) (hg : c.gang = some g) (hu : s.undecided q = some g) (hp : s.pkg = 0)
    (h : g.tick ≤ s.tick.toNat + g.margin) : ∃ t, exec (.gangDecide q) s = .next t ∧ t.mem = s.mem ∧ Decided q c g t g.verdict ∧
      ∀ p, 0 < p → p < g.n → OnWay t (gangMsg 0 p [s.gangName q, 1, g.verdict, g.tick]) := by
  obtain ⟨t, ht, hm, hd, hw⟩ := gangFlits_decided hc hg (s.others q) g.tick g.verdict
  refine ⟨t, ?_, hm, hd, fun p h0 hn => ?_⟩
  · change execGangDecide q s = _
    simp only [execGangDecide, hu, if_neg (Nat.not_lt.2 h), decideGang_eq hu hp, ht]
  · have hmem : p ∈ s.others q := by
      rw [others_eq hc hg, hp]
      exact List.mem_filter.2 ⟨List.mem_range.2 hn, by simpa using Nat.ne_of_gt h0⟩
    have := hw p hmem
    rwa [hp] at this

theorem relay_eq (v k : Nat) : s.relay q v k = s.gangFlits q [1, v, k] ((List.range (s.gangCount q)).filter fun p => p != 0 && p != s.pkg) :=
  rfl

theorem exec_gangDecision_late (status : BitVec 8) {start : Nat} (h : start < s.tick.toNat) :
    exec (.gangDecision q (status, start)) s = .next s := by
  change execGangDecision q (status, start) s = _
  rw [execGangDecision, if_pos (.inr h)]

/-- GANG_DECISION before the package's own packet has been read: it is passed on, and kept for it. -/
theorem exec_gangDecision_kept (status : BitVec 8) {start : Nat} (hp : s.pkg ≠ 0) (h : s.tick.toNat ≤ start)
    (hg : s.gangAt q start = false) (hd : ∀ v, (s.queue q).decision ≠ some (v, start)) :
    ∃ t, exec (.gangDecision q (status, start)) s = .next t ∧ t.slots = s.slots ∧
      (t.queue q).decision = some (status.toNat, start) := by
  have hn : ((s.queue q).decision.any fun d => d.2 == start) = false := by
    cases hq : (s.queue q).decision with
    | none => rfl
    | some d =>
      simp only [Option.any_some, beq_eq_false_iff_ne]
      rintro rfl
      exact hd d.1 hq
  refine ⟨(s.relay q status.toNat start).setQueue q { s.queue q with decision := some (status.toNat, start) }, ?_,
    slots_of_seat (gangFlits_seat (s := s) (q := q) [1, status.toNat, start] _), ?_⟩
  · change execGangDecision q (status, start) s = _
    simp only [execGangDecision, hp, Nat.not_lt.2 h, or_self, if_false, hg, Bool.false_eq_true, hn]
  · exact congrArg Queue.decision (look_setAt_same ..)

/-- GANG_DECISION for the gang of the package's packet: it is passed on, and takes effect. -/
theorem exec_gangDecision (status : BitVec 8) (hc : Runs s q c) (hg : c.gang = some g) (hu : s.undecided q = some g) (hp : s.pkg ≠ 0)
    (h : s.tick.toNat ≤ g.tick) : ∃ t, exec (.gangDecision q (status, g.tick)) s = .next t ∧ t.mem = s.mem ∧
      Decided q c g t status.toNat ∧ ∀ p, 0 < p → p < s.gangCount q → p ≠ s.pkg →
        OnWay t (gangMsg s.pkg p [s.gangName q, 1, status.toNat, g.tick]) := by
  obtain ⟨t, ht, hm, hd, hw⟩ := gangFlits_decided hc hg ((List.range (s.gangCount q)).filter fun p => p != 0 && p != s.pkg) g.tick status.toNat
  refine ⟨t, ?_, hm, hd, fun p h0 hn hk => hw p (List.mem_filter.2 ⟨List.mem_range.2 hn, by simpa using ⟨Nat.ne_of_gt h0, hk⟩⟩)⟩
  change execGangDecision q (status, g.tick) s = _
  simp only [execGangDecision, hp, Nat.not_lt.2 h, or_self, if_false, gangAt_of_gang hc hg, if_true, hu, Option.isSome_some, ht, relay_eq]

end
end Sys2Proof.Machine
end

section
namespace Sys2Proof.Machine

/-! GANG_START (R73). -/

section
variable {s t : State} {q : Nat} {c : Cmd} {g : Gang} {w : Word}

/-- A gang's command has started at a tick; one that holds no slot, pre-empted (R59). -/
def Started (q : Nat) (hw : Option Nat) (w : Word) (t : State) : Prop :=
  ∃ k, Runs t q k ∧ k.tstart = w ∧ (hw.isSome = true → k.phase = .running) ∧ (hw = none → k.phase = .preempted)

theorem slot_dispatch (h : Runs s q c) : (s.dispatch q w).slot q = { s.slot q with cmd := some (c.started w) } := by
  rw [State.slot, slots_of_seat (dispatch_seat h)]
  exact slot_onCmd _ h

theorem gangDispatch_started (h : Runs s q c) : Started q (s.slot q).hw w (s.gangDispatch q w) := by
  have hr : Runs (s.dispatch q w) q (c.started w) := runs_dispatch h
  have hh : ((s.dispatch q w).slot q).hw = (s.slot q).hw := by rw [slot_dispatch h]
  unfold State.gangDispatch
  dsimp only
  rw [hh]
  split
  · next hn =>
    obtain ⟨k, hk, he⟩ := runs_of_bare (preempt_bare q) (runs_onCmd (fun c => { c with phase := .preempted, clean := 0 }) hr)
    exact ⟨k, hk, (congrArg Cmd.tstart he).trans rfl, fun e => absurd hn (by simpa [Option.isSome_iff_ne_none] using e), fun _ => (congrArg Cmd.phase he).trans rfl⟩
  · next hn => exact ⟨_, hr, rfl, fun _ => rfl, fun e => absurd (Option.isNone_iff_eq_none.2 e) hn⟩

/-- A command that may start with its gang. -/
def Cmd.awaits (c : Cmd) : Prop := c.phase = .armed ∨ c.phase = .fetched ∨ c.phase = .preparing

theorem not_awaits {c : Cmd} (h : c.awaits) : ¬(c.phase ≠ .armed ∧ c.phase ≠ .fetched ∧ c.phase ≠ .preparing) := by
  rintro ⟨ha, hf, hr⟩
  obtain h | h | h := h
  · exact ha h
  · exact hf h
  · exact hr h

/-- GANG_START where the decision to start stands, once the coordinator has decided. -/
theorem exec_gangStart_zero (hc : Runs s q c) (hg : c.gang = some g) (ht : g.tick ≤ s.tick.toNat) {x : Cmd}
    (hx : Runs (s.decideGang q) q x) (hp : x.awaits) (hd : x.gang.bind (·.decision) = some 0) :
    exec (.gangStart q) s = .next (if x.cancel then (s.decideGang q).phase q .fencing
      else (s.decideGang q).gangDispatch q (BitVec.ofNat 64 g.tick)) := by
  change execGangStart q s = _
  unfold execGangStart
  simp only [show (s.slot q).cmd = some c from hc, Option.bind_some, hg, Nat.not_lt.2 ht, if_false,
    show ((s.decideGang q).slot q).cmd = some x from hx, not_awaits hp, hd]
  cases x.cancel <;> rfl

/-- GANG_START once the gang has decided to start. -/
theorem exec_gangStart_decided (hc : Runs s q c) (hg : c.gang = some g) (ht : g.tick ≤ s.tick.toNat) (hp : c.awaits)
    (hd : g.decision = some 0) : exec (.gangStart q) s =
      .next (if c.cancel then s.phase q .fencing else s.gangDispatch q (BitVec.ofNat 64 g.tick)) := by
  have hu : s.decideGang q = s := decideGang_of_none (undecided_of_some hc hg hd)
  have hf := exec_gangStart_zero hc hg ht (x := c) (by rwa [hu]) hp (by rw [hg]; exact hd)
  rwa [hu] at hf

/-- A gang's command ends with a link failure, and the links to the other packages are down (R73, R18). -/
def State.cutOff (s : State) (q : Nat) : State :=
  let t := s.onCmd q fun c => { c with phase := .finished, status := 0, link := true }
  ((t.others q).flatMap Config.linksTo).foldl State.failLink t

theorem cutOff_cut (hc : Runs s q c) : Cut q 0 (s.cutOff q) :=
  List.foldlRecOn _ _ ⟨_, runs_onCmd _ hc, rfl, rfl, rfl⟩ fun _ h l _ => cut_failLink l h

/-- GANG_START at another package than 0 where no decision has come. -/
theorem exec_gangStart_cut (hc : Runs s q c) (hg : c.gang = some g) (ht : g.tick ≤ s.tick.toNat) (hp : c.awaits)
    (hd : g.decision = none) (hk : s.pkg ≠ 0) : exec (.gangStart q) s = .next (s.cutOff q) := by
  change execGangStart q s = _
  unfold execGangStart
  simp only [show (s.slot q).cmd = some c from hc, Option.bind_some, hg, Nat.not_lt.2 ht, if_false, decideGang_of_pkg hk,
    not_awaits hp, hd]
  rfl

/-- The state that the coordinator's decision, taken at the start, leaves. -/
theorem decideGang_decided (hc : Runs s q c) (hg : c.gang = some g) (hp : c.awaits) (hd : g.decision = none) (hk : s.pkg = 0) :
    ∃ u : State, u.slots = s.slots ∧ s.decideGang q = u.decided q g.verdict :=
  ⟨_, slots_of_seat (gangFlits_seat ..), decideGang_eq (undecided_of_none hc hg hp hd) hk⟩

theorem decided_zero (hc : Runs s q c) (hg : c.gang = some g) :
    (s.decided q 0).slot q = { s.slot q with cmd := some (c.inGang { g with decision := some 0 }) } := by
  have h := slot_onCmd (fun c => { c with gang := c.gang.map fun g => { g with decision := some 0 } }) hc
  rwa [hg] at h

/-- GANG_START at package 0 where all of its gang have armed in time. -/
theorem exec_gangStart_verdict (hc : Runs s q c) (hg : c.gang = some g) (ht : g.tick ≤ s.tick.toNat) (hp : c.awaits)
    (hd : g.decision = none) (hk : s.pkg = 0) (hv : g.verdict = 0) (hn : c.cancel = false) :
    ∃ t, exec (.gangStart q) s = .next t ∧ Started q (s.slot q).hw (BitVec.ofNat 64 g.tick) t := by
  obtain ⟨u, hs, hu⟩ := decideGang_decided hc hg hp hd hk
  have hr : Runs u q c := runs_of_slots hc hs
  have hz := decided_zero hr hg
  rw [hv] at hu
  have hx : Runs (s.decideGang q) q (c.inGang { g with decision := some 0 }) := by rw [hu, Runs, hz]
  have hh : ((s.decideGang q).slot q).hw = (s.slot q).hw := by rw [hu, hz, State.slot, hs, State.slot]
  refine ⟨_, exec_gangStart_zero hc hg ht hx hp rfl, ?_⟩
  rw [show (c.inGang { g with decision := some 0 }).cancel = false from hn, if_neg (by decide), ← hh]
  exact gangDispatch_started hx

/-- GANG_START at package 0 where the gang aborts. -/
theorem exec_gangStart_aborts (hc : Runs s q c) (hg : c.gang = some g) (ht : g.tick ≤ s.tick.toNat) (hp : c.awaits)
    (hd : g.decision = none) (hk : s.pkg = 0) (hv : g.verdict ≠ 0) :
    ∃ t k, exec (.gangStart q) s = .next t ∧ Runs t q k ∧ k.phase = .finished ∧ k.status = g.verdict := by
  obtain ⟨u, hs, hu⟩ := decideGang_decided hc hg hp hd hk
  obtain ⟨x, hx, -, -, he⟩ := decided_decided (runs_of_slots hc hs) hg g.verdict
  obtain ⟨hf, hst⟩ := he hv
  refine ⟨u.decided q g.verdict, x, ?_, hx, hf, hst⟩
  have hx' : ((u.decided q g.verdict).slot q).cmd = some x := hx
  change execGangStart q s = _
  unfold execGangStart
  simp only [show (s.slot q).cmd = some c from hc, Option.bind_some, hg, Nat.not_lt.2 ht, if_false, hu, hx', hf]
  rfl

end
end Sys2Proof.Machine
end

section
namespace Sys2Proof.Machine

/-! GANG (R68, R73). -/

section
variable {s : State} {q : Nat} {c : Cmd} {p : Plan}

theorem newGang_arms (h : (s.queue q).arms = []) : (s.newGang q c).arms = [] := by
  rw [State.newGang, h]
  rfl

theorem newGang_tick : (s.newGang q c).tick = pkNat c.packet 56 8 :=
  List.foldlRecOn (motive := fun g : Gang => g.tick = pkNat c.packet 56 8) _ _ rfl fun _ h _ _ => (armedBy_tick ..).trans h

/-- The decision that came early is the gang's where it is for the gang's own start tick. -/
theorem newGang_decision {v : Nat} : (s.newGang q c).decision = some v ↔ (s.queue q).decision = some (v, (s.newGang q c).tick) := by
  have h : (s.newGang q c).decision = ((s.queue q).decision.filter fun d => d.2 == pkNat c.packet 56 8).map (·.1) := rfl
  rw [h, newGang_tick]
  cases (s.queue q).decision with
  | none => simp
  | some d =>
    obtain ⟨a, k⟩ := d
    by_cases hk : k = pkNat c.packet 56 8 <;> simp [Option.filter_some, hk]

/-- A GANG's command with its gang. -/
def State.gangCmd (s : State) (q : Nat) (c : Cmd) : Cmd := c.inGang (s.newGang q c)

/-- The state in which a GANG has taken up its gang, with what came early for it. -/
def State.ganged (s : State) (q : Nat) (c : Cmd) : State := (s.takeEarly q).setCmd q (some (s.gangCmd q c))

theorem ganged_runs : Runs (s.ganged q c) q (s.gangCmd q c) := runs_setCmd

theorem ganged_slot : (s.ganged q c).slot q = { s.slot q with cmd := some (s.gangCmd q c) } := slot_setCmd _

theorem exec_gang_late (h : Due s q 2 c) (hg : c.gang = none) (ht : (s.newGang q c).tick < s.tick.toNat) :
    exec (.gang q) s = .next (s.reject q 4) := by
  change execGang q s = _
  rw [execGang, isPreparing_of_due h, if_neg (by decide), packet_due _ h]
  simp [hg, ht]

/-- A GANG with its checks: its package arms, or says why it cannot (R64, R73). -/
def State.armChecked (s : State) (q : Nat) (c : Cmd) : State :=
  match s.checkLaunch q c with
  | .error (status, ftval) => (s.onCmd q fun c => { c with status := status, ftval := ftval }).sendArm q status
  | .ok p => if s.blockedBy q p then s else (s.prepare q c p).gangReady q

/-- A GANG in time goes by the decision that came early, then by the checks. -/
theorem exec_gang_eq (h : Due s q 2 c) (hg : c.gang = none) (ht : s.tick.toNat ≤ (s.newGang q c).tick) :
    exec (.gang q) s = .next (if (s.newGang q c).decision.any (· != 0) then (s.ganged q c).reject q ((s.newGang q c).decision.getD 0)
      else (s.ganged q c).armChecked q (s.gangCmd q c)) := by
  change execGang q s = _
  rw [execGang, isPreparing_of_due h, if_neg (by decide), packet_due _ h]
  simp only [hg, Option.getD_none, Option.isNone_none, true_and, Nat.not_lt.2 ht, if_false, if_true]
  rfl

theorem exec_gang_aborted {v : Nat} (h : Due s q 2 c) (hg : c.gang = none) (ht : s.tick.toNat ≤ (s.newGang q c).tick)
    (hd : (s.newGang q c).decision = some v) (hv : v ≠ 0) : exec (.gang q) s = .next ((s.ganged q c).reject q v) := by
  rw [exec_gang_eq h hg ht, hd, if_pos (by simpa using hv), Option.getD_some]

theorem exec_gang_checked (h : Due s q 2 c) (hg : c.gang = none) (ht : s.tick.toNat ≤ (s.newGang q c).tick)
    (hd : (s.newGang q c).decision = none ∨ (s.newGang q c).decision = some 0) :
    exec (.gang q) s = .next ((s.ganged q c).armChecked q (s.gangCmd q c)) := by
  rw [exec_gang_eq h hg ht, if_neg]
  obtain hd | hd := hd <;> simp [hd]

end

section
variable {s : State} {q : Nat} {c : Cmd} {g : Gang} {p : Plan}

theorem armChecked_of_blocked (hk : s.checkLaunch q c = .ok p) (hb : s.blockedBy q p = true) : s.armChecked q c = s := by
  rw [State.armChecked, hk]
  exact if_pos hb

theorem armChecked_of_ok (hk : s.checkLaunch q c = .ok p) (hb : s.blockedBy q p = false) :
    s.armChecked q c = (s.prepare q c p).gangReady q := by
  rw [State.armChecked, hk]
  exact if_neg (by simp [hb])

theorem armChecked_mem_of_error {status : Nat} {w : Word} (he : s.checkLaunch q c = .error (status, w)) :
    (s.armChecked q c).mem = s.mem := by
  rw [State.armChecked, he]
  exact (sendArm_mem ..).trans (onCmd_mem ..)

/-- A package whose checks fail says so, with the status (R73). -/
theorem armChecked_error {status : Nat} {w : Word} (hc : Runs s q c) (hg : c.gang = some g)
    (he : s.checkLaunch q c = .error (status, w)) :
    Arms s.pkg s.tick.toNat (s.gangName q) q g status [] (s.armChecked q c) := by
  have hr := runs_onCmd (fun c => { c with status := status, ftval := w }) hc
  have hs := slot_onCmd (fun c => { c with status := status, ftval := w }) hc
  obtain ⟨z, hz⟩ := onCmd_eq (s := s) q fun c => { c with status := status, ftval := w }
  have ha := sendArm_arms hr hg status
  rw [Cmd.armCounts, if_neg (checkLaunch_error he), State.gangName, hs, hz] at ha
  rw [State.armChecked, he]
  dsimp only
  rw [hz]
  exact ha

/-- A package that is prepared, with nothing of its regions still owed, arms with its members' counts (R68, R73). -/
theorem armChecked_ok (hg : c.gang = some g) (hk : s.checkLaunch q c = .ok p) (hb : s.blockedBy q p = false)
    (hw : (s.slot q).hw.isSome = true) (ho : (s.prepare q c p).frontOwes q = false) (hl : c.lostLink = false) :
    Arms s.pkg s.tick.toNat (s.gangName q) q g 0 (p.groups.map fun g => (g.id, g.members.length)) (s.armChecked q c) := by
  obtain ⟨k, hp⟩ := prepare_prepared (s := s) (q := q) c p
  have hkg : k.gang = some g := (congrArg Cmd.gang hp.cmd).trans hg
  have hkn : k.counts = p.groups.map fun g => (g.id, g.members.length) := congrArg Cmd.counts hp.cmd
  have ha := sendArm_arms hp.runs hkg 0
  rw [Cmd.armCounts, if_pos rfl, hkn, State.gangName, hp.qcb, hp.tick, hp.pkg] at ha
  have hlk : k.lostLink = false := hp.lost.trans hl
  rw [armChecked_of_ok hk hb, State.gangReady, whenReady_of_ready hp.runs ho (by rwa [hp.hw]), hlk]
  exact ha

/-- A prepared package of whose regions other packages still owe something waits for them (R47). -/
theorem armChecked_owes (hk : s.checkLaunch q c = .ok p) (hb : s.blockedBy q p = false) (ho : (s.prepare q c p).frontOwes q = true) :
    ∃ x, Runs (s.armChecked q c) q x ∧ x.phase = .preparing := by
  obtain ⟨k, hp⟩ := prepare_prepared (s := s) (q := q) c p
  refine ⟨{ k with phase := .preparing }, ?_, rfl⟩
  rw [armChecked_of_ok hk hb, State.gangReady, whenReady_of_owes hp.runs ho]
  exact runs_phase _ hp.runs

end
end Sys2Proof.Machine
end

section
namespace Sys2Proof.Machine

/-! ARM (R73), before and after the package's own packet has been read. -/

section
variable {s : State} {q : Nat} {c : Cmd} {g : Gang}

theorem exec_arm (pkg start : Nat) (status : BitVec 8) (counts : List (Nat × Nat)) (hp : s.pkg = 0) :
    exec (.arm q pkg (status, start, counts)) s = .next (s.armed q pkg status.toNat start counts) := if_neg (not_not.2 hp)

theorem exec_arm_elsewhere (pkg start : Nat) (status : BitVec 8) (counts : List (Nat × Nat)) (hp : s.pkg ≠ 0) :
    exec (.arm q pkg (status, start, counts)) s = .next s := if_pos hp

theorem armed_late {start : Nat} (pkg status : Nat) (counts : List (Nat × Nat)) (hg : s.gangAt q start = false)
    (h : start < s.tick.toNat) : s.armed q pkg status start counts = s := by
  simp [State.armed, hg, h]

theorem armed_kept {start : Nat} (pkg status : Nat) (counts : List (Nat × Nat)) (hg : s.gangAt q start = false)
    (h : s.tick.toNat ≤ start) : s.armed q pkg status start counts = s.setQueue q { s.queue q with arms := (s.queue q).arms ++
      [{ pkg := pkg, status := status, start := start, counts := counts, came := s.tick.toNat }] } := by
  simp [State.armed, hg, Nat.not_lt.2 h]

theorem armedBy_in_time {pkg : Nat} (status : Nat) (counts : List (Nat × Nat)) {now : Nat} (hp : ∀ a ∈ g.arms, a.1 ≠ pkg)
    (h : now + g.margin ≤ g.tick) : g.armedBy pkg status g.tick counts now = { g with arms := g.arms ++ [(pkg, status, counts)] } := by
  rw [armedBy_eq, if_neg]
  rintro (ha | ha)
  · obtain ⟨a, hm, he⟩ := List.any_eq_true.1 ha
    exact hp a hm (by simpa using he)
  · omega

theorem armedBy_late {pkg : Nat} (status : Nat) (counts : List (Nat × Nat)) {now : Nat} (h : g.tick < now + g.margin) :
    g.armedBy pkg status g.tick counts now = g := by
  rw [armedBy_eq, if_pos (.inr h)]

end

/-! LAUNCH's command as it runs. -/

section
variable {s : State} {q : Nat} {c : Cmd} {p : Plan}

/-- A LAUNCH that is due and passes its checks, nothing in its way. -/
theorem exec_launch_prepares (h : Due s q 1 c) (hk : s.checkLaunch q c = .ok p) (hb : s.blockedBy q p = false) :
    exec (.launch q) s = .next ((s.prepare q c p).launchReady q) := by
  rw [exec_launch_ok h hk, if_neg (by simp [hb])]

/-- The root record of a LAUNCH has started on a core: one of its contexts holds a task. -/
def State.hasTask (s : State) (n : Nat) : Prop := ∃ i, i < 4 ∧ (s.ctxOf n i).role = .task

/-- A LAUNCH's command that is prepared and goes on: it runs from that tick on, its root record on its group's leader where
that tile is a member or had a free context (R64, R72). -/
theorem exec_launch_starts (h : Due s q 1 c) (hk : s.checkLaunch q c = .ok p) (hb : s.blockedBy q p = false)
    (ho : (s.prepare q c p).frontOwes q = false) (hc : c.cancel = false) (hl : c.lostLink = false) :
    ∃ t k, exec (.launch q) s = .next t ∧ Runs t q k ∧ k.members = p.members ∧ k.groups = p.groups ∧ k.phase = .running ∧
      k.tstart = s.tick ∧ ∀ g, (p.groups.find? fun g => g.id == p.root.group) = some g → t.hasTask g.leader := by
  obtain ⟨k, hp⟩ := prepare_prepared (s := s) (q := q) c p
  have ⟨_, _, _, hw⟩ := h
  obtain ⟨hroot, hlead⟩ := plan_eq_some (checkLaunch_ok hk)
  have hm : k.members = p.members := congrArg Cmd.members hp.cmd
  have hgr : k.groups = p.groups := congrArg Cmd.groups hp.cmd
  have hpk : k.packet = c.packet := (congrArg Cmd.packet hp.cmd :)
  have hkc : k.cancel = false := (congrArg Cmd.cancel hp.cmd).trans hc
  refine ⟨(s.prepare q c p).dispatch q s.tick, k.started s.tick, ?_, runs_dispatch hp.runs, hm, hgr, rfl, rfl, fun g hf => ?_⟩
  · rw [exec_launch_prepares h hk hb, launchReady_starts hp.runs ho (by rwa [hp.hw]) hkc (hp.lost.trans hl), hp.tick]
  · exact dispatch_role hp.runs (by rwa [hgr, hpk, ← hroot]) (prepare_freeCtx (hlead g (List.mem_of_find?_eq_some hf)))

end
end Sys2Proof.Machine
end

section
namespace Sys2Proof.Machine

/-! LAUNCH and GANG as a whole. -/

section
variable {s : State} {q : Nat} {c : Cmd} {g : Gang} {p : Plan}

/-- A due LAUNCH that nothing blocks: it waits for other packages, ends, or runs (R47, R64, R72). -/
theorem exec_launch_goes_on (h : Due s q 1 c) (hk : s.checkLaunch q c = .ok p) (hb : s.blockedBy q p = false) :
    ∃ t k, exec (.launch q) s = .next t ∧ Runs t q k ∧ k.members = p.members ∧ k.groups = p.groups ∧
      ((s.prepare q c p).frontOwes q = true → k.phase = .preparing) ∧
      ((s.prepare q c p).frontOwes q = false → c.cancel = false → c.lostLink = false → k.phase = .running ∧ k.tstart = s.tick ∧
        ∀ g, (p.groups.find? fun g => g.id == p.root.group) = some g → t.hasTask g.leader) := by
  by_cases hs : (s.prepare q c p).frontOwes q = false ∧ c.cancel = false ∧ c.lostLink = false
  · obtain ⟨ho, hc, hl⟩ := hs
    obtain ⟨t, k, he, hr, hm, hg, hrun⟩ := exec_launch_starts h hk hb ho hc hl
    exact ⟨t, k, he, hr, hm, hg, fun e => absurd e (by simp [ho]), fun _ _ _ => hrun⟩
  · obtain ⟨k, hp⟩ := prepare_prepared (s := s) (q := q) c p
    have ⟨_, _, _, hw⟩ := h
    obtain ⟨x, hx, hm, hg, hpr⟩ := runs_launchReady hp.runs (by rwa [hp.hw])
    exact ⟨_, x, exec_launch_prepares h hk hb, hx, hm.trans (congrArg Cmd.members hp.cmd), hg.trans (congrArg Cmd.groups hp.cmd),
      hpr, fun ho hc hl => absurd ⟨ho, hc, hl⟩ hs⟩

/-- A LAUNCH that waits for other packages, at a later step. -/
theorem exec_launch_waiting (hc : Runs s q c) (ho : c.op = 1) (hp : c.phase = .preparing) (hw : (s.slot q).hw.isSome = true) :
    ∃ t k, exec (.launch q) s = .next t ∧ Runs t q k ∧ (s.frontOwes q = true → k = c) ∧
      (s.frontOwes q = false → (c.cancel = true ∨ c.lostLink = true → k = { c with phase := .finished }) ∧
        (c.cancel = false → c.lostLink = false → k.phase = .running ∧ k.tstart = s.tick ∧
          ∀ g, (c.groups.find? fun g => g.id == (pkRoot q c.packet).group) = some g → (s.core g.leader).freeCtx.isSome = true →
            t.hasTask g.leader)) := by
  have he := exec_launch_preparing hc ho hp
  cases hf : s.frontOwes q with
  | true =>
    refine ⟨_, c, he, ?_, fun _ => rfl, nofun⟩
    rw [State.launchReady, whenReady_of_owes hc hf]
    have hr := runs_phase .preparing hc
    rwa [show { c with phase := .preparing } = c by rw [← hp]] at hr
  | false =>
    by_cases hn : c.cancel = true ∨ c.lostLink = true
    · refine ⟨_, { c with phase := .finished }, he, ?_, nofun, fun _ => ⟨fun _ => rfl, fun h1 h2 => ?_⟩⟩
      · rw [launchReady_ended hc hf hw hn]
        exact runs_phase _ hc
      · simp [h1, h2] at hn
    · simp only [not_or, Bool.not_eq_true] at hn
      obtain ⟨h1, h2⟩ := hn
      rw [launchReady_starts hc hf hw h1 h2] at he
      exact ⟨_, _, he, runs_dispatch hc, nofun, fun _ => ⟨fun h => absurd h (by simp [h1, h2]),
        fun _ _ => ⟨rfl, rfl, fun g hg hi => dispatch_role hc hg hi⟩⟩⟩

theorem ganged_arms {st : Nat} {counts : List (Nat × Nat)} {t : State}
    (h : Arms (s.ganged q c).pkg (s.ganged q c).tick.toNat ((s.ganged q c).gangName q) q g st counts t) :
    Arms s.pkg s.tick.toNat (s.gangName q) q g st counts t := by
  rw [State.gangName, ganged_slot] at h
  exact h

end

/-- Settles O52: the steps of LAUNCH, and those of a gang's packages and coordinator. -/
theorem launchSteps : Obligations.LaunchSteps := by
  refine ⟨fun s q c => ?launch, fun s q c h hg => ?gang, fun s q pkg start status counts hn => ?early,
    fun s q pkg status counts c g hc hg => ⟨?arm, ?decide, ?start⟩⟩
  case launch =>
    refine ⟨fun h => ⟨fun status ftval he => ?_, fun p hk hb => ?_, fun p hk hb => ?_⟩, fun hc ho hp hw => ?_⟩
    · have ⟨hc, _⟩ := h
      exact ⟨_, exec_launch_error h he, onCmd_mem .., runs_onCmd _ hc⟩
    · rw [exec_launch_ok h hk, if_pos hb]
    · obtain ⟨t, k, he, hr, hm, hg, hp, hrun⟩ := exec_launch_goes_on h hk hb
      refine ⟨t, k, he, hr, hm, hg, hp, fun h1 h2 h3 => ?_⟩
      obtain ⟨hph, hts, hroot⟩ := hrun h1 h2 h3
      exact ⟨hr, hph, hts, fun g hf _ => hroot g hf⟩
    · obtain ⟨t, k, he, hr, hw, hgo⟩ := exec_launch_waiting hc ho hp hw
      refine ⟨t, k, he, hr, hw, fun hf => ?_⟩
      obtain ⟨hend, hrun⟩ := hgo hf
      refine ⟨hend, fun h1 h2 => ?_⟩
      obtain ⟨hph, hts, hroot⟩ := hrun h1 h2
      refine ⟨hr, hph, hts, fun g hg hi => hroot g hg ?_⟩
      obtain ⟨h3, -⟩ | h3 := hi
      · rw [hp] at h3
        exact absurd h3 nofun
      · exact h3
  case gang =>
    intro g k u arms
    have ⟨hc, _, _, hw⟩ := h
    have arms_of {t : State} {status : Nat} {counts : List (Nat × Nat)}
      (ha : Arms (s.ganged q c).pkg (s.ganged q c).tick.toNat ((s.ganged q c).gangName q) q g status counts t) : arms t status counts := by
        obtain ⟨harmed, hsent⟩ := ganged_arms ha
        exact ⟨harmed, hsent⟩
    refine ⟨newGang_arms, fun v => newGang_decision, fun ht => ?_, fun v ht hd hv => ?_, fun ht hd => ⟨fun status ftval he => ?_,
      fun p hk hb => ?_, fun p hk hb => ?_⟩⟩
    · exact ⟨_, exec_gang_late h hg ht, onCmd_mem .., runs_onCmd _ hc⟩
    · exact ⟨_, exec_gang_aborted h hg ht hd hv, onCmd_mem .., runs_onCmd _ ganged_runs⟩
    · exact ⟨_, exec_gang_checked h hg ht hd, armChecked_mem_of_error he, arms_of (armChecked_error ganged_runs rfl he)⟩
    · rw [exec_gang_checked h hg ht hd]
      exact congrArg _ (armChecked_of_blocked hk hb)
    · refine ⟨_, exec_gang_checked h hg ht hd, armChecked_owes hk hb, fun ho hl => arms_of (armChecked_ok rfl hk hb ?_ ho hl)⟩
      rwa [ganged_slot]
  case early =>
    have hf := gangAt_of_ne hn
    refine ⟨fun hp => ⟨fun ht => ?_, fun ht => ?_⟩, fun hp => ⟨exec_arm_elsewhere _ _ _ _ hp, exec_gangDecision_late status,
      fun ht => exec_gangDecision_kept status hp ht hf⟩⟩
    · rw [exec_arm _ _ _ _ hp, armed_late _ _ _ hf ht]
    · refine ⟨_, exec_arm _ _ _ _ hp, ?_⟩
      rw [armed_kept _ _ _ hf ht]
      exact ⟨rfl, congrArg Queue.arms (look_setAt_same ..)⟩
  case arm =>
    intro hp hn
    have hr := runs_armed pkg status.toNat counts hc hg
    refine ⟨_, exec_arm _ _ _ _ hp, armed_mem .., fun ht => ?_, fun ht => ?_⟩
    · rwa [armedBy_in_time _ _ hn ht] at hr
    · rw [armedBy_late _ _ ht] at hr
      rwa [Cmd.inGang, ← hg] at hr
  case decide =>
    intro decided hu
    refine ⟨exec_gangDecide_early hu, fun hp ht => ?_, fun hp => ⟨exec_gangDecision_late status, exec_gangDecision status hc hg hu hp⟩⟩
    obtain ⟨t, he, hm, hd, hw⟩ := exec_gangDecide hc hg hu hp ht
    exact ⟨t, g.verdict, he, hm, hd, verdict_eq_zero_iff, verdict_of_counts_differ, hw⟩
  case start =>
    intro ht hp starts
    refine ⟨fun hd hn => ?_, fun hd hn => ?_, fun hd hk hv hn => ?_, exec_gangStart_aborts hc hg ht hp, fun hd hk => ?_⟩
    · refine ⟨_, exec_gangStart_decided hc hg ht hp hd, ?_⟩
      rw [if_pos hn]
      exact runs_phase _ hc
    · have he := exec_gangStart_decided hc hg ht hp hd
      rw [hn, if_neg (by decide)] at he
      obtain ⟨k, hk⟩ := gangDispatch_started (w := BitVec.ofNat 64 g.tick) hc
      exact ⟨_, k, he, hk⟩
    · obtain ⟨t, he, k, hs⟩ := exec_gangStart_verdict hc hg ht hp hd hk hv hn
      exact ⟨t, k, he, hs⟩
    · obtain ⟨k, hr⟩ := cutOff_cut hc
      exact ⟨_, k, exec_gangStart_cut hc hg ht hp hd hk, hr⟩

end Sys2Proof.Machine
end

section
namespace Sys2Proof.Machine

/-! What the firmware keeps of its queues, and what leaves it as it is. -/

/-- What the firmware keeps of the queues (R52-R61), and what SLOTS has set (R52, R59). -/
structure Desk where
  queues : Sparse Queue
  slotCount : Nat
  ageing : Nat
  ageBase : Nat

def State.desk (s : State) : Desk :=
  { queues := s.queues, slotCount := s.slotCount, ageing := s.ageing, ageBase := s.ageBase }

section
variable {s t : State}

theorem queues_of_desk (h : t.desk = s.desk) : t.queues = s.queues := (Desk.mk.inj h).1

/-- A change of other parts of the state. -/
theorem desk_eq (hq : t.queues = s.queues := by with_reducible rfl) (hc : t.slotCount = s.slotCount := by with_reducible rfl)
    (ha : t.ageing = s.ageing := by with_reducible rfl) (hb : t.ageBase = s.ageBase := by with_reducible rfl) : t.desk = s.desk := by
  rw [State.desk, State.desk, hq, hc, ha, hb]

@[simp] theorem setCore_desk (n : Nat) (c : CoreSt) : (s.setCore n c).desk = s.desk := rfl
@[simp] theorem setQuad_desk (n : Nat) (q : Quad) : (s.setQuad n q).desk = s.desk := rfl
@[simp] theorem setSlot_desk (n : Nat) (x : Slot) : (s.setSlot n x).desk = s.desk := rfl
@[simp] theorem poke_desk (pa : Nat) (bs : List Byte) : (s.poke pa bs).desk = s.desk := rfl

@[simp] theorem onCmd_desk (n : Nat) (f : Cmd → Cmd) : (s.onCmd n f).desk = s.desk := by
  fun_cases State.onCmd <;> rfl

@[simp] theorem onTally_desk (n core : Nat) (f : Tally → Tally) : (s.onTally n core f).desk = s.desk := onCmd_desk ..

theorem onTask_desk {T : TaskId} {f : Ctx → Ctx} (h : s.onTask T f = some t) : t.desk = s.desk := by
  revert h
  fun_cases State.onTask <;> rintro ⟨⟩ <;> rfl

/-! Messages and reports. -/

@[simp] theorem report_desk (i : Issuer) (cause colour : Nat) (w : Word) : (s.report i cause colour w).desk = s.desk := by
  fun_cases State.report
  · rfl
  · exact onTask_desk (s := s.bump _) ‹_›
  · rfl
  · exact onTally_desk ..

@[simp] theorem countSent_desk (i : Issuer) : (s.countSent i).desk = s.desk := by
  fun_cases State.countSent <;> rfl

@[simp] theorem numberOut_desk (m : Msg) : (s.numberOut m).desk = s.desk := by
  fun_cases State.numberOut <;> rfl

@[simp] theorem send_desk (m : Msg) : (s.send m).desk = s.desk := by
  have h : ((if m.body.counted then s.countSent m.iss else s).numberOut m).desk = s.desk := by
    rw [numberOut_desk]
    exact ite_keeps State.desk (countSent_desk _) rfl
  exact ite_keeps State.desk h h

@[simp] theorem orFlags_desk (i : Issuer) (flags : BitVec 6) : (s.orFlags i flags).desk = s.desk := by
  fun_cases State.orFlags
  case case3 u h => exact (show (u.syncSpill i.task.core).desk = u.desk from rfl).trans (onTask_desk h)
  all_goals rfl

@[simp] theorem chose_desk (slot tile kind choice : Nat) : (s.chose slot tile kind choice).desk = s.desk := by
  fun_cases State.chose <;> exact desk_eq

/-! Page walks. -/

@[simp] theorem ask_desk (a : Asker) (slot va : Nat) : (s.ask a slot va).desk = s.desk := by
  fun_cases State.ask <;> rfl

@[simp] theorem fill_desk (a : Asker) (e : TlbEntry) : (s.fill a e).desk = s.desk := by
  fun_cases State.fill <;> rfl

@[simp] theorem cachePointers_desk (die slot va : Nat) : (s.cachePointers die slot va).desk = s.desk := by
  fun_cases State.cachePointers <;> rfl

@[simp] theorem endWalk_desk (n : Nat) (w : Walk) : (s.endWalk n w).desk = s.desk := by
  have h : (({ s with walks := removeAt s.walks n } : State).cachePointers w.die w.slot w.va).desk = s.desk :=
    cachePointers_desk ..
  fun_cases State.endWalk
  · rw [foldl_keeps State.desk fun _ _ => fill_desk ..]
    exact h
  · exact h

/-! The copy engine (R238). -/

theorem engineSpot_wait_desk {a : Agent} {va n : Nat} {k : AKind} (h : s.engineSpot a va n k = .wait t) : t.desk = s.desk := by
  revert h
  fun_cases State.engineSpot <;> rintro ⟨⟩
  exact ask_desk ..

theorem engineFar_wait_desk {a : Agent} {p : Spot} {n : Nat} (h : s.engineFar a p n = .wait t) : t.desk = s.desk := by
  revert h
  fun_cases State.engineFar <;> rintro ⟨⟩
  · rfl
  · exact send_desk ..

theorem engineRead_wait_desk {a : Agent} {va n : Nat} {code : Bool} (h : s.engineRead a va n code = .wait t) : t.desk = s.desk := by
  revert h
  fun_cases State.engineRead
  case case1 => fun_cases State.engineHere <;> rintro ⟨⟩
  case case2 he =>
    rintro ⟨⟩
    exact engineSpot_wait_desk he
  case case5 => exact engineFar_wait_desk
  all_goals rintro ⟨⟩

theorem engineWrite_wait_desk {a : Agent} {va : Nat} {bs : List Byte} {red below stack : Bool}
    (h : s.engineWrite a va bs red below stack = .wait t) : t.desk = s.desk := by
  revert h
  fun_cases State.engineWrite
  case case4 he =>
    rintro ⟨⟩
    exact engineSpot_wait_desk he
  all_goals simp +zetaDelta

theorem copyOnce_wait_desk {a : Agent} {c : CopyCmd} {src : Nat} {inb : Bool} (h : s.copyOnce a c src inb = .wait t) :
    t.desk = s.desk := by
  revert h
  fun_cases State.copyOnce
  · rintro ⟨⟩
  · fun_cases State.copyValue
    case case1 he =>
      rintro ⟨⟩
      exact engineRead_wait_desk he
    all_goals rintro ⟨⟩

theorem copyServes_ok_desk {a : Agent} {c : CopyCmd} {src : Nat} {inb : Bool} (h : s.copyServes a c src inb = .ok t) :
    t.desk = s.desk := by
  revert h
  fun_cases State.copyServes
  · fun_cases State.serveReads
    · rintro ⟨⟩
      rfl
    · refine foldlM_keeps State.desk fun u x v h => ?_
      split at h
      · obtain rfl := Except.ok.inj h
        exact chose_desk ..
      · exact absurd h nofun
  · rintro ⟨⟩
    rfl

@[simp] theorem engineStore_desk (a : Agent) (va : Nat) (bs : List Byte) : (s.engineStore a va bs).desk = s.desk :=
  ite_keeps State.desk (report_desk ..) rfl

@[simp] theorem flushFill_desk (c : CopyCmd) (close : Bool) : (s.flushFill c close).desk = s.desk := by
  unfold State.flushFill
  rw [foldl_keeps State.desk fun _ _ => send_desk _]
  split
  · rfl
  · split
    · exact send_desk _
    · rfl

@[simp] theorem haltCopy_desk (core : Nat) (c : CopyCmd) (n cause : Nat) (w : Word) :
    (s.haltCopy core c n cause w).desk = s.desk :=
  (report_desk ..).trans (flushFill_desk ..)

@[simp] theorem stopCopy_desk (core : Nat) (c : CopyCmd) (n cause : Nat) (w : Word) :
    (s.stopCopy core c n cause w).desk = s.desk := by
  fun_cases State.stopCopy <;> exact haltCopy_desk ..

@[simp] theorem putMsg_desk (c : CopyCmd) (m : Msg) : (s.putMsg c m).1.desk = s.desk := by
  fun_cases State.putMsg
  · rfl
  · exact (send_desk _).trans (flushFill_desk ..)

theorem gatherTile_desk (core : Nat) (a : Agent) (c : CopyCmd) (va base size : Nat) (p : Spot) (bs : List Byte) :
    (written (s.gatherTile core a c va base size p bs)).desk = s.desk := by
  fun_cases State.gatherTile
  · exact haltCopy_desk ..
  · rfl
  · exact putMsg_desk ..

theorem copyPut_desk (core : Nat) (a : Agent) (c : CopyCmd) (va : Nat) (bs : List Byte) (w : Put) :
    (written (s.copyPut core a c va bs w)).desk = s.desk := by
  fun_cases State.copyPut
  · exact gatherTile_desk ..
  · exact haltCopy_desk ..
  · refine (engineStore_desk ..).trans (ite_keeps State.desk ?_ rfl)
    exact foldl_keeps State.desk (fun u i => setCore_desk (s := u) core _) ..
  · rfl
  · exact flushFill_desk ..
  · exact putMsg_desk ..
  · rfl

theorem copyPut_error_desk {core : Nat} {a : Agent} {c : CopyCmd} {va : Nat} {bs : List Byte} {w : Put}
    (h : s.copyPut core a c va bs w = .error t) : t.desk = s.desk := by
  simpa only [h, written] using copyPut_desk (s := s) core a c va bs w

theorem copyPut_ok_desk {core : Nat} {a : Agent} {c : CopyCmd} {va : Nat} {bs : List Byte} {w : Put} {r : State × CopyCmd}
    (h : s.copyPut core a c va bs w = .ok r) : r.1.desk = s.desk := by
  simpa only [h, written] using copyPut_desk (s := s) core a c va bs w

@[simp] theorem copyDests_desk (core : Nat) (a : Agent) (c : CopyCmd) (n : Nat) (bs : List Byte) (l : List Nat) :
    (s.copyDests core a c n bs l).desk = s.desk := by
  fun_induction State.copyDests
  case case1 => rfl
  case case2 he => exact (setCore_desk ..).trans (engineWrite_wait_desk he)
  case case3 => exact stopCopy_desk ..
  case case4 he => exact copyPut_error_desk he
  case case5 he ih => exact ih.trans (copyPut_ok_desk he)

@[simp] theorem endCopy_desk (core : Nat) (c : CopyCmd) : (s.endCopy core c).desk = s.desk := by
  fun_cases State.endCopy
  · exact haltCopy_desk ..
  · exact flushFill_desk ..

@[simp] theorem sendImage_desk (core : Nat) (c : CopyCmd) (va : Nat) (image : List Byte) :
    (s.sendImage core c va image).desk = s.desk := by
  fun_cases State.sendImage
  · exact engineSpot_wait_desk ‹_›
  · exact stopCopy_desk ..
  · exact send_desk _

theorem putElement_desk (core : Nat) (c : CopyCmd) (n : Nat) {r : Got (Option (Nat × FlagSet))} (hr : ∀ u, r = .wait u → False) :
    (s.putElement core c n r).desk = s.desk := by
  fun_cases State.putElement
  · exact (hr _ rfl).elim
  · exact stopCopy_desk ..
  · rfl
  · exact (copyDests_desk ..).trans (orFlags_desk ..)

@[simp] theorem runCopy_desk (core : Nat) (c : CopyCmd) : (s.runCopy core c).desk = s.desk := by
  fun_cases State.runCopy
  · exact sendImage_desk ..
  · exact endCopy_desk ..
  · exact copyOnce_wait_desk ‹_›
  · rfl
  · next _ ht hr => exact (putElement_desk _ _ _ hr).trans (copyServes_ok_desk ht)

@[simp] theorem settleCopy_desk (core : Nat) (c : CopyCmd) : (s.settleCopy core c).desk = s.desk := by
  fun_cases State.settleCopy
  case case2 => exact haltCopy_desk ..
  case case4 | case6 => exact flushFill_desk ..
  all_goals rfl

@[simp] theorem copyWalk_desk (core : Nat) (c : CopyCmd) : (s.copyWalk core c).desk = s.desk := by
  fun_cases State.copyWalk
  · exact endWalk_desk ..
  · rfl
  · rfl

@[simp] theorem boundary_desk (core id n : Nat) : (s.boundary core id n).desk = s.desk := by
  fun_induction State.boundary
  case case3 => exact settleCopy_desk ..
  case case4 ih => rw [ih, runCopy_desk, copyWalk_desk]
  all_goals rfl

/-! The array's save areas (R265). -/

@[simp] theorem writeFrame_desk (T : TaskId) (off : Nat) (bs : List Byte) : (s.writeFrame T off bs).desk = s.desk := by
  fun_cases State.writeFrame <;> rfl

@[simp] theorem saveSet_desk (T : TaskId) (o : ArrOp) (busy live : Bool) (acc : Sparse (BitVec 32)) :
    (s.saveSet T o busy live acc).desk = s.desk := by
  have getD (u : State) (f : Ctx → Ctx) : ((u.onTask T f).getD u).desk = u.desk := by
    cases h : u.onTask T f with
    | none => rfl
    | some v => exact onTask_desk h
  rw [State.saveSet, getD, writeFrame_desk, writeFrame_desk]
  exact ite_keeps State.desk rfl (writeFrame_desk ..)

@[simp] theorem settleSet_desk (n : Nat) : (s.settleSet n).desk = s.desk := by
  unfold State.settleSet
  dsimp only
  split
  · refine ite_keeps State.desk rfl ((setQuad_desk ..).trans ?_)
    split
    · exact saveSet_desk ..
    · rfl
  · rfl

@[simp] theorem takeBackRows_desk (o : ArrOp) : (s.takeBackRows o).1.desk = s.desk := ite_keeps State.desk rfl rfl

@[simp] theorem displace_desk (n : Nat) (o : ArrOp) : (s.displace n o).desk = s.desk := by
  refine ite_keeps State.desk ?_ ?_
  · rw [poke_desk, poke_desk, poke_desk, setQuad_desk]
    exact takeBackRows_desk o
  · rw [saveSet_desk, setQuad_desk]
    exact takeBackRows_desk o

@[simp] theorem stopQuad_desk (slot n : Nat) : (State.stopQuad slot s n).desk = s.desk := by
  unfold State.stopQuad
  extract_lets u v _
  have hv : v.desk = s.desk := by
    subst u v
    rw [setQuad_desk]
    split
    · exact ite_keeps State.desk (displace_desk ..) rfl
    · rfl
  clear_value v
  split
  · exact ite_keeps State.desk hv (ite_keeps State.desk hv ((settleSet_desk _).trans hv))
  · exact hv

/-! Pre-emption and resumption (R346, R347). -/

@[simp] theorem saveTile_desk (n : Nat) : (s.saveTile n).desk = s.desk := by
  fun_cases State.saveTile <;> rfl

@[simp] theorem stopCopies_desk (slot n : Nat) : (State.stopCopies slot s n).desk = s.desk :=
  foldl_keeps State.desk (fun _ _ => boundary_desk ..) ..

@[simp] theorem preempt_desk (n : Nat) : (s.preempt n).desk = s.desk := by
  unfold State.preempt
  dsimp only
  rw [foldl_keeps State.desk fun _ _ => saveTile_desk _, foldl_keeps State.desk fun _ _ => stopQuad_desk ..,
    foldl_keeps State.desk fun _ _ => stopCopies_desk .., onCmd_desk]

@[simp] theorem removeLatches_desk (p : Latch → Bool) : (s.removeLatches p).desk = s.desk := by
  refine (foldl_keeps State.desk (fun u h => ?_) ..).trans rfl
  obtain ⟨l, hl⟩ := refill_eq (s := u) h u.latches.length
  rw [hl]
  rfl

@[simp] theorem letGo_desk (T : TaskId) : (s.letGo T).desk = s.desk := by
  unfold State.letGo
  dsimp only
  rw [foldl_keeps State.desk fun _ _ => send_desk _, removeLatches_desk]
  rfl

@[simp] theorem restoreTile_desk (n : Nat) : (s.restoreTile n).desk = s.desk := by
  fun_cases State.restoreTile
  · rfl
  · exact foldl_keeps State.desk (fun _ _ => letGo_desk _) ..

@[simp] theorem resume_desk (q : Nat) : (s.resume q).desk = s.desk := by
  refine ite_keeps State.desk rfl ?_
  rw [foldl_keeps State.desk fun _ _ => restoreTile_desk _]
  exact onCmd_desk ..

end
end Sys2Proof.Machine
end

section
namespace Sys2Proof.Machine

/-! Queues and their control blocks (R52, R53, R59). -/

section
variable {s t : State} {q : Nat}

@[simp] theorem queue_setQueue_same (x : Queue) : (s.setQueue q x).queue q = x := look_setAt_same ..

theorem queue_setQueue_ne (x : Queue) {n : Nat} (h : q ≠ n) : (s.setQueue n x).queue q = s.queue q := look_setAt_ne _ _ _ h

theorem queue_of_desk (h : t.desk = s.desk) : t.queue q = s.queue q := by
  rw [State.queue, State.queue, queues_of_desk h]

/-- A QCB that is written back changes host memory alone. -/
theorem writeBack_eq (b : List Word) : ∃ m, s.writeBack q b = { s with hostMem := m } := by
  unfold State.writeBack
  generalize qcbBack (s.hostQcb q) b = h
  induction List.range 16 generalizing s with
  | nil => exact ⟨s.hostMem, rfl⟩
  | cons i l ih =>
    rw [List.foldl_cons]
    split_ifs
    · exact ih
    · fun_cases State.hostWord
      · exact ih (s := { s with hostMem := _ })
      · exact ih

theorem writeBack_desk (b : List Word) : (s.writeBack q b).desk = s.desk := by
  obtain ⟨m, hm⟩ := writeBack_eq (s := s) (q := q) b
  rw [hm]
  rfl

theorem onQcb_mapped (f : List Word → List Word) (h : (s.slot q).hw.isSome = true) :
    s.onQcb q f = s.setSlot q { s.slot q with qcb := f (s.slot q).qcb } := if_pos h

theorem onQcb_unmapped (f : List Word → List Word) (h : (s.slot q).hw = none) : ∃ m, s.onQcb q f = { s with hostMem := m } := by
  unfold State.onQcb
  rw [if_neg (by simp [h])]
  exact writeBack_eq _

@[simp] theorem onQcb_desk (f : List Word → List Word) : (s.onQcb q f).desk = s.desk := by
  cases h : (s.slot q).hw with
  | none =>
    obtain ⟨m, hm⟩ := onQcb_unmapped f h
    rw [hm]
    rfl
  | some a =>
    rw [onQcb_mapped f (by rw [h]; rfl)]
    rfl

/-! Queues that a slot's change of hands leaves alone (R59). -/

/-- A queue without what the mapping of slots moves. -/
def Queue.lasting (u : Queue) : Queue := { u with pendingBit := false, waiting := false, since := 0, eprio := 0 }

/-- A queue without what the mapping of slots moves, and what SLOTS has set. -/
def State.lasting (s : State) (q : Nat) : Queue × Nat × Nat × Nat := ((s.queue q).lasting, s.slotCount, s.ageing, s.ageBase)

theorem lasting_of_desk (h : t.desk = s.desk) : t.lasting q = s.lasting q := by
  obtain ⟨hq, hc, ha, hb⟩ := Desk.mk.inj h
  rw [State.lasting, State.lasting, State.queue, State.queue, hq, hc, ha, hb]

theorem lasting_setQueue {n : Nat} {x : Queue} (h : x.lasting = (s.queue n).lasting) : (s.setQueue n x).lasting q = s.lasting q := by
  refine Prod.ext ?_ rfl
  by_cases e : q = n
  · subst e
    exact (congrArg Queue.lasting (queue_setQueue_same x)).trans h
  · exact congrArg Queue.lasting (queue_setQueue_ne x e)

@[simp] theorem noteWaiting_lasting (n : Nat) : (s.noteWaiting n).lasting q = s.lasting q :=
  ite_keeps (State.lasting · q) (ite_keeps (State.lasting · q) rfl (lasting_setQueue rfl))
    (ite_keeps (State.lasting · q) (lasting_setQueue rfl) rfl)

@[simp] theorem map_lasting (n hw : Nat) : (s.map n hw).lasting q = s.lasting q :=
  (lasting_of_desk (resume_desk n)).trans (lasting_setQueue (n := n) rfl)

@[simp] theorem mapFree_lasting : s.mapFree.lasting q = s.lasting q := by
  unfold State.mapFree
  refine foldl_keeps (State.lasting · q) (fun u h => ?_) ..
  split
  · exact map_lasting ..
  · rfl

/-- A field of a queue that the mapping of slots does not move. -/
theorem lasting_field {β : Type} (g : Queue → β) (hg : ∀ u, g u.lasting = g u) (h : t.lasting q = s.lasting q) :
    g (t.queue q) = g (s.queue q) := by
  rw [← hg, ← hg (s.queue q)]
  exact congrArg (fun x => g x.1) h

/-! No queue waits (R59). -/

theorem mem_setAt {α : Type} {m : Sparse α} {k : Nat} {a : α} {e : Nat × α} (h : e ∈ setAt m k a) : e = (k, a) ∨ e ∈ m := by
  revert h
  fun_induction setAt
  case case1 => simp
  case case2 => simp +contextual [or_imp]
  case case3 => simp
  case case4 ih =>
    rintro h
    obtain rfl | h := List.mem_cons.1 h
    · exact .inr List.mem_cons_self
    · exact (ih h).imp_right (List.mem_cons_of_mem _)

theorem look_mem {α : Type} {d : α} (m : Sparse α) (k : Nat) : look d m k = d ∨ (k, look d m k) ∈ m := by
  fun_induction look
  case case1 => exact .inl rfl
  case case2 => exact .inr List.mem_cons_self
  case case3 => exact .inl rfl
  case case4 ih => exact ih.imp_right (List.mem_cons_of_mem _)

theorem NoneWaiting.queue (h : NoneWaiting s) (q : Nat) : (s.queue q).waiting = false := by
  obtain e | e := look_mem (d := ({} : Queue)) s.queues q
  · rw [State.queue, e]
  · exact h _ e

theorem NoneWaiting.of_queues (h : NoneWaiting s) (e : t.queues = s.queues) : NoneWaiting t := by
  rwa [NoneWaiting, e]

theorem NoneWaiting.setQueue (h : NoneWaiting s) {x : Queue} (hx : x.waiting = false) : NoneWaiting (s.setQueue q x) := by
  intro e he
  obtain rfl | he := mem_setAt he
  · exact hx
  · exact h e he

theorem NoneWaiting.bestWaiting (h : NoneWaiting s) : s.bestWaiting = none := by
  unfold State.bestWaiting
  have key (l : Sparse Queue) (hl : ∀ x ∈ l, x.2.waiting = false) : l.foldl (fun best x =>
      if !x.2.waiting then best
      else match best with
        | none => some x.1
        | some q => if (s.queue q).eprio < x.2.eprio then some x.1 else best) none = none := by
    induction l with
    | nil => rfl
    | cons x l ih =>
      rw [List.foldl_cons, hl x List.mem_cons_self]
      exact ih fun y hy => hl y (List.mem_cons_of_mem _ hy)
  exact key _ h

/-- No slot changes hands where no queue waits. -/
theorem NoneWaiting.mapFree (h : NoneWaiting s) : s.mapFree = s := by
  unfold State.mapFree
  induction s.freeSlots with
  | nil => rfl
  | cons x l ih =>
    rw [List.foldl_cons, h.bestWaiting]
    exact ih

theorem noteWaiting_of_not_wanted (h : s.wantsSlot q = false) (hn : (s.queue q).waiting = false) : s.noteWaiting q = s := by
  unfold State.noteWaiting
  simp [h, hn]

theorem wantsSlot_held (h : (s.queue q).held = true) : s.wantsSlot q = false := by simp [State.wantsSlot, h]

theorem wantsSlot_mapped (h : (s.slot q).hw.isSome = true) : s.wantsSlot q = false := by
  obtain ⟨a, ha⟩ := Option.isSome_iff_exists.1 h
  simp [State.wantsSlot, ha]

/-! A queue leaves its slot (R53, R59). -/

theorem noteWaiting_slots (n : Nat) : (s.noteWaiting n).slots = s.slots :=
  ite_keeps State.slots (ite_keeps State.slots rfl rfl) (ite_keeps State.slots rfl rfl)

theorem unmap_slot : ∃ b, (s.unmap q).slot q = { s.slot q with hw := none, qcb := b } := by
  fun_cases State.unmap
  case case1 h =>
    refine ⟨(s.slot q).qcb, ?_⟩
    have hn : (s.slot q).hw = none := Option.isNone_iff_eq_none.1 h
    rw [← hn]
  case case2 =>
    rw [State.slot, noteWaiting_slots]
    exact ⟨_, slot_setSlot_same ..⟩

theorem unmap_unmapped (h : (s.slot q).hw = none) : s.unmap q = s := if_pos (by rw [h]; rfl)

/-- A held queue that leaves its slot does not wait for another. -/
theorem unmap_held (h : (s.queue q).held = true) (hw : (s.slot q).hw.isSome = true) :
    (s.unmap q).queues = setAt s.queues q { s.queue q with waiting := false } := by
  fun_cases State.unmap
  case case1 hn => exact absurd (Option.isNone_iff_eq_none.1 hn) (Option.isSome_iff_ne_none.1 hw)
  case case2 u =>
    have hu : u.queues = s.queues := queues_of_desk (writeBack_desk (s := { s with free := s.free + 8 }) _)
    have hq : u.queue q = s.queue q := by rw [State.queue, State.queue, hu]
    rw [noteWaiting_of_not_wanted (wantsSlot_held _) (congrArg Queue.waiting (queue_setQueue_same _)), ← hq, ← hu]
    · rfl
    · rw [queue_setQueue_same, hq]
      exact h

theorem unmap_keeps_held (h : (s.queue q).held = true) : ((s.unmap q).queue q).held = true := by
  cases hw : (s.slot q).hw with
  | none => rwa [unmap_unmapped hw]
  | some a =>
    rw [State.queue, unmap_held h (by rw [hw]; rfl), look_setAt_same]
    exact h

theorem NoneWaiting.unmap (hn : NoneWaiting s) (h : (s.queue q).held = true) : NoneWaiting (s.unmap q) := by
  cases hw : (s.slot q).hw with
  | none => rwa [unmap_unmapped hw]
  | some a => exact (hn.setQueue (x := { s.queue q with waiting := false }) rfl).of_queues (unmap_held h (by rw [hw]; rfl))

end
end Sys2Proof.Machine
end

section
namespace Sys2Proof.Machine

/-! Quiescence (R83): the queue's command goes on to its fence. -/

section
variable {s t : State} {q : Nat} {c : Cmd}

@[simp] theorem removeLatches_bare (p : Latch → Bool) : (s.removeLatches p).bare q = s.bare q := by
  refine (foldl_keeps (State.bare · q) (fun u h => ?_) ..).trans rfl
  obtain ⟨l, hl⟩ := refill_eq (s := u) h u.latches.length
  rw [hl]
  rfl

@[simp] theorem leave_bare (T : TaskId) (x : Ctx) (f : Tally → Tally) : (s.leave T x f).bare q = s.bare q := by
  unfold State.leave
  dsimp only
  rw [setCore_bare, removeLatches_bare]
  exact onTally_bare ..

@[simp] theorem endTask_bare (n i : Nat) (f : Tally → Tally) : (s.endTask n i f).bare q = s.bare q := leave_bare ..

@[simp] theorem endParked_bare (n m : Nat) : (State.endParked n s m).bare q = s.bare q := by
  unfold State.endParked
  dsimp only
  rw [setCore_bare, foldl_keeps (State.bare · q) fun _ _ => leave_bare ..]
  exact foldl_keeps (State.bare · q) (fun _ _ => ite_keeps (State.bare · q) (endTask_bare ..) rfl) ..

/-- The device-wide fence begins. -/
theorem quiesce_fencing (hc : Runs s q c) : ∃ k, Runs (s.quiesce q) q k ∧ k.phase = .fencing := by
  have hb : (((s.cmdTiles q).foldl (State.endParked q) s).removeLatches fun l => l.iss.task.slot == q).bare q = s.bare q := by
    rw [removeLatches_bare]
    exact foldl_keeps (State.bare · q) (fun _ _ => endParked_bare ..) ..
  obtain ⟨k, hk, -⟩ := runs_of_bare hb hc
  exact ⟨_, runs_phase .fencing hk, rfl⟩

end

/-! Termination waves (R81, R82). -/

section
variable {s t : State} {q : Nat} {c : Cmd}

/-- Messages sent less messages received over member tiles (R81). -/
def State.inFlight (s : State) (ms : List Nat) : Int := (ms.map fun n => ((s.core n).sent : Int) - ((s.core n).recv : Int)).sum

/-- A wave over member tiles is clean (R82). -/
def State.cleanWave (s : State) (ms : List Nat) : Prop :=
  (∀ n ∈ ms, s.tileIdle n = true ∧ (s.core n).dirty = false) ∧ s.inFlight ms = 0

theorem wave_sum (ms : List Nat) : (s.wave ms).2.2 = s.inFlight ms := by
  have key (l : List Nat) (a : Int) :
      l.foldl (fun a n => a + ((s.core n).sent : Int) - ((s.core n).recv : Int)) a = a + s.inFlight l := by
    induction l generalizing a with
    | nil => simp [State.inFlight]
    | cons n l ih =>
      rw [List.foldl_cons, ih]
      simp only [State.inFlight, List.map_cons, List.sum_cons]
      omega
  exact (key ms 0).trans (Int.zero_add _)

theorem wave_clean_iff (ms : List Nat) :
    ((s.wave ms).1 && !(s.wave ms).2.1 && (s.wave ms).2.2 == 0) = true ↔ s.cleanWave ms := by
  rw [wave_sum]
  simp only [State.wave, State.cleanWave, Bool.and_eq_true, Bool.not_eq_true', List.all_eq_true, List.any_eq_false, beq_iff_eq,
    Bool.not_eq_true, forall_and]

theorem cleanTiles_slots (ms : List Nat) : (s.cleanTiles ms).slots = s.slots := foldl_keeps State.slots (fun u n => show (u.setCore n _).slots = u.slots from rfl) ..
theorem cleanTiles_mem (ms : List Nat) : (s.cleanTiles ms).mem = s.mem := foldl_keeps State.mem (fun u n => show (u.setCore n _).mem = u.mem from rfl) ..

/-- A wave leaves none of its tiles dirty. -/
theorem cleanTiles_dirty {ms : List Nat} {n : Nat} (h : n ∈ ms ∨ (s.core n).dirty = false) : ((s.cleanTiles ms).core n).dirty = false := by
  unfold State.cleanTiles
  induction ms generalizing s with
  | nil => exact h.resolve_left List.not_mem_nil
  | cons m l ih =>
    rw [List.foldl_cons]
    refine ih ?_
    by_cases e : n = m
    · subst e
      exact .inr (congrArg CoreSt.dirty (core_setCore_same ..))
    · rw [core_setCore_ne _ _ e]
      exact h.imp_left fun h => (List.mem_cons.1 h).resolve_left e

/-- A wave that is not clean starts the count again. -/
theorem countWave_unclean (hc : Runs s q c) : s.countWave q false = s.onCmd q fun c => { c with clean := 0 } := by
  unfold State.countWave
  rw [show (s.slot q).cmd = some c from hc]
  rfl

/-- The first clean wave in a row counts. -/
theorem countWave_first (hc : Runs s q c) (h : c.clean = 0) : s.countWave q true = s.onCmd q fun c => { c with clean := 1 } := by
  unfold State.countWave
  rw [show (s.slot q).cmd = some c from hc]
  simp [h]

/-- The second clean wave in a row declares quiescence. -/
theorem countWave_second (hc : Runs s q c) (h : 1 ≤ c.clean) : ∃ k, Runs (s.countWave q true) q k ∧ k.phase = .fencing := by
  unfold State.countWave
  rw [show (s.slot q).cmd = some c from hc]
  simp only [if_true, if_pos (show 2 ≤ c.clean + 1 by omega)]
  exact quiesce_fencing (runs_onCmd _ hc)

@[simp] theorem countSide_mem (zero : Bool) : (s.countSide q zero).mem = s.mem := by
  fun_cases State.countSide <;> rfl

@[simp] theorem countSide_core (zero : Bool) (n : Nat) : (s.countSide q zero).core n = s.core n := by
  fun_cases State.countSide <;> rfl

theorem countSide_runs (zero : Bool) (hc : Runs s q c) : Runs (s.countSide q zero) q c := by
  fun_cases State.countSide
  · rw [Runs, slot_setSlot_same]
    exact hc
  · exact hc

theorem countSide_side (zero : Bool) {d : Cmd} (h : (s.slot q).side = some d) :
    ((s.countSide q zero).slot q).side = some { d with clean := if zero then d.clean + 1 else 0 } := by
  unfold State.countSide
  rw [h]
  exact congrArg Slot.side (slot_setSlot_same ..)

/-- A wave over the command of one package. -/
theorem exec_terminationWave (hc : Runs s q c) (hp : c.phase = .running) (hg : c.gang = none) :
    exec (.terminationWave q) s = .next (((s.cleanTiles c.members).countWave q
      ((s.wave c.members).1 && !(s.wave c.members).2.1 && (s.wave c.members).2.2 == 0)).countSide q (s.inFlight c.members == 0)) := by
  have hw : s.waves q c = true := by simp [State.waves, hp]
  change execTerminationWave q s = _
  unfold execTerminationWave
  rw [show (s.slot q).cmd = some c from hc]
  simp only [hw, Cmd.waveOut, hg, ← wave_sum, Bool.not_true, Bool.false_eq_true, or_self, if_false]

theorem exec_terminationWave_unclean (hc : Runs s q c) (hp : c.phase = .running) (hg : c.gang = none)
    (h : ¬s.cleanWave c.members) : exec (.terminationWave q) s =
      .next (((s.cleanTiles c.members).onCmd q fun c => { c with clean := 0 }).countSide q (s.inFlight c.members == 0)) := by
  rw [exec_terminationWave hc hp hg, Bool.eq_false_iff.2 fun e => h ((wave_clean_iff _).1 e),
    countWave_unclean (runs_of_slots hc (cleanTiles_slots _))]

theorem exec_terminationWave_clean (hc : Runs s q c) (hp : c.phase = .running) (hg : c.gang = none)
    (h : s.cleanWave c.members) : exec (.terminationWave q) s =
      .next (((s.cleanTiles c.members).countWave q true).countSide q (s.inFlight c.members == 0)) := by
  rw [exec_terminationWave hc hp hg, (wave_clean_iff _).2 h]

end

/-! Gangs (R82, R294). -/

section
variable {s : State} {q : Nat} {c : Cmd} {g : Gang}

/-- Package 0's outcome is quiescence (R82). -/
theorem exec_gangWaveResult_quiescent (hc : Runs s q c) (hp : c.phase = .running) (hg : c.gang = some g) (h0 : s.pkg ≠ 0) :
    ∃ t k, exec (.gangWaveResult q 0 true false 0) s = .next t ∧ Runs t q k ∧ k.phase = .fencing := by
  obtain ⟨k, hk, hf⟩ := quiesce_fencing hc
  refine ⟨_, k, ?_, hk, hf⟩
  change execGangWaveResult q 0 true false 0 s = _
  unfold execGangWaveResult
  rw [show (s.slot q).cmd = some c from hc]
  simp [hg, hp, h0]

/-- Another package's outcome is nothing here. -/
theorem exec_gangWaveResult_elsewhere (hc : Runs s q c) (h0 : s.pkg ≠ 0) {p : Nat} (hp : p ≠ 0) (idle dirty : Bool) (sum : Int) :
    exec (.gangWaveResult q p idle dirty sum) s = .next s := by
  change execGangWaveResult q p idle dirty sum s = _
  unfold execGangWaveResult
  rw [show (s.slot q).cmd = some c from hc]
  simp [h0, hp]

/-- Package 0's outcome without quiescence counts for a CHKNOW (R360). -/
theorem exec_gangWaveResult_counts (hc : Runs s q c) (hp : c.phase = .running) (hg : c.gang = some g) (h0 : s.pkg ≠ 0)
    (dirty : Bool) (sum : Int) : exec (.gangWaveResult q 0 false dirty sum) s = .next (s.countSide q (sum == 0)) := by
  change execGangWaveResult q 0 false dirty sum s = _
  unfold execGangWaveResult
  rw [show (s.slot q).cmd = some c from hc]
  simp [hg, hp, h0]

/-- No entry of a list stands under a number. -/
theorem any_fst_eq_false {α : Type} {l : List (Nat × α)} {p : Nat} (h : ∀ w ∈ l, w.1 ≠ p) : l.any (·.1 == p) = false :=
  List.any_eq_false.2 fun w hw => by simp [h w hw]

/-- Package 0 does not combine while a package's result is missing (R82). -/
theorem combineWaves_missing (hc : Runs s q c) (hg : c.gang = some g) {p : Nat} (hp : p < g.n) (hw : ∀ w ∈ g.waves, w.1 ≠ p) :
    s.combineWaves q = s := by
  have hany : g.waves.any (·.1 == p) = false := any_fst_eq_false hw
  have hall : ((List.range g.n).all fun p => g.waves.any (·.1 == p)) = false :=
    List.all_eq_false.2 ⟨p, List.mem_range.2 hp, by simp [hany]⟩
  unfold State.combineWaves
  rw [show (s.slot q).cmd = some c from hc, Option.bind_some, hg]
  simp [hall]

/-- Package 0 keeps a first result of a package while another's is missing (R82). -/
theorem exec_gangWaveResult_gathers (hc : Runs s q c) (hp : c.phase = .running) (hg : c.gang = some g) (h0 : s.pkg = 0) {pkg : Nat}
    (hn : ∀ w ∈ g.waves, w.1 ≠ pkg) {p : Nat} (hlt : p < g.n) (hne : p ≠ pkg) (hw : ∀ w ∈ g.waves, w.1 ≠ p) (idle dirty : Bool) (sum : Int) :
    ∃ t, exec (.gangWaveResult q pkg idle dirty sum) s = .next t ∧ t.mem = s.mem ∧
      Runs t q (c.inGang { g with waves := (pkg, idle, dirty, sum) :: g.waves }) := by
  have hold : g.waves.find? (·.1 == pkg) = none := List.find?_eq_none.2 fun w hw => by simp [hn w hw]
  have hrest : g.waves.filter (·.1 != pkg) = g.waves := List.filter_eq_self.2 fun w hw => by simp [hn w hw]
  have hr := runs_onGang (fun g =>
    let old := (g.waves.find? (·.1 == pkg)).map (·.2)
    { g with waves := (pkg, idle && (old.map (·.1)).getD true, dirty || (old.map (·.2.1)).getD false, sum) :: g.waves.filter (·.1 != pkg) })
    hc hg
  simp only [hold, hrest, Option.map_none, Option.getD_none, Bool.and_true, Bool.or_false] at hr
  refine ⟨_, ?_, onCmd_mem .., hr⟩
  change execGangWaveResult q pkg idle dirty sum s = _
  unfold execGangWaveResult
  rw [show (s.slot q).cmd = some c from hc]
  simp only [hg, hp, h0, Option.isNone_some, Bool.false_eq_true, ne_eq, not_true, false_and, or_self, if_false, if_true]
  refine congrArg _ (combineWaves_missing hr rfl hlt ?_)
  simp only [List.mem_cons, forall_eq_or_imp]
  exact ⟨hne.symm, hw⟩

/-- A package's first fence report stands at once (R294). -/
theorem exec_gangFenceReport (hc : Runs s q c) (hg : c.gang = some g) {pkg : Nat} (hn : ∀ r ∈ g.reports, r.1 ≠ pkg)
    (status fclass : BitVec 8) (cancel : Bool) : ∃ t, exec (.gangFenceReport q pkg status fclass cancel) s = .next t ∧ t.mem = s.mem ∧
      Runs t q (c.inGang { g with reports := g.reports ++ [(pkg, status.toNat, fclass.toNat, cancel)] }) := by
  have hany : g.reports.any (·.1 == pkg) = false := any_fst_eq_false hn
  refine ⟨_, rfl, onCmd_mem .., ?_⟩
  have hr := runs_onGang (fun g => if g.reports.any (·.1 == pkg) then g else
    { g with reports := g.reports ++ [(pkg, status.toNat, fclass.toNat, cancel)] }) hc hg
  rwa [hany] at hr

end
end Sys2Proof.Machine
end

section
namespace Sys2Proof.Machine

/-! REPLAY_ABANDON (R356) and AGEING_BOUNDARY (R59). -/

section
variable {s : State} {q : Nat} {c : Cmd}

/-- A point of the queue's command has held a candidate for 10,000,000 ticks (R356). -/
def State.waitedLong (s : State) (q : Nat) : Prop := ∃ e ∈ s.schedLog, e.1 / 2 ^ 12 = q ∧ 10000000 ≤ e.2.held

theorem waitedLong_iff : (s.schedLog.any fun e => e.1 / 2 ^ 12 == q && decide (10000000 ≤ e.2.held)) = true ↔ s.waitedLong q := by
  simp only [List.any_eq_true, Bool.and_eq_true, beq_iff_eq, decide_eq_true_eq, State.waitedLong]

theorem exec_replayAbandon (hc : Runs s q c) (hr : c.rlog = 2) (h : s.waitedLong q) :
    ∃ t, exec (.replayAbandon q) s = .next t ∧ t.mem = s.mem ∧ Runs t q { c with rlog := 3 } := by
  refine ⟨_, if_pos (waitedLong_iff.2 h), onCmd_mem .., ?_⟩
  have hk := runs_onCmd (fun c => if c.rlog = 2 then { c with rlog := 3 } else c) hc
  rwa [if_pos hr] at hk

theorem exec_replayAbandon_early (h : ¬s.waitedLong q) : exec (.replayAbandon q) s = .next s := if_neg (h ∘ waitedLong_iff.1)

/-- What an ageing boundary makes of a queue (R59). -/
def Queue.aged (base : Nat) (u : Queue) : Queue :=
  if u.waiting && decide (u.since ≤ base) then { u with eprio := min 255 (u.eprio + 1) } else u

theorem exec_ageingBoundary (hn : s.slotCount ≠ 0) (ht : s.ageBase + s.ageing * 1000 ≤ s.tick.toNat) :
    exec .ageingBoundary s = .next { s with
      queues := s.queues.map fun x => (x.1, x.2.aged s.ageBase), ageBase := s.ageBase + s.ageing * 1000 } :=
  if_neg (by omega)

end

/-! ENERGY_SAMPLE and PERIOD_BOUNDARY (R60). -/

section
variable {s t : State} {q e : Nat} {c : Cmd}

theorem wordAt_replaceAt_same {b : List Word} {i : Nat} (w : Word) (h : i < b.length) : wordAt (replaceAt b i w) i = w := by
  simp [wordAt, replaceAt, List.getD_eq_getElem?_getD, h]

/-- The charge of a queue in µJ (R60). -/
def State.charged (s : State) (q e : Nat) : Nat := (wordAt (s.slot q).qcb 4).toNat + e

/-- The budget of a queue in mJ, 0 for none (R53, R60). -/
def State.budget (s : State) (q : Nat) : Nat := Word.field (wordAt (s.slot q).qcb 3) 63 32

/-- A queue's sample is charged to its QCB and to its command (R60). -/
def State.charge (s : State) (q e : Nat) : State :=
  (s.setSlot q { s.slot q with qcb := replaceAt (s.slot q).qcb 4 (BitVec.ofNat 64 (s.charged q e)) }).onCmd q fun k =>
    { k with energy := k.energy + e }

theorem charge_desk : (s.charge q e).desk = s.desk := onCmd_desk ..
theorem charge_mem : (s.charge q e).mem = s.mem := onCmd_mem ..

theorem charge_runs (hc : Runs s q c) : Runs (s.charge q e) q { c with energy := c.energy + e } := by
  refine runs_onCmd (fun k => { k with energy := k.energy + e }) ?_
  rwa [Runs, slot_setSlot_same]

/-- Beside its command a charge changes word 4 of the QCB alone. -/
theorem slot_charge : ∃ k, (s.charge q e).slot q =
    { s.slot q with cmd := k, qcb := replaceAt (s.slot q).qcb 4 (BitVec.ofNat 64 (s.charged q e)) } := by
  unfold State.charge
  cases hc : (s.slot q).cmd with
  | none =>
    rw [onCmd_of_none _ (by rw [slot_setSlot_same, hc]), slot_setSlot_same]
    exact ⟨_, rfl⟩
  | some c =>
    rw [slot_onCmd _ (c := c) (by rw [Runs, slot_setSlot_same, hc]), slot_setSlot_same]
    exact ⟨_, rfl⟩

/-- Within its budget a queue is only charged. -/
theorem chargeQueue_within (hw : (s.slot q).hw.isSome = true) (h : s.budget q = 0 ∨ s.charged q e < s.budget q * 1000) :
    s.chargeQueue (q, e) = s.charge q e := by
  unfold State.chargeQueue
  rw [if_neg (by simpa using Option.isSome_iff_ne_none.1 hw)]
  dsimp only
  rw [onQcb_mapped _ hw]
  exact if_pos h

/-- What a queue that has exhausted its budget leaves running (R60). -/
def State.stopsAt (s : State) (q : Nat) (x : Option Cmd) : State :=
  match x with
  | some k => if k.phase = .running then s.preempt q else s
  | none => s

theorem stopsAt_desk (x : Option Cmd) : (s.stopsAt q x).desk = s.desk := by
  fun_cases State.stopsAt
  · exact preempt_desk _
  · rfl
  · rfl

/-- A queue that exhausts its budget is held and leaves its slot. -/
theorem chargeQueue_exhausted (hw : (s.slot q).hw.isSome = true) (h0 : s.budget q ≠ 0) (h : s.budget q * 1000 ≤ s.charged q e) :
    s.chargeQueue (q, e) = (State.setQueue ((s.charge q e).stopsAt q (s.slot q).cmd) q
      { ((s.charge q e).stopsAt q (s.slot q).cmd).queue q with held := true }).unmap q := by
  unfold State.chargeQueue
  rw [if_neg (by simpa using Option.isSome_iff_ne_none.1 hw)]
  dsimp only
  rw [onQcb_mapped _ hw]
  exact if_neg (by rw [not_or, not_lt]; exact ⟨h0, h⟩)

theorem exec_energySample (h : NoneWaiting (s.chargeQueue (q, e))) : exec (.energySample [(q, e)]) s = .next (s.chargeQueue (q, e)) :=
  congrArg Host.Outcome.next h.mapFree

theorem exec_energySample_within (hn : NoneWaiting s) (hw : (s.slot q).hw.isSome = true)
    (h : s.budget q = 0 ∨ s.charged q e < s.budget q * 1000) : exec (.energySample [(q, e)]) s = .next (s.charge q e) := by
  rw [exec_energySample, chargeQueue_within hw h]
  rw [chargeQueue_within hw h]
  exact hn.of_queues (queues_of_desk charge_desk)

/-- A pre-emption leaves its command pre-empted (R346). -/
theorem preempt_preempted (hc : Runs s q c) : (s.preempt q).preempted q = true := by
  have hk := runs_onCmd (fun c => { c with phase := .preempted, clean := 0 }) hc
  obtain ⟨k, hr, hu⟩ := runs_of_bare (preempt_bare q) hk
  have hp : k.phase = .preempted := congrArg Cmd.phase hu
  unfold State.preempted
  rw [show ((s.preempt q).slot q).cmd = some k from hr]
  exact decide_eq_true hp

/-- A queue that exhausts its budget: held, without a slot, and its running command pre-empted (R60). -/
theorem exec_energySample_exhausted (hn : NoneWaiting s) (hw : (s.slot q).hw.isSome = true) (h0 : s.budget q ≠ 0)
    (h : s.budget q * 1000 ≤ s.charged q e) : ∃ t, exec (.energySample [(q, e)]) s = .next t ∧ (t.queue q).held = true ∧
      (t.slot q).hw = none ∧ (t.slot q).cmd = (((s.charge q e).stopsAt q (s.slot q).cmd).slot q).cmd := by
  have he := chargeQueue_exhausted hw h0 h
  generalize hu : (s.charge q e).stopsAt q (s.slot q).cmd = u at he ⊢
  have hd : u.desk = s.desk := by
    rw [← hu, stopsAt_desk, charge_desk]
  have hnu : NoneWaiting u := hn.of_queues (queues_of_desk hd)
  generalize hv : u.setQueue q { u.queue q with held := true } = v at he
  have hh : (v.queue q).held = true := by
    rw [← hv, queue_setQueue_same]
  have hnv : NoneWaiting v := by
    rw [← hv]
    exact hnu.setQueue (hnu.queue q)
  obtain ⟨b, hb⟩ := unmap_slot (s := v) (q := q)
  refine ⟨v.unmap q, ?_, ?_, ?_, ?_⟩
  · rw [← he]
    exact exec_energySample (he ▸ hnv.unmap hh)
  · exact unmap_keeps_held hh
  · rw [hb]
  · rw [hb, ← hv]
    rfl

/-- A mapped queue's accounting period ends (R60). -/
theorem exec_periodBoundary (hn : NoneWaiting s) (hw : (s.slot q).hw.isSome = true) (hc : (s.queue q).created = true)
    (ht : (s.queue q).period + qcbPeriod (s.slot q).qcb ≤ s.tick.toNat) : exec (.periodBoundary q) s =
      .next ((s.setSlot q { s.slot q with qcb := replaceAt (s.slot q).qcb 4 0 }).setQueue q
        { s.queue q with period := (s.queue q).period + qcbPeriod (s.slot q).qcb, held := false }) := by
  have hq : s.qcb q = (s.slot q).qcb := if_pos hw
  change execPeriodBoundary q s = _
  unfold execPeriodBoundary
  rw [hq]
  dsimp only
  rw [if_neg (by simp [hc, ht]), onQcb_mapped _ hw]
  refine congrArg _ ?_
  generalize hu : (s.setSlot q { s.slot q with qcb := replaceAt (s.slot q).qcb 4 0 }).setQueue q
    { s.queue q with period := (s.queue q).period + qcbPeriod (s.slot q).qcb, held := false } = u
  have hnu : NoneWaiting u := by
    rw [← hu]
    exact (hn.of_queues rfl).setQueue (hn.queue q)
  have hwu : (u.slot q).hw.isSome = true := by
    rw [← hu]
    exact (congrArg (fun x : Slot => x.hw.isSome) (slot_setSlot_same s q _)).trans hw
  rw [noteWaiting_of_not_wanted (wantsSlot_mapped hwu) (hnu.queue q), hnu.mapFree]

end

/-- Settles O53, clause by clause: the waves by what one wave leaves, clean or not; energy and periods by what a charge and the
loss of a slot leave, where no other queue takes the slot. -/
theorem commandSteps : Obligations.CommandSteps := by
  refine ⟨fun s q c hc => ⟨fun hp hg => ?wave, fun hp g hg => ⟨fun h0 => ⟨?quiescent, ?elsewhere, ?counts⟩, ?gathers⟩, ?report, ?replay⟩,
    fun s hn ht => ?ageing, fun s q hn hw hl => ⟨fun e => ⟨?within, ?exhausted⟩, ?period⟩⟩
  case wave =>
    intro sum clean
    have hc' : Runs (s.cleanTiles c.members) q c := runs_of_slots hc (cleanTiles_slots _)
    by_cases hcl : s.cleanWave c.members
    · refine ⟨_, exec_terminationWave_clean hc hp hg hcl, fun h => absurd hcl h, fun _ h => ?_, fun _ h => ?_,
        fun _ h => absurd hcl h⟩
      · rw [countWave_first hc' h]
        refine ⟨countSide_runs _ (runs_onCmd _ hc'), ?_⟩
        rw [countSide_mem, onCmd_mem, cleanTiles_mem]
      · obtain ⟨k, hk, hf⟩ := countWave_second hc' h
        exact ⟨k, countSide_runs _ hk, hf⟩
    · refine ⟨_, exec_terminationWave_unclean hc hp hg hcl, fun _ => ⟨countSide_runs _ (runs_onCmd _ hc'), ?_, fun n hm => ?_⟩,
        fun h => absurd h hcl, fun h => absurd h hcl, fun d _ hd => ?_⟩
      · rw [countSide_mem, onCmd_mem, cleanTiles_mem]
      · rw [countSide_core, onCmd_core]
        exact cleanTiles_dirty (.inl hm)
      · rw [countSide_side (d := d)]
        · simp only [beq_iff_eq]
          rfl
        · rw [slot_onCmd _ hc', State.slot, cleanTiles_slots]
          exact hd
  case quiescent => exact exec_gangWaveResult_quiescent hc hp hg h0
  case elsewhere => exact fun p idle dirty sum h => exec_gangWaveResult_elsewhere hc h0 h idle dirty sum
  case counts =>
    intro dirty sum d hd
    refine ⟨_, exec_gangWaveResult_counts hc hp hg h0 dirty sum, countSide_runs _ hc, ?_⟩
    rw [countSide_side _ hd]
    simp only [beq_iff_eq]
  case gathers =>
    rintro pkg idle dirty sum h0 hn ⟨p, hlt, hne, hw⟩
    exact exec_gangWaveResult_gathers hc hp hg h0 hn hlt hne hw idle dirty sum
  case report => exact fun g pkg status fclass cancel hg hn => exec_gangFenceReport hc hg hn status fclass cancel
  case replay => exact ⟨exec_replayAbandon hc, exec_replayAbandon_early⟩
  case ageing =>
    refine ⟨_, exec_ageingBoundary hn ht, rfl, fun q => ?_⟩
    have hm : look {} (s.queues.map fun x => (x.1, x.2.aged s.ageBase)) q = (s.queue q).aged s.ageBase :=
      look_map (f := Queue.aged s.ageBase) rfl ..
    refine hm.trans ?_
    simp only [Queue.aged, Bool.and_eq_true, decide_eq_true_eq]
  case within =>
    intro h
    obtain ⟨k, hk⟩ := slot_charge (s := s) (q := q) (e := e)
    refine ⟨_, exec_energySample_within hn hw h, charge_mem, ?_, fun c hc => charge_runs hc⟩
    rw [hk]
    exact wordAt_replaceAt_same _ hl
  case exhausted =>
    intro h0 h
    obtain ⟨t, he, hh, hw', hcmd⟩ := exec_energySample_exhausted hn hw h0 h
    refine ⟨t, he, hh, hw', fun c hc => ?_⟩
    have hr := charge_runs (e := e) hc
    rw [hc, State.stopsAt] at hcmd
    split
    · next hp =>
      rw [if_pos hp] at hcmd
      have hpre := preempt_preempted hr
      rwa [State.preempted, ← hcmd] at hpre
    · next hp =>
      rw [if_neg hp] at hcmd
      rwa [Runs, hcmd]
  case period =>
    intro hcr ht
    refine ⟨_, exec_periodBoundary hn hw hcr ht, ?_, ?_, ?_⟩
    · rw [queue_setQueue_same]
    · rw [queue_setQueue_same]
    · refine (congrArg (fun x => wordAt x.qcb 4) (slot_setSlot_same s q _)).trans ?_
      exact wordAt_replaceAt_same _ hl

end Sys2Proof.Machine
end

section
namespace Sys2Proof.Machine

/-! A DESTROY behind a packet of an unmapped queue (R60, R61). -/

section
variable {s : State} {q : Nat} {c : Cmd} {p : List Byte}

/-- A DESTROY without cancel behind the running packet drains the queue (R61). -/
theorem exec_destroy_behind (hc : Runs s q c) (ho : c.op ≠ 8) (hs : qcbState (s.slot q).qcb ≠ 2) (hb : s.behind q = some p)
    (hp : pkCancel p = false) : exec (.destroy q) s = .next (s.drain q) := by
  change execDestroy q s = _
  unfold execDestroy
  rw [show (s.slot q).cmd = some c from hc, hb]
  dsimp only
  rw [if_neg (by simp [hs, ho]), hp]
  rfl

/-- An unmapped queue drains in host memory: the slot's copy of its QCB stays. -/
theorem drain_slot_unmapped (h : (s.slot q).hw = none) : (s.drain q).slot q = s.slot q := by
  obtain ⟨m, hm⟩ := onQcb_unmapped (fun b => qcbPut b 1 63 60 2) h
  rw [State.drain, hm]
  rfl

end

/-- A DESTROY without cancel, with its CRC (R55, R56). -/
def plainDestroy : List Byte := [8, 0, 1, 0, 0, 0, 0x50, 0x3F] ++ List.replicate 56 0

/-- Queue 0 lost its slot while the LAUNCH of an indirect buffer ran, which stands pre-empted (R60, R347); the DESTROY behind it is
the buffer's last packet (R58). -/
def unmappedInBuffer : State :=
  let launch : Cmd := { State.reset.newCmd 0 [] .preempted 0 with op := 1, beats := 1 }
  let buffer : Cmd := { State.reset.newCmd 0 [] .working 0 with op := 10, beats := 1, ib := some (0x9000, 2) }
  { State.reset with
    ready := true
    qtab := some (0x1000, 1)
    queues := [(0, { created := true, held := true, tail := 2 })]
    hostMem := writeBytes [] 0x9040 plainDestroy
    slots := [(0, { qcb := List.replicate 32 0, cmd := some launch, outer := some buffer })] }

theorem unmappedInBuffer_behind : unmappedInBuffer.behind 0 = some plainDestroy := by decide +kernel

/-- Refutes O51: the clause of a DESTROY behind a running packet says of the slot's copy of the QCB that it drains, of a queue that
may have lost its slot meanwhile (R60); there the state is drained in host memory, and the copy keeps its own. -/
theorem not_packetSteps : ¬ Obligations.PacketSteps := by
  rintro ⟨-, -, hpackets⟩
  obtain ⟨-, -, -, -, -, -, hbehind, -⟩ := hpackets unmappedInBuffer 0 ((unmappedInBuffer.slot 0).cmd.getD default)
  have hc : Runs unmappedInBuffer 0 ((unmappedInBuffer.slot 0).cmd.getD default) := rfl
  have hs : qcbState (unmappedInBuffer.slot 0).qcb ≠ 2 := by decide
  have ho : ((unmappedInBuffer.slot 0).cmd.getD default).op ≠ 8 := by decide
  obtain ⟨t, ht, hstate, -⟩ := hbehind hc ho (by decide) hs plainDestroy unmappedInBuffer_behind
  obtain rfl : unmappedInBuffer.drain 0 = t :=
    Host.Outcome.next.inj ((exec_destroy_behind hc ho hs unmappedInBuffer_behind (by decide)).symm.trans ht)
  rw [drain_slot_unmapped rfl] at hstate
  exact hs hstate

end Sys2Proof.Machine
end

section
namespace Sys2Proof.Machine

/-! What an admin command is answered (R52). -/

section
variable {s t : State} {q : Nat}

/-- An answer: vector 0, the response, and what then stands in the mailbox. -/
def State.answeredWith (s : State) (r f : Nat) : State :=
  State.writeResponse { s with interrupts := s.interrupts ++ [0], response := r, free := f }

/-- The response of an admin command is a byte, 0 exactly where the command is not refused. -/
theorem respond_eq (ok : Bool) : ∃ r f, s.respond ok = s.answeredWith r f ∧ (r = 0 ↔ ok = true) ∧ r ≤ 255 := by
  cases ok with
  | true =>
    refine ⟨0, s.free, ?_, by simp, by omega⟩
    unfold State.respond State.answeredWith
    rw [if_pos rfl]
  | false =>
    refine ⟨1 + (Config.freeWord s.free).toNat % 255, s.free + 1, ?_, by simp, by omega⟩
    unfold State.respond State.answeredWith
    rw [if_neg Bool.false_ne_true]

/-- What no answer changes. -/
theorem respond_keeps {β : Type} (g : State → β) (hg : ∀ r f, g (s.answeredWith r f) = g s) (ok : Bool) : g (s.respond ok) = g s := by
  obtain ⟨r, f, h, -⟩ := respond_eq (s := s) ok
  rw [h, hg]

@[simp] theorem respond_queues (ok : Bool) : (s.respond ok).queues = s.queues := respond_keeps State.queues (fun _ _ => rfl) ok
@[simp] theorem respond_slots (ok : Bool) : (s.respond ok).slots = s.slots := respond_keeps State.slots (fun _ _ => rfl) ok
@[simp] theorem respond_hostMem (ok : Bool) : (s.respond ok).hostMem = s.hostMem := respond_keeps State.hostMem (fun _ _ => rfl) ok
@[simp] theorem respond_qtab (ok : Bool) : (s.respond ok).qtab = s.qtab := respond_keeps State.qtab (fun _ _ => rfl) ok
@[simp] theorem respond_sampling (ok : Bool) : (s.respond ok).sampling = s.sampling := respond_keeps State.sampling (fun _ _ => rfl) ok
@[simp] theorem respond_info (ok : Bool) : (s.respond ok).info = s.info := respond_keeps State.info (fun _ _ => rfl) ok
@[simp] theorem respond_desk (ok : Bool) : (s.respond ok).desk = s.desk := respond_keeps State.desk (fun _ _ => rfl) ok
@[simp] theorem respond_slotCount (ok : Bool) : (s.respond ok).slotCount = s.slotCount := (Desk.mk.inj (respond_desk ok)).2.1

@[simp] theorem respond_queue (ok : Bool) : (s.respond ok).queue q = s.queue q := queue_of_desk (respond_desk ok)
@[simp] theorem respond_slot (ok : Bool) : (s.respond ok).slot q = s.slot q := by rw [State.slot, State.slot, respond_slots]
@[simp] theorem respond_lasting (ok : Bool) : (s.respond ok).lasting q = s.lasting q := lasting_of_desk (respond_desk ok)

theorem respond_responded (ok : Bool) : Responded (s.respond ok) (ok = true) := by
  obtain ⟨r, f, h, hr, -⟩ := respond_eq (s := s) ok
  rw [h]
  refine ⟨?_, hr⟩
  change (s.interrupts ++ [0]).getLast? = some 0
  rw [List.getLast?_append]
  rfl

theorem Responded.of_iff {p r : Prop} (h : Responded t p) (e : p ↔ r) : Responded t r := ⟨h.1, h.2.trans e⟩

/-- Before ready an admin command is ignored (R63). -/
theorem admin_not_ready (h : s.ready = false) (ok : Bool) (f : State → State) : s.admin ok f = .next s := if_pos (by rw [h]; rfl)

theorem admin_refused (h : s.ready = true) (f : State → State) : s.admin false f = .next (s.respond false) := by
  unfold State.admin
  rw [h]
  rfl

theorem admin_granted (h : s.ready = true) (f : State → State) : s.admin true f = .next ((f s).respond true) := by
  unfold State.admin
  rw [h]
  rfl

/-- An admin command is answered 0 with its effect, or refused without one. -/
theorem admin_answers {b : Bool} {ok : Prop} {f : State → State} {P R : State → Prop} (hr : s.ready = true) (hb : b = true ↔ ok)
    (hP : P (s.respond false)) (hR : ok → R ((f s).respond true)) :
    ∃ t, s.admin b f = .next t ∧ Responded t ok ∧ (¬ok → P t) ∧ (ok → R t) := by
  cases b with
  | false =>
    have hn : ¬ok := fun h => absurd (hb.2 h) Bool.false_ne_true
    exact ⟨_, admin_refused hr f, (respond_responded false).of_iff hb, fun _ => hP, fun h => absurd h hn⟩
  | true =>
    have h : ok := hb.1 rfl
    exact ⟨_, admin_granted hr f, (respond_responded true).of_iff hb, fun hn => absurd h hn, hR⟩

end

/-! The response in the admin mailbox (R50, R52). -/

section
variable {α : Type} [DecidableEq α] {d : α} {m : Sparse α}

theorem look_put (w : wfFrom d 0 m = true) (k j : Nat) (a : α) : look d (put d m k a) j = if j = k then a else look d m j := by
  unfold put
  split
  · next e => rw [look_dropAt d m k j 0 w, e]
  · exact look_setAt ..

theorem wfFrom_put (w : wfFrom d 0 m = true) (k : Nat) (a : α) : wfFrom d 0 (put d m k a) = true := by
  unfold put
  split
  · exact wfFrom_dropAt d m k 0 w
  · next e => exact wfFrom_setAt d m k a e 0 (Nat.zero_le _) w

end

section
variable {s : State}

/-- The first eight bytes of the response are not overwritten by those behind them. -/
theorem look_foldl_put (f : Nat → Word) (l : List Nat) {m : Sparse Word} (w : wfFrom 0 0 m = true) :
    look 0 (l.foldl (fun m i => put 0 m (0x1040 + 8 * i) (f i)) m) 0x1040 = if 0 ∈ l then f 0 else look 0 m 0x1040 := by
  induction l generalizing m with
  | nil => rfl
  | cons i l ih =>
    rw [List.foldl_cons, ih (wfFrom_put w _ _), look_put w]
    by_cases hi : i = 0
    · subst hi
      simp
    · simp [hi, Ne.symm hi]

theorem writeResponse_bar0 (w : wfFrom 0 0 s.bar0 = true) : look 0 s.writeResponse.bar0 0x1040 = s.responseAt 0 := by
  unfold State.writeResponse
  dsimp only
  rw [look_foldl_put (fun i => s.responseAt (8 * i)) _ w, if_pos (by decide), Nat.mul_zero]

/-- The lowest byte of a word of bytes. -/
theorem field_bytesNat (b : Byte) (l : List Byte) : Word.field (BitVec.ofNat 64 (bytesNat (b :: l))) 7 0 = b.toNat := by
  have hb := b.isLt
  simp only [Word.field, bytesNat, BitVec.toNat_ofNat, Nat.shiftRight_zero]
  omega

/-- The response stands behind the command in the admin mailbox, its status first. -/
theorem respond_bar0 (ok : Bool) (w : wfFrom 0 0 s.bar0 = true) :
    Word.field (look 0 (s.respond ok).bar0 0x1040) 7 0 = (s.respond ok).response := by
  obtain ⟨r, f, h, -, hr⟩ := respond_eq (s := s) ok
  have hb := writeResponse_bar0 (s := { s with interrupts := s.interrupts ++ [0], response := r, free := f }) w
  rw [h, State.answeredWith, hb]
  refine (field_bytesNat (BitVec.ofNat 8 r) _).trans ?_
  rw [BitVec.toNat_ofNat]
  exact Nat.mod_eq_of_lt (by omega)

end
end Sys2Proof.Machine
end

section
namespace Sys2Proof.Machine

/-! The admin commands one by one (R52, R353, R360, R367) and KICK (R54). -/

section
variable {s : State} {q : Nat}

theorem exec_kick_refused (hr : s.ready = true) (tail : BitVec 16) (hk : s.kickable q = false) :
    exec (.kick q tail) s = .next (s.bump 0xCF0) := by
  change execKick q tail s = _
  unfold execKick
  rw [hr, hk]
  rfl

/-- A kick stores its tail, modulo the ring's size (R54). -/
theorem exec_kick_tail (hr : s.ready = true) (tail : BitVec 16) (hk : s.kickable q = true) :
    ∃ t, exec (.kick q tail) s = .next t ∧ (t.queue q).tail = tail.toNat % qcbSize (s.qcb q) := by
  change ∃ t, execKick q tail s = .next t ∧ _
  unfold execKick
  rw [hr, hk]
  simp only [Bool.not_true, Bool.false_eq_true, if_false]
  split
  · refine ⟨_, rfl, ?_⟩
    rw [queue_of_desk (onQcb_desk _), queue_setQueue_same]
  · refine ⟨_, rfl, ?_⟩
    have hl (u : State) : ((u.noteWaiting q).mapFree.queue q).tail = (u.queue q).tail :=
      congrArg (fun x => x.1.tail) (mapFree_lasting.trans (noteWaiting_lasting (s := u) (q := q) q))
    rw [hl, queue_setQueue_same]

theorem exec_qtab (hr : s.ready = true) (base : Word) (count : Nat) :
    let ok := base.toNat % 4096 = 0 ∧ 1 ≤ count ∧ count ≤ 4096
    ∃ t, exec (.qtab base count) s = .next t ∧ Responded t ok ∧ (ok → t.qtab = some (base.toNat, count)) ∧
      (s.formOk = true → Word.field (look 0 t.bar0 0x1040) 7 0 = t.response) ∧ (¬ok → t.qtab = s.qtab) := by
  intro ok
  have hf (h : s.formOk = true) : wfFrom 0 0 s.bar0 = true := by
    simp only [State.formOk, Bool.and_eq_true] at h
    exact h.2
  obtain ⟨t, he, ha, hno, hyes⟩ := admin_answers (s := s) (ok := ok)
    (b := base.toNat % 4096 == 0 && decide (1 ≤ count) && decide (count ≤ 4096)) (f := fun s => { s with qtab := some (base.toNat, count) })
    (P := fun t => (s.formOk = true → Word.field (look 0 t.bar0 0x1040) 7 0 = t.response) ∧ t.qtab = s.qtab)
    (R := fun t => (s.formOk = true → Word.field (look 0 t.bar0 0x1040) 7 0 = t.response) ∧ t.qtab = some (base.toNat, count))
    hr (by simp only [Bool.and_eq_true, beq_iff_eq, decide_eq_true_eq, and_assoc, ok])
    ⟨fun h => respond_bar0 false (hf h), respond_qtab _⟩
    fun _ => ⟨fun h => respond_bar0 (s := { s with qtab := some (base.toNat, count) }) true (hf h), respond_qtab _⟩
  refine ⟨t, he, ha, fun h => (hyes h).2, ?_, fun h => (hno h).2⟩
  by_cases h : ok
  · exact (hyes h).1
  · exact (hno h).1

theorem exec_slots (hr : s.ready = true) (count ageing : Nat) :
    let ok := 1 ≤ count ∧ count ≤ 32
    ∃ t, exec (.slots count ageing) s = .next t ∧ Responded t ok ∧ (¬ok → t.slotCount = s.slotCount ∧ t.slots = s.slots) ∧
      (ok → t.slotCount = count ∧ t.ageing = (if ageing = 0 then 1000 else ageing) ∧ t.ageBase = s.tick.toNat) := by
  intro ok
  change ∃ t, execSlots count ageing s = .next t ∧ _
  unfold execSlots
  refine admin_answers (P := fun t => t.slotCount = s.slotCount ∧ t.slots = s.slots)
    (R := fun t => t.slotCount = count ∧ t.ageing = (if ageing = 0 then 1000 else ageing) ∧ t.ageBase = s.tick.toNat) hr
    (by simp only [Bool.and_eq_true, decide_eq_true_eq, ok]) ⟨respond_slotCount _, respond_slots _⟩ fun _ => ?_
  have hl := (respond_lasting (q := 0) true).trans (mapFree_lasting (q := 0)
    (s := { s with slotCount := count, ageing := if ageing = 0 then 1000 else ageing, ageBase := s.tick.toNat }))
  simp only [State.lasting, Prod.mk.injEq] at hl
  exact hl.2

/-- What QCREATE has created stands, whatever the free slots take (R52, R53). -/
theorem exec_qcreate (hr : s.ready = true) :
    let ok := (s.qcbAddr q).isSome = true ∧ qcbOk (s.hostQcb q) = true ∧ (s.slot q).hw = none ∧ (s.slot q).cmd = none ∧
      (s.slot q).outer = none
    ∃ t, exec (.qcreate q) s = .next t ∧ Responded t ok ∧ (¬ok → t.queues = s.queues ∧ t.hostMem = s.hostMem) ∧
      (ok → (t.queue q).created = true ∧ (t.queue q).destroyed = false ∧
        (t.queue q).tail = Word.field (wordAt (s.hostQcb q) 1) 31 16 ∧ (t.queue q).mbox = (s.queue q).mbox ∧
        (t.queue q).twin = (s.queue q).twin ∧ (t.queue q).replay = (s.queue q).replay) := by
  intro ok
  change ∃ t, execQcreate q s = .next t ∧ _
  unfold execQcreate
  refine admin_answers (P := fun t => t.queues = s.queues ∧ t.hostMem = s.hostMem)
    (R := fun t => (t.queue q).created = true ∧ (t.queue q).destroyed = false ∧
        (t.queue q).tail = Word.field (wordAt (s.hostQcb q) 1) 31 16 ∧ (t.queue q).mbox = (s.queue q).mbox ∧
        (t.queue q).twin = (s.queue q).twin ∧ (t.queue q).replay = (s.queue q).replay) hr
    (by simp only [Bool.and_eq_true, Option.isNone_iff_eq_none, and_assoc, ok]) ⟨respond_queues _, respond_hostMem _⟩ fun _ => ?_
  dsimp only
  generalize hv : (s.writeBack q (qcbFresh (s.hostQcb q))).setSlot q {} = v
  have hd : v.desk = s.desk := by
    rw [← hv, setSlot_desk, writeBack_desk]
  rw [respond_queue, queue_of_desk hd]
  generalize hx : ({ created := true, tail := _, period := _, replay := _, twin := _, mbox := _ } : Queue) = x
  have hl := (mapFree_lasting (s := (v.setQueue q x).noteWaiting q) (q := q)).trans (noteWaiting_lasting q)
  have kept {β : Type} (g : Queue → β) (hg : ∀ x, g x.lasting = g x) : g (((v.setQueue q x).noteWaiting q).mapFree.queue q) = g x :=
    (lasting_field g hg hl).trans (congrArg g (queue_setQueue_same x))
  rw [kept Queue.created fun _ => rfl, kept Queue.destroyed fun _ => rfl, kept Queue.tail fun _ => rfl, kept Queue.mbox fun _ => rfl,
    kept Queue.twin fun _ => rfl, kept Queue.replay fun _ => rfl, ← hx]
  exact ⟨rfl, rfl, rfl, rfl, rfl, rfl⟩

theorem seen_fenced (k : Option Word) (pa : Nat) : (s.seen k pa).fenced = s.fenced := by
  unfold State.seen
  dsimp only
  split <;> rfl

theorem overwrite_fenced (pa : Nat) (bs : List Byte) : (s.overwrite pa bs).fenced = s.fenced := rfl

theorem exec_info (hr : s.ready = true) :
    ∃ t, exec .info s = .next t ∧ Responded t True ∧ t.info.1 = BitVec.ofNat 64 (crc64 s.mapBytes) := by
  change ∃ t, execInfo s = .next t ∧ _
  unfold execInfo
  refine ⟨_, admin_granted hr _, (respond_responded true).of_iff (by simp), ?_⟩
  rw [respond_info]
  dsimp only
  split
  · rw [State.mapDigest, State.mapBytes, overwrite_fenced, seen_fenced, seen_fenced]
    rfl
  · rfl

theorem exec_sample (hr : s.ready = true) (tick host : Word) (len : Nat) :
    let ok := 33280 ≤ len ∧ host.toNat % 64 = 0 ∧ (tick = 0 ∨ s.tick.toNat < tick.toNat)
    ∃ t, exec (.sample tick host len) s = .next t ∧ Responded t ok ∧ (¬ok → t.sampling = s.sampling) ∧
      (ok → ∃ n, s.tick.toNat < n ∧ (tick ≠ 0 → n = tick.toNat) ∧
        t.sampling = s.sampling ++ [{ tick := n, host := host.toNat, len := len }]) := by
  intro ok
  change ∃ t, execSample tick host len s = .next t ∧ _
  unfold execSample
  dsimp only
  refine admin_answers (P := fun t => t.sampling = s.sampling) (R := fun t => ∃ n, s.tick.toNat < n ∧ (tick ≠ 0 → n = tick.toNat) ∧
      t.sampling = s.sampling ++ [{ tick := n, host := host.toNat, len := len }]) hr ?_ (respond_sampling _) fun h => ?_
  · simp only [Bool.and_eq_true, Bool.or_eq_true, beq_iff_eq, decide_eq_true_eq, and_assoc, ok]
  · obtain ⟨_, _, ht⟩ := h
    refine ⟨_, ?_, fun h => if_neg h, respond_sampling _⟩
    split
    · omega
    · next h => exact ht.resolve_left h

end

/-! The commands that name a free queue. -/

section
variable {s : State} {q : Nat}

/-- A live queue has neither a command nor an indirect buffer (R52). -/
def State.freeQueue (s : State) (q : Nat) : Prop := s.live q = true ∧ (s.slot q).cmd = none ∧ (s.slot q).outer = none

theorem freeQueue_iff : (s.live q && s.quiet q) = true ↔ s.freeQueue q := by
  simp only [State.quiet, State.freeQueue, Bool.and_eq_true, Option.isNone_iff_eq_none]

theorem putField_bit (w : Word) : (Word.putField w 63 63 1).getLsbD 63 = true := by
  simp [Word.putField]

theorem exec_ccreate (hr : s.ready = true) (session : Word) :
    ∃ t, exec (.ccreate q session) s = .next t ∧ Responded t (s.freeQueue q) ∧ (¬s.freeQueue q → t.queues = s.queues) ∧
      (s.freeQueue q → (t.queue q).session = some session ∧
        ((s.slot q).hw.isSome = true → 5 < (s.slot q).qcb.length → qcbConf (t.slot q).qcb = true)) := by
  change ∃ t, execCcreate q session s = .next t ∧ _
  unfold execCcreate
  refine admin_answers (P := fun t => t.queues = s.queues) (R := fun t => (t.queue q).session = some session ∧
        ((s.slot q).hw.isSome = true → 5 < (s.slot q).qcb.length → qcbConf (t.slot q).qcb = true)) hr freeQueue_iff (respond_queues _)
    fun _ => ⟨?_, fun hw hl => ?_⟩
  · rw [respond_queue, queue_of_desk (onQcb_desk _), queue_setQueue_same]
  · rw [respond_slot, onQcb_mapped (s := s.setQueue q _) _ hw, slot_setSlot_same]
    refine (congrArg (BitVec.getLsbD · 63) (wordAt_replaceAt_same _ hl)).trans (putField_bit _)

theorem exec_replay (hr : s.ready = true) (mode : Nat) (log len : Word) :
    let ok := s.freeQueue q ∧ mode ≤ 2 ∧ (mode = 0 ∨ (log.toNat % 2 ^ 21 = 0 ∧ len.toNat % 2 ^ 21 = 0 ∧ log.toNat / 2 ^ 39 = s.pkg ∧
      (physOf 0 (log.toNat % 2 ^ 39)).isSome = true ∧ len ≠ 0))
    ∃ t, exec (.replay q mode log len) s = .next t ∧ Responded t ok ∧ (¬ok → t.queues = s.queues) ∧
      (ok → (t.queue q).replay = (mode, log, len)) := by
  intro ok
  change ∃ t, execReplay q mode log len s = .next t ∧ _
  unfold execReplay
  refine admin_answers (P := fun t => t.queues = s.queues) (R := fun t => (t.queue q).replay = (mode, log, len)) hr ?_ (respond_queues _)
    fun _ => by rw [respond_queue, queue_setQueue_same]
  rw [Bool.and_eq_true, Bool.and_eq_true, freeQueue_iff]
  simp only [Bool.and_eq_true, Bool.or_eq_true, beq_iff_eq, bne_iff_ne, decide_eq_true_eq, and_assoc, ok]

theorem exec_twin (hr : s.ready = true) (on : Nat) :
    let ok := s.freeQueue q ∧ on ≤ 1
    ∃ t, exec (.twin q on) s = .next t ∧ Responded t ok ∧ (¬ok → t.queues = s.queues) ∧ (ok → ((t.queue q).twin = true ↔ on = 1)) := by
  intro ok
  change ∃ t, execTwin q on s = .next t ∧ _
  unfold execTwin
  refine admin_answers (P := fun t => t.queues = s.queues) (R := fun t => (t.queue q).twin = true ↔ on = 1) hr ?_ (respond_queues _)
    fun _ => by rw [respond_queue, queue_setQueue_same]; exact beq_iff_eq
  rw [Bool.and_eq_true, freeQueue_iff, decide_eq_true_eq]

theorem exec_mboxlim (hr : s.ready = true) (limit : Nat) :
    let ok := s.freeQueue q ∧ limit ≤ 64
    ∃ t, exec (.mboxlim q limit) s = .next t ∧ Responded t ok ∧ (¬ok → t.queues = s.queues) ∧
      (ok → (t.queue q).mbox = (if limit = 0 then 64 else limit)) := by
  intro ok
  change ∃ t, execMboxlim q limit s = .next t ∧ _
  unfold execMboxlim
  refine admin_answers (P := fun t => t.queues = s.queues) (R := fun t => (t.queue q).mbox = (if limit = 0 then 64 else limit)) hr ?_
    (respond_queues _) fun _ => by rw [respond_queue, queue_setQueue_same]
  rw [Bool.and_eq_true, freeQueue_iff, decide_eq_true_eq]

/-- The CHKPT packet of CHKNOW is fetched beside the queue's running command (R353, R360). -/
theorem exec_chknow (hr : s.ready = true) (host : Word) :
    let p := wholePacket fun n => readBytes s.hostMem host.toNat (64 * n)
    let ok := (s.slot q).hw.isSome = true ∧ (s.slot q).side = none ∧ (∀ c, (s.slot q).cmd = some c → c.phase = .running) ∧
      pkOp p = 9 ∧ pkCrcOk p = true ∧ pkOk p = true
    ∃ t, exec (.chknow q host) s = .next t ∧ Responded t ok ∧ (¬ok → t.slots = s.slots) ∧
      (ok → ∃ k, (t.slot q).side = some k ∧ k.op = 9 ∧ k.phase = .fetched ∧ k.packet = p) := by
  intro p ok
  change ∃ t, execChknow q host s = .next t ∧ _
  unfold execChknow
  refine admin_answers (P := fun t => t.slots = s.slots)
    (R := fun t => ∃ k, (t.slot q).side = some k ∧ k.op = 9 ∧ k.phase = .fetched ∧ k.packet = p) hr ?_ (respond_slots _)
    fun ⟨_, _, _, hop, _⟩ => ?_
  · simp only [Bool.and_eq_true, Option.isNone_iff_eq_none, beq_iff_eq, and_assoc, ok, p]
    cases (s.slot q).cmd <;> simp
  · dsimp only
    generalize (if (s.slot q).cmd.isSome = true then s.preempt q else s) = u
    refine ⟨u.newCmd q p .fetched 0, ?_, hop, rfl, rfl⟩
    rw [respond_slot, slot_setSlot_same]

end
end Sys2Proof.Machine
end

section
namespace Sys2Proof.Machine

/-! The host's registers (R50). -/

section
variable {s : State}

theorem exec_registerWrite_plain (hr : s.ready = true) (v : Word) {off : Nat} (hp : plainRegister off = true) :
    exec (.registerWrite off v) s = .next { s with bar0 := put 0 s.bar0 off v } := by
  change execRegisterWrite off v s = _
  unfold execRegisterWrite
  rw [if_neg (by simp [hr]), if_pos hp]

theorem exec_registerWrite_doorbell (hr : s.ready = true) (v : Word) : exec (.registerWrite 0x1080 v) s = s.submit := by
  change execRegisterWrite 0x1080 v s = _
  unfold execRegisterWrite
  rw [if_neg (by simp [hr]), if_neg (by decide), if_pos rfl]

theorem exec_registerWrite_window (hr : s.ready = true) (v : Word) :
    exec (.registerWrite 0x10000 v) s = exec (.bar2WindowBase v) s := by
  change execRegisterWrite 0x10000 v s = execBar2WindowBase v s
  unfold execRegisterWrite
  rw [if_neg (by simp [hr]), if_neg (by decide), if_neg (by decide), if_pos rfl]

theorem plainRegister_kick {off : Nat} (h : 0x100000 ≤ off ∧ off < 0x108000) : plainRegister off = false := by
  rw [← Bool.not_eq_true]
  simp only [plainRegister, Bool.and_eq_true, Bool.or_eq_true, decide_eq_true_eq]
  omega

theorem exec_registerWrite_kick (hr : s.ready = true) (v : Word) {n : Nat} (h : n < 4096) :
    exec (.registerWrite (0x100000 + 8 * n) v) s = exec (.kick n (v.setWidth 16)) s := by
  change execRegisterWrite (0x100000 + 8 * n) v s = execKick n (v.setWidth 16) s
  have hp := plainRegister_kick (off := 0x100000 + 8 * n) (by omega)
  unfold execRegisterWrite
  rw [if_neg (by simp [hr]), if_neg (by simp [hp]), if_neg (by omega), if_neg (by omega), if_pos (by omega)]
  congr 1
  omega

theorem exec_registerWrite_other (hr : s.ready = true) (v : Word) {off : Nat} (hp : plainRegister off = false) (h1 : off ≠ 0x1080)
    (h2 : off ≠ 0x10000) (h3 : ¬(0x100000 ≤ off ∧ off < 0x108000)) : exec (.registerWrite off v) s = .next s := by
  change execRegisterWrite off v s = _
  unfold execRegisterWrite
  rw [if_neg (by simp [hr]), if_neg (by simp [hp]), if_neg h1, if_neg h2, if_neg (by omega)]

/-- The 64 bytes of the admin mailbox's command (R50, R52). -/
def State.mail (s : State) : List Byte := (List.range 8).flatMap fun i => natBytes 8 (look 0 s.bar0 (0x1000 + 8 * i)).toNat

theorem submit_qtab {base count : Nat} (h : Config.adminCommand s.mail = [1, base, count]) :
    s.submit = exec (.qtab (BitVec.ofNat 64 base) count) s := by
  change _ = execQtab (BitVec.ofNat 64 base) count s
  unfold State.mail at h
  unfold State.submit
  simp only [h]

theorem submit_qcreate {n : Nat} (h : Config.adminCommand s.mail = [2, n]) : s.submit = exec (.qcreate n) s := by
  change _ = execQcreate n s
  unfold State.mail at h
  unfold State.submit
  simp only [h]

theorem submit_info (h : Config.adminCommand s.mail = [5]) : s.submit = exec .info s := by
  change _ = execInfo s
  unfold State.mail at h
  unfold State.submit
  simp only [h]

theorem submit_unknown (hr : s.ready = true) (h : Config.adminCommand s.mail = []) : s.submit = .next (s.respond false) := by
  unfold State.mail at h
  unfold State.submit
  rw [h]
  exact admin_refused hr id

/-- A read of a plain register gives what it holds. -/
theorem bar0At_plain {off : Nat} (h : plainRegister off = true) : s.bar0At off = look 0 s.bar0 off := by
  have hp := h
  simp only [plainRegister, Bool.and_eq_true, Bool.or_eq_true, decide_eq_true_eq, beq_iff_eq] at hp
  unfold State.bar0At
  rw [if_neg (by omega), if_neg (by omega), if_neg (by omega), if_neg (by omega), if_neg (by omega), if_pos h]

/-- The admin doorbell and the kick doorbells are write-only. -/
theorem bar0At_doorbell {off : Nat} (h : off = 0x1080 ∨ (0x100000 ≤ off ∧ off < 0x108000)) : s.bar0At off = 0 := by
  have hp : plainRegister off = false := by
    obtain rfl | h := h
    · decide
    · exact plainRegister_kick h
  unfold State.bar0At
  rw [if_neg (by omega), if_neg (by omega), if_neg (by omega), if_neg (by omega), if_neg (by omega), if_neg (by simp [hp])]

theorem step_registerRead {off : Nat} {l : List Turn} (hp : s.powered = true) (hr : s.ready = true) (ht : s.turns = .registerRead off :: l) :
    step s = .next { s with turns := l, bar0Read := s.bar0At off } := by
  unfold step
  rw [ht]
  dsimp only
  rw [if_pos (by rw [hp]; rfl)]
  refine congrArg Host.Outcome.next ?_
  unfold State.registerRead
  rw [if_pos (by simp [hr])]
  rfl

end

/-! The BAR2 window (R48, R51). -/

section
variable {s : State}

theorem seen_none_of_plain (h : s.enc = []) (pa : Nat) : s.seen none pa = s := by
  unfold State.seen
  rw [h]
  exact if_pos (.inr rfl)

/-- Where no session's view stands in the stacks, the window shows memory as it is. -/
theorem bar2Seen_of_plain (h : s.enc = []) (off len : Nat) : s.bar2Seen off len = s :=
  List.foldl_fixed' (fun i => by
    split
    · exact seen_none_of_plain h _
    · rfl) _

theorem bar2Byte_beyond {off : Nat} (h : s.bar2Size ≤ off) : s.bar2Byte off = none := by
  unfold State.bar2Byte
  exact if_pos (.inr h)

theorem bar2Seen_none {off : Nat} (h : s.bar2Byte off = none) : s.bar2Seen off 1 = s := by
  unfold State.bar2Seen
  rw [List.range_one, List.foldl_cons, List.foldl_nil, Nat.add_zero]
  split
  · next e => exact absurd (h.symm.trans e) (Option.some_ne_none _).symm
  · rfl

theorem bar2Seen_some {off k : Nat} (h : s.bar2Byte off = some k) : s.bar2Seen off 1 = s.seen none k := by
  unfold State.bar2Seen
  rw [List.range_one, List.foldl_cons, List.foldl_nil, Nat.add_zero]
  split
  · next e => rw [Option.some.inj (h.symm.trans e)]
  · next e => exact absurd (h.symm.trans e) (Option.some_ne_none _)

/-- A fold over the numbered bytes of a write of one byte. -/
theorem foldl_zip_one {α β : Type} (f : α → Nat × β → α) (a : α) (b : β) :
    ((List.range [b].length).zip [b]).foldl f a = f a (0, b) := rfl

theorem exec_bar2Write_none (b : Byte) {off : Nat} (h : s.bar2Byte off = none) : exec (.bar2Write off [b]) s = .next s := by
  refine congrArg Host.Outcome.next ((foldl_zip_one ..).trans ?_)
  split
  · next e => exact absurd (h.symm.trans e) (Option.some_ne_none _).symm
  · exact bar2Seen_none h

theorem exec_bar2Write_some (b : Byte) {off k : Nat} (h : s.bar2Byte off = some k) :
    exec (.bar2Write off [b]) s = .next ((s.bar2Seen off 1).poke k [b]) := by
  refine congrArg Host.Outcome.next ((foldl_zip_one ..).trans ?_)
  change _ = State.poke (s.bar2Seen off [b].length) k [(0, b).2]
  split
  · next e => rw [Option.some.inj (h.symm.trans e)]
  · next e => exact absurd (h.symm.trans e) (Option.some_ne_none _)

theorem bar2Seen_one_wf (hm : s.memOk = true) (off : Nat) : Memory.wf (s.bar2Seen off 1).mem = true := by
  have h : (s.bar2Seen off 1).memOk = true := by
    cases hb : s.bar2Byte off with
    | none =>
      rw [bar2Seen_none hb]
      exact hm
    | some k =>
      rw [bar2Seen_some hb]
      exact seen_memOk hm
  simp only [State.memOk, Bool.and_eq_true] at h
  exact h.1

end

/-! FIRMWARE_START (R63). -/

section
variable {s : State}

/-- The tiles that fail their test are fenced. -/
def State.fenceAll (s : State) (cause : Nat) (l : List Nat) : State := l.foldl (fun s t => s.fence cause t) s

theorem fenceAll_eq (cause : Nat) (l : List Nat) : ∃ m e, s.fenceAll cause l = { s with fenced := m, fenceLog := e } := by
  induction l generalizing s with
  | nil => exact ⟨s.fenced, s.fenceLog, rfl⟩
  | cons n l ih =>
    obtain ⟨m, e, h⟩ := fence_eq (s := s) cause n
    obtain ⟨m', e', h'⟩ := ih (s := s.fence cause n)
    rw [h] at h'
    exact ⟨m', e', (congrArg (State.fenceAll · cause l) h).trans h'⟩

theorem subset_fenceAll (cause : Nat) (l : List Nat) : s.fenced ⊆ (s.fenceAll cause l).fenced := by
  induction l generalizing s with
  | nil => exact List.Subset.refl _
  | cons n l ih => exact List.Subset.trans (subset_fence (s := s) cause n) (ih (s := s.fence cause n))

theorem mem_fenceAll (cause : Nat) {l : List Nat} {n : Nat} (h : n ∈ l) : n ∈ (s.fenceAll cause l).fenced := by
  induction l generalizing s with
  | nil => exact absurd h List.not_mem_nil
  | cons k l ih =>
    obtain rfl | h := List.mem_cons.1 h
    · exact subset_fenceAll (s := s.fence cause n) cause l (mem_fence cause n)
    · exact ih (s := s.fence cause k) h

theorem powerOn_hostMem : s.powerOn.hostMem = s.hostMem := ite_keeps State.hostMem rfl rfl
theorem powerOn_table : s.powerOn.hubs.1.table = s.hubs.1.table ∧ s.powerOn.hubs.2.table = s.hubs.2.table := by
  fun_cases State.powerOn <;> exact ⟨rfl, rfl⟩
theorem powerOn_life : s.powerOn.life = if s.powered then s.life else s.newestCopy.life := by
  fun_cases State.powerOn <;> simp [*]
theorem powerOn_cold (h : s.powered = false) : s.powerOn.powered = true ∧ s.powerOn.mem = [] ∧ s.powerOn.slots = [] := by
  unfold State.powerOn
  rw [h]
  exact ⟨rfl, rfl, rfl⟩

/-- A start of a package that runs is nothing. -/
theorem exec_firmwareStart_running (hp : s.powered = true) (hr : s.ready = true) (patchOk : Bool × Bool) (failed : List Nat) :
    exec (.firmwareStart patchOk failed) s = .next s := if_pos (by simp [hp, hr])

theorem exec_firmwareStart (h : s.powered = false ∨ s.ready = false) (patchOk : Bool × Bool) (failed : List Nat) :
    ∃ cause f, exec (.firmwareStart patchOk failed) s =
      let u := State.fenceAll { s.powerOn with free := f } cause (failed.filter (· < 2048))
      .next { u with
        hubs := (u.hubs.1.patch patchOk.1, u.hubs.2.patch patchOk.2), links := [], ready := failed.all (· < 2048)
        life := { u.life with powerOns := min (u.life.powerOns + 1) (2 ^ 64 - 1) } } := by
  refine ⟨(Config.freeWord s.powerOn.free).toNat % 256, s.powerOn.free + 1, ?_⟩
  change execFirmwareStart patchOk failed s = _
  unfold execFirmwareStart
  rw [if_neg (by simpa using fun hp => h.resolve_left (by simp [hp]))]
  rfl

end

end Sys2Proof.Machine
end

section
namespace Sys2Proof.Machine

/-! The host's steps, group by group. -/

section
variable {s : State}

/-- Before ready every one of the host's steps is ignored (R63). -/
theorem exec_not_ready (h : s.ready = false) {q count ageing mode len on limit off : Nat} {tail : BitVec 16}
    {base session log lg tick host v : Word} :
    exec (.kick q tail) s = .next s ∧ exec (.qtab base count) s = .next s ∧ exec (.qcreate q) s = .next s ∧
    exec (.slots count ageing) s = .next s ∧ exec (.ccreate q session) s = .next s ∧ exec .info s = .next s ∧
    exec (.sample tick host len) s = .next s ∧ exec (.replay q mode log lg) s = .next s ∧ exec (.twin q on) s = .next s ∧
    exec (.mboxlim q limit) s = .next s ∧ exec (.chknow q host) s = .next s ∧ exec (.bar2WindowBase v) s = .next s ∧
    exec (.registerWrite off v) s = .next s := by
  have hn : (!s.ready) = true := by rw [h]; rfl
  exact ⟨if_pos hn, if_pos hn, if_pos hn, if_pos hn, if_pos hn, if_pos hn, if_pos hn, if_pos hn, if_pos hn, if_pos hn, if_pos hn,
    if_neg (by simp [h]), if_pos hn⟩

/-- The admin doorbell acts as the command in the mailbox says (R50, R52). -/
theorem exec_registerWrite_command (hr : s.ready = true) (v : Word) :
    (∀ base count, Config.adminCommand s.mail = [1, base, count] →
      exec (.registerWrite 0x1080 v) s = exec (.qtab (BitVec.ofNat 64 base) count) s) ∧
    (∀ n, Config.adminCommand s.mail = [2, n] → exec (.registerWrite 0x1080 v) s = exec (.qcreate n) s) ∧
    (Config.adminCommand s.mail = [5] → exec (.registerWrite 0x1080 v) s = exec .info s) ∧
    (Config.adminCommand s.mail = [] → ∃ t, exec (.registerWrite 0x1080 v) s = .next t ∧ Responded t False) := by
  rw [exec_registerWrite_doorbell hr v]
  exact ⟨fun _ _ => submit_qtab, fun _ => submit_qcreate, submit_info,
    fun hc => ⟨_, submit_unknown hr hc, (respond_responded false).of_iff (by simp)⟩⟩

theorem bar0At_ready (hr : s.ready = true) : s.bar0At 0x10 = 1 := by
  unfold State.bar0At
  rw [if_neg (by decide), if_neg (by decide), if_pos rfl, hr]
  rfl

theorem bar0At_window : s.bar0At 0x10000 = s.bar2 := by
  unfold State.bar0At
  rw [if_neg (by decide), if_neg (by decide), if_neg (by decide), if_pos rfl]

/-- The bytes that a read through the window gives. -/
def State.bar2Bytes (s : State) (off len : Nat) : List Byte := (List.range len).map fun i => match s.bar2Byte (off + i) with
  | some k => readByte (s.bar2Seen off len).mem k
  | none => 0xFF

theorem exec_bar2Read (off len : Nat) : exec (.bar2Read off len) s = .next { s.bar2Seen off len with bar2Read := s.bar2Bytes off len } :=
  rfl

theorem bar2Bytes_length (off len : Nat) : (s.bar2Bytes off len).length = len := by
  rw [State.bar2Bytes, List.length_map, List.length_range]

theorem bar2Bytes_getD {off len i : Nat} (hi : i < len) :
    (∀ k, s.bar2Byte (off + i) = some k → (s.bar2Bytes off len).getD i 0 = readByte (s.bar2Seen off len).mem k) ∧
    (s.bar2Byte (off + i) = none → (s.bar2Bytes off len).getD i 0 = 0xFF) := by
  unfold State.bar2Bytes
  rw [List.getD_eq_getElem?_getD, List.getElem?_map, List.getElem?_range hi, Option.map_some, Option.getD_some]
  split
  · next e => exact ⟨fun k hk => by rw [Option.some.inj (hk.symm.trans e)], fun hn => absurd (hn.symm.trans e) (Option.some_ne_none _).symm⟩
  · next e => exact ⟨fun k hk => absurd (hk.symm.trans e) (Option.some_ne_none _), fun _ => rfl⟩

theorem exec_bar2Write_byte (hm : s.memOk = true) (b : Byte) {off k : Nat} (hk : s.bar2Byte off = some k) :
    ∃ t, exec (.bar2Write off [b]) s = .next t ∧ readByte t.mem k = b ∧ MemKept (s.bar2Seen off 1) t k 1 := by
  have hw := bar2Seen_one_wf hm off
  refine ⟨_, exec_bar2Write_some b hk, ?_, fun a ha => ?_⟩
  · exact (readByte_writeBytes [b] _ k k hw).trans (by simp)
  · exact (readByte_writeBytes [b] _ k a hw).trans (if_neg ha)

/-- A start ends with ready unless a router or die edge failed; failed tiles are fenced, and each hub takes its patch table (R63). -/
theorem exec_firmwareStart_starts (h : s.powered = false ∨ s.ready = false) (west east : Bool) (failed : List Nat) :
    ∃ t, exec (.firmwareStart (west, east) failed) s = .next t ∧
      (t.ready = true ↔ ∀ n ∈ failed, n < 2048) ∧ (∀ n ∈ failed, n < 2048 → n ∈ t.fenced) ∧
      t.hubs.1.patches = (if west then s.hubs.1.table.take 64 else []) ∧
      t.hubs.2.patches = (if east then s.hubs.2.table.take 64 else []) ∧
      t.life.powerOns = min ((if s.powered then s.life else s.newestCopy.life).powerOns + 1) (2 ^ 64 - 1) ∧
      t.links = [] ∧ t.hostMem = s.hostMem ∧ (s.powered = false → t.powered = true ∧ t.mem = [] ∧ t.slots = []) := by
  obtain ⟨cause, f, he⟩ := exec_firmwareStart h (west, east) failed
  obtain ⟨htw, hte⟩ := powerOn_table (s := s)
  have hl : s.powerOn.life = if s.powered then s.life else s.newestCopy.life := powerOn_life
  have hh : s.powerOn.hostMem = s.hostMem := powerOn_hostMem
  have hc := powerOn_cold (s := s)
  refine ⟨_, he, by simp, fun n hn hlt => mem_fenceAll cause (List.mem_filter.2 ⟨hn, by simpa using hlt⟩), ?_⟩
  generalize s.powerOn = u at htw hte hl hh hc
  obtain ⟨m, l, hu⟩ := fenceAll_eq (s := { u with free := f }) cause (failed.filter (· < 2048))
  rw [hu, ← htw, ← hte, ← hl, ← hh]
  exact ⟨rfl, rfl, rfl, rfl, rfl, hc⟩

end
/-- Settles O50, group by group: KICK and the admin commands by their answers, the registers and the window by their offsets, and
FIRMWARE_START by what the package finds and fences. -/
theorem adminSteps : Obligations.AdminSteps := by
  refine ⟨fun s q count ageing mode len on limit off tail base session log lg tick host v h => exec_not_ready h,
    fun s q hr => ⟨fun tail => ⟨exec_kick_refused hr tail, exec_kick_tail hr tail⟩, exec_qtab hr, exec_qcreate hr, exec_slots hr,
      exec_info hr, exec_sample hr, ⟨exec_ccreate hr, exec_replay hr, exec_twin hr, exec_mboxlim hr⟩, exec_chknow hr,
      fun v => if_pos hr, fun off v hf => ?write⟩,
    fun s off l hp hr ht => ?read, fun s off len => ?bar2Read, fun s off b hm => ?bar2Write,
    fun s west east failed => ⟨fun hp hr => exec_firmwareStart_running hp hr _ _, fun h => exec_firmwareStart_starts h west east failed⟩⟩
  case write =>
    have hw : wfFrom 0 0 s.bar0 = true := by
      simp only [State.formOk, Bool.and_eq_true] at hf
      exact hf.2
    refine ⟨fun hp => ⟨_, exec_registerWrite_plain hr v hp, fun o => look_put hw off o v⟩, ?window, ?kick, ?doorbell,
      exec_registerWrite_other hr v⟩
    case window =>
      rintro rfl
      exact exec_registerWrite_window hr v
    case kick =>
      rintro n hn rfl
      exact exec_registerWrite_kick hr v hn
    case doorbell =>
      rintro rfl
      exact exec_registerWrite_command hr v
  case read =>
    refine ⟨_, step_registerRead hp hr ht, ?ready, ?window, bar0At_doorbell, bar0At_plain⟩
    case ready =>
      rintro rfl
      exact bar0At_ready hr
    case window =>
      rintro rfl
      exact bar0At_window
  case bar2Read =>
    exact ⟨fun he => bar2Seen_of_plain he off len, _, exec_bar2Read off len, bar2Bytes_length off len, fun i hi => bar2Bytes_getD hi⟩
  case bar2Write => exact ⟨bar2Byte_beyond, exec_bar2Write_none b, fun k hk => exec_bar2Write_byte hm b hk⟩

end Sys2Proof.Machine
end

section
namespace Sys2Proof.Machine

/-! The context that issues next (R74, R128, R145). -/

section
variable {s : State} {n : Nat}

/-- A fold whose step keeps what it has or takes its element ends with one of the two. -/
theorem mem_of_foldl_pick {α : Type} {f : Option α → α → Option α} (hf : ∀ b i, f b i = b ∨ f b i = some i) {l : List α}
    {b : Option α} {k : α} (h : l.foldl f b = some k) : k ∈ l ∨ b = some k := by
  induction l generalizing b with
  | nil => exact .inr h
  | cons i l ih =>
    obtain hm | hb := ih h
    · exact .inl (List.mem_cons_of_mem _ hm)
    · obtain e | e := hf b i
      · exact .inr (e ▸ hb)
      · exact .inl (List.mem_cons.2 (.inl (Option.some.inj (e.symm.trans hb)).symm))

/-- The better of two task contexts of a core (R74): the later one only where its priority is higher. -/
def State.higher (s : State) (n : Nat) (best : Option Nat) (i : Nat) : Option Nat :=
  match best with
  | none => some i
  | some j => if (s.ctxOf n j).prio < (s.ctxOf n i).prio then some i else some j

theorem higher_pick (b : Option Nat) (i : Nat) : s.higher n b i = b ∨ s.higher n b i = some i := by
  fun_cases State.higher <;> simp

theorem higher_isSome (b : Option Nat) (i : Nat) : (s.higher n b i).isSome = true := by
  fun_cases State.higher <;> rfl

theorem foldl_higher_isSome {l : List Nat} {b : Option Nat} (h : l ≠ [] ∨ b.isSome = true) :
    (l.foldl (s.higher n) b).isSome = true := by
  induction l generalizing b with
  | nil => exact h.resolve_left fun h => h rfl
  | cons i l ih => exact ih (.inr (higher_isSome b i))

/-- None of the listed contexts has more than the one that is chosen. -/
theorem prio_le_foldl_higher {l : List Nat} {b : Option Nat} {k : Nat} (h : l.foldl (s.higher n) b = some k) :
    ∀ i, i ∈ l ∨ b = some i → (s.ctxOf n i).prio ≤ (s.ctxOf n k).prio := by
  induction l generalizing b with
  | nil =>
    rintro i (hi | rfl)
    · exact absurd hi List.not_mem_nil
    · rw [Option.some.inj h]
  | cons j l ih =>
    have hj : ∃ m, s.higher n b j = some m ∧ (s.ctxOf n j).prio ≤ (s.ctxOf n m).prio ∧
        ∀ i, b = some i → (s.ctxOf n i).prio ≤ (s.ctxOf n m).prio := by
      fun_cases State.higher
      · exact ⟨j, rfl, le_rfl, fun i hi => nomatch hi⟩
      · next hlt => exact ⟨j, rfl, le_rfl, fun i hi => Option.some.inj hi ▸ hlt.le⟩
      · next m hle => exact ⟨m, rfl, Nat.not_lt.1 hle, fun i hi => Option.some.inj hi ▸ le_rfl⟩
    obtain ⟨m, hm, hjm, hbm⟩ := hj
    have hmk := ih h m (.inr hm)
    rintro i (hi | hi)
    · obtain rfl | hi := List.mem_cons.1 hi
      · exact hjm.trans hmk
      · exact ih h i (.inl hi)
    · exact (hbm i hi).trans hmk

/-- The ready contexts of a core but one, from the one behind that which last issued. -/
def State.candidates (s : State) (n : Nat) (yielder : Option Nat) : List Nat :=
  let l := (s.core n).last
  [(l + 1) % 4, (l + 2) % 4, (l + 3) % 4, l % 4].filter fun i => s.ctxReady n i && decide (some i ≠ yielder)

theorem mem_candidates {y : Option Nat} {i : Nat} (h : i ∈ s.candidates n y) : s.ctxReady n i = true := by
  have := (List.mem_filter.1 h).2
  simp only [Bool.and_eq_true] at this
  exact this.1

theorem mem_candidates_of_ready {y : Option Nat} {i : Nat} (hi : i < 4) (hr : s.ctxReady n i = true) (hy : some i ≠ y) :
    i ∈ s.candidates n y := by
  refine List.mem_filter.2 ⟨?_, by simp [hr, hy]⟩
  simp only [List.mem_cons, List.not_mem_nil, or_false]
  omega

/-- The choice among the ready ones: the best of the others, else the one that yielded. -/
theorem bestTask_eq (y : Option Nat) :
    s.bestTask n y = ((s.candidates n y).foldl (s.higher n) none).or (y.filter fun i => s.ctxReady n i) := by
  have h : s.bestTask n y = match (s.candidates n y).foldl (s.higher n) none, y with
    | none, some i => if s.ctxReady n i then some i else none
    | _, _ => (s.candidates n y).foldl (s.higher n) none := rfl
  rw [h]
  cases (s.candidates n y).foldl (s.higher n) none <;> cases y <;> simp [Option.filter]

theorem bestTask_ready {y : Option Nat} {k : Nat} (h : s.bestTask n y = some k) : s.ctxReady n k = true := by
  rw [bestTask_eq, Option.or_eq_some_iff] at h
  obtain h | ⟨-, h⟩ := h
  · exact (mem_of_foldl_pick higher_pick h).elim mem_candidates nofun
  · exact (Option.filter_eq_some_iff.1 h).2

theorem bestTask_isSome {y : Option Nat} {i : Nat} (hi : i < 4) (hr : s.ctxReady n i = true) : (s.bestTask n y).isSome = true := by
  rw [bestTask_eq, Option.isSome_or, Bool.or_eq_true]
  by_cases hy : some i = y
  · exact .inr (by rw [← hy, Option.filter_some_pos hr]; rfl)
  · exact .inl (foldl_higher_isSome (.inl (List.ne_nil_of_mem (mem_candidates_of_ready hi hr hy))))

theorem prio_le_bestTask {k i : Nat} (h : s.bestTask n none = some k) (hi : i < 4) (hr : s.ctxReady n i = true) :
    (s.ctxOf n i).prio ≤ (s.ctxOf n k).prio := by
  rw [bestTask_eq, Option.or_eq_some_iff] at h
  obtain h | ⟨-, h⟩ := h
  · exact prio_le_foldl_higher h i (.inl (mem_candidates_of_ready hi hr nofun))
  · exact nomatch h

/-- The handler context goes first. -/
theorem choose_handler (h : s.ctxReady n 4 = true) : s.choose n = some 4 := if_pos h

theorem choose_ready {k : Nat} (h : s.choose n = some k) : s.ctxReady n k = true := by
  revert h
  fun_cases State.choose
  · rintro ⟨⟩; assumption
  · next hs =>
    rintro ⟨⟩
    simp only [Bool.and_eq_true] at hs
    exact hs.2
  · exact bestTask_ready

theorem choose_isSome {i : Nat} (hi : i < 5) (hr : s.ctxReady n i = true) : ∃ k, s.choose n = some k := by
  fun_cases State.choose
  · exact ⟨_, rfl⟩
  · exact ⟨_, rfl⟩
  · next h4 _ =>
    have hi4 : i ≠ 4 := fun e => h4 (e ▸ hr)
    exact Option.isSome_iff_exists.1 (bestTask_isSome (by omega) hr)

theorem choose_prio {i k : Nat} (h : s.choose n = some k) (hs : (s.core n).switch = true) (hy : (s.core n).yielded = false)
    (hk : k ≠ 4) (hi : i < 4) (hr : s.ctxReady n i = true) : (s.ctxOf n i).prio ≤ (s.ctxOf n k).prio := by
  have h4 : s.ctxReady n 4 ≠ true := fun h4 => hk (Option.some.inj (h.symm.trans (choose_handler h4)))
  unfold State.choose at h
  dsimp only at h
  rw [if_neg h4, hs, hy, if_neg (by simp), if_neg (by simp)] at h
  exact prio_le_bestTask h hi hr

/-- A context that can issue is one of the core's five. -/
theorem lt_of_ready {i : Nat} (h : s.ctxReady n i = true) : i < 5 := by
  refine lt_of_role (c := s.core n) fun hf => ?_
  simp [State.ctxReady, State.ctxOf, hf] at h

/-- A task that nothing stops is ready once what it waits for has come. -/
theorem ctxReady_iff {i : Nat} (hr : (s.ctxOf n i).role = .task) (hs : (s.ctxOf n i).stopped = false) (hh : (s.core n).halted = false)
    (hb : i ∉ (s.core n).atBrk) : s.ctxReady n i = true ↔ s.overFor n i (s.ctxOf n i) = true := by
  simp [State.ctxReady, State.waitOver, hr, hs, hh, hb]

theorem hasKey_iff {T : TaskId} : s.hasKey T = true ↔ (s.quad (quadOf T.core)).holder = some T := decide_eq_true_iff

theorem walking_eq_false_iff {slot va : Nat} : s.walking n slot va = false ↔
    ∀ w ∈ s.walks, w.slot = slot → w.va = va → ∀ a ∈ w.askers, a.kind = 0 → a.place ≠ n := by
  simp [State.walking]

end
end Sys2Proof.Machine
end

section
namespace Sys2Proof.Machine

/-! A step of a context that is chosen (R74, R86-R91). -/

section
variable {s v x : State} {a : Nat}

@[simp] theorem select_cur (n k : Nat) : (s.select n k).cur = n := by
  unfold State.select
  dsimp only
  split <;> rfl

@[simp] theorem select_curCtx (n k : Nat) : (s.select n k).curCtx = k := by
  unfold State.select
  dsimp only
  split <;> rfl

/-- The context that is chosen issues. -/
theorem step_of_chosen (h : Chosen s x) : step s = x.issueOne ∧ x.curCtx < 5 := by
  obtain ⟨hp, u, n, k, hu, hd, hk, rfl⟩ := h
  have hi : u.issueCore n = (u.select n k).issueOne := by simp [State.issueCore, hd, hk]
  refine ⟨?_, by rw [select_curCtx]; exact lt_of_ready (choose_ready hk)⟩
  obtain ⟨ht, rfl, rfl⟩ | ⟨rest, ht, rfl⟩ := hu
  · simp [step, ht, hp, State.advance, hd, hk]
  · exact (step_turn ht hp).trans hi

theorem codeSeen_eq (a : Nat) : ∃ m e, s.codeSeen a = { s with mem := m, enc := e } := by
  fun_cases State.codeSeen
  · fun_cases State.seen <;> exact ⟨_, _, rfl⟩
  all_goals exact ⟨_, _, rfl⟩

theorem freshFetch_eq : ∃ f, s.freshFetch = { s with free := f } := by
  fun_cases State.freshFetch <;> exact ⟨_, rfl⟩

/-- Without a fault that is to be delivered the park of a marker just ends (R195). -/
theorem delivered_eq_none (h : s.ctx.inh = true ∨ s.ctx.faulted = []) : s.delivered a = none := by
  unfold State.delivered
  dsimp only
  split
  · next hi hf =>
    obtain h | h := h
    · exact absurd (h.symm.trans hi) (by decide)
    · rw [Ctx.firstFault, h] at hf
      exact nomatch hf
  · rfl

/-- The fault is delivered with the word behind the marked one as its resume address (R195). -/
theorem delivered_eq_some {n : Nat} {f : FaultMark} {l : List (Nat × FaultMark)} (hi : s.ctx.inh = false)
    (hf : s.ctx.faulted = (n, f) :: l) : s.delivered a = some (s.trapAt f.cause (f.tval n) (s.ctx.behind a) a) := by
  have hf' : s.ctx.firstFault = some (n, f) := by rw [Ctx.firstFault, hf]; rfl
  unfold State.delivered
  dsimp only
  rw [hi, hf']

theorem tval_eq (f : FaultMark) (n : Nat) : f.tval n = faultTval n f.va := by
  unfold FaultMark.tval faultTval
  split <;> simp

/-- A context that is about to issue fetches the word at its PC, outside a replay. -/
theorem step_of_issues (h : Issues s v) (hr : v.ctx.rep = false) : step s = v.issueWord ∧ v.curCtx < 5 := by
  obtain ⟨x, hx, hv⟩ := h
  obtain ⟨hs, hc⟩ := step_of_chosen hx
  obtain ⟨hv, hm, hf, hb⟩ := hv
  have hy : (x.setCtx { x.ctx with wait := .none }).ctx = { x.ctx with wait := .none } := ctx_setCtx_same _ _ hc
  have hn : (x.setCtx { x.ctx with wait := .none }).issueNext = v.issueWord := by
    unfold State.issueNext
    dsimp only
    rw [← hv, hb, hr]
    rfl
  refine ⟨?_, ?_⟩
  · rw [hs, ← hn]
    unfold State.issueOne
    dsimp only
    split
    · next a ha => rw [delivered_eq_none (by rw [hy]; exact hm a ha)]
    · next c hc => exact absurd hc (hf c)
    · rfl
  · obtain ⟨f, hf⟩ := freshFetch_eq (s := x.setCtx { x.ctx with wait := .none })
    obtain ⟨m, e, he⟩ := codeSeen_eq (s := (x.setCtx { x.ctx with wait := .none }).freshFetch)
      (x.setCtx { x.ctx with wait := .none }).ctx.pc.toNat
    rw [hv, he, hf]
    exact hc

/-! What follows a fetch. -/

section
variable {f : State → Insn → Out}

theorem fetching_word {w : Insn} (h : s.fetch a = .word w) (hb : s.badWord a = false) : s.fetching a f = f s w := by
  unfold State.fetching
  rw [h, hb]
  rfl

theorem fetching_poisoned {w : Insn} (h : s.fetch a = .word w) (hb : s.badWord a = true) :
    s.fetching a f = f (s.fetchPoison a).1 (s.fetchPoison a).2 := by
  unfold State.fetching
  rw [h, hb]
  rfl

theorem fetching_bad {cause : Nat} {tval : Word} (h : s.fetch a = .bad cause tval) : s.fetching a f = .next (s.trap cause tval) := by
  unfold State.fetching
  rw [h]

theorem fetching_awaited {va : Nat} (h : s.fetch a = .away va none) : s.fetching a f = .next (s.park (.code va)) := by
  unfold State.fetching
  rw [h]

theorem fetching_asks {va k pa : Nat} (h : s.fetch a = .away va (some (k, pa))) :
    s.fetching a f = .next ((s.askCode a va k pa).park (.code va)) := by
  unfold State.fetching
  rw [h]

end

/-- A word that decodes runs as its instruction, and one that does not is illegal (R104), where the word's state stands at its PC. -/
theorem runs_of_runWord {u : State} {w : Insn} {pc : Nat} (h : step s = u.runWord w) (hp : u.instrPc = pc) :
    (∀ i, decodeWord w = .ok i → step s = exec i u) ∧
    (∀ e, decodeWord w = .error e →
      step s = .next ((u.setCtx { u.ctx with pfx := none }).trapAt 0x01 (w.setWidth 64) u.ctx.pc pc)) := by
  subst hp
  unfold State.runWord at h
  refine ⟨fun i hi => ?_, fun e he => ?_⟩
  · rwa [hi] at h
  · rwa [he] at h

theorem instrPc_of_not_rep (h : s.ctx.rep = false) : s.instrPc = s.ctx.pc.toNat := by
  unfold State.instrPc
  dsimp only
  rw [h]
  rfl

/-! A report changes no more of a context than its fault cell (R340). -/

theorem onTask_ctxOf {t : State} {T : TaskId} {f : Ctx → Ctx} (h : s.onTask T f = some t) (n i : Nat) :
    t.ctxOf n i = s.ctxOf n i ∨ ((s.ctxOf n i).role = .task ∧ t.ctxOf n i = f (s.ctxOf n i)) := by
  revert h
  fun_cases State.onTask <;> rintro ⟨⟩
  case case2 hr =>
    rw [core_setCtxOf_ctx _ _ _ _ _ _ (lt_of_runs hr)]
    split
    · next e =>
      obtain ⟨rfl, rfl⟩ := e
      simp only [Ctx.runs, Bool.and_eq_true, decide_eq_true_eq] at hr
      exact .inr ⟨hr.1.1, rfl⟩
    · exact .inl rfl
  all_goals
    left
    rw [State.ctxOf, core_setCore]
    split
    · next e => subst e; rfl
    · rfl

theorem onTally_ctxOf (q core : Nat) (f : Tally → Tally) (n k : Nat) : (s.onTally q core f).ctxOf n k = s.ctxOf n k := by
  obtain ⟨z, hz⟩ := onTally_eq (s := s) q core f
  rw [hz]
  rfl

theorem report_ctxOf (i : Issuer) (cause colour : Nat) (w : Word) (n k : Nat) :
    (s.report i cause colour w).ctxOf n k = s.ctxOf n k ∨ ((s.ctxOf n k).role = .task ∧
      (s.report i cause colour w).ctxOf n k = { s.ctxOf n k with faults := (s.ctxOf n k).faults.add cause colour w }) := by
  fun_cases State.report
  · exact .inl rfl
  · next h => exact onTask_ctxOf h n k
  · exact .inl rfl
  · exact .inl (onTally_ctxOf ..)

/-- Who issues. -/
def State.issuing (s : State) : Nat × Nat := (s.cur, s.curCtx)

theorem onTask_issuing {t : State} {T : TaskId} {f : Ctx → Ctx} (h : s.onTask T f = some t) : t.issuing = s.issuing := by
  revert h
  fun_cases State.onTask <;> rintro ⟨⟩ <;> rfl

theorem onTally_issuing (q core : Nat) (f : Tally → Tally) : (s.onTally q core f).issuing = s.issuing := by
  obtain ⟨z, hz⟩ := onTally_eq (s := s) q core f
  rw [hz]
  rfl

theorem report_issuing (i : Issuer) (cause colour : Nat) (w : Word) : (s.report i cause colour w).issuing = s.issuing := by
  fun_cases State.report
  · rfl
  · next h => exact onTask_issuing (s := s.bump _) h
  · rfl
  · exact onTally_issuing ..

theorem report_position (i : Issuer) (cause colour : Nat) (w : Word) :
    (s.report i cause colour w).ctx.pc = s.ctx.pc ∧ (s.report i cause colour w).ctx.rep = s.ctx.rep := by
  obtain ⟨hc, hx⟩ := Prod.ext_iff.1 (report_issuing (s := s) i cause colour w)
  rw [State.ctx, show (s.report i cause colour w).cur = s.cur from hc, show (s.report i cause colour w).curCtx = s.curCtx from hx]
  obtain h | ⟨-, h⟩ := report_ctxOf (s := s) i cause colour w s.cur s.curCtx <;> rw [h] <;> exact ⟨rfl, rfl⟩

/-! The fetch of a word (R89-R91). -/

theorem fetch_beyond (hc : stackCore s.cur = false) (h : s.me.xb.toNat ≤ a) : s.fetch a = .bad 0x03 (BitVec.ofNat 64 a) := by
  unfold State.fetch
  rw [hc, if_neg Bool.false_ne_true, if_pos h]

theorem fetch_tile (hc : stackCore s.cur = false) (h : a < s.me.xb.toNat) : s.fetch a = .word (s.insn a) := by
  unfold State.fetch
  rw [hc, if_neg Bool.false_ne_true, if_neg (by omega)]

theorem fetchPa_tile (hc : stackCore s.cur = false) : s.fetchPa a = some (localPa s.cur a) := by
  unfold State.fetchPa
  rw [hc, if_neg Bool.false_ne_true]

theorem badWord_here {pa : Nat} (h : s.fetchPa a = some pa) : s.badWord a = s.poisoned pa 4 := by
  unfold State.badWord
  rw [h]

/-- A word that no code load writes. -/
theorem insn_stored {pa : Nat} (h : s.fetchPa a = some pa) (hl : (s.me.loading.find? fun e => e.1 == a && !stackCore s.cur) = none) :
    s.insn a = BitVec.ofNat 32 (readNat s.mem pa 4) := by
  unfold State.insn
  rw [h]
  dsimp only
  rw [hl]

/-- A word that a code load writes (R90). -/
theorem insn_loading (hc : stackCore s.cur = false) {e : Nat × Nat × Insn × BitVec 4} (he : (s.me.loading.find? fun e => e.1 == a) = some e) :
    s.insn a = if e.2.2.2 = 0xF#4 ∧ !Config.fetchesOld s.free a then BitVec.ofNat 32 (readNat s.mem (localPa s.cur a) 4) else e.2.2.1 := by
  have hl : (s.me.loading.find? fun e => e.1 == a && !stackCore s.cur) = some e := by simpa [hc] using he
  unfold State.insn
  rw [fetchPa_tile hc]
  dsimp only
  rw [hl]

section
variable (hc : stackCore s.cur = true)
include hc

theorem fetch_nowhere (h : s.codeAt s.ctx.slot a = none) : s.fetch a = .bad 0x23 (BitVec.ofNat 64 a) := by
  unfold State.fetch
  rw [hc, if_pos rfl, h]

variable {va k pa : Nat} (h : s.codeAt s.ctx.slot a = some (va, k, pa))
include h

theorem fetch_here (hk : k = s.pkg) : s.fetch a = .word (s.insn a) := by
  unfold State.fetch
  rw [hc, if_pos rfl, h]
  exact if_pos hk

theorem fetchPa_here (hk : k = s.pkg) : s.fetchPa a = some pa := by
  unfold State.fetchPa
  rw [hc, if_pos rfl, h]
  exact if_pos hk

theorem fetchPa_far (hk : k ≠ s.pkg) : s.fetchPa a = none := by
  unfold State.fetchPa
  rw [hc, if_pos rfl, h]
  exact if_neg hk

/-- A word of another package: what that has answered, what has been asked, or a request to be made. -/
theorem fetch_far (hk : k ≠ s.pkg) : s.fetch a = match s.farCode s.cur va with
    | some (some _) => .word (s.insn a)
    | some none => .away va none
    | none => .away va (some (k, pa)) := by
  unfold State.fetch
  rw [hc, if_pos rfl, h]
  exact if_neg hk

omit hc in
theorem farWord_eq : s.farWord a = (s.farCode s.cur va).bind id := by
  unfold State.farWord
  rw [h]

theorem insn_far (hk : k ≠ s.pkg) {w : Word} (hw : s.farCode s.cur va = some (some (.word w))) : s.insn a = w.setWidth 32 := by
  unfold State.insn
  rw [fetchPa_far hc h hk, farWord_eq h, hw]
  rfl

theorem badWord_far_word (hk : k ≠ s.pkg) {w : Word} (hw : s.farCode s.cur va = some (some (.word w))) : s.badWord a = false := by
  unfold State.badWord
  rw [fetchPa_far hc h hk, farWord_eq h, hw]
  rfl

theorem badWord_far_fault (hk : k ≠ s.pkg) {c y l : Nat} (hw : s.farCode s.cur va = some (some (.fault c y l))) : s.badWord a = true := by
  unfold State.badWord
  rw [fetchPa_far hc h hk, farWord_eq h, hw]
  rfl

end

/-- A message that termination does not count and no lane numbers just leaves. -/
theorem send_uncounted {m : Msg} (hc : m.body.counted = false) (hs : m.body.sequenced = false) :
    s.send m = if m.pkg = s.pkg then { s with net := s.net ++ [m] } else { s with outbox := s.outbox ++ [m] } := by
  have hn : ¬m.numbered = true := by simp [Msg.numbered, hs]
  simp only [State.send, State.stamp, State.numberOut, if_neg hn, hc, Bool.false_eq_true, if_false]

end
end Sys2Proof.Machine
end

section
namespace Sys2Proof.Machine

/-! Every issuing state runs the word that it fetches (R86, R89-R91, R104). -/

section
variable {s v : State}

/-- The step from `s` runs word `w` in state `u`, at the PC `pc`: its instruction, or the trap of a word that decodes to none. -/
def RunsAt (s : State) (pc : Nat) (u : State) (w : Insn) : Prop :=
  (∀ i, decodeWord w = .ok i → step s = exec i u) ∧
  (∀ e, decodeWord w = .error e → step s = .next ((u.setCtx { u.ctx with pfx := none }).trapAt 0x01 (w.setWidth 64) u.ctx.pc pc))

/-- The step from `s` reports the poisoned word at the PC and goes on with a free value (R358). -/
def RunsPoisoned (s v : State) : Prop :=
  RunsAt s v.ctx.pc.toNat (({ v with free := v.free + 1 } : State).report v.issuer 0x28 v.ctx.colour (BitVec.ofNat 64 v.ctx.pc.toNat))
    ((Config.freeWord v.free).setWidth 32)

variable (h : Issues s v) (hr : v.ctx.rep = false)
include h hr

theorem issues_word {w : Insn} (hf : v.fetch v.ctx.pc.toNat = .word w) (hb : v.badWord v.ctx.pc.toNat = false) :
    RunsAt s v.ctx.pc.toNat v w :=
  runs_of_runWord ((step_of_issues h hr).1.trans (fetching_word hf hb)) (instrPc_of_not_rep hr)

theorem issues_poisoned {w : Insn} (hf : v.fetch v.ctx.pc.toNat = .word w) (hb : v.badWord v.ctx.pc.toNat = true) :
    RunsPoisoned s v := by
  obtain ⟨hpc, hrep⟩ := report_position (s := { v with free := v.free + 1 }) v.issuer 0x28 v.ctx.colour (BitVec.ofNat 64 v.ctx.pc.toNat)
  refine runs_of_runWord ((step_of_issues h hr).1.trans (fetching_poisoned hf hb)) ?_
  rw [instrPc_of_not_rep (hrep.trans hr), hpc]
  rfl

theorem issues_bad {cause : Nat} (hf : v.fetch v.ctx.pc.toNat = .bad cause (BitVec.ofNat 64 v.ctx.pc.toNat)) :
    step s = .next (v.trap cause v.ctx.pc) := by
  rw [(step_of_issues h hr).1, State.issueWord, fetching_bad hf, BitVec.ofNat_toNat, BitVec.setWidth_eq]

/-- A tile's core runs the word of its own slice (R86, R90, R358). -/
theorem issues_tile (hc : stackCore v.cur = false) (hx : v.ctx.pc.toNat < v.me.xb.toNat) :
    let pc := v.ctx.pc.toNat
    let now : Insn := BitVec.ofNat 32 (readNat v.mem (localPa v.cur pc) 4)
    (v.poisoned (localPa v.cur pc) 4 = true → RunsPoisoned s v) ∧
    (v.poisoned (localPa v.cur pc) 4 = false →
      ((∀ e ∈ v.me.loading, e.1 ≠ pc) → RunsAt s pc v now) ∧
      ∀ e, (v.me.loading.find? fun e => e.1 == pc) = some e → (e.2.2.2 ≠ 0xF#4 → RunsAt s pc v e.2.2.1) ∧
        (RunsAt s pc v e.2.2.1 ∨ RunsAt s pc v now)) := by
  intro pc now
  have hb : v.badWord pc = v.poisoned (localPa v.cur pc) 4 := badWord_here (fetchPa_tile hc)
  refine ⟨fun hp => issues_poisoned h hr (fetch_tile hc hx) (hb.trans hp), fun hp => ?_⟩
  have hw : RunsAt s pc v (v.insn pc) := issues_word h hr (fetch_tile hc hx) (hb.trans hp)
  refine ⟨fun hl => ?_, fun e he => ?_⟩
  · rwa [insn_stored (fetchPa_tile hc)] at hw
    exact List.find?_eq_none.2 fun e he => by simp [hl e he]
  · rw [insn_loading hc he] at hw
    split at hw
    · next hn => exact ⟨fun hf => absurd hn.1 hf, .inr hw⟩
    · exact ⟨fun _ => hw, .inl hw⟩

/-- A stack core asks another package for a word of its code, and waits (R91). -/
theorem issues_asks {va k pa : Nat} (hc : stackCore v.cur = true) (hk : v.codeAt v.ctx.slot v.ctx.pc.toNat = some (va, k, pa))
    (hp : k ≠ v.pkg) (hf : v.farCode v.cur va = none) :
    ∃ t m, step s = .next t ∧ t.mem = v.mem ∧ t.ctx.pc = v.ctx.pc ∧ OnWay t m ∧ m.iss = v.issuer ∧ m.pkg = k ∧
      (∃ acc d, m.body = .load pa va 0xC 4 acc false d 64) ∧ t.farCode v.cur va = some none := by
  obtain ⟨hs, hcc⟩ := step_of_issues h hr
  have hw : v.fetch v.ctx.pc.toNat = .away va (some (k, pa)) := by rw [fetch_far hc hk hp, hf]
  let u : State := { v with fetched := v.fetched ++ [(codeCmd v.cur, va, none)] }
  obtain ⟨m, hm, hiss, hpkg, hbody, hfar⟩ : ∃ m, v.askCode v.ctx.pc.toNat va k pa = u.send m ∧ m.iss = v.issuer ∧ m.pkg = k ∧
      (∃ acc d, m.body = .load pa va 0xC 4 acc false d 64) ∧ u.send m = { u with outbox := u.outbox ++ [m] } :=
    ⟨_, rfl, rfl, rfl, ⟨_, _, rfl⟩, (send_uncounted rfl rfl).trans (if_neg hp)⟩
  have hsame := (park_frame (u.send m) (.code va) (by rw [hfar]; exact hcc)).2.2.1
  refine ⟨_, m, hs.trans (fetching_asks hw), ?_, ?_, ?_, hiss, hpkg, hbody, ?_⟩
  · rw [hm]
    exact send_mem u m
  · rw [hm, hsame, hfar]
    rfl
  · rw [hm]
    exact onWay_of_net (send_onWay m) rfl rfl
  · rw [hm, hfar]
    change ((v.fetched ++ [(codeCmd v.cur, va, none)]).find? _).map _ = _
    rw [List.find?_append, Option.map_eq_none_iff.1 hf]
    simp

/-- What a stack core's fetch comes to (R91). -/
theorem issues_stack (hc : stackCore v.cur = true) :
    let pc := v.ctx.pc.toNat
    (v.codeAt v.ctx.slot pc = none → step s = .next (v.trap 0x23 v.ctx.pc)) ∧
    (∀ va k pa, v.codeAt v.ctx.slot pc = some (va, k, pa) →
      (k = v.pkg → v.poisoned pa 4 = true → RunsPoisoned s v) ∧
      (k = v.pkg → v.poisoned pa 4 = false → RunsAt s pc v (BitVec.ofNat 32 (readNat v.mem pa 4))) ∧
      (k ≠ v.pkg → ∀ a, v.farCode v.cur va = some (some a) →
        (∀ w, a = .word w → RunsAt s pc v (w.setWidth 32)) ∧ (∀ c x l, a = .fault c x l → RunsPoisoned s v)) ∧
      (k ≠ v.pkg → v.farCode v.cur va = some none → step s = .next (v.park (.code va))) ∧
      (k ≠ v.pkg → v.farCode v.cur va = none → ∃ t m, step s = .next t ∧ t.mem = v.mem ∧ t.ctx.pc = v.ctx.pc ∧
        OnWay t m ∧ m.iss = v.issuer ∧ m.pkg = k ∧ (∃ acc d, m.body = .load pa va 0xC 4 acc false d 64) ∧
        t.farCode v.cur va = some none)) := by
  intro pc
  refine ⟨fun hn => issues_bad h hr (fetch_nowhere hc hn), fun va k pa hk => ⟨fun hp hb => ?_, fun hp hb => ?_, fun hp a ha => ⟨?_, ?_⟩,
    fun hp ha => ?_, issues_asks h hr hc hk⟩⟩
  · exact issues_poisoned h hr (fetch_here hc hk hp) ((badWord_here (fetchPa_here hc hk hp)).trans hb)
  · have hw := issues_word h hr (fetch_here hc hk hp) ((badWord_here (fetchPa_here hc hk hp)).trans hb)
    rwa [insn_stored (fetchPa_here hc hk hp) (by simp [hc])] at hw
  · rintro w rfl
    have hw := issues_word h hr ((fetch_far hc hk hp).trans (by rw [ha])) (badWord_far_word hc hk hp ha)
    rwa [insn_far hc hk hp ha] at hw
  · rintro c x l rfl
    exact issues_poisoned h hr ((fetch_far hc hk hp).trans (by rw [ha])) (badWord_far_fault hc hk hp ha)
  · exact (step_of_issues h hr).1.trans (fetching_awaited ((fetch_far hc hk hp).trans (by rw [ha])))

end

section
variable {s x : State}

/-- A fault that a home has answered is delivered at the end of a marker's park (R195). -/
theorem step_delivers {a n : Nat} {f : FaultMark} {l : List (Nat × FaultMark)} (h : Chosen s x) (hw : x.ctx.wait = .marker a)
    (hi : x.ctx.inh = false) (hf : x.ctx.faulted = (n, f) :: l) :
    step s = .next ((x.setCtx { x.ctx with wait := .none }).trapAt f.cause (faultTval n f.va)
      (if x.ctx.rep then x.ctx.pc else BitVec.ofNat 64 (a + 4)) a) := by
  obtain ⟨hs, hc⟩ := step_of_chosen h
  have hy : (x.setCtx { x.ctx with wait := .none }).ctx = { x.ctx with wait := .none } := ctx_setCtx_same _ _ hc
  have hd := delivered_eq_some (s := x.setCtx { x.ctx with wait := .none }) (a := a) (n := n) (f := f) (l := l)
    (by rw [hy]; exact hi) (by rw [hy]; exact hf)
  rw [hs, State.issueOne]
  dsimp only
  rw [hw]
  dsimp only
  rw [hd, hy, tval_eq]
  rfl

/-- A handler that is due on the current core starts in place of an issue (R74). -/
theorem step_startsHandler (hp : s.powered = true) (hd : s.handlerDue s.cur = true) :
    (∀ rest, s.turns = .core s.cur :: rest → step s = State.startHandler { s with turns := rest } s.cur) ∧
    (s.turns = [] → step s = s.startHandler s.cur) := by
  refine ⟨fun rest ht => (step_turn ht hp).trans (if_pos hd), fun ht => ?_⟩
  simp [step, ht, hp, State.advance, hd]

/-- Without power only power-on is a step (R63, R361). -/
theorem step_unpowered (hp : s.powered = false) : (s.turns = [] → step s = .fault .noPower) ∧
    ∀ west east failed rest, s.turns = .event (.firmwareStart (west, east) failed) :: rest →
      step s = exec (.firmwareStart (west, east) failed) { s with turns := rest } := by
  refine ⟨fun ht => ?_, fun west east failed rest ht => ?_⟩
  · simp [step, ht, hp]
  · simp [step, ht, hp, Turn.powersOn, State.takeTurn]

end

/-- Settles O56: what a fetch comes to, for a tile's core and for a stack core; who is chosen; and what a park waits for. -/
theorem stepRunsDecoded : Obligations.StepRunsDecoded := by
  refine ⟨fun s v h hr => ⟨fun hc hx => issues_bad h hr (fetch_beyond hc hx), issues_tile h hr, issues_stack h hr⟩,
    fun s hp => ⟨fun rest ht hd => (step_startsHandler hp hd).1 rest ht, fun ht hd => (step_startsHandler hp hd).2 ht⟩,
    fun s e rest ht hp => step_turn ht hp, fun s x a n f l => step_delivers,
    fun s n i hi _ => ⟨choose_isSome hi, choose_handler, fun k hk => ⟨choose_ready hk, fun hs hy => choose_prio hk hs hy⟩⟩,
    ?ready, fun s => step_unpowered⟩
  case ready =>
    intro s n i
    dsimp only
    intro hr hs hh hb
    have key := ctxReady_iff hr hs hh hb
    refine ⟨fun hw => ?none, fun a hw => ?marker, fun va hw => ?xlate, fun p hw => ?chan, fun hw => ?key, fun b g hw => ?bar,
      fun b g hw => ?barFull, fun m b hw => ?fence, fun hw => ?acks, fun hw => ?answer, fun hw => ?regs, fun hw => ?ending⟩
    case ending => obtain hw | hw | ⟨f, hw⟩ := hw <;> simp [key, State.overFor, hw]
    case xlate => simpa [key, State.overFor, hw] using walking_eq_false_iff
    case key =>
      rw [key, State.overFor, hw]
      exact hasKey_iff
    case answer => simp [key, State.overFor, hw, Option.isSome_iff_ne_none]
    all_goals simp [key, State.overFor, hw, State.idOf, CoreSt.port]

end Sys2Proof.Machine
end
section
namespace Sys2Proof.Machine

/-! A record that starts (R69, R70, R75, R122). -/

section
variable {s t : State} {n i : Nat} {r : Rec} {d : List Rec}

/-- A tile that leaves idle changes its dirty bit alone (R81). -/
theorem leftIdle_keeps {β : Type} (g : State → β) (hg : g (s.setCore n { s.core n with dirty := true }) = g s) (old : State) :
    g (old.leftIdle n s) = g s := ite_keeps g hg rfl

theorem leftIdle_core (old : State) : ∃ b, (old.leftIdle n s).core n = { s.core n with dirty := b } := by
  fun_cases State.leftIdle
  · exact ⟨true, core_setCore_same ..⟩
  · exact ⟨_, rfl⟩

/-- A context whose x registers a record's start has written: the stack pointer, x3 and the six arguments (R70). -/
def Ctx.withArgs (z : Ctx) (sp x3 : Word) (ws : List Word) : Ctx :=
  (((((((z.wx 2 sp).wx 3 x3).wx 10 (wordAt ws 2)).wx 11 (wordAt ws 3)).wx 12 (wordAt ws 4)).wx 13 (wordAt ws 5)).wx 14
    (wordAt ws 6)).wx 15 (wordAt ws 7)

theorem rx_withArgs (z : Ctx) (sp x3 : Word) (ws : List Word) :
    (z.withArgs sp x3 ws).rx 2 = sp ∧ (z.withArgs sp x3 ws).rx 3 = x3 ∧
    (∀ j, j < 6 → (z.withArgs sp x3 ws).rx (BitVec.ofNat 5 (10 + j)) = wordAt ws (2 + j)) ∧
    ∀ q : Reg, q.toNat ∉ [2, 3, 10, 11, 12, 13, 14, 15] → (z.withArgs sp x3 ws).rx q = z.rx q := by
  refine ⟨by simp [Ctx.withArgs, rx_wx], by simp [Ctx.withArgs, rx_wx], fun j hj => ?_, fun q hq => ?_⟩
  · interval_cases j <;> simp [Ctx.withArgs, rx_wx]
  · have h (k : Nat) (hk : k ∈ [2, 3, 10, 11, 12, 13, 14, 15]) : q ≠ BitVec.ofNat 5 k := by
      rintro rfl
      have hk32 : k < 2 ^ 5 := (by decide : ∀ k ∈ [2, 3, 10, 11, 12, 13, 14, 15], k < 2 ^ 5) k hk
      rw [BitVec.toNat_ofNat, Nat.mod_eq_of_lt hk32] at hq
      exact hq hk
    have h2 := h 2 (by decide)
    have h3 := h 3 (by decide)
    have h10 := h 10 (by decide)
    have h11 := h 11 (by decide)
    have h12 := h 12 (by decide)
    have h13 := h 13 (by decide)
    have h14 := h 14 (by decide)
    have h15 := h 15 (by decide)
    by_cases h0 : q = 0
    · rw [h0, Ctx.rx, Ctx.rx, if_pos rfl, if_pos rfl]
    · simp_all [Ctx.withArgs, rx_wx]

/-- The group number stands in the low byte of grp (R122). -/
theorem field_grpWord (c : CoreSt) {g : Nat} (hg : g < 256) : Word.field (c.grpWord g) 7 0 = g := by
  fun_cases CoreSt.grpWord
  · simp only [Word.field, BitVec.toNat_ofNat]
    omega
  · simp only [Word.field, BitVec.toNat_ofNat]
    omega

theorem group_lt (r : Rec) : r.group < 256 := Nat.mod_lt _ (by decide)

/-- The x3 of the command of a slot. -/
def State.x3Of (s : State) (slot : Nat) : Word :=
  match (s.slot slot).cmd with
  | some c => c.x3
  | none => 0

/-- A register reads what the file holds; the other fields do not matter. -/
theorem rx_congr {y z : Ctx} (h : y.x = z.x) (q : Reg) : y.rx q = z.rx q := by
  rw [Ctx.rx, Ctx.rx, h]

theorem freshTask_rx (k : Nat) (q : Reg) : (s.freshTask n i k r).rx q = (Ctx.withArgs { role := .task, pc := BitVec.ofNat 64 r.entry }
    (BitVec.ofNat 64 (0x100000 + i * 0x20000)) (s.x3Of r.slot) r.words).rx q := by
  refine rx_congr ?_ q
  unfold State.freshTask State.x3Of Ctx.withArgs
  cases (s.slot r.slot).cmd <;> rfl

/-- What a record's start sets but for the registers. -/
theorem freshTask_fields (k : Nat) : let x := s.freshTask n i k r
    x.role = .task ∧ x.pc = BitVec.ofNat 64 r.entry ∧ x.group = r.group ∧ x.tstat = 0 ∧ x.pending = 0 := by
  refine ⟨?_, ?_, field_grpWord _ (group_lt r), ?_, ?_⟩
  all_goals
    simp only [State.freshTask, wx_role, wx_pc, wx_tstat, wx_pending]

/-- The registers of a task that starts (R70). -/
theorem freshTask_registers (k : Nat) : let x := s.freshTask n i k r
    x.role = .task ∧ x.pc = BitVec.ofNat 64 r.entry ∧ x.rx 2 = BitVec.ofNat 64 (0x100000 + i * 0x20000) ∧
    (∀ c, (s.slot r.slot).cmd = some c → x.rx 3 = c.x3) ∧
    (∀ j, j < 6 → x.rx (BitVec.ofNat 5 (10 + j)) = wordAt r.words (2 + j)) ∧
    (∀ q : Reg, q.toNat ∉ [2, 3, 10, 11, 12, 13, 14, 15] → x.rx q = 0) ∧ x.group = r.group ∧
    x.exitc = BitVec.ofNat 64 r.exit ∧ x.tid = tidWord k n i ∧ x.tstat = 0 ∧ x.pending = 0 ∧ x.flagged = r.flagged := by
  obtain ⟨h2, h3, ha, ho⟩ := rx_withArgs { role := .task, pc := BitVec.ofNat 64 r.entry } (BitVec.ofNat 64 (0x100000 + i * 0x20000))
    (s.x3Of r.slot) r.words
  obtain ⟨hr, hp, hg, ht, hq⟩ := freshTask_fields (s := s) (n := n) (i := i) (r := r) k
  refine ⟨hr, hp, (freshTask_rx k _).trans h2, fun c hc => ?_, fun j hj => (freshTask_rx k _).trans (ha j hj),
    fun q hn => ((freshTask_rx k q).trans (ho q hn)).trans (rx_default q), hg, rfl, rfl, ht, hq, rfl⟩
  rw [freshTask_rx, h3, State.x3Of, hc]

theorem freshTask_congr (hz : t.slots = s.slots) (hg : (t.core n).groups = (s.core n).groups) (k : Nat) :
    t.freshTask n i k r = s.freshTask n i k r := by
  unfold State.freshTask CoreSt.grpWord CoreSt.groupSlot State.slot
  rw [hz, hg]

/-- A record that starts takes its context and the next serial number. -/
theorem startOn_core (r : Rec) : ∃ b, (s.startOn n i r).core n =
    CoreSt.setCtx { s.core n with serial := (s.core n).serial + 1, dirty := b } i (s.freshTask n i ((s.core n).serial + 1) r) := by
  obtain ⟨b, hb⟩ := leftIdle_core (n := n)
    (s := s.setCore n (CoreSt.setCtx { s.core n with serial := (s.core n).serial + 1 } i (s.freshTask n i ((s.core n).serial + 1) r))) s
  rw [core_setCore_same] at hb
  exact ⟨b, hb⟩

theorem startOn_mem (r : Rec) : (s.startOn n i r).mem = s.mem := leftIdle_keeps State.mem rfl s

theorem startOn_ctxOf (r : Rec) (hi : i < 5) : (s.startOn n i r).ctxOf n i = s.freshTask n i ((s.core n).serial + 1) r := by
  obtain ⟨b, hb⟩ := startOn_core (s := s) (n := n) (i := i) r
  rw [State.ctxOf, hb, ctx_setCtx_core _ _ _ _ hi, if_pos rfl]

theorem startOn_queued (r : Rec) : ((s.startOn n i r).core n).queued = (s.core n).queued := by
  obtain ⟨b, hb⟩ := startOn_core (s := s) (n := n) (i := i) r
  rw [hb]
  rfl

/-- The records that move up from the overflow area change nothing else of a core. -/
theorem refilled_eq (c : CoreSt) : ∃ a b, c.refilled = { c with deque := a, overflow := b } := by
  have h (fuel : Nat) (c : CoreSt) : ∃ a b, CoreSt.refillDeque fuel c = { c with deque := a, overflow := b } := by
    induction fuel generalizing c with
    | zero => exact ⟨_, _, rfl⟩
    | succ fuel ih =>
      unfold CoreSt.refillDeque
      split
      · exact ⟨_, _, rfl⟩
      · obtain ⟨a, b, h⟩ := ih { c with deque := c.deque ++ c.overflow.take 16, overflow := c.overflow.drop 16 }
        exact ⟨a, b, h⟩
  exact h 64 c

/-- The state from which a core's newest record starts: the record has left the deque. -/
def State.afterPop (s : State) (n : Nat) (d : List Rec) : State :=
  (s.setCore n (CoreSt.refilled { s.core n with deque := d })).arbitrated n 0

theorem startNewest_eq (hd : (s.core n).deque = r :: d) : s.startNewest n i = (s.afterPop n d).startOn n i r := by
  unfold State.startNewest CoreSt.popped
  rw [hd]
  rfl

theorem afterPop_core : ∃ a b, (s.afterPop n d).core n =
    { s.core n with deque := a, overflow := b, arbiter := (s.cycles.toNat, 0) } ∧ a ++ b = d ++ (s.core n).overflow := by
  obtain ⟨a, b, h⟩ := refilled_eq { s.core n with deque := d }
  have hq := refilled_queued { s.core n with deque := d }
  refine ⟨a, b, ?_, ?_⟩
  · rw [State.afterPop, State.arbitrated, core_setCore_same, core_setCore_same, h]
    rfl
  · rw [h] at hq
    exact hq

/-- The newest record starts on a context: what memory, the deque, the spilled tasks and the context are then. -/
theorem startNewest_effect (hd : (s.core n).deque = r :: d) (hi : i < 5) : (s.startNewest n i).mem = s.mem ∧
    ((s.startNewest n i).core n).queued = d ++ (s.core n).overflow ∧
    ((s.startNewest n i).core n).spilled = (s.core n).spilled ∧
    (s.startNewest n i).ctxOf n i = s.freshTask n i ((s.core n).serial + 1) r := by
  obtain ⟨a, b, hc, hq⟩ := afterPop_core (s := s) (n := n) (d := d)
  obtain ⟨e, he⟩ := startOn_core (s := s.afterPop n d) (n := n) (i := i) r
  rw [startNewest_eq hd]
  refine ⟨startOn_mem r, ?_, ?_, ?_⟩
  · rw [startOn_queued, hc]
    exact hq
  · rw [he, hc]
    rfl
  · have hg : ((s.afterPop n d).core n).groups = (s.core n).groups := by rw [hc]
    rw [startOn_ctxOf r hi, freshTask_congr (t := s.afterPop n d) (s := s) (n := n) rfl hg, hc]

/-- TASK_START of the newest record (R70, R75). -/
theorem exec_taskStart_newest (hh : s.held n = false) (hn : (s.core n).firstRestore = none) (hf : (s.core n).freeCtx = some i)
    (ha : s.arbitrates n 0 = true) : exec (.taskStart n) s = .next (s.startNewest n i) := by
  change execTaskStart n s = _
  simp [execTaskStart, hh, hn, hf, ha]

end

/-! A spilled task that is restored (R75, R345). -/

section
variable {s : State} {n i k : Nat} {p : Spilled}

theorem foldl_mem {α : Type} {f : α → α → α} (hf : ∀ a b, f a b = a ∨ f a b = b) (l : List α) (a : α) : l.foldl f a ∈ a :: l := by
  induction l generalizing a with
  | nil => exact List.mem_singleton.2 rfl
  | cons b l ih =>
    obtain h | h := List.mem_cons.1 (ih (f a b))
    · rw [List.foldl_cons, h]
      obtain e | e := hf a b <;> rw [e] <;> simp
    · exact List.mem_cons_of_mem _ (List.mem_cons_of_mem _ h)

theorem olderWake_cases (l : List Spilled) (a b : Nat) : olderWake l a b = a ∨ olderWake l a b = b := by
  unfold olderWake
  split
  · split <;> simp
  all_goals simp

/-- A task that is restored into a context is one that left it. -/
theorem num_of_readyFor {c : CoreSt} (h : c.readyFor i = some k) (hp : c.spilled[k]? = some p) : p.num = i := by
  have hk : k ∈ (List.range c.spilled.length).filter fun k => match c.spilled[k]? with
      | some p => p.num == i && p.ready.isSome
      | none => false := by
    revert h
    fun_cases CoreSt.readyFor
    · exact nofun
    · next a l hl =>
      rintro ⟨⟩
      have hm := foldl_mem (olderWake_cases c.spilled) l a
      rw [← hl] at hm
      exact hm
  have := (List.mem_filter.1 hk).2
  rw [hp] at this
  simp only [Bool.and_eq_true, beq_iff_eq] at this
  exact this.1

theorem readyFor_of_firstRestore {c : CoreSt} (h : c.firstRestore = some (i, k)) : i < 4 ∧ c.readyFor i = some k := by
  obtain ⟨j, hj, he⟩ := List.exists_of_findSome?_eq_some h
  have hj4 : j < 4 := by
    simp only [List.mem_cons, List.not_mem_nil, or_false] at hj
    omega
  split at he
  · exact nomatch he
  · obtain ⟨a, ha, hk⟩ := Option.map_eq_some_iff.1 he
    obtain ⟨rfl, rfl⟩ := Prod.mk.inj hk
    exact ⟨hj4, ha⟩

theorem mem_putPoison {l us : List Nat} {lo len w : Nat} :
    w ∈ putPoison l lo len us ↔ (∃ o ∈ us, w = lo + o) ∨ (w ∈ l ∧ ¬(lo ≤ w ∧ w < lo + len)) := by
  simp only [putPoison, List.mem_append, List.mem_map, List.mem_filter, Bool.or_eq_true, decide_eq_true_eq, eq_comm (a := w)]
  refine or_congr_right (and_congr_right fun _ => ?_)
  omega

/-- TASK_START of a spilled task (R345): its context, its frame's poison, and its place among the spilled ones. -/
theorem exec_taskStart_restores (hh : s.held n = false) (hr : (s.core n).firstRestore = some (i, k))
    (hp : (s.core n).spilled[k]? = some p) :
    ∃ t, exec (.taskStart n) s = .next t ∧ t.ctxOf n i = p.ctx ∧ (t.core n).spilled = removeAt (s.core n).spilled k ∧
      (t.core n).queued = (s.core n).queued ∧
      ((∀ o ∈ p.poison, o < 0x20000) → ∀ w, w ∈ t.poison ↔
        ((∃ o ∈ p.poison, w = framePa n i + o) ∨ (w ∈ s.poison ∧ ¬(framePa n i ≤ w ∧ w < framePa n i + 0x20000)))) := by
  obtain ⟨hi, hk⟩ := readyFor_of_firstRestore hr
  obtain rfl := num_of_readyFor hk hp
  obtain ⟨b, hb⟩ := leftIdle_core (s := s.restore n k p) (n := n) s
  have hc : (s.restore n k p).core n = CoreSt.setCtx { s.core n with spilled := removeAt (s.core n).spilled k } p.num p.ctx :=
    core_setCore_same ..
  refine ⟨s.leftIdle n (s.restore n k p), ?_, ?_, ?_, ?_, fun _ w => ?_⟩
  · change execTaskStart n s = _
    simp [execTaskStart, hh, hr, hp]
  · rw [State.ctxOf, hb, hc]
    exact (ctx_setCtx_core _ _ _ _ (show p.num < 5 by omega)).trans (if_pos rfl)
  · rw [hb, hc]
    rfl
  · rw [hb, hc]
    rfl
  · rw [leftIdle_keeps State.poison rfl s]
    exact mem_putPoison

end
end Sys2Proof.Machine
end

section
namespace Sys2Proof.Machine

/-! What a record that is pushed, a report and a message change of a core (R76, R81, R340). -/

section
variable {s t : State} {n : Nat} {r : Rec}

theorem pushed_queued (c : CoreSt) : (c.pushed r).queued = r :: c.queued := by
  fun_cases CoreSt.pushed
  · rfl
  · next hd _ =>
    have h := List.dropLast_concat_getLast (l := r :: c.deque) (by simp)
    have hl : (r :: c.deque).getLast? = some ((r :: c.deque).getLast (by simp)) := List.getLast?_eq_some_getLast _
    simp only [CoreSt.queued, hd, hl]
    rw [← List.append_assoc, h]
    rfl

theorem pushed_eq (c : CoreSt) : ∃ a b, c.pushed r = { c with deque := a, overflow := b } := by
  fun_cases CoreSt.pushed <;> exact ⟨_, _, rfl⟩

/-- A change of a task changes no more of a core than its contexts, its tile record and its spilled tasks. -/
theorem onTask_core {T : TaskId} {f : Ctx → Ctx} (h : s.onTask T f = some t) (n : Nat) :
    ∃ a b c, t.core n = { s.core n with ctxs := a, saved := b, spilled := c } := by
  revert h
  fun_cases State.onTask <;> rintro ⟨⟩
  all_goals
    simp only [State.setCtxOf, core_setCore]
    split
    · next e => subst e; exact ⟨_, _, _, rfl⟩
    · exact ⟨_, _, _, rfl⟩

theorem report_core (i : Issuer) (cause colour : Nat) (w : Word) (n : Nat) :
    ∃ a b c, (s.report i cause colour w).core n = { s.core n with ctxs := a, saved := b, spilled := c } := by
  fun_cases State.report
  · exact ⟨_, _, _, rfl⟩
  · next h => exact onTask_core h n
  · exact ⟨_, _, _, rfl⟩
  · obtain ⟨z, hz⟩ := onTally_eq (s := s.bump (0x0A90 + 8 * cause)) i.task.slot i.task.core
      fun y => { y with faults := y.faults.add cause colour w }
    rw [hz]
    exact ⟨_, _, _, rfl⟩

/-- A push has room where no tile record holds records and fewer than 1,280 are queued. -/
theorem pushRec_core_of_room (who : Issuer) (hs : (s.core n).saved = none) (hl : (s.core n).queued.length < 1280) :
    ∃ b, (s.pushRec n who r).core n = { (s.core n).pushed r with dirty := b } := by
  have h : ¬1280 ≤ (s.core n).deque.length + (s.core n).overflow.length + (((s.core n).saved.map (·.deque.length)).getD 0) := by
    rw [CoreSt.queued, List.length_append] at hl
    simp only [hs, Option.map_none, Option.getD_none]
    omega
  unfold State.pushRec
  dsimp only
  rw [if_neg h]
  obtain ⟨b, hb⟩ := leftIdle_core (n := n)
    (s := (if 256 ≤ (s.core n).deque.length then s.bump 0xCA0 else s).setCore n ((s.core n).pushed r)) s
  rw [core_setCore_same] at hb
  exact ⟨b, hb⟩

theorem pushRec_queued (who : Issuer) (hs : (s.core n).saved = none) (hl : (s.core n).queued.length < 1280) :
    ((s.pushRec n who r).core n).queued = r :: (s.core n).queued := by
  obtain ⟨b, hb⟩ := pushRec_core_of_room (r := r) who hs hl
  rw [hb]
  exact pushed_queued _

/-- What a core keeps of its steals. -/
def CoreSt.thieving (c : CoreSt) : Bool × Nat := (c.stealOut, c.backoff)

theorem pushRec_thieving (who : Issuer) : ((s.pushRec n who r).core n).thieving = (s.core n).thieving := by
  unfold State.pushRec
  dsimp only
  split
  · obtain ⟨a, b, c, h⟩ := report_core (s := s.bump 0xC98) who 0x29 8 0x190000 n
    rw [h]
    rfl
  · obtain ⟨b, hb⟩ := leftIdle_core (n := n)
      (s := (if 256 ≤ (s.core n).deque.length then s.bump 0xCA0 else s).setCore n ((s.core n).pushed r)) s
    obtain ⟨x, y, he⟩ := pushed_eq (r := r) (s.core n)
    rw [hb, core_setCore_same, he]
    rfl

/-- A message that leaves counts on a core, and changes no more of it. -/
theorem send_core (m : Msg) (n : Nat) : ∃ k, (s.send m).core n = { s.core n with sent := k } := by
  have hc : ∃ k, (if m.body.counted then s.countSent m.iss else s).core n = { s.core n with sent := k } := by
    split
    · fun_cases State.countSent
      · rw [core_setCore]
        split
        · next e => subst e; exact ⟨_, rfl⟩
        · exact ⟨_, rfl⟩
      · exact ⟨_, rfl⟩
    · exact ⟨_, rfl⟩
  obtain ⟨k, hk⟩ := hc
  have hn (u : State) : (u.numberOut m).core n = u.core n := by
    fun_cases State.numberOut <;> rfl
  refine ⟨k, (Eq.trans ?_ (hn _)).trans hk⟩
  unfold State.send
  dsimp only
  split <;> rfl

/-- A choice of a scheduling point changes its log and its place there. -/
theorem chose_eq (slot tile kind choice : Nat) : ∃ m l, s.chose slot tile kind choice = { s with mem := m, schedLog := l } := by
  fun_cases State.chose <;> exact ⟨_, _, rfl⟩

end
end Sys2Proof.Machine
end

section
namespace Sys2Proof.Machine

/-! Stealing (R78). -/

section
variable {s t : State} {n thief v j : Nat} {m : Msg} {r : Rec}

theorem takeLast_none {α : Type} {p : α → Bool} {l : List α} (h : ∀ b ∈ l, p b = false) : takeLast p l = none := by
  induction l with
  | nil => rfl
  | cons a l ih =>
    obtain ⟨ha, hl⟩ := List.forall_mem_cons.1 h
    simp [takeLast, ih hl, ha]

/-- The last one that is named is taken. -/
theorem takeLast_append {α : Type} {p : α → Bool} {l l' : List α} {a : α} (ha : p a = true) (h : ∀ b ∈ l', p b = false) :
    takeLast p (l ++ a :: l') = some (a, l ++ l') := by
  induction l with
  | nil => simp [takeLast, takeLast_none h, ha]
  | cons b l ih => simp [takeLast, ih]

theorem giveOldest_none {c : CoreSt} {p : Rec → Bool} (h : ∀ q ∈ c.queued, p q = false) : c.giveOldest p = none := by
  unfold CoreSt.giveOldest
  rw [takeLast_none fun b hb => h b (List.mem_append_right _ hb), takeLast_none fun b hb => h b (List.mem_append_left _ hb)]

/-- The oldest record that is named is given, from the overflow area before the hardware part. -/
theorem giveOldest_some {c : CoreSt} {p : Rec → Bool} {l l' : List Rec} (hq : c.queued = l ++ r :: l') (hr : p r = true)
    (h : ∀ q ∈ l', p q = false) : ∃ d, c.giveOldest p = some (r, d) ∧ d.queued = l ++ l' ∧ d.slot = c.slot := by
  have fromOverflow {a : List Rec} (hl : l = c.deque ++ a) (ho : c.overflow = a ++ r :: l') :
      ∃ d, c.giveOldest p = some (r, d) ∧ d.queued = l ++ l' ∧ d.slot = c.slot := by
    refine ⟨{ c with overflow := a ++ l' }, ?_, ?_, rfl⟩
    · simp only [CoreSt.giveOldest, ho, takeLast_append hr h]
    · rw [hl, List.append_assoc]
      rfl
  obtain ⟨a, hl, ho⟩ | ⟨a, hd, ho⟩ := List.append_eq_append_iff.1 hq
  · exact fromOverflow hl ho
  · cases a with
    | nil => exact fromOverflow (a := []) (by simpa using hd.symm) (by simpa using ho.symm)
    | cons b a =>
      rw [List.cons_append, List.cons.injEq] at ho
      obtain ⟨rfl, rfl⟩ := ho
      obtain ⟨x, y, he⟩ := refilled_eq { c with deque := l ++ a }
      refine ⟨CoreSt.refilled { c with deque := l ++ a }, ?_, ?_, ?_⟩
      · simp only [CoreSt.giveOldest, takeLast_none fun b hb => h b (List.mem_append_right _ hb), hd,
          takeLast_append hr fun b hb => h b (List.mem_append_left _ hb)]
      · rw [refilled_queued, ← List.append_assoc]
        rfl
      · rw [he]

theorem stealMsg_congr (hp : t.pkg = s.pkg) (hs : (t.core n).slot = (s.core n).slot) (b : Nat) (x : Body) :
    t.stealMsg n b x = s.stealMsg n b x := by
  rw [State.stealMsg, State.stealMsg, State.tileIssuer, State.tileIssuer, hp, hs]

/-- STEAL_BACKOFF: an idle core without a request asks its next direction. -/
theorem exec_stealBackoff {d : Nat} (ho : (s.core n).stealOut = false) (hi : s.stealIdle n = true)
    (hd : s.nextDir n (s.core n).stealDir = some d) (hv : neighbour n d = some v) :
    ∃ t, exec (.stealBackoff n) s = .next t ∧ t.net = s.net ++ [s.stealMsg n v (.steal n v d s.cycles.toNat)] ∧
      (t.core n).stealOut = true ∧ (t.core n).stealDir = (d + 1) % 4 ∧ t.mem = s.mem := by
  let u := s.setCore n { s.core n with stealOut := true, stealDir := (d + 1) % 4 }
  have hu : u.core n = { s.core n with stealOut := true, stealDir := (d + 1) % 4 } := core_setCore_same ..
  have hm : u.stealMsg n v (.steal n v d s.cycles.toNat) = s.stealMsg n v (.steal n v d s.cycles.toNat) :=
    stealMsg_congr (t := u) (s := s) (n := n) rfl (by rw [hu]) ..
  have hs : u.send (u.stealMsg n v (.steal n v d s.cycles.toNat)) =
      { u with net := u.net ++ [s.stealMsg n v (.steal n v d s.cycles.toNat)] } := by
    rw [hm]
    exact (send_uncounted rfl rfl).trans (if_pos rfl)
  refine ⟨u.send (u.stealMsg n v (.steal n v d s.cycles.toNat)), ?_, ?_, ?_, ?_, ?_⟩
  · change execStealBackoff n s = _
    simp [execStealBackoff, ho, hi, hd, hv]
    rfl
  · rw [hs]
    rfl
  all_goals rw [hs]
  · exact congrArg CoreSt.stealOut hu
  · exact congrArg CoreSt.stealDir hu
  · rfl

/-! Its messages at the other end. -/

theorem take_steal {a b d k : Nat} (hm : m.body = .steal a b d k) : s.take j m = { s with net := removeAt s.net j } := by
  simp [State.take, State.numberIn, State.receivedAll, State.seenBy, hm, Body.atHome, Body.sequenced, Body.counted]

/-- The state in which a victim answers: the request is taken, the choice logged, the arbiter has served it. -/
def State.answering (s : State) (j v choice : Nat) (m : Msg) : State :=
  ((s.take j m).chose (s.slotOf v) v 1 choice).arbitrated v 1

theorem answering_eq {d k choice : Nat} (hm : m.body = .steal thief v d k) :
    (s.answering j v choice m).pkg = s.pkg ∧ (s.answering j v choice m).cycles = s.cycles ∧
      (s.answering j v choice m).core v = { s.core v with arbiter := (s.cycles.toNat, 1) } := by
  obtain ⟨x, l, h⟩ := chose_eq (s := s.take j m) (s.slotOf v) v 1 choice
  rw [State.answering, h, take_steal hm]
  exact ⟨rfl, rfl, core_setCore_same ..⟩

/-- A record that victim `v` may give to a thief (R78). -/
def State.given (s : State) (thief : Nat) (r : Rec) : Prop :=
  (s.core thief).slot = some r.slot ∧ ((s.core thief).groupSlot r.group).isSome = true ∧ r.local_ = false

theorem given_iff : ((s.core thief).slot == some r.slot && ((s.core thief).groupSlot r.group).isSome && !r.local_) = true ↔
    s.given thief r := by
  simp [State.given, and_assoc]

section
variable {d k : Nat} (hj : s.due j = some m) (hm : m.body = .steal thief v d k)
include hj hm

/-- STEAL_REQUEST waits while another request of its cycle goes first. -/
theorem exec_stealRequest_waits (h : s.servedBefore v ((d + 2) % 4) k = true) : exec (.stealRequest j) s = .next s := by
  change execStealRequest j s = _
  simp [execStealRequest, hj, hm, h]

variable (hh : s.held v = false) (hb : s.servedBefore v ((d + 2) % 4) k = false) (ha : s.arbitrates v 1 = true)
include hh hb ha

/-- STEAL_REQUEST: the oldest record that qualifies goes to the thief. -/
theorem exec_stealRequest_gives {l l' : List Rec} (hq : (s.core v).queued = l ++ r :: l') (hr : s.given thief r)
    (hl : ∀ q ∈ l', ¬s.given thief q) (hc : s.mayChoose (s.slotOf v) v 1 (2 * ((d + 2) % 4) + 1) = true) :
    ∃ t, exec (.stealRequest j) s = .next t ∧ (t.core v).queued = l ++ l' ∧ (t.core v).lastServed = (d + 2) % 4 ∧
      OnWay t (s.stealMsg v thief (.stolen thief r s.cycles.toNat)) := by
  obtain ⟨c, hg, hcq, hcs⟩ := giveOldest_some hq (given_iff.2 hr) fun q hq => Bool.eq_false_iff.2 fun h => hl q hq (given_iff.1 h)
  have hst : s.steal thief v = some (r, c) := by simpa [State.steal, hh] using hg
  let w := s.answering j v (2 * ((d + 2) % 4) + 1) m
  obtain ⟨hp, hy, -⟩ := answering_eq (s := s) (j := j) (choice := 2 * ((d + 2) % 4) + 1) hm
  let u := w.setCore v { c with lastServed := (d + 2) % 4, arbiter := (w.core v).arbiter }
  have hu : u.core v = { c with lastServed := (d + 2) % 4, arbiter := (w.core v).arbiter } := core_setCore_same ..
  have hmsg : u.stealMsg v thief (.stolen thief r u.cycles.toNat) = s.stealMsg v thief (.stolen thief r s.cycles.toNat) := by
    rw [show u.cycles = s.cycles from hy]
    exact stealMsg_congr (t := u) (s := s) (n := v) hp (by rw [hu]; exact hcs) ..
  obtain ⟨z, hz⟩ := send_core (s := u) (u.stealMsg v thief (.stolen thief r u.cycles.toNat)) v
  refine ⟨u.send (u.stealMsg v thief (.stolen thief r u.cycles.toNat)), ?_, ?_, ?_, hmsg ▸ send_onWay _⟩
  · change execStealRequest j s = _
    simp [execStealRequest, hj, hm, hst, hc, hb, ha]
    rfl
  · rw [hz, hu]
    exact hcq
  · rw [hz, hu]

/-- STEAL_REQUEST without a record that qualifies: a refusal. -/
theorem exec_stealRequest_refuses (hq : ∀ q ∈ (s.core v).queued, ¬s.given thief q)
    (hc : s.mayChoose (s.slotOf v) v 1 (2 * ((d + 2) % 4)) = true) :
    ∃ t, exec (.stealRequest j) s = .next t ∧ (t.core v).queued = (s.core v).queued ∧ (t.core v).lastServed = (d + 2) % 4 ∧
      OnWay t (s.stealMsg v thief (.refusal thief)) := by
  have hg := giveOldest_none (c := s.core v) fun q h => Bool.eq_false_iff.2 fun e => hq q h (given_iff.1 e)
  have hst : s.steal thief v = none := by simpa [State.steal, hh] using hg
  let w := s.answering j v (2 * ((d + 2) % 4)) m
  obtain ⟨hp, -, hw⟩ := answering_eq (s := s) (j := j) (choice := 2 * ((d + 2) % 4)) hm
  have hws : (w.core v).slot = (s.core v).slot := by
    rw [show w.core v = _ from hw]
  let u := w.setCore v { w.core v with lastServed := (d + 2) % 4 }
  have hu : u.core v = { w.core v with lastServed := (d + 2) % 4 } := core_setCore_same ..
  have hmsg : u.stealMsg v thief (.refusal thief) = s.stealMsg v thief (.refusal thief) :=
    stealMsg_congr (t := u) (s := s) (n := v) hp (by rw [hu]; exact hws) ..
  obtain ⟨z, hz⟩ := send_core (s := u) (u.stealMsg v thief (.refusal thief)) v
  refine ⟨u.send (u.stealMsg v thief (.refusal thief)), ?_, ?_, ?_, hmsg ▸ send_onWay _⟩
  · change execStealRequest j s = _
    simp [execStealRequest, hj, hm, hst, hc, hb, ha]
    rfl
  · rw [hz, hu, hw]
    rfl
  · rw [hz, hu]

end

/-- A request that is served before another one is among the messages of the steal network. -/
theorem servedBefore_of_mem {back k w e : Nat} (h : ∃ x ∈ s.net, x.body = .steal w v e k)
    (hlt : s.serveOrder v ((e + 2) % 4) < s.serveOrder v back) : s.servedBefore v back k = true := by
  obtain ⟨x, hx, hb⟩ := h
  refine List.any_eq_true.2 ⟨x, hx, ?_⟩
  rw [hb]
  simpa using hlt

/-- STOLEN_RECORD: the record starts on the thief, or waits in its deque. -/
theorem exec_stolenRecord {k : Nat} (hj : s.due j = some m) (hm : m.body = .stolen thief r k) (hh : (s.take j m).held thief = false) :
    let u := s.take j m
    ∃ t, exec (.stolenRecord j) s = .next t ∧ (t.core thief).stealOut = false ∧ (t.core thief).backoff = 64 ∧
      (∀ i, (u.core thief).freeCtx = some i → (t.ctxOf thief i).role = .task ∧ (t.ctxOf thief i).pc = BitVec.ofNat 64 r.entry ∧
        (t.core thief).queued = (u.core thief).queued) ∧
      ((u.core thief).freeCtx = none → (u.core thief).saved = none → (u.core thief).queued.length < 1280 →
        (t.core thief).queued = r :: (u.core thief).queued) := by
  intro u
  let w := u.setCore thief { u.core thief with stealOut := false, refusals := 0, backoff := 64 }
  have hw : w.core thief = { u.core thief with stealOut := false, refusals := 0, backoff := 64 } := core_setCore_same ..
  have hwh : w.held thief = false := by
    unfold State.held
    rw [hw]
    exact hh
  cases hf : (u.core thief).freeCtx with
  | some i =>
    have hi : i < 5 := (freeCtx_eq_some hf).trans (by decide)
    obtain ⟨b, hb⟩ := startOn_core (s := w) (n := thief) (i := i) r
    obtain ⟨hr, hp, -⟩ := freshTask_fields (s := w) (n := thief) (i := i) (r := r) ((w.core thief).serial + 1)
    refine ⟨w.startOn thief i r, ?_, ?_, ?_, ?_, nofun⟩
    · change execStolenRecord j s = _
      simp only [execStolenRecord, hj, hm]
      rw [show State.held _ thief = false from hwh, show (State.core (s.take j m) thief).freeCtx = some i from hf]
    · rw [hb, hw]
      rfl
    · rw [hb, hw]
      rfl
    · rintro k ⟨⟩
      rw [startOn_ctxOf r hi, startOn_queued, hw]
      exact ⟨hr, hp, rfl⟩
  | none =>
    have hk := pushRec_thieving (s := w) (n := thief) (r := r) m.iss
    rw [hw] at hk
    refine ⟨w.pushRec thief m.iss r, ?_, (Prod.ext_iff.1 hk).1, (Prod.ext_iff.1 hk).2, nofun, fun _ hs hl => ?_⟩
    · change execStolenRecord j s = _
      simp only [execStolenRecord, hj, hm]
      rw [show State.held _ thief = false from hwh, show (State.core (s.take j m) thief).freeCtx = none from hf]
    · rw [pushRec_queued m.iss (by rw [hw]; exact hs) (by rw [hw]; exact hl), hw]
      rfl

/-- STEAL_REFUSAL: the request is over, and the refusal counts. -/
theorem exec_stealRefusal (hj : s.due j = some m) (hm : m.body = .refusal thief) :
    let u := s.take j m
    ∃ t, exec (.stealRefusal j) s = .next t ∧ (t.core thief).stealOut = false ∧
      (t.core thief).refusals = (u.core thief).refusals + 1 ∧ t.mem = u.mem := by
  intro u
  obtain ⟨b, hb⟩ : ∃ b, exec (.stealRefusal j) s = .next (u.setCore thief
      { u.core thief with stealOut := false, refusals := (u.core thief).refusals + 1, backoff := b }) := by
    have he : exec (.stealRefusal j) s = execStealRefusal j s := rfl
    rw [he, execStealRefusal, hj]
    simp only [hm]
    exact ⟨_, rfl⟩
  refine ⟨_, hb, ?_, ?_, rfl⟩
  · rw [core_setCore_same]
  · rw [core_setCore_same]

end
end Sys2Proof.Machine
end

section
namespace Sys2Proof.Machine

/-! A record on its walk (R79). -/

section
variable {s : State} {j place : Nat} {m : Msg} {r : Rec}

theorem countSent_net (i : Issuer) : (s.countSent i).net = s.net := by
  fun_cases State.countSent <;> rfl

theorem countSent_pkg (i : Issuer) : (s.countSent i).pkg = s.pkg := pkg_of_seat (countSent_seat i)

/-- A message for this package without a number leaves as it is. -/
theorem send_net_here (hs : m.body.sequenced = false) (hp : m.pkg = s.pkg) : (s.send m).net = s.net ++ [m] := by
  have hn : ¬m.numbered = true := by simp [Msg.numbered, hs]
  simp only [State.send, State.stamp, State.numberOut, if_neg hn, hp, if_true]
  split
  · rw [countSent_net]
  · rfl

theorem take_walk_pkg (hm : m.body = .walk r place) : (s.take j m).pkg = s.pkg := by
  simpa [State.take, State.numberIn, State.seenBy, hm, Body.atHome, Body.sequenced] using
    pkg_of_seat (receivedAll_seat (s := { s with net := removeAt s.net j }) m)

/-- SPAWNAT_WALK waits where the arbiter has served a later rank in this cycle, or a replay holds the record. -/
theorem exec_spawnatWalk_waits (hj : s.due j = some m) (hm : m.body = .walk r place)
    (h : s.arbitrates place 2 = false ∨ s.walkHeld place m.iss r = true) : exec (.spawnatWalk j) s = .next s := by
  change execSpawnatWalk j s = _
  obtain h | h := h <;> simp [execSpawnatWalk, hj, hm, h]

theorem exec_spawnatWalk (hj : s.due j = some m) (hm : m.body = .walk r place) (ha : s.arbitrates place 2 = true)
    (hw : s.walkHeld place m.iss r = false) :
    exec (.spawnatWalk j) s = .next ((s.take j m).walkAt place m.iss m.group r) := by
  change execSpawnatWalk j s = _
  simp [execSpawnatWalk, hj, hm, ha, hw]

/-- The record starts on its walk. -/
theorem walkAt_starts {i : Nat} {who : Issuer} (g : Nat) (he : s.walkEligible place who.task.core r = true)
    (hc : s.mayChoose r.slot place 2 (manhattan who.task.core place) = true) (hf : (s.core place).freeCtx = some i) :
    ((s.walkAt place who g r).ctxOf place i).role = .task ∧
      ((s.walkAt place who g r).ctxOf place i).pc = BitVec.ofNat 64 r.entry := by
  have h : s.walkAt place who g r = ((s.chose r.slot place 2 (manhattan who.task.core place)).arbitrated place 2).startOn place i r := by
    simp [State.walkAt, he, hc, hf]
  rw [h, startOn_ctxOf r ((freeCtx_eq_some hf).trans (by decide))]
  exact ⟨freshTask_fields _ |>.1, freshTask_fields _ |>.2.1⟩

section
variable {who : Issuer} (g : Nat) (he : s.walkEligible place who.task.core r = false)
include he

/-- The record goes on towards its hint. -/
theorem walkAt_passes (hp : place ≠ s.hintTile r who.task.core) :
    (s.walkAt place who g r).net = s.net ++ [s.walkMsg (towards place (s.hintTile r who.task.core)) who g r] := by
  have h : s.walkAt place who g r = s.send (s.walkMsg (towards place (s.hintTile r who.task.core)) who g r) := by
    simp [State.walkAt, he, hp]
  rw [h]
  exact send_net_here rfl rfl

/-- The hint tile enqueues the record. -/
theorem walkAt_enqueues (hp : place = s.hintTile r who.task.core) (ht : s.takesGroup place who.task.core r = true)
    (hs : (s.core place).saved = none) (hl : (s.core place).queued.length < 1280) :
    ((s.walkAt place who g r).core place).queued = r :: (s.core place).queued := by
  have h : s.walkAt place who g r = (s.chose r.slot place 2 0x3F).pushRec place who r := by
    simp [State.walkAt, he, ← hp, State.walkEnds, ht]
  obtain ⟨x, l, hx⟩ := chose_eq (s := s) r.slot place 2 0x3F
  rw [h, hx]
  exact pushRec_queued who hs hl

end
end
end Sys2Proof.Machine
end

section
namespace Sys2Proof.Machine

/-! Spilling (R80, R345). -/

section
variable {s : State} {n i k : Nat} {r : Rec} {d : List Rec}

/-- The earlier parked of two contexts. -/
def State.earlier (s : State) (n : Nat) (best : Option Nat) (i : Nat) : Option Nat :=
  match best with
  | none => some i
  | some j => if (s.ctxOf n i).parkedAt < (s.ctxOf n j).parkedAt then some i else some j

theorem earlier_pick (b : Option Nat) (i : Nat) : s.earlier n b i = b ∨ s.earlier n b i = some i := by
  fun_cases State.earlier <;> simp

theorem spillChoice_lt (h : s.spillChoice n = some i) : i < 4 := by
  obtain h | h := mem_of_foldl_pick (earlier_pick (s := s) (n := n)) (b := none) (h : List.foldl (s.earlier n) none _ = some i)
  · have := (List.mem_filter.1 h).1
    simp only [List.mem_cons, List.not_mem_nil, or_false] at this
    omega
  · exact nomatch h

/-- The spilled task that a context leaves behind. -/
def State.spilledFrom (s : State) (n i k : Nat) : Spilled :=
  { ctx := s.ctxOf n i, num := i, place := k, frame := cellsOf s.mem (framePa n i) 0x20000
    poison := poisonOf s.poison (framePa n i) 0x20000, ready := none }

/-- SPILL with a free frame place: the context's task is spilled and the newest record starts there. -/
theorem exec_spill_place (hw : s.wantsSpill n = true) (hi : s.spillChoice n = some i) (hk : (s.core n).freePlace = some k)
    (hd : (s.core n).deque = r :: d) :
    ∃ t, exec (.spill n) s = .next t ∧ (t.core n).spilled = (s.core n).spilled ++ [s.spilledFrom n i k] ∧
      (t.ctxOf n i).role = .task ∧ (t.ctxOf n i).pc = BitVec.ofNat 64 r.entry ∧ (t.core n).queued = d ++ (s.core n).overflow := by
  let c := CoreSt.setCtx { s.core n with spilled := (s.core n).spilled ++ [s.spilledFrom n i k] } i {}
  let u := ((s.bump 0xC90).setCore n c).syncSpill n
  have hu : u.core n = c := core_setCore_same (s.bump 0xC90) n c
  have hud : (u.core n).deque = r :: d := (congrArg CoreSt.deque hu).trans hd
  have hi5 : i < 5 := (spillChoice_lt hi).trans (by decide)
  obtain ⟨-, hq, hs, hx⟩ := startNewest_effect hud hi5
  obtain ⟨hr, hp, -⟩ := freshTask_fields (s := u) (n := n) (i := i) (r := r) ((u.core n).serial + 1)
  have ho : (u.core n).overflow = (s.core n).overflow := by
    rw [hu]
    rfl
  refine ⟨u.startNewest n i, ?_, hs.trans (congrArg CoreSt.spilled hu), hx ▸ hr, hx ▸ hp, ho ▸ hq⟩
  change execSpill n s = _
  simp only [execSpill, hw, hi, hk]
  rfl

/-- SPILL without a free frame place is reported. -/
theorem exec_spill_noPlace (hw : s.wantsSpill n = true) (hi : s.spillChoice n = some i) (hk : (s.core n).freePlace = none) :
    ∃ t, exec (.spill n) s = .next t ∧ t.mem = s.mem ∧
      Told s t (s.idOf n i (s.ctxOf n i)) fun c => { c with faults := c.faults.add 0x29 8 0x1A0000 } := by
  refine ⟨_, ?_, report_mem (s.bump 0xC98) .., report_told (s := s.bump 0xC98) { task := s.idOf n i (s.ctxOf n i), via := 0 } 0x29 8 0x1A0000⟩
  change execSpill n s = _
  simp only [execSpill, hw, hi, hk]
  rfl

end
end Sys2Proof.Machine
end

section
namespace Sys2Proof.Machine

/-! A task that waits at no home any more (R207, R329). -/

section
variable {s : State} {T : TaskId}

/-- Overflow entries that move up keep their issuers. -/
theorem iss_of_mem_promote {home : Nat} {l : List Latch} {x : Latch} (h : x ∈ promote home l) : ∃ y ∈ l, y.iss = x.iss := by
  induction l with
  | nil => exact nomatch h
  | cons y l ih =>
    unfold promote at h
    split at h <;> obtain rfl | h := List.mem_cons.1 h
    · exact ⟨y, List.mem_cons_self, rfl⟩
    · exact ⟨x, List.mem_cons_of_mem _ h, rfl⟩
    · exact ⟨x, List.mem_cons_self, rfl⟩
    · obtain ⟨z, hz, he⟩ := ih h
      exact ⟨z, List.mem_cons_of_mem _ hz, he⟩

theorem iss_of_mem_refill {home k : Nat} {x : Latch} (h : x ∈ (s.refill home k).latches) : ∃ y ∈ s.latches, y.iss = x.iss := by
  induction k generalizing s with
  | zero => exact ⟨x, h, rfl⟩
  | succ k ih =>
    unfold State.refill at h
    split at h
    · obtain ⟨y, hy, he⟩ := ih h
      obtain ⟨z, hz, hez⟩ := iss_of_mem_promote hy
      exact ⟨z, hz, hez.trans he⟩
    · exact ⟨x, h, rfl⟩

/-- Latches that are removed leave those of the other issuers. -/
theorem removeLatches_eq (p : Latch → Bool) : ∃ l, s.removeLatches p = { s with latches := l } ∧
    ∀ x ∈ l, ∃ y ∈ s.latches, p y = false ∧ y.iss = x.iss := by
  have h (hs : List Nat) (u : State) : ∃ l, hs.foldl (fun s h => s.refill h s.latches.length) u = { u with latches := l } ∧
      ∀ x ∈ l, ∃ y ∈ u.latches, y.iss = x.iss := by
    induction hs generalizing u with
    | nil => exact ⟨_, rfl, fun x hx => ⟨x, hx, rfl⟩⟩
    | cons k hs ih =>
      obtain ⟨l, hl, hm⟩ := ih (u.refill k u.latches.length)
      refine ⟨l, ?_, fun x hx => ?_⟩
      · obtain ⟨l', hl'⟩ := refill_eq (s := u) k u.latches.length
        rw [List.foldl_cons, hl, hl']
      · obtain ⟨y, hy, he⟩ := hm x hx
        obtain ⟨z, hz, hez⟩ := iss_of_mem_refill hy
        exact ⟨z, hz, hez.trans he⟩
  obtain ⟨l, hl, hm⟩ := h (((s.latches.filter p).map (·.home)).eraseDups) { s with latches := s.latches.filter fun l => !p l }
  refine ⟨l, hl, fun x hx => ?_⟩
  obtain ⟨y, hy, he⟩ := hm x hx
  obtain ⟨hy, hp⟩ := List.mem_filter.1 hy
  exact ⟨y, hy, by simpa using hp, he⟩

/-- A request of the task itself for a latch. -/
def Msg.wantOf (m : Msg) (T : TaskId) : Bool := m.iss == { task := T, via := 0 } && match m.body with
  | .want .. => true
  | _ => false

theorem wantOf_iff {m : Msg} (h : m.wantOf T = true) : m.iss = { task := T, via := 0 } ∧ m.body.fenced = false := by
  obtain ⟨hi, hb⟩ := Bool.and_eq_true_iff.1 h
  refine ⟨beq_iff_eq.1 hi, ?_⟩
  split at hb
  · next hw => rw [hw]; rfl
  · exact nomatch hb

/-- Messages of a task for other packages leave for the outbox. -/
theorem unlatch_eq (l : List Nat) (hl : ∀ p ∈ l, p ≠ s.pkg) :
    l.foldl (fun s p => s.send (msgOf { task := T, via := 0 } p 8192 8 0 .unlatch)) s =
      { s with outbox := s.outbox ++ l.map fun p => msgOf { task := T, via := 0 } p 8192 8 0 .unlatch } := by
  induction l generalizing s with
  | nil => simp
  | cons p l ih =>
    obtain ⟨hp, hl⟩ := List.forall_mem_cons.1 hl
    have hs : s.send (msgOf { task := T, via := 0 } p 8192 8 0 .unlatch) =
        { s with outbox := s.outbox ++ [msgOf { task := T, via := 0 } p 8192 8 0 .unlatch] } :=
      (send_uncounted rfl rfl).trans (if_neg hp)
    rw [List.foldl_cons, hs, ih (s := { s with outbox := s.outbox ++ [msgOf { task := T, via := 0 } p 8192 8 0 .unlatch] }) hl]
    simp

theorem ne_pkg_of_others {p slot : Nat} (h : p ∈ s.others slot) : p ≠ s.pkg := by
  revert h
  fun_cases State.others
  · intro h
    simpa using (List.mem_filter.1 h).2
  · exact nofun

/-- A task's requests and latches go, here and by a message in the other packages of its gang. -/
theorem letGo_eq : ∃ l, s.letGo T = { s with
      net := s.net.filter fun m => !m.wantOf T
      outbox := (s.outbox.filter fun m => !m.wantOf T) ++
        (s.others T.slot).map fun p => msgOf { task := T, via := 0 } p 8192 8 0 .unlatch
      asked := s.asked.filter fun m => !m.wantOf T
      latches := l } ∧ ∀ x ∈ l, x.iss ≠ { task := T, via := 0 } := by
  let u : State := { s with
    net := s.net.filter fun m => !m.wantOf T, outbox := s.outbox.filter fun m => !m.wantOf T
    asked := s.asked.filter fun m => !m.wantOf T }
  obtain ⟨l, hl, hm⟩ := removeLatches_eq (s := u) fun l => l.iss == { task := T, via := 0 }
  have h : s.letGo T = ((u.removeLatches fun l => l.iss == { task := T, via := 0 }).others T.slot).foldl
      (fun s p => s.send (msgOf { task := T, via := 0 } p 8192 8 0 .unlatch)) (u.removeLatches fun l => l.iss == { task := T, via := 0 }) := rfl
  refine ⟨l, ?_, fun x hx => ?_⟩
  · rw [h, hl]
    exact unlatch_eq _ fun p hp => ne_pkg_of_others hp
  · obtain ⟨y, -, hp, he⟩ := hm x hx
    rw [← he]
    simpa using hp

theorem letGo_cores (T : TaskId) : (s.letGo T).cores = s.cores := by
  obtain ⟨l, h, -⟩ := letGo_eq (s := s) (T := T)
  rw [h]

end
end Sys2Proof.Machine
end

section
namespace Sys2Proof.Machine

/-! Cancel requests (R84, R207). -/

section
variable {s t : State} {n k : Nat} {m : Msg} {named : Ctx → Bool} {queued : Rec → Bool}

/-- Core `n` but for its steal request and its count of messages received, and the messages of the package. -/
def State.standing (s : State) (n : Nat) : CoreSt × List Msg := ({ s.core n with stealOut := false, recv := 0 }, s.net)

theorem setCore_standing {c : CoreSt}
    (h : ({ c with stealOut := false, recv := 0 } : CoreSt) = { s.core k with stealOut := false, recv := 0 }) :
    (s.setCore k c).standing n = s.standing n := by
  rw [State.standing, State.standing, core_setCore]
  split
  · next e =>
    subst e
    rw [h]
    rfl
  · rfl

theorem received_standing (i : Issuer) : (s.received i).standing n = s.standing n := by
  fun_cases State.received
  · exact setCore_standing rfl
  · rfl

theorem receivedAll_standing (m : Msg) : (s.receivedAll m).standing n = s.standing n := by
  fun_cases State.receivedAll
  · rw [foldl_keeps (fun s => s.standing n) fun _ _ => received_standing _, received_standing]
  · rfl

/-- Records in transit that are dropped leave a core's contexts and its deque as they are, and answer nobody. -/
theorem dropTransit_standing : ∃ l, (s.dropTransit queued).standing n = ({ s.core n with stealOut := false, recv := 0 }, l) ∧
    ((∀ k ∈ s.net, ∀ a, k.body ≠ .mreply a) → ∀ k ∈ l, ∀ a, k.body ≠ .mreply a) := by
  refine ⟨_, foldl_keeps (fun s => s.standing n) (fun u m => ?_) _ _, fun h k hk => ?_⟩
  · dsimp only
    split
    · exact (receivedAll_standing m).trans (setCore_standing rfl)
    · exact receivedAll_standing m
  · obtain ⟨m, hm, rfl⟩ := List.mem_map.1 hk
    have := h m (List.mem_filter.1 hm).1
    fun_cases State.flagStolen
    · exact fun a => nofun
    · exact this
    · exact this

/-- The contexts of a core whose tasks are named. -/
def CoreSt.hit (c : CoreSt) (named : Ctx → Bool) : List Nat :=
  [0, 1, 2, 3].filter fun i => decide ((c.ctx i).role = .task) && named (c.ctx i)

/-- Each listed context of a core changed. -/
def CoreSt.onCtxs (c : CoreSt) (l : List Nat) (f : Nat → Ctx → Ctx) : CoreSt := l.foldl (fun k i => k.setCtx i (f i (k.ctx i))) c

theorem onCtxs_eq (c : CoreSt) (l : List Nat) (f : Nat → Ctx → Ctx) : ∃ a, c.onCtxs l f = { c with ctxs := a } := by
  induction l generalizing c with
  | nil => exact ⟨_, rfl⟩
  | cons i l ih =>
    obtain ⟨a, h⟩ := ih (c.setCtx i (f i (c.ctx i)))
    exact ⟨a, h⟩

theorem onCtxs_ctx (c : CoreSt) {l : List Nat} (f : Nat → Ctx → Ctx) (hl : ∀ i ∈ l, i < 5) (hn : l.Nodup) (i : Nat) :
    (c.onCtxs l f).ctx i = if i ∈ l then f i (c.ctx i) else c.ctx i := by
  induction l generalizing c with
  | nil => rfl
  | cons j l ih =>
    obtain ⟨hj, hl⟩ := List.forall_mem_cons.1 hl
    obtain ⟨hjl, hn⟩ := List.nodup_cons.1 hn
    have h := ih (c.setCtx j (f j (c.ctx j))) hl hn
    rw [ctx_setCtx_core _ _ _ _ hj] at h
    refine Eq.trans h ?_
    by_cases e : i = j
    · subst e
      simp [hjl]
    · simp [e]

/-- What a cancel leaves of a core: the deque without the records that are named, and their tasks flagged. -/
theorem cancelCore_core : ∃ a b e, (s.cancelCore n named queued).core n =
    { (CoreSt.refilled { s.core n with
        deque := (s.core n).deque.filter fun r => !queued r
        overflow := (s.core n).overflow.filter fun r => !queued r }).onCtxs ((s.core n).hit named) (s.flag n) with
      stamps := a, saved := b, spilled := e } := by
  unfold State.cancelCore
  dsimp only
  have h (u : State) (l : List (Nat × Ctx)) : (l.foldl (fun s p => s.letGo (s.idOf n p.1 p.2)) u).core n = u.core n := by
    rw [State.core, foldl_keeps State.cores fun _ _ => letGo_cores _]
    rfl
  rw [h]
  exact ⟨_, _, _, core_setCore_same ..⟩

theorem cancelCore_queued : ((s.cancelCore n named queued).core n).queued = (s.core n).queued.filter fun r => !queued r := by
  obtain ⟨a, b, e, h⟩ := cancelCore_core (s := s) (n := n) (named := named) (queued := queued)
  obtain ⟨v, hv⟩ := onCtxs_eq (CoreSt.refilled { s.core n with
    deque := (s.core n).deque.filter fun r => !queued r
    overflow := (s.core n).overflow.filter fun r => !queued r }) ((s.core n).hit named) (s.flag n)
  rw [h, hv]
  exact (refilled_queued _).trans (List.filter_append _ _).symm

theorem cancelCore_ctxOf (i : Nat) : (s.cancelCore n named queued).ctxOf n i =
    if i ∈ (s.core n).hit named then s.flag n i (s.ctxOf n i) else s.ctxOf n i := by
  obtain ⟨a, b, e, h⟩ := cancelCore_core (s := s) (n := n) (named := named) (queued := queued)
  have hl : ∀ i ∈ (s.core n).hit named, i < 5 := fun i hi => by
    have := (List.mem_filter.1 hi).1
    simp only [List.mem_cons, List.not_mem_nil, or_false] at this
    omega
  have hn : ((s.core n).hit named).Nodup := List.Nodup.filter _ (by decide)
  obtain ⟨x, y, hxy⟩ := refilled_eq { s.core n with
    deque := (s.core n).deque.filter fun r => !queued r
    overflow := (s.core n).overflow.filter fun r => !queued r }
  rw [State.ctxOf, h]
  refine (onCtxs_ctx _ _ hl hn i).trans ?_
  rw [hxy]
  rfl

theorem mem_hit {c : CoreSt} {i : Nat} : i ∈ c.hit named ↔ i < 4 ∧ (c.ctx i).role = .task ∧ named (c.ctx i) = true := by
  simp only [CoreSt.hit, List.mem_filter, List.mem_cons, List.not_mem_nil, or_false, Bool.and_eq_true, decide_eq_true_eq]
  refine and_congr_left fun _ => ?_
  omega

/-! What a task becomes that is named. -/

section
variable {i : Nat} {x : Ctx}

theorem flag_flagged : (s.flag n i x).flagged = true := by
  fun_cases State.flag <;> rfl

theorem flag_of_over (h : s.overFor n i x = true) : (s.flag n i x).wait = x.wait := by
  unfold State.flag
  dsimp only
  rw [if_pos]
  simp [h]

/-- A task that waits for an answer which no message carries ends there. -/
theorem flag_unanswered (hw : x.wait = .answer) (hr : x.reply = none) (hn : ∀ k ∈ s.net, ∀ a, k.body ≠ .mreply a) :
    (s.flag n i x).wait = .cancelling := by
  have ho : s.overFor n i x = false := by simp [State.overFor, hw, hr]
  unfold State.flag
  dsimp only
  rw [if_neg]
  intro h
  obtain ((h | h) | h) | h := by simpa only [Bool.or_eq_true] using h
  · simp [hw, Wait.ending] at h
  · simp [Ctx.reserved, hr] at h
  · obtain ⟨k, hk, hb⟩ := List.any_eq_true.1 h
    have := hn k hk
    split at hb <;> simp_all
  · exact absurd (ho.symm.trans h) (by decide)

end

/-- CANCEL_REQUEST: the records that are named leave the deque, and their tasks are flagged. -/
theorem exec_cancelRequest {j exit slot : Nat} (hj : s.due j = some m) (hm : m.body = .cancel exit slot n) (hn : n ≠ allTiles)
    (ha : s.arbitrates n 3 = true) :
    let u := s.take j m
    let named := fun (e : Nat) => 2 ^ 48 ≤ exit ∨ e = exit
    ∃ t, exec (.cancelRequest j) s = .next t ∧
      (∀ r ∈ (t.core n).queued, ¬(r.slot = slot ∧ named r.exit)) ∧
      (∀ i, i < 4 → (u.ctxOf n i).role = .task → (u.ctxOf n i).slot = slot → named (u.ctxOf n i).exitc.toNat →
        (t.ctxOf n i).flagged = true ∧ ((u.ctxOf n i).wait = .none → (t.ctxOf n i).wait = .none) ∧
        ((u.ctxOf n i).wait = .answer → (u.ctxOf n i).reply = none → (∀ k ∈ u.net, ∀ a, k.body ≠ .mreply a) →
          (t.ctxOf n i).wait = .cancelling)) ∧
      (∀ i, i < 5 → ((u.ctxOf n i).slot ≠ slot ∨ ¬named (u.ctxOf n i).exitc.toNat) → t.ctxOf n i = u.ctxOf n i) := by
  intro u named
  let names : Nat → Bool := fun e => decide (2 ^ 48 ≤ exit) || e == exit
  have hnames (e : Nat) : names e = true ↔ named e := by simp [names, named]
  let p : Ctx → Bool := fun x => x.slot == slot && names x.exitc.toNat
  let q : Rec → Bool := fun r => r.slot == slot && names r.exit
  let w := u.arbitrated n 3
  have hw : w.core n = { u.core n with arbiter := (u.cycles.toNat, 3) } := core_setCore_same ..
  obtain ⟨l, hl, hm'⟩ := dropTransit_standing (s := w) (n := n) (queued := q)
  let v := w.dropTransit q
  obtain ⟨hvc, hvn⟩ := Prod.ext_iff.1 hl
  have hx (i : Nat) : v.ctxOf n i = u.ctxOf n i := by
    have := congrArg CoreSt.ctxs hvc
    rw [hw] at this
    rw [State.ctxOf, CoreSt.ctx, show (v.core n).ctxs = (u.core n).ctxs from this]
    rfl
  refine ⟨v.cancelCore n p q, ?_, fun r hr => ?_, fun i hi hr hs he => ?_, fun i _ h => ?_⟩
  · change execCancelRequest j s = _
    simp [execCancelRequest, hj, hm, hn, ha]
    rfl
  · rw [cancelCore_queued] at hr
    rintro ⟨hs, he⟩
    have hq : q r = true := Bool.and_eq_true_iff.2 ⟨beq_iff_eq.2 hs, (hnames _).2 he⟩
    simpa [hq] using (List.mem_filter.1 hr).2
  · have hmem : i ∈ (v.core n).hit p := mem_hit.2 ⟨hi, by
      change (v.ctxOf n i).role = .task ∧ p (v.ctxOf n i) = true
      rw [hx]
      simp [hr, p, hs, hnames, he]⟩
    rw [cancelCore_ctxOf, if_pos hmem, hx]
    refine ⟨flag_flagged, fun h0 => ?_, fun h0 hr0 hk => flag_unanswered h0 hr0 ?_⟩
    · rw [flag_of_over (by rw [State.overFor, h0]), h0]
    · rw [show v.net = l from hvn]
      exact hm' hk
  · rw [cancelCore_ctxOf, if_neg, hx]
    rw [mem_hit]
    change ¬(i < 4 ∧ (v.ctxOf n i).role = .task ∧ p (v.ctxOf n i) = true)
    rw [hx]
    simp only [p, Bool.and_eq_true, beq_iff_eq, hnames]
    tauto

end
end Sys2Proof.Machine
end

section
namespace Sys2Proof.Machine

/-! What the end of a task changes (R71, R338). -/

section
variable {s t : State} {n i q : Nat} {T : TaskId}

/-- The end of a task: its tally is counted, and what it holds is given up. -/
theorem endTask_eq (f : Tally → Tally) : ∃ z a b l c,
    s.endTask n i f = { s with slots := z, quads := a, units := b, latches := l, cores := c } ∧
    z = (s.onTally (s.ctxOf n i).slot n fun y => f (y.close (s.ctxOf n i).faults)).slots ∧
    ∀ x ∈ l, ∃ y ∈ s.latches, y.iss = x.iss := by
  let T := s.idOf n i (s.ctxOf n i)
  obtain ⟨z, hz⟩ := onTally_eq (s := s) (s.ctxOf n i).slot n fun y => f (y.close (s.ctxOf n i).faults)
  let u := ((s.onTally (s.ctxOf n i).slot n fun y => f (y.close (s.ctxOf n i).faults)).discardHeld T).unbindTask T
  let w := u.setQuad (quadOf n) ((u.quad (quadOf n)).leave T)
  obtain ⟨l, hl, hm⟩ := removeLatches_eq (s := w) fun l => l.iss.task == T && l.iss.via == 0
  have hw : ∃ a b, w = { s with slots := z, quads := a, units := b } := by
    simp only [w, u, hz]
    exact ⟨_, _, rfl⟩
  obtain ⟨a, b, hw⟩ := hw
  have he : ∃ c, s.endTask n i f = { w.removeLatches (fun l => l.iss.task == T && l.iss.via == 0) with cores := c } := ⟨_, rfl⟩
  obtain ⟨c, he⟩ := he
  refine ⟨z, a, b, l, c, ?_, ?_, fun x hx => ?_⟩
  · rw [he, hl, hw]
  · rw [hz]
  · obtain ⟨y, hy, -, hi⟩ := hm x hx
    rw [hw] at hy
    exact ⟨y, hy, hi⟩

theorem endTask_ctxOf (f : Tally → Tally) (hi : i < 5) : (s.endTask n i f).ctxOf n i = {} := by
  unfold State.endTask
  dsimp only
  rw [State.ctxOf, core_setCore_same, ctx_setCtx_core _ _ _ _ hi, if_pos rfl]

/-! The command of a slot. -/

theorem onCmd_map {β : Type} (g : Cmd → β) {k : Nat} {f : Cmd → Cmd} (hf : ∀ c, g (f c) = g c) :
    ((s.onCmd k f).slot q).cmd.map g = (s.slot q).cmd.map g := by
  by_cases e : q = k
  · subst e
    cases hc : (s.slot q).cmd with
    | none => rw [onCmd_of_none f hc, hc]
    | some c => rw [slot_onCmd f hc, Option.map_some, Option.map_some, hf]
  · rw [slot_onCmd_ne f e]

/-- A report does not change how many tasks have retired. -/
theorem report_retired (who : Issuer) (cause colour : Nat) (w : Word) :
    ((s.report who cause colour w).slot q).cmd.map (·.west.retired) = (s.slot q).cmd.map (·.west.retired) := by
  fun_cases State.report
  · rfl
  · next h => rw [State.slot, slots_of_seat (onTask_seat h)]; rfl
  · rfl
  · exact onCmd_map (s := s.bump _) (fun c => c.west.retired) fun c => by split <;> rfl

/-- What the west half of a command counts changes by what a task of that half adds. -/
theorem onTally_west {c : Cmd} {core : Nat} (f : Tally → Tally) (hc : (s.slot q).cmd = some c) (hm : s.inMirror q core = false) :
    ((s.onTally q core f).slot q).cmd = some { c with west := f c.west } := by
  unfold State.onTally
  dsimp only
  rw [slot_onCmd _ hc, hm]
  rfl

theorem endTask_west {c : Cmd} (f : Tally → Tally) (hc : (s.slot (s.ctxOf n i).slot).cmd = some c)
    (hm : s.inMirror (s.ctxOf n i).slot n = false) :
    ((s.endTask n i f).slot (s.ctxOf n i).slot).cmd = some { c with west := f (c.west.close (s.ctxOf n i).faults) } := by
  obtain ⟨z, a, b, l, k, he, hz, -⟩ := endTask_eq (s := s) (n := n) (i := i) f
  have h := onTally_west (fun y => f (y.close (s.ctxOf n i).faults)) hc hm
  rw [State.slot, ← hz] at h
  rw [he]
  exact h

/-! A page walk sees memory, the poison and the slots. -/

theorem walkFrom_congr (hm : t.mem = s.mem) (hp : t.poison = s.poison) (hk : t.pkg = s.pkg) (slot : Nat) (conf : Bool) (va : Nat)
    (levels : List Nat) (table : Nat) : t.walkFrom slot conf va levels table = s.walkFrom slot conf va levels table := by
  induction levels generalizing table with
  | nil => rfl
  | cons level rest ih => simp only [State.walkFrom, State.poisoned, hm, hp, hk, ih]

theorem inMirror_congr (hb : ∀ q, t.bare q = s.bare q) (slot tile : Nat) : t.inMirror slot tile = s.inMirror slot tile := by
  have h (u : State) : u.inMirror slot tile =
      (decide (16 ≤ tileX tile) && decide (tile < 2048) && ((u.bare slot).cmd.map (·.twin)).getD false) := by
    unfold State.inMirror State.bare
    cases (u.slot slot).cmd <;> rfl
  rw [h, h, hb]

theorem checkWalk_congr (hm : t.mem = s.mem) (hp : t.poison = s.poison) (hk : t.pkg = s.pkg) (hb : ∀ q, t.bare q = s.bare q)
    (slot group tile va : Nat) (align : TlbEntry → Nat) (k : AKind) :
    t.checkWalk slot group tile va align k = s.checkWalk slot group tile va align k := by
  have hr : t.rootOf slot = s.rootOf slot := by
    have h : (t.bare slot).qcb = (s.bare slot).qcb := by rw [hb]
    rw [State.rootOf, State.rootOf, show (t.slot slot).qcb = (s.slot slot).qcb from h]
  have hw : t.walk slot va = s.walk slot va := by
    simp only [State.walk, hr, hk, walkFrom_congr hm hp hk]
  have hc (e : TlbEntry) : t.checkPage slot group tile va align k e = s.checkPage slot group tile va align k e := by
    rw [State.checkPage, State.checkPage, State.twinTile, State.twinTile, inMirror_congr hb]
  simp only [State.checkWalk, hw, hc]

end
end Sys2Proof.Machine
end

section
namespace Sys2Proof.Machine

/-! TASK_RETIRE and TASK_FAILURE (R71, R84, R338, R342). -/

section
variable {s w : State} {n i q : Nat} {T : TaskId} {x : Ctx}

/-- The bump of an exit cell does nothing, or sends a message, or reports. -/
theorem bumpExit_cases {P : State → Prop} (h : P s) (hs : ∀ m, P (s.send m))
    (hr : ∀ who cause colour tval, P (s.report who cause colour tval)) : P (s.bumpExit T x) := by
  fun_cases State.bumpExit
  · exact h
  · exact hr ..
  · exact hr ..
  · exact h
  · exact hr ..
  · exact hs _

theorem bumpExit_of_zero (h : x.exitc = 0) : s.bumpExit T x = s := by
  unfold State.bumpExit
  dsimp only
  rw [h]
  exact if_pos rfl

/-- The bump of the exit cell of task `T`, which `p` names: a join of one (R71). -/
def State.exitBump (s : State) (T : TaskId) (x : Ctx) (p : Spot) : Msg :=
  { msgOf { task := T, via := 0 } p.pkg p.home x.colour x.group
      (.join p.pa x.exitc.toNat 6 p.e.width (natBytes (2 ^ p.e.width) 1) false) with
    lane := laneNumber s.pkg T.core T.ctx 0, key := s.keyOf T.slot p.e }

/-- An exit cell of a counter page gets its bump by a join. -/
theorem bumpExit_sends {p : Spot} (ha : 0x400000 ≤ x.exitc.toNat) (hp : p.e.ctype = 6)
    (hw : s.checkWalk T.slot x.group T.core x.exitc.toNat TlbEntry.exitAlign .own = .ok p) :
    s.bumpExit T x = s.send (s.exitBump T x p) := by
  have hl : isLocal x.exitc.toNat = false := by simpa [isLocal] using ha
  have h0 : x.exitc.toNat ≠ 0 := by omega
  unfold State.bumpExit
  simp only [if_neg h0, hl, Bool.false_eq_true, if_false, hw, hp, ne_eq, not_true_eq_false]
  rfl

/-! A task that retires. -/

/-- One more task has retired. -/
def Tally.oneMore (y : Tally) : Tally := { y with retired := satSucc 32 y.retired }

theorem retire_eq : w.retire n i = (w.endTask n i Tally.oneMore).bumpExit (w.idOf n i (w.ctxOf n i)) (w.ctxOf n i) := rfl

theorem retire_ctxOf (hi : i < 5) : (w.retire n i).ctxOf n i = {} := by
  have h := endTask_ctxOf (s := w) (n := n) Tally.oneMore hi
  rw [retire_eq]
  refine bumpExit_cases (P := fun t => t.ctxOf n i = {}) h (fun m => ?_) fun who cause colour tval => ?_
  · obtain ⟨k, hk⟩ := send_core (s := w.endTask n i Tally.oneMore) m n
    rw [State.ctxOf, hk]
    exact h
  · obtain e | ⟨hr, -⟩ := report_ctxOf (s := w.endTask n i Tally.oneMore) who cause colour tval n i
    · exact e.trans h
    · rw [h] at hr
      exact nomatch hr

theorem retire_mem : (w.retire n i).mem = w.mem := by
  obtain ⟨z, a, b, l, c, h, -, -⟩ := endTask_eq (s := w) (n := n) (i := i) Tally.oneMore
  have hm : (w.endTask n i Tally.oneMore).mem = w.mem := by rw [h]
  exact bumpExit_cases (P := fun t => t.mem = w.mem) hm (fun m => (send_mem ..).trans hm) fun _ _ _ _ => (report_mem ..).trans hm

/-- The task counts as retired in its half. -/
theorem retire_retired {c : Cmd} (hc : (w.slot (w.ctxOf n i).slot).cmd = some c) (hm : w.inMirror (w.ctxOf n i).slot n = false) :
    ∃ d, ((w.retire n i).slot (w.ctxOf n i).slot).cmd = some d ∧ d.west.retired = min (c.west.retired + 1) (2 ^ 32 - 1) := by
  have h : ((w.endTask n i Tally.oneMore).slot (w.ctxOf n i).slot).cmd.map (·.west.retired) =
      some (min (c.west.retired + 1) (2 ^ 32 - 1)) := by
    rw [endTask_west _ hc hm]
    rfl
  refine Option.map_eq_some_iff.1 (bumpExit_cases (P := fun t => (t.slot (w.ctxOf n i).slot).cmd.map (·.west.retired) =
    some (min (c.west.retired + 1) (2 ^ 32 - 1))) h (fun m => ?_) fun _ _ _ _ => (report_retired ..).trans h)
  rw [State.slot, slots_of_seat (send_seat m)]
  exact h

/-- Without an exit cell no message leaves. -/
theorem retire_silent (h : (w.ctxOf n i).exitc = 0) : (w.retire n i).net = w.net ∧ (w.retire n i).outbox = w.outbox := by
  obtain ⟨z, a, b, l, c, he, -, -⟩ := endTask_eq (s := w) (n := n) (i := i) Tally.oneMore
  have hr : w.retire n i = w.endTask n i Tally.oneMore := bumpExit_of_zero h
  rw [hr, he]
  exact ⟨rfl, rfl⟩

/-- The bump of the exit cell leaves. -/
theorem retire_bumps {p : Spot} (ha : 0x400000 ≤ (w.ctxOf n i).exitc.toNat) (hp : p.e.ctype = 6)
    (hc : w.checkWalk (w.ctxOf n i).slot (w.ctxOf n i).group n (w.ctxOf n i).exitc.toNat TlbEntry.exitAlign .own = .ok p) :
    OnWay (w.retire n i) (w.exitBump (w.idOf n i (w.ctxOf n i)) (w.ctxOf n i) p) := by
  obtain ⟨z, a, b, l, c, he, -, -⟩ := endTask_eq (s := w) (n := n) (i := i) Tally.oneMore
  have hw := (checkWalk_congr (t := w.endTask n i Tally.oneMore) (s := w) (by rw [he]) (by rw [he]) (by rw [he])
    (fun _ => endTask_bare ..) ..).trans hc
  have hm (T : TaskId) (x : Ctx) : (w.endTask n i Tally.oneMore).exitBump T x p = w.exitBump T x p := by
    rw [he]
    rfl
  rw [retire_eq, bumpExit_sends (T := w.idOf n i (w.ctxOf n i)) ha hp hw, hm]
  exact send_onWay _

/-! What is open surfaces first (R342). -/

theorem surface_quiet {m : Nat} (hc : s.curCtx < 5)
    (h : s.ctx.inh = true ∨ s.ctx.faults.openIn (m % 256 + 256) = [] ∨ s.me.tvec = 0) :
    (s.surface m).2 = none ∧ ∃ c y, (s.surface m).1 = { s with cores := c } ∧ (s.surface m).1.ctx = { s.ctx with faults := y } := by
  fun_cases State.surface
  case case3 hi cause row l ho =>
    obtain h | h | h := h
    · exact absurd h hi
    · exact nomatch ho.symm.trans h
    · exact ⟨if_pos h, _, _, rfl, ctx_setCtx_same _ _ hc⟩
  all_goals exact ⟨rfl, _, _, rfl, rfl⟩

theorem surface_opens {m cause : Nat} {row : FaultRow} {l : List (Nat × FaultRow)} (hi : s.ctx.inh = false)
    (ho : s.ctx.faults.openIn (m % 256 + 256) = (cause, row) :: l) (ht : s.me.tvec ≠ 0) :
    s.surface m = (s.setCtx { s.ctx with faults := s.ctx.faults.close (m % 256 + 256) }, some (cause, row.low)) := by
  unfold State.surface
  dsimp only
  rw [hi, ho, if_neg Bool.false_ne_true]
  exact congrArg (Prod.mk _) (if_neg ht)

/-- A trap handler runs from the entry of a trap on (R336). -/
theorem enter_inh (c : Ctx) (tvec : Word) (cause : Nat) (tval resume : Word) : (c.enter tvec cause tval resume).inh = true := by
  simp [Ctx.enter, Ctx.inh, Word.putField]

/-- A task with a handler enters it (R336). -/
theorem trap_task {cause : Nat} {tval : Word} (hr : s.ctx.role = .task) (hi : s.ctx.inh = false) (ht : s.me.tvec ≠ 0) :
    s.trap cause tval = (s.bump (0x0A90 + 8 * cause)).setCtx (s.ctx.enter s.me.tvec cause tval s.ctx.pc) := by
  unfold State.trap State.trapAt
  dsimp only
  rw [hr, hi]
  refine if_neg ?_
  change ¬(false || s.me.tvec == 0) = true
  simpa using ht

end
end Sys2Proof.Machine
end

section
namespace Sys2Proof.Machine

/-! A task that ends (R71, R84, R338, R342, R348). -/

section
variable {s : State} {n i : Nat}

/-- A task with writes to apply, and one on a halted core, stays where it is. -/
theorem exec_taskEnd_waits (h : s.owes (ofTask (s.idOf n i (s.ctxOf n i))) 0x1FF = true ∨ (s.core n).halted = true) :
    exec (.taskRetire n i) s = .next s ∧ exec (.taskFailure n i) s = .next s := by
  refine ⟨?_, ?_⟩
  · change execTaskRetire n i s = _
    obtain h | h := h <;> simp [execTaskRetire, h]
  · change execTaskFailure n i s = _
    obtain h | h := h <;> simp [execTaskFailure, h]

variable (ho : s.owes (ofTask (s.idOf n i (s.ctxOf n i))) 0x1FF = false) (hh : (s.core n).halted = false)
include ho hh

/-- TASK_FAILURE: the failure is recorded, and the context is free. -/
theorem exec_taskFailure {f : Failure} (hi : i < 5) (hw : (s.ctxOf n i).wait = .failing f) :
    ∃ t, exec (.taskFailure n i) s = .next t ∧ t.ctxOf n i = {} ∧ t.net = s.net ∧ t.mem = s.mem ∧
      ∀ c, (s.slot (s.ctxOf n i).slot).cmd = some c → s.inMirror (s.ctxOf n i).slot n = false →
        ∃ d, (t.slot (s.ctxOf n i).slot).cmd = some d ∧ d.west.failed = min (c.west.failed + 1) (2 ^ 16 - 1) ∧
          d.west.worst = worseFailure c.west.worst (some f) := by
  let x : Ctx := { s.ctxOf n i with faults := { (s.ctxOf n i).faults with failure := some f } }
  let u := s.setCtxOf n i x
  have hx : u.ctxOf n i = x := (core_setCtxOf_ctx _ _ _ _ _ _ hi).trans (if_pos ⟨rfl, rfl⟩)
  obtain ⟨z, a, b, l, k, he, -, -⟩ := endTask_eq (s := u) (n := n) (i := i) id
  refine ⟨u.endTask n i id, ?_, endTask_ctxOf id hi, by rw [he]; rfl, by rw [he]; rfl, fun c hc hm => ?_⟩
  · change execTaskFailure n i s = _
    unfold execTaskFailure
    dsimp only
    rw [ho, hh, if_neg (by decide)]
    split
    · next g hg =>
      obtain rfl := Wait.failing.inj (hw.symm.trans hg)
      rfl
    · next hn => exact absurd hw (hn f)
  · have h := endTask_west (s := u) (n := n) (i := i) id (c := c)
    rw [hx] at h
    exact ⟨_, h hc hm, rfl, rfl⟩

variable (hr : (s.ctxOf n i).role = .task)
include hr

theorem exec_taskRetire_done (hw : (s.ctxOf n i).wait = .doneWrites) {v w : State} {o : Option (Nat × Word)}
    (hv : v = { s with cur := n, curCtx := i }) (hs : v.surface 0xFF = (w, o)) :
    exec (.taskRetire n i) s = .next { (match o with
      | some (cause, tval) => w.trap cause tval
      | none => w.retire n i) with cur := s.cur, curCtx := s.curCtx } := by
  subst hv
  change execTaskRetire n i s = _
  simp only [execTaskRetire, ho, hr, hh, hw, State.atCtx, hs]
  cases o <;> rfl

/-- TASK_RETIRE of a task with an open report and a handler: the report traps. -/
theorem exec_taskRetire_traps {cause : Nat} {row : FaultRow} {l : List (Nat × FaultRow)} (hi : i < 5)
    (hw : (s.ctxOf n i).wait = .doneWrites) (hn : (s.ctxOf n i).inh = false)
    (hf : (s.ctxOf n i).faults.openIn 0x1FF = (cause, row) :: l) (ht : (s.core n).tvec ≠ 0) :
    ∃ t, exec (.taskRetire n i) s = .next t ∧ (t.ctxOf n i).pc = (s.core n).tvec ∧
      (t.ctxOf n i).tcause = BitVec.ofNat 64 cause ∧ (t.ctxOf n i).tval = row.low ∧ (t.ctxOf n i).inh = true := by
  let v : State := { s with cur := n, curCtx := i }
  let y : Ctx := { s.ctxOf n i with faults := (s.ctxOf n i).faults.close (0xFF % 256 + 256) }
  let w := v.setCtx y
  have hs : v.surface 0xFF = (w, some (cause, row.low)) := surface_opens hn hf ht
  have hx : w.ctx = y := ctx_setCtx_same v y hi
  have hv : w.me.tvec = (s.core n).tvec := by
    rw [State.me, show w.core w.cur = (s.core n).setCtx i y from core_setCore_same ..]
    rfl
  have hwt : w.trap cause row.low = _ := trap_task (hx ▸ hr) (hx ▸ hn) (by rw [hv]; exact ht)
  have hc : (w.trap cause row.low).ctxOf n i = y.enter (s.core n).tvec cause row.low y.pc := by
    rw [hwt, hx, hv]
    exact (core_setCtxOf_ctx _ _ _ _ _ _ hi).trans (if_pos ⟨rfl, rfl⟩)
  refine ⟨_, exec_taskRetire_done ho hh hr hw rfl hs, ?_⟩
  change ((w.trap cause row.low).ctxOf n i).pc = _ ∧ ((w.trap cause row.low).ctxOf n i).tcause = _ ∧
    ((w.trap cause row.low).ctxOf n i).tval = _ ∧ ((w.trap cause row.low).ctxOf n i).inh = true
  rw [hc]
  exact ⟨rfl, rfl, rfl, enter_inh ..⟩

/-- TASK_RETIRE of a task with nothing to surface: its context is free, it counts as retired, and its exit cell is bumped. -/
theorem exec_taskRetire_retires (hi : i < 5) (hw : (s.ctxOf n i).wait = .doneWrites)
    (hq : (s.ctxOf n i).inh = true ∨ (s.ctxOf n i).faults.openIn 0x1FF = [] ∨ (s.core n).tvec = 0) :
    let x := s.ctxOf n i
    let T := s.idOf n i x
    ∃ t, exec (.taskRetire n i) s = .next t ∧ t.ctxOf n i = {} ∧ t.mem = s.mem ∧
      (∀ c, (s.slot x.slot).cmd = some c → s.inMirror x.slot n = false →
        ∃ d, (t.slot x.slot).cmd = some d ∧ d.west.retired = min (c.west.retired + 1) (2 ^ 32 - 1)) ∧
      (x.exitc = 0 → t.net = s.net ∧ t.outbox = s.outbox) ∧
      (∀ p, 0x400000 ≤ x.exitc.toNat → p.e.ctype = 6 →
        s.checkWalk x.slot x.group n x.exitc.toNat TlbEntry.exitAlign .own = .ok p →
        OnWay t { msgOf { task := T, via := 0 } p.pkg p.home x.colour x.group
          (.join p.pa x.exitc.toNat 6 p.e.width (natBytes (2 ^ p.e.width) 1) false) with
            lane := laneNumber s.pkg n i 0, key := s.keyOf x.slot p.e }) := by
  intro x T
  let v : State := { s with cur := n, curCtx := i }
  obtain ⟨hnone, c, y, hc, hy⟩ := surface_quiet (s := v) (m := 0xFF) hi hq
  obtain ⟨w, hvw⟩ : ∃ w, v.surface 0xFF = (w, none) := ⟨(v.surface 0xFF).1, Prod.ext rfl hnone⟩
  rw [hvw] at hc hy
  dsimp only at hc hy
  have hwx : w.ctxOf n i = { x with faults := y } := by
    rw [State.ctx, hc] at hy
    rw [hc]
    exact hy
  have hslots : w.slots = s.slots := by rw [hc]
  have hmem : w.mem = s.mem := by rw [hc]
  have hnet : w.net = s.net ∧ w.outbox = s.outbox := by rw [hc]; exact ⟨rfl, rfl⟩
  have hbare (q : Nat) : w.bare q = s.bare q := by
    rw [State.bare, State.slot, hslots]
    rfl
  have hpkg : w.pkg = s.pkg := by rw [hc]
  have hbump (T : TaskId) (z : Ctx) (p : Spot) : w.exitBump T z p = s.exitBump T z p := by
    rw [hc]
    rfl
  have hid : w.idOf n i { x with faults := y } = T := by
    rw [State.idOf, hpkg]
    rfl
  refine ⟨_, exec_taskRetire_done ho hh hr hw rfl hvw, retire_ctxOf hi, retire_mem.trans hmem, fun k hk hm => ?_, fun h0 => ?_,
    fun p ha hp hck => ?_⟩
  · have h := retire_retired (w := w) (n := n) (i := i) (c := k)
    rw [hwx] at h
    refine h ?_ ?_
    · rw [State.slot, hslots]
      exact hk
    · exact (inMirror_congr hbare ..).trans hm
  · have h := retire_silent (w := w) (n := n) (i := i) (by rw [hwx]; exact h0)
    exact ⟨h.1.trans hnet.1, h.2.trans hnet.2⟩
  · have h := retire_bumps (w := w) (n := n) (i := i) (p := p)
    rw [hwx] at h
    have h := h ha hp ((checkWalk_congr hmem (by rw [hc]) hpkg hbare ..).trans hck)
    rw [hid, hbump] at h
    exact h

/-- TASK_RETIRE of a cancelled task: it waits at no home any more, and its context is free. -/
theorem exec_taskRetire_cancels (hi : i < 5) (hw : (s.ctxOf n i).wait = .cancelling) :
    let x := s.ctxOf n i
    let T := s.idOf n i x
    ∃ t, exec (.taskRetire n i) s = .next t ∧ t.ctxOf n i = {} ∧ t.mem = s.mem ∧
      (∀ m ∈ t.net, m ∈ s.net) ∧ (∀ m ∈ s.net, m ∉ t.net → m.iss = { task := T, via := 0 } ∧ m.body.fenced = false) ∧
      (∀ l ∈ t.latches, l.iss ≠ { task := T, via := 0 }) ∧
      ∀ p ∈ s.others x.slot, OnWay t (msgOf { task := T, via := 0 } p 8192 8 0 .unlatch) := by
  intro x T
  obtain ⟨l, hl, hgone⟩ := letGo_eq (s := s) (T := T)
  obtain ⟨z, a, b, k, c, he, -, hk⟩ := endTask_eq (s := s.letGo T) (n := n) (i := i) id
  have hnet : ((s.letGo T).endTask n i id).net = s.net.filter fun m => !m.wantOf T := by rw [he, hl]
  have hout : ((s.letGo T).endTask n i id).outbox = (s.outbox.filter fun m => !m.wantOf T) ++
      (s.others x.slot).map fun p => msgOf { task := T, via := 0 } p 8192 8 0 .unlatch := by
    rw [he, hl]
    rfl
  refine ⟨(s.letGo T).endTask n i id, ?_, endTask_ctxOf id hi, by rw [he, hl], fun m hm => ?_, fun m hm hn => ?_, fun y hy => ?_,
    fun p hp => ⟨[], .inr ?_⟩⟩
  · change execTaskRetire n i s = _
    simp only [execTaskRetire, ho, hr, hh, hw]
    rfl
  · rw [hnet] at hm
    exact (List.mem_filter.1 hm).1
  · rw [hnet, List.mem_filter] at hn
    exact wantOf_iff (by simpa [hm] using hn)
  · rw [he] at hy
    obtain ⟨y', hy', hi'⟩ := hk y hy
    rw [hl] at hy'
    exact hi' ▸ hgone y' hy'
  · rw [hout]
    exact List.mem_append_right _ (List.mem_map_of_mem hp)

end

/-- Settles O43: each step by the lemma that says what it does. -/
theorem taskSteps : Obligations.TaskSteps := by
  refine ⟨fun s n i hh => ⟨fun r d hn hf hd ha => ?newest, fun k p => exec_taskStart_restores hh⟩, fun s n i hi => ?_,
    fun s n d v => exec_stealBackoff, fun s j m hj => ?_, fun s n i hw hi => ⟨fun k r d => exec_spill_place hw hi, exec_spill_noPlace hw hi⟩⟩
  case newest =>
    obtain ⟨hm, hq, -, hx⟩ := startNewest_effect hd ((freeCtx_eq_some hf).trans (by decide))
    exact ⟨_, exec_taskStart_newest hh hn hf ha, hm, hq, hx ▸ freshTask_registers _⟩
  · have hi5 : i < 5 := hi.trans (by decide)
    exact ⟨exec_taskEnd_waits, fun ho hh hr => ⟨fun hw hq => exec_taskRetire_retires ho hh hr hi5 hw hq,
      fun cause row l hw hn hf ht => exec_taskRetire_traps ho hh hr hi5 hw hn hf ht, exec_taskRetire_cancels ho hh hr hi5,
      fun f => exec_taskFailure ho hh hi5⟩⟩
  · refine ⟨fun thief v d k hm hh hb ha => ⟨fun l r l' hq hr hl hc => exec_stealRequest_gives hj hm hh hb ha hq hr hl hc,
        exec_stealRequest_refuses hj hm hh hb ha⟩,
      fun thief v d k w e hm hx hlt => exec_stealRequest_waits hj hm (servedBefore_of_mem hx hlt),
      fun thief r k hm => exec_stolenRecord hj hm, fun thief hm => exec_stealRefusal hj hm,
      fun r place hm => exec_spawnatWalk_waits hj hm, fun r place hm ha hw => ?walk,
      fun exit slot n hm hn ha => exec_cancelRequest hj hm hn ha⟩
    case walk =>
      have he := exec_spawnatWalk hj hm ha hw
      refine ⟨fun i h hc hf => ⟨_, he, walkAt_starts _ h hc hf⟩, fun h hp => ⟨_, he, ?_⟩,
        fun h hp ht hs hl => ⟨_, he, walkAt_enqueues _ h hp ht hs hl⟩⟩
      rw [walkAt_passes _ h hp, ← take_walk_pkg (j := j) hm]
      rfl

end Sys2Proof.Machine
end

section
/-! SUPPORT. What the decoder answers is what the encoder encodes (R92-R104): a rule for each combinator of the decoder, then a
lemma for each major opcode. -/

-- One proof after another: those that wait for the equations of `encode` would each hold a thread's stack.
set_option Elab.async false

namespace Sys2Proof

/-- An instruction that a decoder answers for the body `b` of major opcode `maj` encodes to that body's word. -/
def EncodesTo (h : Head) (maj : BitVec 6) (b : Body) (x : Decoded) : Prop := ∀ i, x = .ok i → encode i = some (word h maj b)

section
variable {h : Head} {maj : BitVec 6} {b : Body}

@[simp] theorem encodesTo_ok {i : Instr} : EncodesTo h maj b (.ok i) ↔ encode i = some (word h maj b) :=
  ⟨fun e => e i rfl, fun e j hj => by cases hj; exact e⟩

@[simp] theorem encodesTo_error (e : DecodeError) : EncodesTo h maj b (.error e) := fun _ hi => nomatch hi

@[simp] theorem encodesTo_zero {n : Nat} {f : BitVec n} {x : Decoded} :
    EncodesTo h maj b (zero f x) ↔ (f = 0#n → EncodesTo h maj b x) := by
  unfold zero
  split
  · next hf => simp [hf]
  · next hf => simp [hf]

@[simp] theorem encodesTo_inFile3 {r : Reg} {x : BitVec 3 → Decoded} :
    EncodesTo h maj b (inFile3 r x) ↔ ∀ r' : BitVec 3, r = r'.setWidth 5 → EncodesTo h maj b (x r') := by
  refine ⟨fun e r' hr => by rwa [hr, inFile3_setWidth] at e, fun e => ?_⟩
  unfold inFile3
  split
  · exact e _ (BitVec.eq_of_toNat_eq (by simp; omega))
  · exact encodesTo_error _

@[simp] theorem encodesTo_inFile2 {r : Reg} {x : BitVec 2 → Decoded} :
    EncodesTo h maj b (inFile2 r x) ↔ ∀ r' : BitVec 2, r = r'.setWidth 5 → EncodesTo h maj b (x r') := by
  refine ⟨fun e r' hr => by rwa [hr, inFile2_setWidth] at e, fun e => ?_⟩
  unfold inFile2
  split
  · exact e _ (BitVec.eq_of_toNat_eq (by simp; omega))
  · exact encodesTo_error _

@[simp] theorem encodesTo_unmarked {x : Decoded} : EncodesTo h maj b (unmarked h x) ↔ (h.sw = false → EncodesTo h maj b x) := by
  unfold unmarked
  split
  · next hs => simp [hs]
  · next hs => simp [hs]

end

/-! Every body has each of the formats (R95): the format's fields, put together, are the body. -/

theorem bodyR_fields (b : Body) : bodyR b.rd b.rs1 b.rs2 b.fn7 = b := by
  unfold bodyR Body.rd Body.rs1 Body.rs2 Body.fn7
  ext i hi
  simp
  grind

@[simp] theorem bodyI_fields (b : Body) : bodyI b.rd b.rs1 b.imm12 = b := by
  unfold bodyI Body.rd Body.rs1 Body.imm12
  ext i hi
  simp
  grind

@[simp] theorem bodyU_fields (b : Body) : bodyU b.rd b.imm17 = b := by
  unfold bodyU Body.rd Body.imm17
  ext i hi
  simp
  grind

theorem bodyV_fields (b : Body) : bodyV b.rd b.rs1 b.rs2 b.k b.fn4 = b := by
  unfold bodyV Body.rd Body.rs1 Body.rs2 Body.k Body.fn4
  ext i hi
  simp
  grind

@[simp] theorem bodyLoop_fields (b : Body) (h : b.extractLsb' 12 4 = 0#4) :
    bodyLoop (b.extractLsb' 21 1) (b.extractLsb' 16 5) b.imm12 = b := by
  unfold bodyLoop Body.imm12
  rw [← h]
  ext i hi
  simp
  grind

@[simp] theorem bodyLoopi_fields (b : Body) : bodyLoopi (b.extractLsb' 21 1) (b.extractLsb' 12 9) b.imm12 = b := by
  unfold bodyLoopi Body.imm12
  ext i hi
  simp
  grind

@[simp] theorem bodyRep_fields (b : Body) (h : b.extractLsb' 0 6 = 0#6) :
    bodyRep (b.extractLsb' 18 4) (b.extractLsb' 12 6) (b.extractLsb' 10 2) (b.extractLsb' 8 2) (b.extractLsb' 6 2) = b := by
  unfold bodyRep
  rw [← h]
  ext i hi
  simp
  grind

@[simp] theorem bodyI_rs1_zero (b : Body) (h : b.rs1 = 0#5) : bodyI b.rd 0#5 b.imm12 = b := h ▸ bodyI_fields b

@[simp] theorem bodyI_rd_zero (b : Body) (h : b.rd = 0#5) : bodyI 0#5 b.rs1 b.imm12 = b := h ▸ bodyI_fields b

@[simp] theorem bodyV_rs2_zero (b : Body) (h : b.rs2 = 0#5) : bodyV b.rd b.rs1 0#5 b.k b.fn4 = b := h ▸ bodyV_fields b

@[simp] theorem thr_fields (b : Body) (h : b.fn7.extractLsb' 3 4 = 0#4) :
    bodyR b.rd b.rs1 b.rs2 (0#4 ++ b.fn7.extractLsb' 0 3) = b := by
  have hf : 0#4 ++ b.fn7.extractLsb' 0 3 = b.fn7 := by
    rw [← h]
    ext i hi
    simp
    grind
  rw [hf, bodyR_fields]

@[simp] theorem brp_fields (b : Body) {p : BitVec 3} (hp : b.rd = p.setWidth 5) (h : b.rs1.extractLsb' 1 4 = 0#4) :
    bodyI (p.setWidth 5) (0#4 ++ b.rs1.extractLsb' 0 1) b.imm12 = b := by
  have ha : 0#4 ++ b.rs1.extractLsb' 0 1 = b.rs1 := by
    rw [← h]
    ext i hi
    simp
    grind
  rw [ha, ← hp, bodyI_fields]

@[simp] theorem hcall_fields (i : BitVec 12) : i.extractLsb' 4 8 ++ i.extractLsb' 1 3 ++ i.extractLsb' 0 1 = i := by
  ext i hi
  simp
  grind

theorem bodyFmt_fields (b : Body) (h : b.extractLsb' 0 4 = 0#4) :
    bodyFmt (b.extractLsb' 18 4) (b.extractLsb' 14 4) (b.extractLsb' 11 3) (b.extractLsb' 8 3) (b.extractLsb' 7 1)
      (b.extractLsb' 5 2) (b.extractLsb' 4 1) = b := by
  unfold bodyFmt
  rw [← h]
  ext i hi
  simp
  grind

/-- An FMT has no head of its own: its guard code and its marker are zero (R94, R97). -/
theorem word_fmt_fields (h : Head) (b : Body) (hz : b.extractLsb' 0 4 = 0#4) (hg : h.g = 0#3) (hs : h.sw = false) :
    word Head.plain 0x32#6 (bodyFmt (b.extractLsb' 18 4) (b.extractLsb' 14 4) (b.extractLsb' 11 3) (b.extractLsb' 8 3)
      (b.extractLsb' 7 1) (b.extractLsb' 5 2) (b.extractLsb' 4 1)) = word h 0x32#6 b := by
  obtain ⟨sw, g⟩ := h
  subst hg hs
  rw [bodyFmt_fields b hz]
  rfl

theorem word_fields (w : Insn) : word (Insn.head w) (w.extractLsb' 22 6) (w.extractLsb' 0 22) = w := by
  unfold word Insn.head
  ext i hi
  simp
  grind

theorem bodyR_cases {P : Body → Prop}
    (fields : ∀ (d a c : Reg) (n : Nat), (bodyR d a c (BitVec.ofNat 7 n)).fn7.toNat = n → P (bodyR d a c (BitVec.ofNat 7 n)))
    (b : Body) : P b := by
  have h := fields b.rd b.rs1 b.rs2 b.fn7.toNat
  rw [BitVec.ofNat_toNat, BitVec.setWidth_eq, bodyR_fields] at h
  exact h rfl

theorem bodyV_cases {P : Body → Prop}
    (fields : ∀ (d a c : Reg) (k : BitVec 3) (n : Nat), (bodyV d a c k (BitVec.ofNat 4 n)).fn4.toNat = n →
      P (bodyV d a c k (BitVec.ofNat 4 n))) (b : Body) : P b := by
  have h := fields b.rd b.rs1 b.rs2 b.k b.fn4.toNat
  rw [BitVec.ofNat_toNat, BitVec.setWidth_eq, bodyV_fields] at h
  exact h rfl

/-! The major opcodes with a function field. -/

section
variable (h : Head) (b : Body)

@[simp] theorem encodesTo_decMisc : EncodesTo h 0x00#6 b (decMisc h b) := by
  cases b using bodyR_cases with | _ d a c n hn
  unfold decMisc
  rw [hn]
  split <;> simp +contextual [encode]

@[simp] theorem encodesTo_decAlu : EncodesTo h 0x01#6 b (decAlu h b) := by
  cases b using bodyR_cases with | _ d a c n hn
  unfold decAlu
  rw [hn]
  split <;> simp +contextual [encode]

@[simp] theorem encodesTo_decMulDiv : EncodesTo h 0x02#6 b (decMulDiv h b) := by
  cases b using bodyR_cases with | _ d a c n hn
  unfold decMulDiv
  rw [hn]
  split <;> simp [encode]

@[simp] theorem encodesTo_decLatc : EncodesTo h 0x1C#6 b (decLatc h b) := by
  cases b using bodyR_cases with | _ d a c n hn
  unfold decLatc
  rw [hn]
  split <;> simp +contextual [encode]

@[simp] theorem encodesTo_decPred : EncodesTo h 0x2A#6 b (decPred h b) := by
  cases b using bodyR_cases with | _ d a c n hn
  unfold decPred
  rw [hn]
  split <;> simp +contextual [encode]

@[simp] theorem encodesTo_decTask : EncodesTo h 0x2B#6 b (decTask h b) := by
  cases b using bodyR_cases with | _ d a c n hn
  unfold decTask
  rw [hn]
  split <;> simp +contextual [encode]

@[simp] theorem encodesTo_decHmsg : EncodesTo h 0x2E#6 b (decHmsg h b) := by
  cases b using bodyR_cases with | _ d a c n hn
  unfold decHmsg
  rw [hn]
  split <;> simp +contextual [encode]

@[simp] theorem encodesTo_decQue : EncodesTo h 0x33#6 b (decQue h b) := by
  cases b using bodyR_cases with | _ d a c n hn
  unfold decQue
  rw [hn]
  split <;> simp +contextual [encode]

@[simp] theorem encodesTo_decVfa : EncodesTo h 0x34#6 b (decVfa h b) := by
  cases b using bodyV_cases with | _ d a c k n hn
  unfold decVfa
  rw [hn]
  split <;> simp +contextual [encode]

@[simp] theorem encodesTo_decVia : EncodesTo h 0x35#6 b (decVia h b) := by
  cases b using bodyV_cases with | _ d a c k n hn
  unfold decVia
  rw [hn]
  split <;> simp +contextual [encode]

@[simp] theorem encodesTo_decVcmp : EncodesTo h 0x36#6 b (decVcmp h b) := by
  cases b using bodyV_cases with | _ d a c k n hn
  unfold decVcmp
  rw [hn]
  split <;> simp +contextual [encode]

@[simp] theorem encodesTo_decVperm : EncodesTo h 0x37#6 b (decVperm h b) := by
  cases b using bodyV_cases with | _ d a c k n hn
  unfold decVperm
  rw [hn]
  split <;> simp +contextual [encode]

@[simp] theorem encodesTo_decVred : EncodesTo h 0x39#6 b (decVred h b) := by
  cases b using bodyV_cases with | _ d a c k n hn
  unfold decVred
  rw [hn]
  split <;> simp +contextual [encode]

@[simp] theorem encodesTo_decKop : EncodesTo h 0x3A#6 b (decKop h b) := by
  cases b using bodyV_cases with | _ d a c k n hn
  unfold decKop
  rw [hn]
  split <;> simp +contextual [encode]

@[simp] theorem encodesTo_decGbp : EncodesTo h 0x3B#6 b (decGbp h b) := by
  cases b using bodyV_cases with | _ d a c k n hn
  unfold decGbp
  rw [hn]
  split <;> simp +contextual [encode]

@[simp] theorem encodesTo_decMtx : EncodesTo h 0x3C#6 b (decMtx h b) := by
  cases b using bodyR_cases with | _ d a c n hn
  unfold decMtx
  rw [hn]
  split <;> simp +contextual [encode]

@[simp] theorem encodesTo_decNb : EncodesTo h 0x3D#6 b (decNb h b) := by
  cases b using bodyR_cases with | _ d a c n hn
  unfold decNb
  rw [hn]
  split <;> simp +contextual [encode]

@[simp] theorem encodesTo_decCpy : EncodesTo h 0x3E#6 b (decCpy h b) := by
  cases b using bodyR_cases with | _ d a c n hn
  unfold decCpy
  rw [hn]
  split <;> simp +contextual [encode]

/-! Those whose function stands in a field of its own. -/

variable {h b}

theorem encodesTo_shift {i : Instr} {o : BitVec 2} (ho : b.imm12.extractLsb' 10 2 = o)
    (he : encode i = some (word h 0x07 (bodyI b.rd b.rs1 (o ++ 0#4 ++ b.imm12.extractLsb' 0 6)))) :
    EncodesTo h 0x07#6 b (zero (b.imm12.extractLsb' 6 4) (.ok i)) := by
  rw [encodesTo_zero, encodesTo_ok, he]
  intro hz
  have hi : o ++ 0#4 ++ b.imm12.extractLsb' 0 6 = b.imm12 := by
    rw [← ho, ← hz]
    ext i hi
    simp
    grind
  rw [hi, bodyI_fields]
  rfl

theorem encodesTo_index {i : Instr} {c : BitVec 2} (hc : b.fn7.extractLsb' 0 2 = c)
    (he : encode i = some (word h 0x19 (bodyR b.rd b.rs1 b.rs2 (b.fn7.extractLsb' 4 3 ++ b.fn7.extractLsb' 2 2 ++ c)))) :
    EncodesTo h 0x19#6 b (.ok i) := by
  have hf : b.fn7.extractLsb' 4 3 ++ b.fn7.extractLsb' 2 2 ++ c = b.fn7 := by
    rw [← hc]
    ext i hi
    simp
    grind
  rw [encodesTo_ok, he, hf, bodyR_fields]
  rfl

theorem encodesTo_fence {i : Instr} {k : BitVec 4} (hk : b.imm12.extractLsb' 8 4 = k)
    (he : encode i = some (word h 0x1D (bodyI 0 0 (k ++ b.imm12.extractLsb' 0 8)))) :
    EncodesTo h 0x1D#6 b (zero b.rd <| zero b.rs1 <| .ok i) := by
  rw [encodesTo_zero, encodesTo_zero, encodesTo_ok, he]
  intro hd ha
  have hi : k ++ b.imm12.extractLsb' 0 8 = b.imm12 := by
    rw [← hk]
    ext i hi
    simp
    grind
  have hb := bodyI_fields b
  rw [hd, ha] at hb
  rw [hi]
  exact congrArg (fun b => some (word h 0x1D b)) hb

variable (h b)

@[simp] theorem encodesTo_decShi : EncodesTo h 0x07#6 b (decShi h b) := by
  unfold decShi
  split
  case h_5 => exact encodesTo_error _
  all_goals next ho => exact encodesTo_shift (by rw [← BitVec.toNat_inj, ho]; rfl) rfl

@[simp] theorem encodesTo_decVmx : EncodesTo h 0x19#6 b (decVmx h b) := by
  unfold decVmx
  split
  case h_5 => exact encodesTo_error _
  all_goals next hc => exact encodesTo_index (by rw [← BitVec.toNat_inj, hc]; rfl) rfl

@[simp] theorem encodesTo_decFence : EncodesTo h 0x1D#6 b (decFence h b) := by
  unfold decFence
  split
  case h_3 => exact encodesTo_error _
  all_goals next hk => exact encodesTo_fence (by rw [← BitVec.toNat_inj, hk]; rfl) rfl

theorem encodesTo_decodeMajor (maj : BitVec 6) : EncodesTo h maj b (decodeMajor maj h b) := by
  generalize hn : maj.toNat = n
  obtain rfl : maj = BitVec.ofNat 6 n := by simp [← hn]
  unfold decodeMajor
  rw [hn]
  split <;> simp +contextual [encode, word_fmt_fields h]

end

/-! Both directions. -/

theorem checked_eq_ok {x : Decoded} {i : Instr} : checked x = .ok i ↔ x = .ok i ∧ i.WellFormed := by
  refine ⟨fun e => ?_, fun ⟨e, h⟩ => e ▸ checked_ok i h⟩
  unfold checked at e
  split at e
  · exact nomatch e
  · split at e
    · next hj =>
      cases e
      exact ⟨rfl, hj⟩
    · exact nomatch e

/-- A word that decodes is the encoding of what it decodes to, which is well formed. -/
theorem encode_of_decodeWord {w : Insn} {i : Instr} (h : decodeWord w = .ok i) : encode i = some w ∧ i.WellFormed := by
  obtain ⟨hd, hi⟩ := checked_eq_ok.1 h
  have he := encodesTo_decodeMajor (Insn.head w) (w.extractLsb' 0 22) (w.extractLsb' 22 6) i hd
  rw [word_fields] at he
  exact ⟨he, hi⟩

theorem encode_isNone (i : Instr) : (encode i).isNone = i.isEvent := by cases i <;> rfl

end Sys2Proof

namespace Sys2Proof.Laws

/-- Every word's round trip (R92-R104). -/
theorem RoundTrip.statement (i : Instr) : RoundTrip.Statement i := by
  cases i
  any_goals exact RoundTrip.of_event rfl
  all_goals simp only [
    RoundTrip.nop, RoundTrip.brk, RoundTrip.trap, RoundTrip.iret, RoundTrip.yield, RoundTrip.done, RoundTrip.setc,
    RoundTrip.add, RoundTrip.sub, RoundTrip.and, RoundTrip.or, RoundTrip.xor, RoundTrip.andn, RoundTrip.orn, RoundTrip.sll,
    RoundTrip.srl, RoundTrip.sra, RoundTrip.ror, RoundTrip.slt, RoundTrip.sltu, RoundTrip.seq, RoundTrip.sne, RoundTrip.min,
    RoundTrip.max, RoundTrip.minu, RoundTrip.maxu, RoundTrip.sh1add, RoundTrip.sh2add, RoundTrip.sh3add, RoundTrip.clz,
    RoundTrip.ctz, RoundTrip.popc, RoundTrip.sextb, RoundTrip.sexth, RoundTrip.sextw, RoundTrip.zextb, RoundTrip.zexth,
    RoundTrip.zextw, RoundTrip.rev8, RoundTrip.mul, RoundTrip.mulh, RoundTrip.mulhu, RoundTrip.mulhsu, RoundTrip.div,
    RoundTrip.divu, RoundTrip.rem, RoundTrip.remu, RoundTrip.addi, RoundTrip.andi, RoundTrip.ori, RoundTrip.xori,
    RoundTrip.slli, RoundTrip.srli, RoundTrip.srai, RoundTrip.rori, RoundTrip.slti, RoundTrip.sltiu, RoundTrip.lui,
    RoundTrip.lil, RoundTrip.lb, RoundTrip.lh, RoundTrip.lw, RoundTrip.ld, RoundTrip.lbu, RoundTrip.lhu, RoundTrip.lwu,
    RoundTrip.sb, RoundTrip.sh, RoundTrip.sw, RoundTrip.sd, RoundTrip.vld, RoundTrip.vst, RoundTrip.vldx, RoundTrip.vstx,
    RoundTrip.vlds, RoundTrip.vsts, RoundTrip.get, RoundTrip.thr, RoundTrip.bolt, RoundTrip.clear, RoundTrip.brel,
    RoundTrip.ctype, RoundTrip.bdecl, RoundTrip.fence, RoundTrip.fenceSys, RoundTrip.beq, RoundTrip.bne, RoundTrip.blt,
    RoundTrip.bge, RoundTrip.bltu, RoundTrip.bgeu, RoundTrip.brp, RoundTrip.j, RoundTrip.jal, RoundTrip.jalr, RoundTrip.loop,
    RoundTrip.loopi, RoundTrip.peq, RoundTrip.pne, RoundTrip.plt, RoundTrip.pge, RoundTrip.pltu, RoundTrip.pgeu,
    RoundTrip.pand, RoundTrip.por, RoundTrip.pxor, RoundTrip.pnot, RoundTrip.pmovx, RoundTrip.movpx, RoundTrip.spawn,
    RoundTrip.spawnat, RoundTrip.join, RoundTrip.cancel, RoundTrip.bar, RoundTrip.bara, RoundTrip.barw, RoundTrip.chbind,
    RoundTrip.fork, RoundTrip.hcall, RoundTrip.hret, RoundTrip.send, RoundTrip.mfs, RoundTrip.mts, RoundTrip.rep,
    RoundTrip.fmt, RoundTrip.qwr, RoundTrip.qrd, RoundTrip.qwrv, RoundTrip.qrdv, RoundTrip.qcnt, RoundTrip.vadd,
    RoundTrip.vsub, RoundTrip.vmul, RoundTrip.vfma, RoundTrip.vfms, RoundTrip.vfnma, RoundTrip.vmin, RoundTrip.vmax,
    RoundTrip.vabs, RoundTrip.vneg, RoundTrip.vdiv, RoundTrip.vsqrt, RoundTrip.vrcp, RoundTrip.vrsq, RoundTrip.vexp2,
    RoundTrip.vlog2, RoundTrip.viadd, RoundTrip.visub, RoundTrip.vimul, RoundTrip.vimin, RoundTrip.vimax, RoundTrip.viminu,
    RoundTrip.vimaxu, RoundTrip.vand, RoundTrip.vor, RoundTrip.vxor, RoundTrip.vsll, RoundTrip.vsrl, RoundTrip.vsra,
    RoundTrip.viabs, RoundTrip.vsadd, RoundTrip.vdot4, RoundTrip.vceq, RoundTrip.vcne, RoundTrip.vclt, RoundTrip.vcle,
    RoundTrip.vcltu, RoundTrip.vcleu, RoundTrip.vfeq, RoundTrip.vfne, RoundTrip.vflt, RoundTrip.vfle, RoundTrip.vbcast,
    RoundTrip.vsel, RoundTrip.vshuf, RoundTrip.vsldn, RoundTrip.vslup, RoundTrip.vext, RoundTrip.vins, RoundTrip.vzip,
    RoundTrip.vunzip, RoundTrip.vrev, RoundTrip.vcvt, RoundTrip.vrsum, RoundTrip.vrmax, RoundTrip.vrmin, RoundTrip.vror,
    RoundTrip.vrand, RoundTrip.vrisum, RoundTrip.kand, RoundTrip.kor, RoundTrip.kxor, RoundTrip.knot, RoundTrip.kmovx,
    RoundTrip.xmovk, RoundTrip.kpopc, RoundTrip.kfirst, RoundTrip.gzero, RoundTrip.gacc, RoundTrip.gadd, RoundTrip.gsub,
    RoundTrip.gsch, RoundTrip.gdmp, RoundTrip.gmean, RoundTrip.gsnd, RoundTrip.grcv, RoundTrip.akey, RoundTrip.arel,
    RoundTrip.mma, RoundTrip.mgang, RoundTrip.mres, RoundTrip.mzero, RoundTrip.rrow, RoundTrip.rdrop, RoundTrip.mstat,
    RoundTrip.nbcfg, RoundTrip.nbrun, RoundTrip.nbget, RoundTrip.nbrel, RoundTrip.cpy, RoundTrip.cpyx, RoundTrip.cstat]

end Sys2Proof.Laws

namespace Sys2Proof

/-- Settles O58: every word's round trip, and the decoder's answers by major opcode. -/
theorem roundTrip : Obligations.RoundTrip :=
  ⟨encode_isNone, fun i w he hi => Laws.RoundTrip.statement i w he hi, fun _ _ => encode_of_decodeWord⟩

/-- Settles O59: each word decoded by the decoder itself. -/
theorem decodeWords : Obligations.DecodeWords := by
  unfold Obligations.DecodeWords
  and_intros <;> rfl

end Sys2Proof
end

section
namespace Sys2Proof.Machine
/-! What the completion of an instruction reads of the issuing context, and what leaves that as it is. -/

section
variable {s t r : State} {c d : Ctx}

/-- Contexts of which the instruction stream stands at the same place: they may differ in registers, in a handler's budget and in
what a parking instruction keeps. -/
structure SameFlow (c d : Ctx) : Prop where
  pc : d.pc = c.pc
  pfx : d.pfx = c.pfx
  rep : d.rep = c.rep
  tstat : d.tstat = c.tstat
  lc0 : d.lc0 = c.lc0
  lc1 : d.lc1 = c.lc1
  laterLc1 : d.laterLc1 = c.laterLc1
  pending : d.pending = c.pending
  flagged : d.flagged = c.flagged
  slot : d.slot = c.slot

theorem SameFlow.trans {c d e : Ctx} (p : SameFlow c d) (q : SameFlow d e) : SameFlow c e :=
  ⟨q.pc.trans p.pc, q.pfx.trans p.pfx, q.rep.trans p.rep, q.tstat.trans p.tstat, q.lc0.trans p.lc0, q.lc1.trans p.lc1,
    q.laterLc1.trans p.laterLc1, q.pending.trans p.pending, q.flagged.trans p.flagged, q.slot.trans p.slot⟩

theorem sameFlow_charge (c : Ctx) : SameFlow c c.charge := by constructor <;> simp
theorem sameFlow_wx (c : Ctx) (d : Reg) (w : Word) : SameFlow c (c.wx d w) := by constructor <;> simp
theorem sameFlow_wp (c : Ctx) (d : BitVec 3) (b : Bool) : SameFlow c (c.wp d b) := by constructor <;> simp
theorem sameFlow_wk (c : Ctx) (d : BitVec 3) (w : Word) : SameFlow c (c.wk d w) := by constructor <;> simp

/-- A walk sees memory, the poison and the slots. -/
theorem walk_congr (hm : t.mem = s.mem) (hp : t.poison = s.poison) (hk : t.pkg = s.pkg) (hs : t.slots = s.slots) (slot va : Nat) :
    t.walk slot va = s.walk slot va := by
  have hr : t.rootOf slot = s.rootOf slot := by simp only [State.rootOf, State.slot, hs]
  simp only [State.walk, hr, hk, walkFrom_congr hm hp hk]

/-- A fetched word stands in memory, in what another package has answered, or in a code load that still writes it. -/
theorem insn_congr (hc : t.cur = s.cur) (hq : t.ctx.slot = s.ctx.slot) (hm : t.mem = s.mem) (hp : t.poison = s.poison)
    (hk : t.pkg = s.pkg) (hs : t.slots = s.slots) (hf : t.fetched = s.fetched) (hr : t.free = s.free)
    (hl : t.me.loading = s.me.loading) (a : Nat) : t.insn a = s.insn a := by
  have hcode (n b : Nat) : t.codeAt n b = s.codeAt n b := by
    simp only [State.codeAt, State.slot, hs, walk_congr hm hp hk hs]
  simp only [State.insn, State.fetchPa, State.farWord, State.farCode, hcode, hc, hq, hm, hk, hf, hr, hl]

/-- The same context issues in both states, at the same place of its instruction stream, and reads the same words. -/
structure Alike (s r : State) : Prop where
  curCtx : r.curCtx = s.curCtx
  flow : SameFlow s.ctx r.ctx
  insn : ∀ a, r.insn a = s.insn a

theorem Alike.refl (s : State) : Alike s s := ⟨rfl, by constructor <;> rfl, fun _ => rfl⟩

theorem Alike.trans (p : Alike s t) (q : Alike t r) : Alike s r :=
  ⟨q.curCtx.trans p.curCtx, p.flow.trans q.flow, fun a => (q.insn a).trans (p.insn a)⟩

theorem setCtx_me_loading (s : State) (x : Ctx) : (s.setCtx x).me.loading = s.me.loading := by
  simp [State.me, State.setCtx, State.setCtxOf]

theorem insn_setCtx (hc : s.curCtx < 5) {x : Ctx} (h : x.slot = s.ctx.slot) (a : Nat) : (s.setCtx x).insn a = s.insn a :=
  insn_congr (s := s) (t := s.setCtx x) rfl (by rw [ctx_setCtx_same s x hc, h]) rfl rfl rfl rfl rfl rfl (setCtx_me_loading s x) a

theorem alike_setCtx (hc : s.curCtx < 5) {x : Ctx} (h : SameFlow s.ctx x) : Alike s (s.setCtx x) :=
  ⟨rfl, by rwa [ctx_setCtx_same s x hc], insn_setCtx hc h.slot⟩

theorem alike_charge (hc : s.curCtx < 5) : Alike s (s.setCtx s.ctx.charge) := alike_setCtx hc (sameFlow_charge _)

theorem alike_settle (s : State) : Alike s s.settle :=
  ⟨rfl, by constructor <;> rfl, insn_congr (s := s) (t := s.settle) rfl rfl rfl rfl rfl rfl rfl rfl rfl⟩

theorem captureEnd_congr (h : ∀ a, t.insn a = s.insn a) (n a : Nat) : t.captureEnd n a = s.captureEnd n a := by
  induction n generalizing a with
  | zero => rfl
  | succ n ih => simp only [State.captureEnd, h, ih]

theorem Alike.instrPc (h : Alike s r) : r.instrPc = s.instrPc := by
  simp only [State.instrPc, Ctx.rslot, h.flow.rep, h.flow.tstat, h.flow.pc, h.flow.pfx, captureEnd_congr h.insn]

end

/-! What stands behind a completed instruction (R94, R99, R128, R130, R307). -/

section
variable {s r : State} {h : Head}

/-- A captured word's prefix is used, and its context waits no more. -/
def Ctx.captured (c : Ctx) : Ctx := { c with pfx := none, wait := .none }

/-- The context behind a completed execution of a replay (R130). -/
def State.afterCapture (s : State) : Ctx :=
  let slot := s.ctx.rslot + 1
  let full := decide (s.repFields.1 ≤ slot)
  let iter := if full then s.ctx.riter + 1 else s.ctx.riter
  if full && decide (s.repFields.2 ≤ iter) then s.ctx.captured.repDone (s.captureEnd s.repFields.1 (s.ctx.pc.toNat + 4))
  else s.ctx.captured.repAt (if full then 0 else slot) iter

theorem afterCapture_next (h : s.ctx.rslot + 1 < s.repFields.1) :
    s.afterCapture = s.ctx.captured.repAt (s.ctx.rslot + 1) s.ctx.riter := by
  unfold State.afterCapture
  simp [Nat.not_le.2 h]

theorem afterCapture_again (h : s.repFields.1 ≤ s.ctx.rslot + 1) (hm : s.ctx.riter + 1 < s.repFields.2) :
    s.afterCapture = s.ctx.captured.repAt 0 (s.ctx.riter + 1) := by
  unfold State.afterCapture
  simp [h, Nat.not_le.2 hm]

theorem afterCapture_last (h : s.repFields.1 ≤ s.ctx.rslot + 1) (hm : s.repFields.2 ≤ s.ctx.riter + 1) :
    s.afterCapture = s.ctx.captured.repDone (s.captureEnd s.repFields.1 (s.ctx.pc.toNat + 4)) := by
  unfold State.afterCapture
  simp [h, hm]

/-- The issuing context behind its completed instruction, before a switch marker acts. -/
def State.afterWord (s : State) : Ctx := if s.ctx.rep then s.afterCapture else s.ctx.nextWord.bodyEnd s.ctx.pc.toNat

/-- A completion replaces the issuing context; then the switch marker acts (R94, R105). -/
theorem complete_eq (hc : s.curCtx < 5) :
    s.complete h = if h.sw then (s.setCtx s.afterWord).marker s.instrPc else s.setCtx s.afterWord := by
  have hn : (s.setCtx s.ctx.captured).repNext = s.setCtx s.afterCapture := by
    have hi := insn_setCtx hc (x := s.ctx.captured) rfl
    have hf : (s.setCtx s.ctx.captured).repFields = s.repFields := by
      unfold State.repFields
      rw [ctx_setCtx_same s _ hc, hi]
      rfl
    unfold State.repNext State.afterCapture
    dsimp only
    rw [ctx_setCtx_same s _ hc, setCtx_setCtx, hf, captureEnd_congr hi]
    rfl
  unfold State.complete State.afterWord
  dsimp only
  rw [apply_ite s.setCtx, ← hn]
  rfl

/-- A park writes what the context waits for; a flagged task ends there (R84). -/
theorem park_ctx (hc : s.curCtx < 5) (w : Wait) : (s.park w).ctx = { s.ctx with
    wait := if s.ctx.flagged && decide (s.ctx.role = .task) && !w.ending && !s.ctx.reserved then .cancelling else w
    parkedAt := s.me.stamps } := ctx_setCtx_same _ _ hc

/-- What a switch marker leaves of a context, and how it parks it (R84, R128). -/
theorem marked_ctx (hc : s.curCtx < 5) (y : Ctx) (b : Bool) (a : Nat) : ∃ w n,
    (if b then (s.setCtx y).marker a else s.setCtx y).ctx = { y with wait := w, parkedAt := n } ∧
    (b = true → y.pending ≠ 0 → y.flagged = false → w = .marker a) ∧ (b = false ∨ y.pending = 0 → w = y.wait) := by
  have hy := ctx_setCtx_same s y hc
  by_cases hm : b = true ∧ y.pending ≠ 0
  · obtain ⟨rfl, hp⟩ := hm
    have hk : (s.setCtx y).marker a = (s.setCtx y).park (.marker a) := by
      unfold State.marker
      rw [hy, if_pos hp]
    have hc' := park_ctx (s := s.setCtx y) hc (.marker a)
    rw [hy] at hc'
    rw [if_pos rfl, hk]
    exact ⟨_, _, hc', fun _ _ hf => by rw [hf]; rfl, fun h => absurd (h.resolve_left (by decide)) hp⟩
  · have hk : (if b then (s.setCtx y).marker a else s.setCtx y) = s.setCtx y := by
      cases b
      · rfl
      · rw [if_pos rfl, State.marker, hy, if_neg fun hp => hm ⟨rfl, hp⟩]
    rw [hk]
    exact ⟨y.wait, y.parkedAt, hy, fun hb hp => absurd ⟨hb, hp⟩ hm, fun _ => rfl⟩

/-- Behind a completed word a context has no prefix and waits for nothing; its budget, what is pending and its flag are as they
were. -/
structure Freed (c d : Ctx) : Prop where
  pfx : d.pfx = none
  wait : d.wait = .none
  hbud : d.hbud = c.hbud
  pending : d.pending = c.pending
  flagged : d.flagged = c.flagged

theorem Freed.bodyEnd {c d : Ctx} (h : Freed c d) (a : Nat) : Freed c (d.bodyEnd a) := by
  refine bodyEnd_ind (Freed c) (fun d n h => ?_) d a h
  obtain ⟨w, a, e⟩ := bodyStep_eq d n
  rw [e]
  constructor <;> simp [h.pfx, h.wait, h.hbud, h.pending, h.flagged]

theorem freed_afterCapture (s : State) : Freed s.ctx s.afterCapture := by
  obtain hn | hn := Nat.lt_or_ge (s.ctx.rslot + 1) s.repFields.1
  · rw [afterCapture_next hn]
    constructor <;> rfl
  · obtain hm | hm := Nat.lt_or_ge (s.ctx.riter + 1) s.repFields.2
    · rw [afterCapture_again hn hm]
      constructor <;> rfl
    · rw [afterCapture_last hn hm]
      exact Freed.bodyEnd (by constructor <;> rfl) _

theorem freed_afterWord (s : State) : Freed s.ctx s.afterWord := by
  unfold State.afterWord
  split
  · exact freed_afterCapture s
  · exact Freed.bodyEnd (by constructor <;> rfl) _

theorem charge_hbud (c : Ctx) : (c.handles → c.charge.hbud = c.hbud - 1) ∧ (¬c.handles → c.charge.hbud = c.hbud) := by
  unfold Ctx.handles Ctx.charge
  cases c.role <;> simp

/-- Behind a completion from a state that stands where `s` stood, but for a budget that has fallen by one (R99, R128, R307). -/
theorem complete_behind (a : Alike s r) (hc : s.curCtx < 5) (hb : r.ctx.hbud = s.ctx.charge.hbud) : Behind s (r.complete h) h := by
  have hr : r.curCtx < 5 := a.curCtx ▸ hc
  obtain ⟨hp, hw, hbud, hpend, hfl⟩ := freed_afterWord r
  obtain ⟨w, n, he, hm, hg⟩ := marked_ctx hr r.afterWord h.sw r.instrPc
  rw [← complete_eq hr] at he
  rw [hpend, a.flow.pending] at hm hg
  rw [hfl, a.flow.flagged, a.instrPc] at hm
  have hbud' : (r.complete h).ctx.hbud = s.ctx.charge.hbud := by rw [he]; exact hbud.trans hb
  refine ⟨by rw [he]; exact hp, ⟨fun q => hbud'.trans ((charge_hbud _).1 q), fun q => hbud'.trans ((charge_hbud _).2 q)⟩, ?_, ?_⟩
  · rw [he]
    exact hm
  · rw [he]
    exact fun q => (hg q).trans hw

end
/-! How the instructions that write one register, the branches and the lane instructions issue. -/

section
variable {i : Instr}

theorem exec_scalarCase {c : XCase} (e : scalarCase i = some c) : ∃ f : State → Word, ∀ s,
    exec i s = .next (s.run c.cls i c.h true c.uses fun u => .done (u.setCtx (u.ctx.wx c.d (f u)))) := by
  cases i <;> cases e <;> exact ⟨_, fun _ => rfl⟩

theorem exec_predCase {c : PCase} (e : predCase i = some c) : ∃ f : State → Bool, ∀ s,
    exec i s = .next (s.run clsPlain i c.h true c.uses fun u => .done (u.setCtx (u.ctx.wp c.d (f u)))) := by
  cases i <;> cases e <;> exact ⟨_, fun _ => rfl⟩

theorem exec_maskCase {c : KCase} (e : maskCase i = some c) : ∃ f : State → Word, ∀ s,
    exec i s = .next (s.run clsMask i c.h true c.uses fun u => .done (u.setCtx (u.ctx.wk c.d (f u)))) := by
  cases i <;> cases e <;> exact ⟨_, fun _ => rfl⟩

theorem exec_branchCase {c : BCase} (e : branchCase i = some c) : ∃ f : State → Bool, (∀ u, f u = true → c.taken u.ctx) ∧ ∀ s,
    exec i s = .next (s.run clsPlain i c.h true c.uses fun u => if f u then u.goto (u.ctx.rel c.off) id else .done u) := by
  cases i <;> cases e <;> refine ⟨_, fun u hu => ?_, fun _ => rfl⟩
  all_goals simpa [BitVec.slt, BitVec.ult] using hu

theorem exec_laneCase {c : LaneCase} (e : laneCase i = some c) : ∃ act : State → State → Eff, ∀ s,
    exec i s = .next (s.run clsVec i c.h (s.ctx.channelsLegal [c.d] c.srcs) (c.srcs.map uv ++ [uv c.d]) (act s)) := by
  cases i <;> cases e <;> exact ⟨_, fun _ => rfl⟩
end

theorem checkedCase_eq {h : Head} {k : Cls} {uses : List Nat} (e : checkedCase i = some (h, k, uses)) :
    (∃ c, scalarCase i = some c ∧ h = c.h ∧ k = c.cls ∧ uses = c.uses) ∨ (∃ c, predCase i = some c ∧ h = c.h ∧ k = clsPlain ∧ uses = c.uses) ∨
    (∃ c, maskCase i = some c ∧ h = c.h ∧ k = clsMask ∧ uses = c.uses) ∨ (∃ c, branchCase i = some c ∧ h = c.h ∧ k = clsPlain ∧ uses = c.uses) := by
  unfold checkedCase at e
  split at e
  · cases e; exact .inl ⟨_, ‹_›, rfl, rfl, rfl⟩
  · cases e; exact .inr (.inl ⟨_, ‹_›, rfl, rfl, rfl⟩)
  · cases e; exact .inr (.inr (.inl ⟨_, ‹_›, rfl, rfl, rfl⟩))
  · cases e; exact .inr (.inr (.inr ⟨_, ‹_›, rfl, rfl, rfl⟩))
  · cases e

/-- Register instructions issue by the checks alone, write one register, and take no prefix; a branch, which no replay captures,
completes where it is not taken. -/
theorem exec_checkedCase {h : Head} {k : Cls} {uses : List Nat} (e : checkedCase i = some (h, k, uses)) :
    k.fmt = false ∧ (k.rep = true → branchCase i = none) ∧ ∃ act : State → Eff, (∀ s, exec i s = .next (s.run k i h true uses act)) ∧
      ∀ u : State, u.curCtx < 5 → (∀ c, branchCase i = some c → ¬c.taken u.ctx) →
        ∃ r, act u = .done r ∧ Alike u r ∧ r.ctx.hbud = u.ctx.hbud := by
  have hset (u : State) (hc : u.curCtx < 5) {y : Ctx} (h : SameFlow u.ctx y) (hb : y.hbud = u.ctx.hbud) :
      Alike u (u.setCtx y) ∧ (u.setCtx y).ctx.hbud = u.ctx.hbud := ⟨alike_setCtx hc h, by rw [ctx_setCtx_same u y hc, hb]⟩
  obtain ⟨c, hx, rfl, rfl, rfl⟩ | ⟨c, hx, rfl, rfl, rfl⟩ | ⟨c, hx, rfl, rfl, rfl⟩ | ⟨c, hx, rfl, rfl, rfl⟩ := checkedCase_eq e
  · obtain ⟨f, hf⟩ := exec_scalarCase hx
    have hn : c.cls.fmt = false ∧ branchCase i = none := by cases i <;> cases hx <;> exact ⟨rfl, rfl⟩
    exact ⟨hn.1, fun _ => hn.2, _, hf, fun u hc _ => ⟨_, rfl, hset u hc (sameFlow_wx _ _ _) (by simp)⟩⟩
  · obtain ⟨f, hf⟩ := exec_predCase hx
    exact ⟨rfl, nofun, _, hf, fun u hc _ => ⟨_, rfl, hset u hc (sameFlow_wp _ _ _) (by simp)⟩⟩
  · obtain ⟨f, hf⟩ := exec_maskCase hx
    have hn : branchCase i = none := by cases i <;> cases hx <;> rfl
    exact ⟨rfl, fun _ => hn, _, hf, fun u hc _ => ⟨_, rfl, hset u hc (sameFlow_wk _ _ _) (by simp)⟩⟩
  · obtain ⟨f, ht, hf⟩ := exec_branchCase hx
    exact ⟨rfl, nofun, _, hf, fun u hc hn => ⟨u, if_neg fun h => hn c hx (ht u h), Alike.refl u, rfl⟩⟩

/-- A branch reads x and p registers alone. -/
theorem taken_congr {c : BCase} (e : branchCase i = some c) {x y : Ctx} (hx : y.x = x.x) (hp : y.p = x.p) : c.taken y ↔ c.taken x := by
  cases i <;> cases e <;> simp [Ctx.rx, Ctx.rp, hx, hp]

/-! The checks before an effect, in their order (R105). -/

section
variable {s u r : State} {k : Cls} {i : Instr} {h : Head} {l : Bool} {uses pre post : List Nat} {act : State → Eff} {n : Nat}

theorem run_spent (hs : s.ctx.spent = true) : s.run k i h l uses act = s.trap 0x11 (BitVec.ofNat 64 s.instrPc) := if_pos hs

theorem run_of_off (hs : s.ctx.spent = false) (hp : s.ctx.pre k i h l uses = .off) :
    s.run k i h l uses act = (s.setCtx s.ctx.charge).complete h := by
  unfold State.run
  dsimp only
  rw [hs, hp]
  rfl

theorem run_of_trap {cause : Nat} {tval : Word} (hs : s.ctx.spent = false) (hx : s.ctx.pfx = none)
    (hp : s.ctx.pre k i h l uses = .trap cause tval) : s.run k i h l uses act = (s.setCtx s.ctx.charge).trap cause tval := by
  unfold State.run
  dsimp only
  rw [hs, hp, hx]
  rfl

/-- A prefix stands before a word that takes none (R98, R104). -/
theorem run_prefixed (hs : s.ctx.spent = false) (hx : s.ctx.pfx.isSome = true) (hf : k.fmt = false) :
    let u := s.setCtx s.ctx.charge
    s.run k i h l uses act = (u.setCtx { u.ctx with pfx := none }).trapAt 0x01 (i.wordOf.setWidth 64) s.ctx.pc u.instrPc := by
  have hp : s.ctx.pre k i h l uses = .trap 0x01 (i.wordOf.setWidth 64) := by
    unfold Ctx.pre
    rw [hx, hf]
    rfl
  unfold State.run
  dsimp only
  rw [hs, hp, hx, hf]
  rfl

section
variable {c : Ctx}

theorem pre_illegal (hx : c.pfx = none) (hl : (c.legal k && l) = false) : c.pre k i h l uses = .trap 0x01 (i.wordOf.setWidth 64) := by
  unfold Ctx.pre
  rw [hx, hl]
  rfl

section
variable (hx : c.pfx = none ∨ k.fmt = true) (hl : (c.legal k && l) = true)
include hx hl

theorem pre_off (hg : c.guard h.g = false) : c.pre k i h l uses = .off := by
  have hp : (c.pfx.isSome && !k.fmt) = false := by obtain h | h := hx <;> simp [h]
  unfold Ctx.pre
  rw [hp, hl, hg]
  rfl

theorem pre_bad (hg : c.guard h.g = true) {cause : Nat} {tval : Word} (hb : c.badUse uses = some (cause, tval)) :
    c.pre k i h l uses = .trap cause tval := by
  have hp : (c.pfx.isSome && !k.fmt) = false := by obtain h | h := hx <;> simp [h]
  unfold Ctx.pre
  rw [hp, hl, hg, hb]
  rfl

end

/-! The first pending or faulted register (R127, R195). -/

theorem badUse_of_not_faultAt (hn : n ≠ 0) (hf : ¬FaultAt c n) :
    c.badUse (n :: post) = if c.pending.getLsbD n then some (0x02, BitVec.ofNat 64 n) else c.badUse post := by
  rw [Ctx.badUse, if_neg hn]
  split
  · next m f hi hm => exact absurd ⟨hn, hi, _, List.mem_of_find?_eq_some hm, by simpa using List.find?_some hm⟩ hf
  · rfl

theorem badUse_faulted {f : FaultMark} (hn : n ≠ 0) (hi : c.inh = false) (hf : c.faulted.find? (fun e => e.1 == n) = some (n, f)) :
    c.badUse (n :: post) = some (f.cause, f.tval n) := by
  rw [Ctx.badUse, if_neg hn, hi, hf]

/-- Registers that are neither pending nor faulted are passed over. -/
theorem badUse_append (hp : ∀ m ∈ pre, m = 0 ∨ (c.pending.getLsbD m = false ∧ ¬FaultAt c m)) :
    c.badUse (pre ++ post) = c.badUse post := by
  induction pre with
  | nil => rfl
  | cons m r ih =>
    have ih' := ih fun m hm => hp m (List.mem_cons_of_mem _ hm)
    rw [List.cons_append]
    by_cases hm : m = 0
    · rw [Ctx.badUse, if_pos hm, ih']
    · obtain ⟨hq, hf⟩ := (hp m (List.mem_cons_self ..)).resolve_left hm
      rw [badUse_of_not_faultAt hm hf, hq, if_neg Bool.false_ne_true, ih']

end

/-! An instruction whose guard fails, and one that completes (R93, R99, R105). -/

theorem setCtx_charge_hbud (hc : s.curCtx < 5) : (s.setCtx s.ctx.charge).ctx.hbud = s.ctx.charge.hbud := by
  rw [ctx_setCtx_same s _ hc]

/-- A failed guard completes with no effect. -/
theorem off_effect (hc : s.curCtx < 5) :
    let t := (s.setCtx s.ctx.charge).complete h
    Frame {} s t ∧ Inside s t ∧ Advanced s t ∧ Behind s t h := by
  have e := ctx_setCtx_same s s.ctx.charge hc
  obtain ⟨f, i⟩ := setCtx_frame s s.ctx.charge hc (sameRegs_charge _) (by simp) (by simp)
  obtain ⟨f', i', a⟩ := complete_frame (s.setCtx s.ctx.charge) h hc
  refine ⟨f.trans f' (by simp [e]) (by simp [e, charge_endsBody]), i.trans i', fun hr hb => ?_,
    complete_behind (alike_charge hc) hc (setCtx_charge_hbud hc)⟩
  rw [a (by simpa [e] using hr) (by simpa [e, charge_endsBody] using hb), e, charge_pc]

section
variable (e : checkedCase i = some (h, k, uses))
include e

/-- An instruction that passes its checks completes, but for a taken branch. -/
theorem exec_clear (c : Clear s k h uses) (hn : ∀ c, branchCase i = some c → ¬c.taken s.ctx) :
    ∃ r, exec i s = .next (r.complete h) ∧ Alike s r ∧ r.ctx.hbud = s.ctx.charge.hbud := by
  obtain ⟨-, -, act, hx, ha⟩ := exec_checkedCase e
  have hu := ctx_setCtx_same s s.ctx.charge c.here
  obtain ⟨r, hr, hal, hb⟩ := ha (s.setCtx s.ctx.charge) c.here fun b hb ht =>
    hn b hb ((taken_congr hb (by simp) (by simp)).1 (hu ▸ ht))
  refine ⟨r.settle, ?_, ((alike_charge c.here).trans hal).trans (alike_settle r), hb.trans (setCtx_charge_hbud c.here)⟩
  rw [hx, run_clear c i true rfl act, hr]
  rfl

/-- A failed guard completes at once (R93). -/
theorem exec_off (hs : s.ctx.spent = false) (hp : s.ctx.pfx = none) (hl : s.ctx.legal k = true) (hg : s.ctx.guard h.g = false) :
    exec i s = .next ((s.setCtx s.ctx.charge).complete h) := by
  obtain ⟨-, -, act, hx, -⟩ := exec_checkedCase e
  rw [hx, run_of_off hs (pre_off (.inl hp) (by simp [hl]) hg)]

end
end

/-- Settles O55: the checks one by one, then what a completion leaves. -/
theorem issueChecks : Obligations.IssueChecks := by
  refine ⟨fun i h k uses s e hc => ?checks, fun i c s e hc hs hl hch hg => ?lanes⟩
  case checks =>
    obtain ⟨hf, -, act, hx, -⟩ := exec_checkedCase e
    have hpc : (s.setCtx s.ctx.charge).instrPc = s.instrPc := (alike_charge hc).instrPc
    intro word u
    refine ⟨fun hs => by rw [hx, run_spent hs], fun hs hp => by rw [hx, run_prefixed hs hp hf, hpc],
      fun hs hp hl => by rw [hx, run_of_trap hs hp (pre_illegal hp (by simp [hl]))],
      fun hs hp hl => ⟨fun hg => ⟨_, exec_off e hs hp hl hg, off_effect hc⟩, ?bad⟩, fun c hn => ?_⟩
    case bad =>
      rintro hg pre post n rfl hn hpre
      have htrap {cause : Nat} {tval : Word} (hb : s.ctx.badUse (n :: post) = some (cause, tval)) : exec i s = .next (u.trap cause tval) := by
        rw [hx, run_of_trap hs hp (pre_bad (.inl hp) (by simp [hl]) hg ((badUse_append hpre).trans hb))]
      exact ⟨fun hq hfa => htrap (by rw [badUse_of_not_faultAt hn hfa, hq]; rfl),
        fun f hi hfi => htrap (by rw [badUse_faulted hn hi hfi, tval_eq])⟩
    · obtain ⟨r, hr, hal, hb⟩ := exec_clear e c hn
      exact ⟨_, hr, complete_behind hal hc hb⟩
  case lanes =>
    obtain ⟨act, hx⟩ := exec_laneCase e
    exact ⟨_, by rw [hx, run_of_off hs (pre_off (.inr rfl) (by simp [hl, hch]) hg)], off_effect hc⟩

end Sys2Proof.Machine
end

section
namespace Sys2Proof.Machine

/-! Fields of a word (R4). -/

section
variable {w : Word} {hi lo v : Nat}

theorem field_testBit (i : Nat) : (Word.field w hi lo).testBit i = (decide (i < hi + 1 - lo) && w.getLsbD (lo + i)) := by
  simp [Word.field, Nat.testBit_mod_two_pow, Nat.testBit_shiftRight, BitVec.getLsbD]

/-- A field that is put replaces the bits that it names. -/
theorem putField_getLsbD (hl : lo ≤ hi) {i : Nat} (hi' : i < 64) :
    (Word.putField w hi lo v).getLsbD i = if lo ≤ i ∧ i ≤ hi then v.testBit (i - lo) else w.getLsbD i := by
  have hm : i - lo < hi + 1 - lo ↔ i ≤ hi := by omega
  unfold Word.putField
  simp only [BitVec.getLsbD_or, BitVec.getLsbD_and, BitVec.getLsbD_not, BitVec.getLsbD_ofNat, Nat.testBit_mul_two_pow,
    Nat.testBit_two_pow_sub_one, hi', hm, decide_true, Bool.true_and]
  by_cases h1 : lo ≤ i <;> by_cases h2 : i ≤ hi <;> simp [h1, h2]

theorem field_putField_same (hl : lo ≤ hi) (hh : hi < 64) (hv : v < 2 ^ (hi + 1 - lo)) : Word.field (Word.putField w hi lo v) hi lo = v := by
  refine Nat.eq_of_testBit_eq fun i => ?_
  rw [field_testBit]
  by_cases h : i < hi + 1 - lo
  · rw [putField_getLsbD hl (by omega), if_pos (by omega), Nat.add_sub_cancel_left]
    simp [h]
  · simp [h, Nat.testBit_lt_two_pow (hv.trans_le (Nat.pow_le_pow_right (by decide) (Nat.not_lt.1 h)))]

theorem field_putField_of_disjoint {hi' lo' : Nat} (hl : lo ≤ hi) (hh : hi' < 64) (hd : hi' < lo ∨ hi < lo') :
    Word.field (Word.putField w hi lo v) hi' lo' = Word.field w hi' lo' := by
  refine Nat.eq_of_testBit_eq fun i => ?_
  rw [field_testBit, field_testBit]
  by_cases h : i < hi' + 1 - lo'
  · rw [putField_getLsbD hl (by omega), if_neg (by omega)]
  · simp [h]

end

/-! Loop counters and the end of a body (R141, R142). -/

section
variable {w : Word} {c d : Ctx} {n a : Nat}

theorem lcMake_fields (act : Bool) (len start count : Nat) : lcAct (lcMake act len start count) = act ∧
    lcLen (lcMake act len start count) = len % 4096 ∧ lcStart (lcMake act len start count) = start / 4 % 2 ^ 18 * 4 ∧
    lcCount (lcMake act len start count) = count % 2 ^ 32 := by
  have ha : act.toNat ≤ 1 := act.toNat_le
  have ht : (lcMake act len start count).toNat =
      act.toNat * 2 ^ 63 + len % 4096 * 2 ^ 51 + start / 4 % 2 ^ 18 * 2 ^ 33 + count % 2 ^ 32 := by
    unfold lcMake
    rw [BitVec.toNat_ofNat, Nat.mod_eq_of_lt (by omega)]
  refine ⟨?_, ?_, ?_, ?_⟩
  · rw [lcAct, BitVec.getLsbD, ht, Nat.testBit_eq_decide_div_mod_eq]
    cases act <;> simp <;> omega
  all_goals
    simp only [lcLen, lcStart, lcCount, Word.field, ht, Nat.shiftRight_eq_div_pow]
    omega

/-- The counter that a loop's end-of-body step writes. -/
theorem counted_lcMake (h : 1 ≤ lcCount w) :
    Counted w (lcMake (decide (lcCount w ≠ 1)) (lcLen w) (lcStart w) (lcCount w - 1)) := by
  obtain ⟨h1, h2, h3, h4⟩ := lcMake_fields (decide (lcCount w ≠ 1)) (lcLen w) (lcStart w) (lcCount w - 1)
  have hl : lcLen w < 4096 := Nat.mod_lt _ (by decide)
  have hc : lcCount w < 2 ^ 32 := Nat.mod_lt _ (by decide)
  refine ⟨h2.trans (Nat.mod_eq_of_lt hl), h3.trans ?_, h4.trans (Nat.mod_eq_of_lt (by omega)), h1⟩
  have hs : Word.field w 50 33 < 2 ^ 18 := Nat.mod_lt _ (by decide)
  unfold lcStart
  omega

theorem lc_setLc (hn : n < 2) (w : Word) : (c.setLc n w).lc n = w ∧ (c.setLc n w).lc (1 - n) = c.lc (1 - n) := by
  obtain rfl | rfl : n = 0 ∨ n = 1 := by omega
  · exact ⟨rfl, rfl⟩
  · exact ⟨rfl, rfl⟩

/-- One loop's step at the end of its body (R142). -/
theorem bodyStep_effect (hn : n < 2) (h : 1 ≤ lcCount (c.lc n)) :
    (c.bodyStep n).2 = decide (lcCount (c.lc n) = 1) ∧ Counted (c.lc n) ((c.bodyStep n).1.lc n) ∧
    (c.bodyStep n).1.lc (1 - n) = c.lc (1 - n) ∧ (c.bodyStep n).1.pc = bodyPc (c.lc n) := by
  have hk := counted_lcMake h
  have hc : lcCount (c.lc n) < 2 ^ 32 := Nat.mod_lt _ (by decide)
  have hl : lcLess (c.lc n) = lcCount (c.lc n) - 1 := by unfold lcLess; omega
  unfold Ctx.bodyStep bodyPc
  dsimp only
  rw [hl]
  by_cases h1 : lcCount (c.lc n) = 1
  · obtain ⟨hs, ho⟩ := lc_setLc (c := c) hn (lcMake false (lcLen (c.lc n)) (lcStart (c.lc n)) 0)
    rw [h1] at hk
    rw [if_pos (by omega), if_pos h1]
    exact ⟨by simp [h1], hs.symm ▸ hk, ho, rfl⟩
  · obtain ⟨hs, ho⟩ := lc_setLc (c := c) hn (lcMake true (lcLen (c.lc n)) (lcStart (c.lc n)) (lcCount (c.lc n) - 1))
    rw [decide_eq_true h1] at hk
    rw [if_neg (by omega), if_neg h1]
    exact ⟨by simp [h1], hs.symm ▸ hk, ho, rfl⟩

/-- The loop that was opened later (R142). -/
def Ctx.laterLoop (c : Ctx) : Nat := if c.laterLc1 then 1 else 0

theorem laterLoop_lt (c : Ctx) : c.laterLoop < 2 := by unfold Ctx.laterLoop; split <;> decide

theorem endsAt_iff : EndsAt c n a ↔ (c.live n && lcLast (c.lc n) == a) = true := by simp [EndsAt]

/-- Where one loop's body ends, its counter takes the step. -/
theorem bodyEnd_single (hn : n < 2) (h : EndsAt c n a) (ho : ¬EndsAt c (1 - n) a) : c.bodyEnd a = (c.bodyStep n).1 := by
  rw [endsAt_iff] at h
  rw [endsAt_iff, Bool.not_eq_true] at ho
  unfold Ctx.bodyEnd
  dsimp only
  obtain rfl | rfl : n = 0 ∨ n = 1 := by omega
  · cases c.laterLc1 <;> simp_all
  · cases c.laterLc1 <;> simp_all

/-- Where two bodies end, the loop that was opened later steps, and the other one when that has ended. -/
theorem bodyEnd_both (h0 : EndsAt c 0 a) (h1 : EndsAt c 1 a) :
    c.bodyEnd a = let r := c.bodyStep c.laterLoop
      if r.2 then (r.1.bodyStep (1 - c.laterLoop)).1 else r.1 := by
  rw [endsAt_iff] at h0 h1
  unfold Ctx.bodyEnd Ctx.laterLoop
  dsimp only
  cases c.laterLc1 <;> simp [h0, h1]

/-- End-of-body processing of the word at `a` (R142). -/
theorem afterBody_bodyEnd (c : Ctx) (a : Nat) : AfterBody c (c.bodyEnd a) a c.pc := by
  intro hcount
  refine ⟨fun h0 h1 => ?none, fun n hn h ho => ?single, fun h0 h1 => ?both⟩
  case none =>
    rw [endsAt_iff, Bool.not_eq_true] at h0 h1
    have hl : c.lastOfBody a = false := by
      unfold Ctx.lastOfBody
      exact Bool.or_eq_false_iff.2 ⟨h0, h1⟩
    rw [bodyEnd_none c a hl]
    exact ⟨rfl, rfl, rfl⟩
  case single =>
    obtain ⟨-, hk, hl, hp⟩ := bodyStep_effect hn (hcount n hn h)
    rw [bodyEnd_single hn h ho]
    exact ⟨hk, hl, hp⟩
  case both =>
    have hf : c.laterLoop < 2 := laterLoop_lt c
    have hends (n : Nat) (hn : n < 2) : EndsAt c n a := by
      obtain rfl | rfl : n = 0 ∨ n = 1 := by omega
      · exact h0
      · exact h1
    obtain ⟨hd, hk, hl, hp⟩ := bodyStep_effect hf (hcount _ hf (hends _ hf))
    have ho : 1 - c.laterLoop < 2 := by omega
    have hc2 := hcount _ ho (hends _ ho)
    rw [← hl] at hc2
    obtain ⟨-, hk', hl', hp'⟩ := bodyStep_effect ho hc2
    rw [show 1 - (1 - c.laterLoop) = c.laterLoop by omega] at hl'
    rw [bodyEnd_both h0 h1]
    show Counted (c.lc c.laterLoop) _ ∧ (lcCount (c.lc c.laterLoop) ≠ 1 → _) ∧ (lcCount (c.lc c.laterLoop) = 1 → _)
    by_cases h : lcCount (c.lc c.laterLoop) = 1
    · dsimp only
      rw [hd, decide_eq_true h, if_pos rfl]
      rw [hl] at hk' hp'
      exact ⟨hl'.symm ▸ hk, fun hn => absurd h hn, fun _ => ⟨hk', hp'⟩⟩
    · dsimp only
      rw [hd, decide_eq_false h, if_neg Bool.false_ne_true]
      exact ⟨hk, fun _ => ⟨hl, hp⟩, fun he => absurd he h⟩

/-- It sees the loops alone. -/
theorem AfterBody.congr {x y : Ctx} {next : Word} (h : AfterBody c d a next) (h0 : x.lc0 = c.lc0) (h1 : x.lc1 = c.lc1)
    (hl : x.laterLc1 = c.laterLc1) (hs : ∀ n, x.suspended n = c.suspended n) (hp : y.pc = d.pc) (h0' : y.lc0 = d.lc0)
    (h1' : y.lc1 = d.lc1) : AfterBody x y a next := by
  have hx (n : Nat) : x.lc n = c.lc n := by simp only [Ctx.lc, h0, h1]
  have hy (n : Nat) : y.lc n = d.lc n := by simp only [Ctx.lc, h0', h1']
  have he (n : Nat) : EndsAt x n a ↔ EndsAt c n a := by simp only [EndsAt, Ctx.live, hx, hs]
  simpa only [AfterBody, he, hx, hy, hl, hp] using h

end

/-! Executions of a replay (R130). -/

section
variable {s r : State} {h : Head} {n m d a b : Nat}

/-- The fields of a word's body stand in the word. -/
theorem extract_word (h : Head) (maj : BitVec 6) (x : Sys2Proof.Body) {lo len : Nat} (hl : lo + len ≤ 22) :
    (word h maj x).extractLsb' lo len = x.extractLsb' lo len := BitVec.extractLsb'_append_eq_of_add_le hl

theorem rep_fields {w : Insn} {n : BitVec 4} {it : BitVec 6} {d a b : BitVec 2} (e : decodeWord w = .ok (.rep h n it d a b)) :
    w.extractLsb' 18 4 = n ∧ w.extractLsb' 12 6 = it ∧ w.extractLsb' 10 2 = d ∧ w.extractLsb' 8 2 = a ∧ w.extractLsb' 6 2 = b := by
  obtain ⟨he, -⟩ := encode_of_decodeWord e
  obtain rfl : word h 0x31 (bodyRep n it d a b) = w := Option.some.inj he
  simp [extract_word]

/-- A replay's position after its tstat has been written at it. -/
theorem repAt_position (c : Ctx) {slot iter : Nat} (hs : slot < 32) (hi : iter < 64) :
    (c.repAt slot iter).rslot = slot ∧ (c.repAt slot iter).riter = iter := by
  refine ⟨?_, field_putField_same (by decide) (by decide) hi⟩
  exact (field_putField_of_disjoint (by decide) (by decide) (by decide)).trans (field_putField_same (by decide) (by decide) hs)

/-- The replay is over (R130): the loops' bodies end behind the last captured word. -/
theorem repDone_effect (c : Ctx) (last : Nat) : (c.repDone last).rep = false ∧ (c.repDone last).inrep = false ∧
    AfterBody c (c.repDone last) (last - 4) (BitVec.ofNat 64 last) := by
  refine ⟨?_, ?_, ?_⟩
  · refine bodyEnd_ind (fun d => d.rep = false) (fun d n hd => ?_) _ _ rfl
    obtain ⟨w, a, e⟩ := bodyStep_eq d n
    rw [e]
    simpa using hd
  · refine (congrArg (fun w : Word => w.getLsbD 4) (tstat_bodyEnd _ _)).trans ?_
    exact (putField_getLsbD (by decide) (by decide)).trans (by simp)
  · refine (afterBody_bodyEnd { c with rep := false, tstat := Word.putField c.tstat 4 4 0, pc := BitVec.ofNat 64 last } (last - 4)).congr
      rfl rfl rfl (fun n => ?_) rfl rfl rfl
    unfold Ctx.suspended
    by_cases hn : 17 + n < 64
    · rw [putField_getLsbD (by decide) hn, if_neg (by omega)]
    · rw [BitVec.getLsbD_of_ge _ _ (by omega), BitVec.getLsbD_of_ge _ _ (by omega)]

/-- A completion moves the position of a replay, and the last one ends it (R130). -/
theorem complete_replayed (al : Alike s r) (hc : s.curCtx < 5) (hr : Replays s n m d a b) : Replayed s (r.complete h) n m := by
  obtain ⟨hrep, hd, n', m', d', a', b', he, rfl, rfl, -⟩ := hr
  obtain ⟨hn, hm, -⟩ := rep_fields he
  have hf : r.repFields = (n'.toNat + 1, m'.toNat + 1) := by
    unfold State.repFields
    dsimp only
    rw [al.flow.pc, al.insn, hn, hm]
  have hw : r.afterWord = r.afterCapture := if_pos (al.flow.rep.trans hrep)
  have hslot : r.ctx.rslot = s.ctx.rslot := by simp only [Ctx.rslot, al.flow.tstat]
  have hiter : r.ctx.riter = s.ctx.riter := by simp only [Ctx.riter, al.flow.tstat]
  have hn16 := n'.isLt
  have hm64 := m'.isLt
  obtain ⟨w, k, ht, -⟩ := marked_ctx (al.curCtx ▸ hc) r.afterWord h.sw r.instrPc
  rw [← complete_eq (al.curCtx ▸ hc), hw] at ht
  have hl := afterCapture_last (s := r)
  have hg := afterCapture_again (s := r)
  have hx := afterCapture_next (s := r)
  rw [hf, hslot, hiter] at hl hg
  rw [hf, hslot, hiter] at hx
  refine ⟨fun h1 => ?next, fun h1 h2 => ?again, fun h1 h2 => ?last⟩
  case next =>
    have hi : s.ctx.riter < 64 := Nat.mod_lt _ (by decide)
    obtain ⟨hs, hj⟩ := repAt_position r.ctx.captured (slot := s.ctx.rslot + 1) (iter := s.ctx.riter) (by omega) hi
    rw [ht, hx h1]
    exact ⟨al.flow.rep.trans hrep, hs, hj, al.flow.pc, al.flow.lc0, al.flow.lc1⟩
  case again =>
    obtain ⟨hs, hj⟩ := repAt_position r.ctx.captured (slot := 0) (iter := s.ctx.riter + 1) (by decide) (by omega)
    rw [ht, hg h1 h2]
    exact ⟨al.flow.rep.trans hrep, hs, hj, al.flow.pc, al.flow.lc0, al.flow.lc1⟩
  case last =>
    obtain ⟨hq, hi, hb⟩ := repDone_effect r.ctx.captured (s.captureEnd (n'.toNat + 1) (s.ctx.pc.toNat + 4))
    rw [captureEnd_congr al.insn, al.flow.pc] at hl
    rw [ht, hl h1 h2]
    refine ⟨hq, hi, hb.congr al.flow.lc0.symm al.flow.lc1.symm al.flow.laterLc1.symm (fun n => ?_) rfl rfl rfl⟩
    simp only [Ctx.suspended, ← al.flow.tstat]
    rfl

end

/-! What staggering makes of a word (R130). -/

section
variable {h : Head} {maj : BitVec 6} {d a b : Reg} {k : BitVec 3}

/-- Five bits of a word replaced. -/
def setField5 (w : Insn) (lo : Nat) (v : Reg) : Insn := (w &&& ~~~((0x1F#32) <<< lo)) ||| ((v.setWidth 32) <<< lo)

theorem setField5_getElem (w : Insn) (lo : Nat) (v : Reg) {i : Nat} (hi : i < 32) :
    (setField5 w lo v)[i] = if lo ≤ i ∧ i < lo + 5 then v.getLsbD (i - lo) else w[i] := by
  have hm (j : Nat) : (0x1F#32).getLsbD j = decide (j < 5) := by
    rw [show 0x1F#32 = (BitVec.allOnes 5).setWidth 32 by decide, BitVec.getLsbD_setWidth, BitVec.getLsbD_allOnes]
    simp
    omega
  have hv (hj : ¬i - lo < 5) : v.getLsbD (i - lo) = false := BitVec.getLsbD_of_ge _ _ (Nat.not_lt.1 hj)
  unfold setField5
  rw [← BitVec.getLsbD_eq_getElem, ← BitVec.getLsbD_eq_getElem]
  simp only [BitVec.getLsbD_or, BitVec.getLsbD_and, BitVec.getLsbD_not, BitVec.getLsbD_shiftLeft, BitVec.getLsbD_setWidth, hm]
  by_cases h1 : lo ≤ i
  · by_cases h2 : i < lo + 5
    · simp [h1, h2, hi, Nat.not_lt.2 h1, show i - lo < 5 by omega, show i - lo < 32 by omega]
    · have h5 : ¬i - lo < 5 := by omega
      simp [h2, hi, h5, hv h5]
  · simp [h1, hi, Nat.lt_of_not_le h1]

theorem setField5_rd (f : BitVec 7) (v : Reg) : setField5 (word h maj (bodyR d a b f)) 17 v = word h maj (bodyR v a b f) := by
  ext i hi
  rw [setField5_getElem _ _ _ hi]
  simp [word, bodyR]
  grind

theorem setField5_rs1 (f : BitVec 7) (v : Reg) : setField5 (word h maj (bodyR d a b f)) 12 v = word h maj (bodyR d v b f) := by
  ext i hi
  rw [setField5_getElem _ _ _ hi]
  simp [word, bodyR]
  grind

theorem setField5_rs2 (f : BitVec 7) (v : Reg) : setField5 (word h maj (bodyR d a b f)) 7 v = word h maj (bodyR d a v f) := by
  ext i hi
  rw [setField5_getElem _ _ _ hi]
  simp [word, bodyR]
  grind

theorem word_registers (f : BitVec 7) : (word h maj (bodyR d a b f)).extractLsb' 17 5 = d ∧
    (word h maj (bodyR d a b f)).extractLsb' 12 5 = a ∧ (word h maj (bodyR d a b f)).extractLsb' 7 5 = b := by
  rw [extract_word _ _ _ (by decide), extract_word _ _ _ (by decide), extract_word _ _ _ (by decide)]
  exact ⟨rd_bodyR .., rs1_bodyR .., rs2_bodyR ..⟩

/-- One register field of a captured word, staggered where it is concerned. -/
def staggerAt (on : Bool) (lo st j : Nat) (w : Insn) : Insn :=
  if on then setField5 w lo (regPlus (w.extractLsb' lo 5) (j * st)) else w

/-- Staggering adds to the register fields that it concerns, and leaves the rest of the word. -/
theorem staggered_bodyR {f : BitVec 7} {p q r : Bool} (hf : staggerFields (word h maj (bodyR d a b f)) = (p, q, r)) (sd sa sb j : Nat) :
    staggered (word h maj (bodyR d a b f)) sd sa sb j = word h maj
      (bodyR (if p then regPlus d (j * sd) else d) (if q then regPlus a (j * sa) else a) (if r then regPlus b (j * sb) else b) f) := by
  have hw : staggered (word h maj (bodyR d a b f)) sd sa sb j =
      staggerAt r 7 sb j (staggerAt q 12 sa j (staggerAt p 17 sd j (word h maj (bodyR d a b f)))) := by
    unfold staggered
    rw [hf]
    rfl
  have h1 (d : Reg) : staggerAt p 17 sd j (word h maj (bodyR d a b f)) = word h maj (bodyR (if p then regPlus d (j * sd) else d) a b f) := by
    cases p
    · rfl
    · exact (setField5_rd f _).trans (by rw [(word_registers f).1]; rfl)
  have h2 (d : Reg) : staggerAt q 12 sa j (word h maj (bodyR d a b f)) = word h maj (bodyR d (if q then regPlus a (j * sa) else a) b f) := by
    cases q
    · rfl
    · exact (setField5_rs1 f _).trans (by rw [(word_registers f).2.1]; rfl)
  have h3 (d a : Reg) : staggerAt r 7 sb j (word h maj (bodyR d a b f)) = word h maj (bodyR d a (if r then regPlus b (j * sb) else b) f) := by
    cases r
    · rfl
    · exact (setField5_rs2 f _).trans (by rw [(word_registers f).2.2]; rfl)
  rw [hw, h1, h2, h3]

/-! The same of the other formats (R95). -/

theorem bodyV_eq_bodyR (f : BitVec 4) : bodyV d a b k f = bodyR d a b (k ++ f) := by
  unfold bodyV bodyR
  ext i hi
  simp
  grind

theorem bodyI_eq_bodyR (i : BitVec 12) : bodyI d a i = bodyR d a (i.extractLsb' 7 5) (i.extractLsb' 0 7) := by
  unfold bodyI bodyR
  ext i hi
  simp
  grind

theorem bodyU_eq_bodyR (i : BitVec 17) : bodyU d i = bodyR d (i.extractLsb' 12 5) (i.extractLsb' 7 5) (i.extractLsb' 0 7) := by
  unfold bodyU bodyR
  ext i hi
  simp
  grind

theorem staggered_bodyV {f : BitVec 4} {p q r : Bool} (hf : staggerFields (word h maj (bodyV d a b k f)) = (p, q, r)) (sd sa sb j : Nat) :
    staggered (word h maj (bodyV d a b k f)) sd sa sb j = word h maj
      (bodyV (if p then regPlus d (j * sd) else d) (if q then regPlus a (j * sa) else a) (if r then regPlus b (j * sb) else b) k f) := by
  rw [bodyV_eq_bodyR] at hf ⊢
  rw [staggered_bodyR hf, bodyV_eq_bodyR]

/-- Numbers are not staggered. -/
theorem staggered_bodyI {i : BitVec 12} {p q : Bool} (hf : staggerFields (word h maj (bodyI d a i)) = (p, q, false)) (sd sa sb j : Nat) :
    staggered (word h maj (bodyI d a i)) sd sa sb j = word h maj
      (bodyI (if p then regPlus d (j * sd) else d) (if q then regPlus a (j * sa) else a) i) := by
  rw [bodyI_eq_bodyR] at hf ⊢
  rw [staggered_bodyR hf, bodyI_eq_bodyR]
  rfl

theorem staggered_bodyU {i : BitVec 17} {p : Bool} (hf : staggerFields (word h maj (bodyU d i)) = (p, false, false)) (sd sa sb j : Nat) :
    staggered (word h maj (bodyU d i)) sd sa sb j = word h maj (bodyU (if p then regPlus d (j * sd) else d) i) := by
  rw [bodyU_eq_bodyR] at hf ⊢
  rw [staggered_bodyR hf, bodyU_eq_bodyR]
  rfl

/-- The functions that the table of staggered fields looks at. -/
theorem word_functions (f : BitVec 4) : (word h maj (bodyV d a b k f)).extractLsb' 0 4 = f := by
  rw [extract_word _ _ _ (by decide)]
  exact fn4_bodyV ..

theorem word_fn7 (f : BitVec 7) : (word h maj (bodyR d a b f)).extractLsb' 0 7 = f := by
  rw [extract_word _ _ _ (by decide)]
  exact fn7_bodyR ..

end

/-! REP and FMT (R97, R99, R129). -/

section
variable {s t v : State} {h : Head}

theorem inside_setCtx (y : Ctx) : Inside s (s.setCtx y) :=
  ⟨rfl, fun _ _ => rfl, fun n hn => by simp [State.setCtx, State.setCtxOf, core_setCore, hn],
    by simp [State.me, State.setCtx, State.setCtxOf, CoreSt.setCtx]⟩

/-- A context replaced by one with the same registers but for tstat. -/
theorem setCtx_frame_tstat (hc : s.curCtx < 5) {y : Ctx} (hs : SameRegs s.ctx y) (hl : y.lc0 = s.ctx.lc0 ∧ y.lc1 = s.ctx.lc1) :
    Frame { sr := [0x000] } s (s.setCtx y) := by
  have e : (s.setCtx y).ctx = y := ctx_setCtx_same s y hc
  refine ⟨⟨rfl, rfl⟩, fun r _ => ?_, fun r _ => ?_, fun n _ => ?_, fun n _ => ?_, fun n hn _ => ?_, fun hn => absurd (by decide) hn,
    fun _ _ _ => by rw [e]; exact hl, fun n i hne => ?_, fun n _ => ?_, rfl, rfl, rfl⟩
  · rw [e, Ctx.rx, Ctx.rx, hs.x]
  · rw [e, Ctx.rv, Ctx.rv, hs.v]
  · rw [e, Ctx.rp, Ctx.rp, hs.p]
  · rw [e, Ctx.rk, Ctx.rk, hs.k]
  · exact readStatus_setCtx s y hc hs.tpc hs.tcause hs.tval hs.fpre hs.fflags hs.frm hs.fseed hs.tid hs.grp hs.exitc hs.hst hs.chb
      hs.gtol hs.gdmp n hn
  · rw [ctxOf_setCtx s y hc, if_neg hne]
  · simp [CoreSt.port]

/-- A replay begins at position (0, 0). -/
def Ctx.replayed (c : Ctx) : Ctx := { c with rep := true, tstat := Word.putField c.tstat 15 4 1 }

theorem replayed_position (c : Ctx) : c.replayed.inrep = true ∧ c.replayed.rslot = 0 ∧ c.replayed.riter = 0 := by
  have hb (i : Nat) (h4 : 4 ≤ i) (hi : i ≤ 15) : c.replayed.tstat.getLsbD i = decide (i = 4) := by
    refine (putField_getLsbD (by decide) (by omega)).trans ?_
    rw [if_pos ⟨h4, hi⟩, ← pow_zero 2, Nat.testBit_two_pow]
    exact decide_eq_decide.2 (by omega)
  have hz (hi lo : Nat) (h4 : 4 < lo) (h15 : hi ≤ 15) : Word.field c.replayed.tstat hi lo = 0 := by
    refine Nat.eq_of_testBit_eq fun i => ?_
    rw [field_testBit, Nat.zero_testBit, Bool.and_eq_false_imp]
    intro hi'
    rw [decide_eq_true_eq] at hi'
    rw [hb _ (by omega) (by omega), decide_eq_false (by omega)]
  exact ⟨hb 4 (by decide) (by decide), hz 9 5 (by decide) (by decide), hz 15 10 (by decide) (by decide)⟩

/-- REP begins its replay at position (0, 0), with the PC on it (R130). -/
theorem exec_rep (n : BitVec 4) (it : BitVec 6) (d a b : BitVec 2) (c : Clear s clsCapture h []) :
    ∃ t, exec (.rep h n it d a b) s = .next t ∧ t.ctx.rep = true ∧ t.ctx.inrep = true ∧ t.ctx.rslot = 0 ∧ t.ctx.riter = 0 ∧
      t.ctx.pc = s.ctx.pc ∧ t.ctx.tstat &&& ~~~0xFFF0#64 = s.ctx.tstat &&& ~~~0xFFF0#64 ∧ Frame { sr := [0x000] } s t ∧ Inside s t := by
  have hu := ctx_setCtx_same s s.ctx.charge c.here
  have hx : exec (.rep h n it d a b) s = .next (s.setCtx (s.ctx.charge.replayed)) := by
    refine (congrArg Host.Outcome.next (run_clear c _ true rfl _)).trans ?_
    rw [hu]
    exact congrArg Host.Outcome.next (setCtx_setCtx ..)
  have ht : (s.ctx.charge.replayed).tstat = Word.putField s.ctx.tstat 15 4 1 := by simp [Ctx.replayed]
  obtain ⟨hi, hs, hj⟩ := replayed_position s.ctx.charge
  refine ⟨_, hx, ?_⟩
  rw [ctx_setCtx_same s _ c.here]
  refine ⟨rfl, hi, hs, hj, ?_, ?_, setCtx_frame_tstat c.here ?_ ?_, inside_setCtx _⟩
  · simp [Ctx.replayed]
  · rw [ht]
    exact putField_outside _ _ _ _ _ (by decide)
  · exact (sameRegs_charge s.ctx).trans (by constructor <;> rfl)
  · simp [Ctx.replayed]

/-- FMT holds its body for the next word (R97, R99). -/
theorem exec_fmt (a b : BitVec 4) (d r : BitVec 3) (u : BitVec 1) (k : BitVec 2) (x : BitVec 1) (c : Clear s clsCapture Head.plain [])
    (hb : s.ctx.endsBody = false) : ∃ t, exec (.fmt a b d r u k x) s = .next t ∧ t.ctx.pfx = some (bodyFmt a b d r u k x) ∧
      t.ctx.pc = s.ctx.pc + 4 ∧ Frame {} s t ∧ Inside s t := by
  have hl : (!s.ctx.lastOfBody s.ctx.pc.toNat) = true := by
    rw [show s.ctx.lastOfBody s.ctx.pc.toNat = false from hb]
    rfl
  have hx : exec (.fmt a b d r u k x) s = .next (s.setCtx { s.ctx.charge with pc := s.ctx.charge.pc + 4, pfx := some (bodyFmt a b d r u k x) }) := by
    refine (congrArg Host.Outcome.next (run_clear c _ _ hl _)).trans ?_
    rw [ctx_setCtx_same s s.ctx.charge c.here]
    exact congrArg Host.Outcome.next (setCtx_setCtx ..)
  refine ⟨_, hx, ?_⟩
  rw [ctx_setCtx_same s _ c.here]
  refine ⟨rfl, by simp, setCtx_frame s _ c.here ?_ ?_ ?_⟩
  · exact (sameRegs_charge s.ctx).trans (by constructor <;> rfl)
  · simp
  · simp

/-- FMT is illegal as the last word of a live loop's body (R99). -/
theorem exec_fmt_illegal (a b : BitVec 4) (d r : BitVec 3) (u : BitVec 1) (k : BitVec 2) (x : BitVec 1) (hs : s.ctx.spent = false)
    (hp : s.ctx.pfx = none) (hb : s.ctx.endsBody = true) :
    exec (.fmt a b d r u k x) s = .next ((s.setCtx s.ctx.charge).trap 0x01 ((Instr.fmt a b d r u k x).wordOf.setWidth 64)) := by
  refine congrArg Host.Outcome.next (run_of_trap hs hp (pre_illegal hp ?_))
  rw [show s.ctx.lastOfBody s.ctx.pc.toNat = true from hb]
  simp

end

/-! A step of a replay (R129, R130). -/

section
variable {s v : State} {n m d a b p : Nat}

/-- What follows the fetch of a word that stands in the core's own slice. -/
theorem fetching_here {f : State → Insn → Out} (hc : v.cur < 2048) (h : FetchOk v p) : v.fetching p f = f v (v.insn p) := by
  have hk : stackCore v.cur = false := decide_eq_false (Nat.not_le.2 hc)
  obtain ⟨hx, hp, -⟩ := h
  exact fetching_word (fetch_tile hk hx) ((badWord_here (fetchPa_tile hk)).trans hp)

/-- What a context holds does not decide about a fetch. -/
theorem FetchOk.setCtx (h : FetchOk s p) (y : Ctx) : FetchOk (s.setCtx y) p := by
  obtain ⟨hx, hp, hl⟩ := h
  have hb : (s.setCtx y).me.xb = s.me.xb := setCtx_me_xb s y
  exact ⟨hb ▸ hx, hp, setCtx_me_loading s y ▸ hl⟩

/-- A step of a context that replays is one execution of its replay. -/
theorem step_of_replays (h : Issues s v) (hr : Replays v n m d a b) (hc : v.cur < 2048) (hf : FetchOk v v.ctx.pc.toNat) :
    step s = v.replay (v.insn v.ctx.pc.toNat) ∧ v.curCtx < 5 := by
  obtain ⟨x, hx, hv, hm, hw, hb⟩ := h
  obtain ⟨hs, hx5⟩ := step_of_chosen hx
  obtain ⟨hrep, hd, n', m', d', a', b', he, -⟩ := hr
  have hy : (x.setCtx { x.ctx with wait := .none }).ctx = { x.ctx with wait := .none } := ctx_setCtx_same _ _ hx5
  have hn : (x.setCtx { x.ctx with wait := .none }).issueNext = v.replay (v.insn v.ctx.pc.toNat) := by
    unfold State.issueNext
    dsimp only
    rw [← hv, hb, hrep, if_neg Bool.false_ne_true, if_pos rfl, fetching_here hc hf]
    rw [he]
  refine ⟨?_, ?_⟩
  · rw [hs, ← hn]
    unfold State.issueOne
    dsimp only
    split
    · next a ha => rw [delivered_eq_none (by rw [hy]; exact hm a ha)]
    · next c hc => exact absurd hc (hw c)
    · rfl
  · obtain ⟨f, hf⟩ := freshFetch_eq (s := x.setCtx { x.ctx with wait := .none })
    obtain ⟨m, e, he⟩ := codeSeen_eq (s := (x.setCtx { x.ctx with wait := .none }).freshFetch)
      (x.setCtx { x.ctx with wait := .none }).ctx.pc.toNat
    rw [hv, he, hf]
    exact hx5

theorem beyondBody_iff {c : Ctx} : c.beyondBody p = true ↔ BeyondLoop c p := by
  unfold Ctx.beyondBody BeyondLoop
  simp only [Bool.or_eq_true, Bool.and_eq_true, decide_eq_true_eq]
  refine ⟨?_, ?_⟩
  · rintro (⟨hl, hb⟩ | ⟨hl, hb⟩)
    · exact ⟨0, by decide, hl, hb⟩
    · exact ⟨1, by decide, hl, hb⟩
  · rintro ⟨n, hn, hl, hb⟩
    obtain rfl | rfl : n = 0 ∨ n = 1 := by omega
    · exact .inl ⟨hl, hb⟩
    · exact .inr ⟨hl, hb⟩

/-- A captured word beyond a loop's body is illegal (R129). -/
theorem replayWord_beyond {rep w : Insn} (h : BeyondLoop v.ctx p) : State.replayWord rep p v w = .next (v.trap 0x01 (w.setWidth 64)) :=
  if_pos (beyondBody_iff.2 h)

/-- Another one runs, with the staggers of its REP (R130). -/
theorem replayWord_within {w : Insn} (hr : Replays s n m d a b) (h : ¬BeyondLoop v.ctx p) :
    State.replayWord (s.insn s.ctx.pc.toNat) p v w = v.runWord (staggered w d a b v.ctx.riter) := by
  obtain ⟨-, hd, n', m', d', a', b', he, -, -, rfl, rfl, rfl⟩ := hr
  obtain ⟨-, -, h1, h2, h3⟩ := rep_fields he
  refine (if_neg (mt beyondBody_iff.1 h)).trans ?_
  rw [h1, h2, h3]

/-- The body and the major opcode of a word that decodes to an FMT. -/
theorem fmt_fields {w : Insn} {fa fb : BitVec 4} {fd fr : BitVec 3} {ft : BitVec 1} {fc : BitVec 2} {fx : BitVec 1}
    (e : decodeWord w = .ok (.fmt fa fb fd fr ft fc fx)) :
    w.extractLsb' 0 22 = bodyFmt fa fb fd fr ft fc fx ∧ isFmtWord w = true := by
  obtain ⟨he, -⟩ := encode_of_decodeWord e
  obtain rfl : word Head.plain 0x32 (bodyFmt fa fb fd fr ft fc fx) = w := Option.some.inj he
  exact ⟨body_of_word .., by rw [isFmtWord, major_of_word]; rfl⟩

section
variable {rep : Insn} (hc : v.cur < 2048) (hp : p = v.captureEnd v.ctx.rslot (v.ctx.pc.toNat + 4)) (hf : FetchOk v p)
include hc hp hf

/-- A word that is no FMT is executed by itself. -/
theorem replay_other (h : ∀ fa fb fd fr ft fc fx, decodeWord (v.insn p) ≠ .ok (.fmt fa fb fd fr ft fc fx)) :
    v.replay rep = State.replayWord rep p v (v.insn p) := by
  subst hp
  unfold State.replay
  dsimp only
  rw [fetching_here hc hf]
  split
  · next he => exact absurd he (h _ _ _ _ _ _ _)
  · rfl

section
variable {fa fb : BitVec 4} {fd fr : BitVec 3} {ft : BitVec 1} {fc : BitVec 2} {fx : BitVec 1}
  (e : decodeWord (v.insn p) = .ok (.fmt fa fb fd fr ft fc fx))
include e

/-- An FMT beyond a loop's body, or as its last word, is illegal (R99, R129). -/
theorem replay_fmt_illegal (h : BeyondLoop v.ctx p ∨ v.ctx.lastOfBody p = true) :
    v.replay rep = .next (v.trap 0x01 ((v.insn p).setWidth 64)) := by
  subst hp
  unfold State.replay
  dsimp only
  rw [fetching_here hc hf, e]
  exact if_pos (Bool.or_eq_true_iff.2 (h.imp_left beyondBody_iff.2))

/-- An FMT goes with its consumer behind it (R99). -/
theorem replay_fmt (hb : ¬BeyondLoop v.ctx p) (hl : v.ctx.lastOfBody p = false) (hp4 : FetchOk v (p + 4)) (hc5 : v.curCtx < 5) :
    v.replay rep = State.replayWord rep (p + 4) (v.setCtx { v.ctx with pfx := some (bodyFmt fa fb fd fr ft fc fx) }) (v.insn (p + 4)) := by
  obtain ⟨hx, -⟩ := fmt_fields e
  subst hp
  unfold State.replay
  dsimp only
  rw [fetching_here hc hf, e, hx]
  dsimp only
  rw [if_neg (by rw [hl, Bool.or_false, beyondBody_iff]; exact hb)]
  refine (fetching_here (v := v.setCtx _) hc (hp4.setCtx _)).trans ?_
  rw [insn_setCtx hc5]
  rfl

end

/-- A captured word beyond a loop's body is illegal, be it an FMT or another one (R129). -/
theorem replay_beyond (hb : BeyondLoop v.ctx p) : v.replay rep = .next (v.trap 0x01 ((v.insn p).setWidth 64)) := by
  by_cases h : ∃ fa fb fd fr ft fc fx, decodeWord (v.insn p) = .ok (.fmt fa fb fd fr ft fc fx)
  · obtain ⟨fa, fb, fd, fr, ft, fc, fx, e⟩ := h
    exact replay_fmt_illegal hc hp hf e (.inl hb)
  · rw [replay_other hc hp hf fun fa fb fd fr ft fc fx e => h ⟨fa, fb, fd, fr, ft, fc, fx, e⟩]
    exact replayWord_beyond hb

end

end

/-! Executions of a replay that complete (R130). -/

section
variable {s : State} {i : Instr} {h : Head} {k : Cls} {uses : List Nat} {n m d a b : Nat}
  (e : checkedCase i = some (h, k, uses)) (hr : Replays s n m d a b)
include e hr

theorem exec_replayed (hk : k.rep = true) (c : Clear s k h uses) : ∃ t, exec i s = .next t ∧ Replayed s t n m := by
  obtain ⟨-, hb, -⟩ := exec_checkedCase e
  obtain ⟨r, hx, al, -⟩ := exec_clear e c fun c hc => nomatch hc.symm.trans (hb hk)
  exact ⟨_, hx, complete_replayed al c.here hr⟩

theorem exec_off_replayed (hc : s.curCtx < 5) (hs : s.ctx.spent = false) (hl : s.ctx.legal k = true) (hp : s.ctx.pfx = none ∨ k.fmt = true)
    (hg : s.ctx.guard h.g = false) : ∃ t, exec i s = .next t ∧ Replayed s t n m := by
  obtain ⟨hf, -⟩ := exec_checkedCase e
  have hp' : s.ctx.pfx = none := hp.resolve_right (by simp [hf])
  exact ⟨_, exec_off e hs hp' hl hg, complete_replayed (alike_charge hc) hc hr⟩

end

/-- Settles O10: REP and FMT, the step of a replay, what its completion leaves, and the staggering form by form. -/
theorem captureResults : Obligations.CaptureResults := by
  refine ⟨fun s h => ⟨fun n it d a b c => exec_rep n it d a b c, fun a b d r u k x => ⟨fun c hb => exec_fmt a b d r u k x c hb,
      fun hs hp hb => exec_fmt_illegal a b d r u k x hs hp hb⟩⟩,
    fun s v n m d a b hi hr hc hf => ?step,
    fun i h k uses s n m d a b e hk _ hr => ⟨exec_replayed e hr hk, fun hc hs hl hp _ hg => exec_off_replayed e hr hc hs hl hp hg⟩,
    fun h d a b k sd sa sb j => ?forms⟩
  case step =>
    intro p runs hp
    obtain ⟨hs, hc5⟩ := step_of_replays hi hr hc hf
    refine ⟨fun hb => hs.trans (replay_beyond hc rfl hp hb), fun hb => ⟨fun hw => ?alone, fun fa fb fd fr ft fc fx e => ?pair⟩⟩
    case alone =>
      have ho (fa fb fd fr ft fc fx) : decodeWord (v.insn p) ≠ .ok (.fmt fa fb fd fr ft fc fx) := fun e => by
        obtain hm | ⟨_, he⟩ := hw
        · exact absurd (hm.symm.trans (fmt_fields e).2) (by decide)
        · exact nomatch he.symm.trans e
      exact runs_of_runWord (hs.trans ((replay_other hc rfl hp ho).trans (replayWord_within hr hb))) rfl
    case pair =>
      intro u
      refine ⟨fun hl => hs.trans (replay_fmt_illegal hc rfl hp e (.inr hl)), fun hl hp4 => ?_⟩
      have hx : step s = State.replayWord (v.insn v.ctx.pc.toNat) (p + 4) u (v.insn (p + 4)) := hs.trans (replay_fmt hc rfl hp e hb hl hp4 hc5)
      have hu : u.ctx = { v.ctx with pfx := some (bodyFmt fa fb fd fr ft fc fx) } := ctx_setCtx_same v _ hc5
      have hb4 : BeyondLoop u.ctx (p + 4) ↔ BeyondLoop v.ctx (p + 4) := by rw [hu]; rfl
      have hj : u.ctx.riter = v.ctx.riter := by rw [hu]; rfl
      refine ⟨fun h4 => hx.trans (replayWord_beyond (hb4.2 h4)), fun h4 => ?_⟩
      rw [replayWord_within hr (mt hb4.1 h4), hj] at hx
      exact runs_of_runWord hx rfl
  case forms =>
    refine ⟨staggered_bodyR (p := true) (q := true) (r := true) ?add .., staggered_bodyR (p := true) (q := true) (r := false) ?clz ..,
      staggered_bodyR (p := true) (q := true) (r := true) ?mul .., fun _ => staggered_bodyI (p := true) (q := true) ?addi ..,
      fun _ => staggered_bodyU (p := true) ?lui .., staggered_bodyV (p := true) (q := true) (r := true) ?vadd ..,
      staggered_bodyV (p := true) (q := true) (r := false) ?vabs .., staggered_bodyV (p := true) (q := true) (r := true) ?viadd ..,
      fun _ => staggered_bodyV (p := false) (q := true) (r := true) ?vceq .., staggered_bodyV (p := true) (q := true) (r := true) ?vext ..,
      fun _ => staggered_bodyV (p := true) (q := true) (r := false) ?vcvt .., staggered_bodyV (p := true) (q := true) (r := false) ?vrsum ..,
      fun _ => staggered_bodyV (p := true) (q := false) (r := false) ?kmovx .., fun _ => staggered_bodyV (p := false) (q := true) (r := false) ?xmovk ..,
      fun _ _ _ => staggered_bodyV (p := false) (q := false) (r := false) ?kand ..⟩
    all_goals simp [staggerFields, major_of_word, word_fn7, word_functions]

end Sys2Proof.Machine
end

section
namespace Sys2Proof.Machine

/-! Results of scalar instructions over the integers that the registers stand for (R132-R135). -/

section
variable (x y : Word) (n : Nat)

theorem sub_eq_ofInt : x - y = .ofInt 64 (x.toInt - y.toInt) := by
  rw [Int.sub_eq_add_neg, BitVec.ofInt_add, BitVec.ofInt_neg, BitVec.ofInt_toInt, BitVec.ofInt_toInt, BitVec.sub_eq_add_neg]

theorem shiftLeft_eq_ofNat : x <<< n = .ofNat 64 (x.toNat * 2 ^ n) :=
  BitVec.eq_of_toNat_eq (by simp [Nat.shiftLeft_eq])

theorem ushiftRight_eq_ofNat : x >>> n = .ofNat 64 (x.toNat / 2 ^ n) := by
  rw [← Nat.shiftRight_eq_div_pow, ← BitVec.toNat_ushiftRight, BitVec.ofNat_toNat, BitVec.setWidth_eq]

theorem sshiftRight_eq_ofInt : x.sshiftRight n = .ofInt 64 (x.toInt / 2 ^ n) := by
  rw [BitVec.sshiftRight, Int.shiftRight_eq_div_pow]
  rfl

theorem rotateRight_eq_or (h : n < 64) : x.rotateRight n = (x >>> n) ||| (x <<< (64 - n)) :=
  BitVec.rotateRight_eq_rotateRightAux_of_lt h

theorem shiftLeft_add_eq_ofNat : (x <<< n) + y = .ofNat 64 (2 ^ n * x.toNat + y.toNat) := by
  rw [shiftLeft_eq_ofNat, BitVec.add_def, BitVec.toNat_ofNat]
  exact BitVec.eq_of_toNat_eq (by simp [Nat.mul_comm])

theorem wordOfBool_eq_truth {b : Bool} {p : Prop} [Decidable p] (h : b = true ↔ p) : wordOfBool b = truth p := if_congr h rfl rfl

theorem slt_truth : wordOfBool (x.slt y) = truth (x.toInt < y.toInt) := wordOfBool_eq_truth BitVec.slt_iff_toInt_lt
theorem ult_truth : wordOfBool (x.ult y) = truth (x.toNat < y.toNat) := wordOfBool_eq_truth BitVec.ult_iff_toNat_lt

theorem ofNat_toNat_word : BitVec.ofNat 64 x.toNat = x := by rw [BitVec.ofNat_toNat, BitVec.setWidth_eq]

theorem min_eq_ofInt : (if x.slt y then x else y) = .ofInt 64 (Min.min x.toInt y.toInt) := by
  by_cases h : x.toInt < y.toInt
  · rw [if_pos (BitVec.slt_iff_toInt_lt.2 h), min_eq_left h.le, BitVec.ofInt_toInt]
  · rw [if_neg (mt BitVec.slt_iff_toInt_lt.1 h), min_eq_right (not_lt.1 h), BitVec.ofInt_toInt]

theorem max_eq_ofInt : (if x.slt y then y else x) = .ofInt 64 (Max.max x.toInt y.toInt) := by
  by_cases h : x.toInt < y.toInt
  · rw [if_pos (BitVec.slt_iff_toInt_lt.2 h), max_eq_right h.le, BitVec.ofInt_toInt]
  · rw [if_neg (mt BitVec.slt_iff_toInt_lt.1 h), max_eq_left (not_lt.1 h), BitVec.ofInt_toInt]

theorem minu_eq_ofNat : (if x.ult y then x else y) = .ofNat 64 (Min.min x.toNat y.toNat) := by
  by_cases h : x.toNat < y.toNat
  · rw [if_pos (BitVec.ult_iff_toNat_lt.2 h), min_eq_left h.le, ofNat_toNat_word]
  · rw [if_neg (mt BitVec.ult_iff_toNat_lt.1 h), min_eq_right (not_lt.1 h), ofNat_toNat_word]

theorem maxu_eq_ofNat : (if x.ult y then y else x) = .ofNat 64 (Max.max x.toNat y.toNat) := by
  by_cases h : x.toNat < y.toNat
  · rw [if_pos (BitVec.ult_iff_toNat_lt.2 h), max_eq_right h.le, ofNat_toNat_word]
  · rw [if_neg (mt BitVec.ult_iff_toNat_lt.1 h), max_eq_left (not_lt.1 h), ofNat_toNat_word]

theorem zext_eq_ofNat : (x.setWidth n).setWidth 64 = .ofNat 64 (x.toNat % 2 ^ n) :=
  BitVec.eq_of_toNat_eq (by simp)

theorem mul_eq_ofInt : x * y = .ofInt 64 (x.toInt * y.toInt) := by
  rw [BitVec.ofInt_mul, BitVec.ofInt_toInt, BitVec.ofInt_toInt]

theorem highHalf_unsigned : highHalf ((x.toNat : Int) * y.toNat) = .ofNat 64 (x.toNat * y.toNat / 2 ^ 64) := by
  unfold highHalf
  rw [← BitVec.ofInt_natCast]
  norm_cast

theorem quotient_eq : quotient x y = if y = 0 then .ofInt 64 (-1) else .ofInt 64 (x.toInt.tdiv y.toInt) := rfl
theorem quotientU_eq : quotientU x y = if y = 0 then .ofInt 64 (-1) else .ofNat 64 (x.toNat / y.toNat) := rfl

end

theorem addi_eq_ofInt (x : Word) (i : BitVec 12) : x + simm i = .ofInt 64 (x.toInt + i.toInt) := by
  rw [BitVec.ofInt_add, BitVec.ofInt_toInt]
  rfl

theorem slti_truth (x : Word) (i : BitVec 12) : wordOfBool (x.slt (simm i)) = truth (x.toInt < i.toInt) :=
  wordOfBool_eq_truth (BitVec.slt_iff_toInt_lt.trans (by rw [simm, BitVec.toInt_signExtend_of_le (by decide)]))

theorem lui_eq_ofInt (i : BitVec 17) : luiValue i = .ofInt 64 (BitVec.ofNat 32 (i.toNat * 2 ^ 15)).toInt := by
  have h : (i.setWidth 32) <<< 15 = BitVec.ofNat 32 (i.toNat * 2 ^ 15) := BitVec.eq_of_toNat_eq (by simp [Nat.shiftLeft_eq])
  unfold luiValue
  rw [h]
  rfl

/-! What the counting instructions count, and the reversal of bytes (R132). -/

section
variable (x : Word)

theorem leadingZeros_spec : (leadingZeros x).toNat ≤ 64 ∧ (∀ i, i < 64 → 64 - (leadingZeros x).toNat ≤ i → x.getLsbD i = false) ∧
    ((leadingZeros x).toNat < 64 → x.getLsbD (63 - (leadingZeros x).toNat) = true) := by
  unfold leadingZeros
  by_cases hx : x = 0
  · rw [if_pos hx]
    simp [hx]
  · have h0 : x.toNat ≠ 0 := fun h => hx (BitVec.eq_of_toNat_eq h)
    have hl : x.toNat.log2 < 64 := (Nat.log2_lt h0).2 x.isLt
    have ht : (BitVec.ofNat 64 (63 - x.toNat.log2)).toNat = 63 - x.toNat.log2 := by
      rw [BitVec.toNat_ofNat, Nat.mod_eq_of_lt (by omega)]
    rw [if_neg hx, ht]
    refine ⟨by omega, fun i hi hn => ?_, fun _ => ?_⟩
    · exact Nat.testBit_lt_two_pow ((Nat.log2_lt h0).1 (by omega))
    · rw [show 63 - (63 - x.toNat.log2) = x.toNat.log2 by omega]
      exact Nat.testBit_log2 h0

/-- The first set bit at or above `k`, among `n` bits. -/
theorem trailingFrom_spec (n k : Nat) : k ≤ trailingFrom x n k ∧ trailingFrom x n k ≤ k + n ∧
    (∀ i, k ≤ i → i < trailingFrom x n k → x.getLsbD i = false) ∧
    (trailingFrom x n k < k + n → x.getLsbD (trailingFrom x n k) = true) := by
  induction n generalizing k with
  | zero => exact ⟨Nat.le_refl k, Nat.le_refl k, fun i h1 h2 => absurd h2 (Nat.not_lt.2 h1), fun h => absurd h (Nat.lt_irrefl k)⟩
  | succ n ih =>
    rw [trailingFrom]
    by_cases hk : x.getLsbD k = true
    · rw [if_pos hk]
      exact ⟨Nat.le_refl k, Nat.le_add_right .., fun i h1 h2 => absurd h2 (Nat.not_lt.2 h1), fun _ => hk⟩
    · obtain ⟨h1, h2, h3, h4⟩ := ih (k + 1)
      rw [if_neg hk]
      refine ⟨by omega, by omega, fun i hi hl => ?_, fun h => h4 (by omega)⟩
      by_cases he : i = k
      · rw [he, Bool.eq_false_of_not_eq_true hk]
      · exact h3 i (by omega) hl

theorem trailingZeros_spec : (trailingZeros x).toNat ≤ 64 ∧ (∀ i, i < (trailingZeros x).toNat → x.getLsbD i = false) ∧
    ((trailingZeros x).toNat < 64 → x.getLsbD (trailingZeros x).toNat = true) := by
  obtain ⟨-, h2, h3, h4⟩ := trailingFrom_spec x 64 0
  have ht : (trailingZeros x).toNat = trailingFrom x 64 0 := by
    rw [trailingZeros, BitVec.toNat_ofNat, Nat.mod_eq_of_lt (by omega)]
  rw [ht]
  exact ⟨by omega, fun i => h3 i (Nat.zero_le i), fun h => h4 (by omega)⟩

theorem onesBelow_eq_length (n : Nat) : onesBelow x n = ((List.range n).filter fun i => x.getLsbD i).length := by
  induction n with
  | zero => rfl
  | succ n ih =>
    rw [onesBelow, ih, List.range_succ, List.filter_append, List.length_append]
    cases h : x.getLsbD n <;> simp [h]

theorem bytesNat_testBit (l : List Byte) (i : Nat) {j : Nat} (hj : j < 8) :
    (bytesNat l).testBit (8 * i + j) = (l.getD i 0).getLsbD j := by
  induction l generalizing i with
  | nil => simp [bytesNat]
  | cons b l ih =>
    have hb : b.toNat < 2 ^ 8 := b.isLt
    have e : bytesNat (b :: l) = 2 ^ 8 * bytesNat l + b.toNat := by simp [bytesNat, Nat.add_comm]
    rw [e, Nat.testBit_two_pow_mul_add _ hb]
    cases i with
    | zero => rw [if_pos (by omega), Nat.mul_zero, Nat.zero_add]; rfl
    | succ i =>
      rw [if_neg (by omega), show 8 * (i + 1) + j - 8 = 8 * i + j by omega, ih]
      rfl

theorem natBytes_getD {n i : Nat} (h : i < n) (v : Nat) : (natBytes n v).getD i 0 = BitVec.ofNat 8 (v / 256 ^ i) := by
  induction n generalizing i v with
  | zero => exact absurd h (Nat.not_lt_zero i)
  | succ n ih =>
    cases i with
    | zero => simp [natBytes]
    | succ i => rw [natBytes, List.getD_cons_succ, ih (by omega), Nat.div_div_eq_div_mul, pow_succ, Nat.mul_comm]

theorem byteReverse_getLsbD {i j : Nat} (hi : i < 8) (hj : j < 8) :
    (byteReverse x).getLsbD (8 * i + j) = x.getLsbD (8 * (7 - i) + j) := by
  have hr : (natBytes 8 x.toNat).reverse.getD i 0 = (natBytes 8 x.toNat).getD (7 - i) 0 := by
    rw [List.getD_eq_getElem?_getD, List.getD_eq_getElem?_getD, List.getElem?_reverse (by rw [natBytes_length]; exact hi),
      natBytes_length, show 8 - 1 - i = 7 - i by omega]
  rw [byteReverse, BitVec.getLsbD_ofNat, bytesNat_testBit _ i hj, hr, natBytes_getD (by omega), BitVec.getLsbD_ofNat,
    show (256 : Nat) ^ (7 - i) = 2 ^ (8 * (7 - i)) by rw [Nat.pow_mul], ← Nat.shiftRight_eq_div_pow, Nat.testBit_shiftRight,
    decide_eq_true hj, decide_eq_true (show 8 * i + j < 64 by omega), Bool.true_and, Bool.true_and, BitVec.testBit_toNat]

end

/-! How the scalar instructions issue: each with the value that the case table gives (R132-R136, R190). -/

section
variable {s : State} {i : Instr} {h : Head} {d a b : Reg}

theorem alu3_xCase3 (f : Word → Word → Word) {g : Word → Word → Word} (hf : ∀ x y, f x y = g x y) : s.alu3 i h d a b f =
    .next (s.run clsArith i h true [ux a, ux b, ux d] fun u => .done (u.setCtx (u.ctx.wx d ((xCase3 h d a b g).value u.ctx)))) := by
  rw [show f = g from funext fun x => funext fun y => hf x y]
  rfl

theorem alu2_xCase2 (f : Word → Word) {g : Word → Word} (hf : ∀ x, f x = g x) : s.alu2 i h d a f =
    .next (s.run clsArith i h true [ux a, ux d] fun u => .done (u.setCtx (u.ctx.wx d ((xCase2 h d a g).value u.ctx)))) := by
  rw [show f = g from funext hf]
  rfl

/-- A scalar instruction's effect is the write of the value that its case gives. -/
theorem exec_scalarCase_value {c : XCase} (e : scalarCase i = some c) (s : State) : exec i s =
    .next (s.run c.cls i c.h true c.uses fun u => .done (u.setCtx (u.ctx.wx c.d (c.value u.ctx)))) := by
  cases i <;> cases e
  case add => exact alu3_xCase3 (· + ·) BitVec.add_def
  case sub => exact alu3_xCase3 (· - ·) sub_eq_ofInt
  case and | or | xor | andn | orn => rfl
  case sll => exact alu3_xCase3 (fun x y => x <<< shamt y) fun x y => shiftLeft_eq_ofNat x _
  case srl => exact alu3_xCase3 (fun x y => x >>> shamt y) fun x y => ushiftRight_eq_ofNat x _
  case sra => exact alu3_xCase3 (fun x y => x.sshiftRight (shamt y)) fun x y => sshiftRight_eq_ofInt x _
  case ror => exact alu3_xCase3 (fun x y => x.rotateRight (shamt y)) fun x y => rotateRight_eq_or x _ (Nat.mod_lt _ (by decide))
  case slt => exact alu3_xCase3 (fun x y => wordOfBool (x.slt y)) slt_truth
  case sltu => exact alu3_xCase3 (fun x y => wordOfBool (x.ult y)) ult_truth
  case seq => exact alu3_xCase3 (fun x y => wordOfBool (x == y)) fun x y => wordOfBool_eq_truth beq_iff_eq
  case sne => exact alu3_xCase3 (fun x y => wordOfBool (x != y)) fun x y => wordOfBool_eq_truth bne_iff_ne
  case min => exact alu3_xCase3 (fun x y => if x.slt y then x else y) min_eq_ofInt
  case max => exact alu3_xCase3 (fun x y => if x.slt y then y else x) max_eq_ofInt
  case minu => exact alu3_xCase3 (fun x y => if x.ult y then x else y) minu_eq_ofNat
  case maxu => exact alu3_xCase3 (fun x y => if x.ult y then y else x) maxu_eq_ofNat
  case sh1add => exact alu3_xCase3 (fun x y => (x <<< 1) + y) fun x y => shiftLeft_add_eq_ofNat x y 1
  case sh2add => exact alu3_xCase3 (fun x y => (x <<< 2) + y) fun x y => shiftLeft_add_eq_ofNat x y 2
  case sh3add => exact alu3_xCase3 (fun x y => (x <<< 3) + y) fun x y => shiftLeft_add_eq_ofNat x y 3
  case clz | ctz | popc | rev8 | sextb | sexth | sextw => rfl
  case zextb => exact alu2_xCase2 (fun x => (x.setWidth 8).setWidth 64) fun x => zext_eq_ofNat x 8
  case zexth => exact alu2_xCase2 (fun x => (x.setWidth 16).setWidth 64) fun x => zext_eq_ofNat x 16
  case zextw => exact alu2_xCase2 (fun x => (x.setWidth 32).setWidth 64) fun x => zext_eq_ofNat x 32
  case mul => exact alu3_xCase3 (· * ·) mul_eq_ofInt
  case mulh | mulhsu => rfl
  case mulhu => exact alu3_xCase3 (fun x y => highHalf ((x.toNat : Int) * y.toNat)) highHalf_unsigned
  case div => exact alu3_xCase3 quotient quotient_eq
  case divu => exact alu3_xCase3 quotientU quotientU_eq
  case rem | remu => rfl
  case addi h d a j => exact alu2_xCase2 (· + simm j) fun x => addi_eq_ofInt x _
  case andi | ori | xori => rfl
  case slli h d a n => exact alu2_xCase2 (· <<< n.toNat) fun x => shiftLeft_eq_ofNat x _
  case srli h d a n => exact alu2_xCase2 (· >>> n.toNat) fun x => ushiftRight_eq_ofNat x _
  case srai h d a n => exact alu2_xCase2 (·.sshiftRight n.toNat) fun x => sshiftRight_eq_ofInt x _
  case rori h d a n => exact alu2_xCase2 (·.rotateRight n.toNat) fun x => rotateRight_eq_or x _ n.isLt
  case slti h d a j => exact alu2_xCase2 (fun x => wordOfBool (x.slt (simm j))) fun x => slti_truth x j
  case sltiu h d a j => exact alu2_xCase2 (fun x => wordOfBool (x.ult (simm j))) fun x => ult_truth x _
  case lui h d j =>
    show Host.Outcome.next (s.run _ _ _ _ _ fun u => .done (u.setCtx (u.ctx.wx d (luiValue j)))) = _
    rw [lui_eq_ofInt]
  case lil h d j => exact alu2_xCase2 (· ||| j.setWidth 64) fun x => congrArg (x ||| ·) (BitVec.ofNat_toNat ..).symm
  case kmovx | kpopc | kfirst => rfl
  case movpx h d p =>
    show Host.Outcome.next (s.run _ _ _ _ _ fun u => .done (u.setCtx (u.ctx.wx d (wordOfBool (u.ctx.rp p))))) = _
    simp only [wordOfBool_eq_truth Iff.rfl]

/-- The value of a scalar instruction is read from x, p and k registers alone. -/
theorem value_charge {c : XCase} (e : scalarCase i = some c) (x : Ctx) : c.value x.charge = c.value x := by
  cases i <;> cases e <;> simp only [xCase3, xCase2, charge_rx, charge_rp, charge_rk]

end

/-- Settles O1: each instruction writes its case's value, and what the counts and the reversal mean. -/
theorem scalarResults : Obligations.ScalarResults := by
  refine ⟨fun i c s e hc => ?_, fun x => ⟨leadingZeros_spec x, trailingZeros_spec x, congrArg _ (onesBelow_eq_length x 64),
    fun i j => byteReverse_getLsbD x⟩⟩
  have hx : exec i s = .next ((Eff.done (s.setCtx (s.ctx.charge.wx c.d (c.value s.ctx)))).finish c.h) := by
    rw [exec_scalarCase_value e, run_clear hc i true rfl, ctx_setCtx_same s _ hc.here, setCtx_setCtx, value_charge e]
  exact ⟨_, hx, done_wx c.h hc.here c.d _⟩

end Sys2Proof.Machine
end

section
namespace Sys2Proof.Machine

/-! Predicate and mask instructions, with the results that their cases give (R136, R190). -/

section
variable {s : State} {i : Instr}

theorem exec_predCase_value {c : PCase} (e : predCase i = some c) : ∃ f : State → Bool, (∀ u, f u = true ↔ c.value u.ctx) ∧ ∀ s,
    exec i s = .next (s.run clsPlain i c.h true c.uses fun u => .done (u.setCtx (u.ctx.wp c.d (f u)))) := by
  cases i <;> cases e <;> refine ⟨_, fun u => ?_, fun _ => rfl⟩
  case peq | pne | pand | por | pxor | pnot | pmovx => simp
  case plt | pge => simp [BitVec.slt]
  case pltu | pgeu => simp [BitVec.ult]

theorem exec_maskCase_value {c : KCase} (e : maskCase i = some c) (s : State) :
    exec i s = .next (s.run clsMask i c.h true c.uses fun u => .done (u.setCtx (u.ctx.wk c.d (c.value u.ctx)))) := by
  cases i <;> cases e <;> rfl

theorem predValue_charge {c : PCase} (e : predCase i = some c) (x : Ctx) : c.value x.charge ↔ c.value x := by
  cases i <;> cases e <;> simp only [charge_rx, charge_rp]

theorem maskValue_charge {c : KCase} (e : maskCase i = some c) (x : Ctx) : c.value x.charge = c.value x := by
  cases i <;> cases e <;> simp only [charge_rx, charge_rk]

end

/-- Settles O2: one write of a p or a k register each. -/
theorem predicateMaskResults : Obligations.PredicateMaskResults := by
  refine ⟨fun i c s e hc => ?pred, fun i c s e hc => ?mask⟩
  case pred =>
    obtain ⟨f, hf, hx⟩ := exec_predCase_value e
    have hx' : exec i s = .next ((Eff.done (s.setCtx (s.ctx.charge.wp c.d (f (s.setCtx s.ctx.charge))))).finish c.h) := by
      rw [hx, run_clear hc i true rfl, ctx_setCtx_same s _ hc.here, setCtx_setCtx]
    have hv : f (s.setCtx s.ctx.charge) = true ↔ c.value s.ctx := by
      rw [hf, ctx_setCtx_same s _ hc.here, predValue_charge e]
    obtain ⟨hw, hframe⟩ := done_wp c.h hc.here c.d (f (s.setCtx s.ctx.charge))
    refine ⟨_, hx', ?_, hframe⟩
    rw [hw]
    split
    · next hd => exact ⟨fun _ => .inl hd, fun _ => rfl⟩
    · next hd => rw [hv, or_iff_right hd]
  case mask =>
    have hx : exec i s = .next ((Eff.done (s.setCtx (s.ctx.charge.wk c.d (c.value s.ctx)))).finish c.h) := by
      rw [exec_maskCase_value e, run_clear hc i true rfl, ctx_setCtx_same s _ hc.here, setCtx_setCtx, maskValue_charge e]
    exact ⟨_, hx, done_wk c.h hc.here c.d _⟩

/-! Frames of a replaced context, and frames in a row (R105). -/

section
variable {w : Writes} {s t u : State} {y : Ctx} {h : Head}

/-- A context replaced by one that differs in what `w` lists. -/
theorem setCtx_frame_writes (hc : s.curCtx < 5) (hx : ∀ r, r ∉ w.x → y.rx r = s.ctx.rx r) (hv : ∀ r, r ∉ w.v → y.rv r = s.ctx.rv r)
    (hp : ∀ n, n ∉ w.p → y.rp n = s.ctx.rp n) (hk : ∀ n, n ∉ w.k → y.rk n = s.ctx.rk n)
    (hs : ∀ n ∈ keptStatus, n ∉ w.sr → (s.setCtx y).readStatus n = s.readStatus n)
    (ht : 0x000 ∉ w.sr → y.tstat = s.ctx.tstat) (hl : 0x010 ∉ w.sr → y.lc0 = s.ctx.lc0 ∧ y.lc1 = s.ctx.lc1) :
    Frame w s (s.setCtx y) := by
  have e : (s.setCtx y).ctx = y := ctx_setCtx_same s y hc
  refine ⟨⟨rfl, rfl⟩, e.symm ▸ hx, e.symm ▸ hv, e.symm ▸ hp, e.symm ▸ hk, hs, fun q => ?_, fun q _ _ => e.symm ▸ hl q, fun n i q => ?_,
    fun n _ => by simp [CoreSt.port], rfl, rfl, rfl⟩
  · rw [e, ht q]
    exact ⟨rfl, fun _ => rfl⟩
  · rw [ctxOf_setCtx s y hc, if_neg q]

/-- A context replaced by one with the same registers and tstat: the loops may move. -/
theorem setCtx_frame_loops (hc : s.curCtx < 5) (hs : SameRegs s.ctx y) (ht : y.tstat = s.ctx.tstat) :
    Frame { sr := [0x010] } s (s.setCtx y) := by
  refine setCtx_frame_writes hc (fun r _ => ?_) (fun r _ => ?_) (fun n _ => ?_) (fun n _ => ?_) (fun n hn _ => ?_) (fun _ => ht)
    (fun q => absurd (by decide) q)
  · rw [Ctx.rx, Ctx.rx, hs.x]
  · rw [Ctx.rv, Ctx.rv, hs.v]
  · rw [Ctx.rp, Ctx.rp, hs.p]
  · rw [Ctx.rk, Ctx.rk, hs.k]
  · exact readStatus_setCtx s y hc hs.tpc hs.tcause hs.tval hs.fpre hs.fflags hs.frm hs.fseed hs.tid hs.grp hs.exitc hs.hst hs.chb
      hs.gtol hs.gdmp n hn

/-- The count of a handler's instruction, and the write of one x register. -/
theorem setCtx_frame_wx (hc : s.curCtx < 5) (d : Reg) (v : Word) (l : List Nat) :
    Frame { x := [d], sr := l } s (s.setCtx (s.ctx.charge.wx d v)) := by
  refine setCtx_frame_writes hc (fun r hr => ?_) (fun r _ => by rw [wx_rv, charge_rv]) (fun r _ => by rw [wx_rp, charge_rp])
    (fun r _ => by rw [wx_rk, charge_rk]) (fun n hn _ => ?_) (by simp) (by simp)
  · have hr' : r ≠ d := by simpa using hr
    rw [rx_wx, if_neg hr', charge_rx]
    split
    · next q => rw [q]; rfl
    · rfl
  · exact readStatus_setCtx s _ hc (by simp) (by simp) (by simp) (by simp) (by simp) (by simp) (by simp) (by simp)
      (by simp) (by simp) (by simp) (by simp) (by simp) (by simp) n hn

theorem setCtx_frame_charge (hc : s.curCtx < 5) : Frame {} s (s.setCtx s.ctx.charge) :=
  (setCtx_frame s s.ctx.charge hc (sameRegs_charge _) (by simp) (by simp)).1

/-- A frame that lists nothing holds of every list of status registers. -/
theorem Frame.widen (f : Frame {} s t) (l : List Nat) : Frame { sr := l } s t :=
  ⟨f.issuing, f.x, f.v, f.p, f.k, fun n hn _ => f.status n hn List.not_mem_nil, fun _ => f.tstat List.not_mem_nil,
    fun _ => f.loops List.not_mem_nil, f.contexts, f.ports, f.units⟩

/-- Two frames in a row, in which the loops may move. -/
theorem Frame.trans_loops (p : Frame w s t) (q : Frame { sr := [0x010] } t u) (hl : 0x010 ∈ w.sr)
    (hr : s.ctx.rep = false → t.ctx.rep = false) : Frame w s u where
  issuing := ⟨q.issuing.1.trans p.issuing.1, q.issuing.2.trans p.issuing.2⟩
  x r h := (q.x r List.not_mem_nil).trans (p.x r h)
  v r h := (q.v r List.not_mem_nil).trans (p.v r h)
  p n h := (q.p n List.not_mem_nil).trans (p.p n h)
  k n h := (q.k n List.not_mem_nil).trans (p.k n h)
  status n hn h := (q.status n hn ((by decide : ∀ n ∈ keptStatus, n ∉ [0x010]) n hn)).trans (p.status n hn h)
  tstat h :=
    have hq := q.tstat (by decide)
    have hp := p.tstat h
    ⟨hq.1.trans hp.1, fun e => (hq.2 (hr e)).trans (hp.2 e)⟩
  loops h := absurd hl h
  contexts n i h := (q.contexts n i (by rwa [p.issuing.1, p.issuing.2])).trans (p.contexts n i h)
  ports n h := (q.ports n List.not_mem_nil).trans (p.ports n h)
  units := ⟨q.units.1.trans p.units.1, q.units.2.1.trans p.units.2.1, q.units.2.2.trans p.units.2.2⟩

theorem frame_settle (f : Frame w s t) : Frame w s t.settle :=
  ⟨f.issuing, f.x, f.v, f.p, f.k, f.status, f.tstat, f.loops, f.contexts, f.ports, f.units⟩

theorem inside_settle (i : Inside s t) : Inside s t.settle := ⟨by rw [settle_eq, i.rest], i.memory, i.others, i.own⟩

/-- An instruction whose effect is none completes and only advances. -/
theorem done_nothing (hc : s.curCtx < 5) (h : Head) : let t := (Eff.done (s.setCtx s.ctx.charge)).finish h
    Frame {} s t ∧ Inside s t ∧ Advanced s t :=
  done_frame h hc (setCtx_frame_charge hc) (inside_setCtx _) (by rw [ctx_setCtx_same s _ hc]; simp)
    (by rw [ctx_setCtx_same s _ hc]; simp) fun _ => by rw [ctx_setCtx_same s _ hc, charge_endsBody]

end

end Sys2Proof.Machine
end

section
namespace Sys2Proof.Machine

/-! Taken transfers (R89, R137-R139, R142). -/

section
variable {w : Writes} {s : State} {c y : Ctx} {h : Head} {n t : Nat}

/-- Fields of a word of which bits outside have been cleared. -/
theorem field_and {v m : Word} {hi lo : Nat} (hm : ∀ i, lo ≤ i → i ≤ hi → m.getLsbD i = true) :
    Word.field (v &&& m) hi lo = Word.field v hi lo := by
  refine Nat.eq_of_testBit_eq fun i => ?_
  rw [field_testBit, field_testBit]
  by_cases h : i < hi + 1 - lo
  · rw [BitVec.getLsbD_and, hm (lo + i) (by omega) (by omega), Bool.and_true]
  · simp [h]

/-- A counter that is made inactive keeps its other fields. -/
theorem inactive_fields (v : Word) : let v' := v &&& 0x7FFFFFFFFFFFFFFF
    lcAct v' = false ∧ lcLen v' = lcLen v ∧ lcStart v' = lcStart v ∧ lcCount v' = lcCount v := by
  have hm : ∀ i, i < 63 → (0x7FFFFFFFFFFFFFFF#64).getLsbD i = true := by decide
  exact ⟨by simp [lcAct], field_and fun i _ h => hm i (by omega), congrArg (· * 4) (field_and fun i _ h => hm i (by omega)),
    field_and fun i _ h => hm i (by omega)⟩

/-- A taken transfer leaves the body of a live loop. -/
def Ctx.leaves (c : Ctx) (n t : Nat) : Bool :=
  c.live n && !(decide (lcStart (c.lc n) ≤ t) && decide (t < lcStart (c.lc n) + 4 * lcLen (c.lc n)))

/-- What a taken transfer makes of one loop. -/
def Ctx.cutOne (c : Ctx) (n t : Nat) : Ctx := if c.leaves n t then c.setLc n (c.lc n &&& 0x7FFFFFFFFFFFFFFF) else c

theorem cut_eq (c : Ctx) (t : Nat) : c.cut t = (c.cutOne 0 t).cutOne 1 t := rfl

theorem sameRegs_cutOne (c : Ctx) (n t : Nat) : SameRegs c (c.cutOne n t) ∧ (c.cutOne n t).tstat = c.tstat := by
  unfold Ctx.cutOne
  split
  · exact ⟨sameRegs_setLc .., by simp⟩
  · exact ⟨SameRegs.refl c, rfl⟩

theorem sameRegs_cut (c : Ctx) (t : Nat) : SameRegs c (c.cut t) ∧ (c.cut t).tstat = c.tstat := by
  obtain ⟨h0, t0⟩ := sameRegs_cutOne c 0 t
  obtain ⟨h1, t1⟩ := sameRegs_cutOne (c.cutOne 0 t) 1 t
  exact ⟨h0.trans h1, t1.trans t0⟩

theorem lc_cutOne (hn : n < 2) : (c.cutOne n t).lc n = (if c.leaves n t then c.lc n &&& 0x7FFFFFFFFFFFFFFF else c.lc n) ∧
    (c.cutOne n t).lc (1 - n) = c.lc (1 - n) := by
  unfold Ctx.cutOne
  split
  · exact lc_setLc hn _
  · exact ⟨rfl, rfl⟩

/-- A counter after the transfer: inactive where its loop is left. -/
theorem lc_cut (hn : n < 2) : (c.cut t).lc n = if c.leaves n t then c.lc n &&& 0x7FFFFFFFFFFFFFFF else c.lc n := by
  obtain ⟨h0, h1⟩ := lc_cutOne (c := c) (n := 0) (t := t) (by decide)
  obtain ⟨h1', h0'⟩ := lc_cutOne (c := c.cutOne 0 t) (n := 1) (t := t) (by decide)
  have hl : (c.cutOne 0 t).leaves 1 t = c.leaves 1 t := by
    simp only [Ctx.leaves, Ctx.live, Ctx.suspended, (sameRegs_cutOne c 0 t).2, show (c.cutOne 0 t).lc 1 = c.lc 1 from h1]
  obtain rfl | rfl : n = 0 ∨ n = 1 := by omega
  · exact h0'.trans h0
  · rw [cut_eq, h1', hl, show (c.cutOne 0 t).lc 1 = c.lc 1 from h1]

/-- The context behind a taken transfer. -/
def Ctx.jumped (c : Ctx) (t : Word) : Ctx := { c.cut t.toNat with pc := t, wait := .none }

theorem sameRegs_jumped (c : Ctx) (t : Word) : SameRegs c (c.jumped t) :=
  (sameRegs_cut c t.toNat).1.trans (by constructor <;> rfl)

/-- A context that stands at the same place loses the same loops. -/
theorem cutBy_cut {c d x : Ctx} {v : Word} (hf : SameFlow c d) (hp : x.pc = v) (hl : ∀ n, x.lc n = (d.cut v.toNat).lc n) :
    CutBy c x v.toNat := by
  have hlc (n : Nat) : d.lc n = c.lc n := by simp only [Ctx.lc, hf.lc0, hf.lc1]
  have hv (n : Nat) : d.leaves n v.toNat = c.leaves n v.toNat := by
    simp only [Ctx.leaves, Ctx.live, Ctx.suspended, hlc, hf.tstat]
  refine ⟨by rw [hp, ofNat_toNat_word], fun n hn => ?_⟩
  have hi : (c.live n = true ∧ ¬(lcStart (c.lc n) ≤ v.toNat ∧ v.toNat < lcStart (c.lc n) + 4 * lcLen (c.lc n))) ↔
      c.leaves n v.toNat = true := by
    simp only [Ctx.leaves, Bool.and_eq_true, Bool.not_eq_true', Bool.and_eq_false_iff, decide_eq_false_iff_not, not_and_or]
  dsimp only
  rw [hi, hl, lc_cut hn, hv, hlc]
  obtain ⟨ha, hlen, hs, hk⟩ := inactive_fields (c.lc n)
  exact ⟨fun h => by rw [if_pos h]; exact ⟨ha, hlen, hs, hk⟩, fun h => if_neg h⟩

/-- A taken transfer, once what is written before it stands in the context: the PC is its target, and the loops that it
leaves end. -/
theorem jump_effect (hc : s.curCtx < 5) (f : Frame w s (s.setCtx y)) (hw : 0x010 ∈ w.sr) (hf : SameFlow s.ctx y) (v : Word) :
    let t := (Eff.jump v (s.setCtx y)).finish h
    t.ctx.pc = v ∧ (∀ r, t.ctx.rx r = y.rx r) ∧ Frame w s t ∧ Inside s t ∧ CutBy s.ctx t.ctx v.toNat := by
  have e : (s.setCtx y).ctx = y := ctx_setCtx_same s y hc
  have ej := ctx_setCtx_same (s.setCtx y).settle (y.jumped v) hc
  intro t
  have ht : t = if h.sw then ((s.setCtx y).settle.setCtx (y.jumped v)).marker y.pc.toNat
      else (s.setCtx y).settle.setCtx (y.jumped v) := by
    show (if h.sw then ((s.setCtx y).settle.setCtx ((s.setCtx y).ctx.jumped v)).marker (s.setCtx y).ctx.pc.toNat
      else (s.setCtx y).settle.setCtx ((s.setCtx y).ctx.jumped v)) = _
    rw [e]
  have e' : (s.setCtx y).settle.ctx = y := e
  have fj : Frame { sr := [0x010] } (s.setCtx y).settle ((s.setCtx y).settle.setCtx (y.jumped v)) :=
    setCtx_frame_loops hc (by rw [e']; exact sameRegs_jumped y v) (by rw [e']; exact (sameRegs_cut y v.toNat).2)
  obtain ⟨fm, im, hp, hst, h0, h1⟩ := marker_ok ((s.setCtx y).settle.setCtx (y.jumped v)) h.sw y.pc.toNat hc t ht
  rw [ej] at hp h0 h1
  refine ⟨hp, fun r => ((fm.x r List.not_mem_nil).trans (fj.x r List.not_mem_nil)).trans (by rw [e']), ((frame_settle f).trans_loops fj hw fun hr => ?_).andThen fm hst (by rw [h0, ej]) (by rw [h1, ej]),
    ((inside_settle (inside_setCtx y)).trans (inside_setCtx _)).trans im, cutBy_cut hf hp fun n => ?_⟩
  · rw [e']
    exact hf.rep.trans hr
  · simp only [Ctx.lc, h0, h1]
    rfl

/-! How a transfer issues: into the local window, or the trap 0x03 (R89). -/

theorem rel_eq {n : Nat} (c : Ctx) (o : BitVec n) : c.rel o = c.pc + BitVec.ofInt 64 (4 * o.toInt) := by
  rw [Int.mul_comm, BitVec.ofInt_mul]
  rfl

theorem goto_inside {v : Word} (hv : v.toNat < 0x400000) (u : State) (f : Ctx → Ctx) : u.goto v f = .jump v (u.setCtx (f u.ctx)) := by
  rw [State.goto, inWindow, decide_eq_true (by omega), if_pos rfl]

theorem goto_outside {v : Word} (hv : 0x400000 ≤ v.toNat) (u : State) (f : Ctx → Ctx) : u.goto v f = .trap 0x03 v u := by
  rw [State.goto, inWindow, decide_eq_false (by omega), if_neg Bool.false_ne_true]

section
variable {i : Instr} {k : Cls} {uses : List Nat} {act : State → Eff} {v : Word} {f : Ctx → Ctx}
  (hc : Clear s k h uses) (hx : exec i s = .next (s.run k i h true uses act))
  (ha : act (s.setCtx s.ctx.charge) = (s.setCtx s.ctx.charge).goto v f)
include hc hx ha

theorem exec_goto_inside (hv : v.toNat < 0x400000) (hf : Frame w s (s.setCtx (f s.ctx.charge))) (hw : 0x010 ∈ w.sr)
    (hs : SameFlow s.ctx.charge (f s.ctx.charge)) : ∃ t, exec i s = .next t ∧ t.ctx.pc = v ∧ (∀ r, t.ctx.rx r = (f s.ctx.charge).rx r) ∧
      Frame w s t ∧ Inside s t ∧ CutBy s.ctx t.ctx v.toNat := by
  refine ⟨_, ?_, jump_effect (h := h) hc.here hf hw ((sameFlow_charge _).trans hs) v⟩
  rw [hx, run_clear hc i true rfl, ha, goto_inside hv, ctx_setCtx_same s _ hc.here, setCtx_setCtx]

theorem exec_goto_outside (hv : 0x400000 ≤ v.toNat) : exec i s = .next ((s.setCtx s.ctx.charge).settle.trap 0x03 v) := by
  rw [hx, run_clear hc i true rfl, ha, goto_outside hv]
  rfl

end

/-! The branches of R137 and R138. -/

section
variable {i : Instr} {b : BCase}

theorem exec_branchCase_iff (e : branchCase i = some b) : ∃ f : State → Bool, (∀ u, f u = true ↔ b.taken u.ctx) ∧ ∀ s,
    exec i s = .next (s.run clsPlain i b.h true b.uses fun u => if f u then u.goto (u.ctx.rel b.off) id else .done u) := by
  cases i <;> cases e <;> refine ⟨_, fun u => ?_, fun _ => rfl⟩
  case beq | bne | brp => simp
  case blt | bge => simp [BitVec.slt]
  case bltu | bgeu => simp [BitVec.ult]

theorem taken_charge (e : branchCase i = some b) (x : Ctx) : b.taken x.charge ↔ b.taken x := taken_congr e (by simp) (by simp)

theorem branch_not_taken (e : branchCase i = some b) (hc : Clear s clsPlain b.h b.uses) (ht : ¬b.taken s.ctx) :
    ∃ t, exec i s = .next t ∧ Frame {} s t ∧ Inside s t ∧ Advanced s t := by
  obtain ⟨f, hf, hx⟩ := exec_branchCase_iff e
  refine ⟨_, ?_, done_nothing hc.here b.h⟩
  have hn : ¬f (s.setCtx s.ctx.charge) = true := by
    rw [hf, ctx_setCtx_same s _ hc.here, taken_charge e]
    exact ht
  rw [hx, run_clear hc i true rfl, if_neg hn]

/-- A branch that is taken goes to the word that its offset names. -/
theorem branch_goto (e : branchCase i = some b) (hc : Clear s clsPlain b.h b.uses) (ht : b.taken s.ctx) : ∃ act : State → Eff,
    exec i s = .next (s.run clsPlain i b.h true b.uses act) ∧
      act (s.setCtx s.ctx.charge) = (s.setCtx s.ctx.charge).goto (s.ctx.pc + BitVec.ofInt 64 (4 * b.off.toInt)) id := by
  obtain ⟨f, hf, hx⟩ := exec_branchCase_iff e
  have hy : f (s.setCtx s.ctx.charge) = true := by
    rw [hf, ctx_setCtx_same s _ hc.here, taken_charge e]
    exact ht
  refine ⟨_, hx s, (if_pos hy).trans ?_⟩
  rw [rel_eq, ctx_setCtx_same s _ hc.here, charge_pc]

theorem branch_taken (e : branchCase i = some b) (hc : Clear s clsPlain b.h b.uses) (ht : b.taken s.ctx)
    (hv : (s.ctx.pc + BitVec.ofInt 64 (4 * b.off.toInt)).toNat < 0x400000) : ∃ t, exec i s = .next t ∧
      t.ctx.pc = s.ctx.pc + BitVec.ofInt 64 (4 * b.off.toInt) ∧ Frame { sr := [0x010] } s t ∧ Inside s t ∧
      CutBy s.ctx t.ctx (s.ctx.pc + BitVec.ofInt 64 (4 * b.off.toInt)).toNat := by
  obtain ⟨act, hx, ha⟩ := branch_goto e hc ht
  obtain ⟨t, h, hp, -, rest⟩ := exec_goto_inside hc hx ha hv ((setCtx_frame_charge hc.here).widen [0x010]) (by decide) (by constructor <;> rfl)
  exact ⟨t, h, hp, rest⟩

end

/-! J, JAL and JALR (R139). -/

section
variable {o : BitVec 22}

theorem exec_j_eq (hc : Clear s clsPlain h []) : ∃ act : State → Eff, exec (.j h o) s = .next (s.run clsPlain (.j h o) h true [] act) ∧
    act (s.setCtx s.ctx.charge) = (s.setCtx s.ctx.charge).goto (s.ctx.pc + BitVec.ofInt 64 (4 * o.toInt)) id := by
  refine ⟨_, rfl, ?_⟩
  rw [rel_eq, ctx_setCtx_same s _ hc.here, charge_pc]

theorem exec_jal_eq (hc : Clear s clsPlain h [1]) : ∃ act : State → Eff,
    exec (.jal h o) s = .next (s.run clsPlain (.jal h o) h true [1] act) ∧ act (s.setCtx s.ctx.charge) =
      (s.setCtx s.ctx.charge).goto (s.ctx.pc + BitVec.ofInt 64 (4 * o.toInt)) fun c => c.wx 1 (c.pc + 4) := by
  refine ⟨_, rfl, ?_⟩
  rw [rel_eq, ctx_setCtx_same s _ hc.here, charge_pc]

end

section
variable {d a : Reg} {j : BitVec 12}

/-- The effect of JALR on the state behind the checks, by its target. -/
def jalrEffect (d a : Reg) (j : BitVec 12) (u : State) : Eff :=
  let v := u.ctx.ea a j
  if !inWindow v then .trap 0x03 v u else if v.toNat % 4 ≠ 0 then .trap 0x04 v u else u.goto v fun c => c.wx d (c.pc + 4)

theorem exec_jalr_eq : exec (.jalr h d a j) s = .next (s.run clsPlain (.jalr h d a j) h true [ux a, ux d] (jalrEffect d a j)) := rfl

theorem ea_charge (hc : s.curCtx < 5) : (s.setCtx s.ctx.charge).ctx.ea a j = s.ctx.rx a + BitVec.ofInt 64 j.toInt := by
  rw [Ctx.ea, ctx_setCtx_same s _ hc, charge_rx]
  rfl

variable (hc : Clear s clsPlain h [ux a, ux d])
include hc

theorem jalr_goto (hv : (s.ctx.rx a + BitVec.ofInt 64 j.toInt).toNat < 0x400000)
    (h4 : (s.ctx.rx a + BitVec.ofInt 64 j.toInt).toNat % 4 = 0) : jalrEffect d a j (s.setCtx s.ctx.charge) =
      (s.setCtx s.ctx.charge).goto (s.ctx.rx a + BitVec.ofInt 64 j.toInt) fun c => c.wx d (c.pc + 4) := by
  have hi : inWindow (s.ctx.rx a + BitVec.ofInt 64 j.toInt) = true := decide_eq_true (by omega)
  rw [jalrEffect, ea_charge hc.here]
  rw [hi, if_neg (by decide), if_neg (not_not.2 h4)]

theorem jalr_misaligned (hv : (s.ctx.rx a + BitVec.ofInt 64 j.toInt).toNat < 0x400000)
    (h4 : (s.ctx.rx a + BitVec.ofInt 64 j.toInt).toNat % 4 ≠ 0) :
    exec (.jalr h d a j) s = .next ((s.setCtx s.ctx.charge).settle.trap 0x04 (s.ctx.rx a + BitVec.ofInt 64 j.toInt)) := by
  have hi : inWindow (s.ctx.rx a + BitVec.ofInt 64 j.toInt) = true := decide_eq_true (by omega)
  rw [exec_jalr_eq, run_clear hc _ true rfl, jalrEffect, ea_charge hc.here]
  rw [hi, if_neg (by decide), if_pos h4]
  rfl

theorem jalr_outside (hv : 0x400000 ≤ (s.ctx.rx a + BitVec.ofInt 64 j.toInt).toNat) :
    exec (.jalr h d a j) s = .next ((s.setCtx s.ctx.charge).settle.trap 0x03 (s.ctx.rx a + BitVec.ofInt 64 j.toInt)) := by
  have hi : inWindow (s.ctx.rx a + BitVec.ofInt 64 j.toInt) = false := decide_eq_false (by omega)
  rw [exec_jalr_eq, run_clear hc _ true rfl, jalrEffect, ea_charge hc.here]
  rw [hi, if_pos (by decide)]
  rfl

end

theorem j_inside {o : BitVec 22} (hc : Clear s clsPlain h []) (hv : (s.ctx.pc + BitVec.ofInt 64 (4 * o.toInt)).toNat < 0x400000) :
    ∃ t, exec (.j h o) s = .next t ∧ t.ctx.pc = s.ctx.pc + BitVec.ofInt 64 (4 * o.toInt) ∧ Frame { sr := [0x010] } s t ∧ Inside s t ∧
      CutBy s.ctx t.ctx (s.ctx.pc + BitVec.ofInt 64 (4 * o.toInt)).toNat := by
  obtain ⟨act, hx, ha⟩ := exec_j_eq (o := o) hc
  obtain ⟨t, h, hp, -, rest⟩ := exec_goto_inside hc hx ha hv ((setCtx_frame_charge hc.here).widen [0x010]) (by decide) (by constructor <;> rfl)
  exact ⟨t, h, hp, rest⟩

theorem jal_inside {o : BitVec 22} (hc : Clear s clsPlain h [1]) (hv : (s.ctx.pc + BitVec.ofInt 64 (4 * o.toInt)).toNat < 0x400000) :
    ∃ t, exec (.jal h o) s = .next t ∧ t.ctx.pc = s.ctx.pc + BitVec.ofInt 64 (4 * o.toInt) ∧ t.ctx.rx 1 = s.ctx.pc + 4 ∧
      Frame { x := [1], sr := [0x010] } s t ∧ Inside s t ∧ CutBy s.ctx t.ctx (s.ctx.pc + BitVec.ofInt 64 (4 * o.toInt)).toNat := by
  obtain ⟨act, hx, ha⟩ := exec_jal_eq (o := o) hc
  obtain ⟨t, h, hp, hr, rest⟩ := exec_goto_inside hc hx ha hv (setCtx_frame_wx hc.here 1 _ [0x010]) (by decide) (sameFlow_wx _ _ _)
  refine ⟨t, h, hp, ?_, rest⟩
  rw [hr, rx_wx, charge_pc]
  rfl

theorem jalr_inside {d a : Reg} {j : BitVec 12} (hc : Clear s clsPlain h [ux a, ux d])
    (hv : (s.ctx.rx a + BitVec.ofInt 64 j.toInt).toNat < 0x400000) (h4 : (s.ctx.rx a + BitVec.ofInt 64 j.toInt).toNat % 4 = 0) :
    ∃ t, exec (.jalr h d a j) s = .next t ∧ t.ctx.pc = s.ctx.rx a + BitVec.ofInt 64 j.toInt ∧
      t.ctx.rx d = (if d = 0 then 0 else s.ctx.pc + 4) ∧ Frame { x := [d], sr := [0x010] } s t ∧ Inside s t ∧
      CutBy s.ctx t.ctx (s.ctx.rx a + BitVec.ofInt 64 j.toInt).toNat := by
  obtain ⟨t, h, hp, hr, rest⟩ := exec_goto_inside hc exec_jalr_eq (jalr_goto hc hv h4) hv (setCtx_frame_wx hc.here d _ [0x010])
    (List.mem_singleton.2 rfl)    (sameFlow_wx _ _ _)
  refine ⟨t, h, hp, ?_, rest⟩
  rw [hr, rx_wx, charge_pc, if_pos rfl]

end

/-- Settles O3: a branch by its condition. -/
theorem branchResults : Obligations.BranchResults := fun i c s e hc => by
  refine ⟨branch_not_taken e hc, fun ht hv => ?_⟩
  obtain ⟨t, h, hp, hf, hi, -⟩ := branch_taken e hc ht hv
  exact ⟨t, h, hp, hf, hi⟩

/-- Settles O4: the three jumps into the local window, and every transfer out of it. -/
theorem jumpResults : Obligations.JumpResults := by
  refine ⟨fun s h => ⟨fun o hc hv => ?j, fun o hc hv => ?jal, fun d a i hc hv h4 => ?jalr⟩,
    fun s h => ⟨fun i c e hc ht hv => ?branch, fun o => ?rel, fun d a i hc => ⟨jalr_outside hc, jalr_misaligned hc⟩⟩⟩
  case j =>
    obtain ⟨t, h, hp, hf, hi, -⟩ := j_inside hc hv
    exact ⟨t, h, hp, hf, hi⟩
  case jal =>
    obtain ⟨t, h, hp, hr, hf, hi, -⟩ := jal_inside hc hv
    exact ⟨t, h, hp, hr, hf, hi⟩
  case jalr =>
    obtain ⟨t, h, hp, hr, hf, hi, -⟩ := jalr_inside hc hv h4
    exact ⟨t, h, hp, hr, hf, hi⟩
  case branch =>
    obtain ⟨act, hx, ha⟩ := branch_goto e hc ht
    exact exec_goto_outside hc hx ha hv
  case rel =>
    intro target hv
    refine ⟨fun hc => ?_, fun hc => ?_⟩
    · obtain ⟨act, hx, ha⟩ := exec_j_eq (o := o) hc
      exact exec_goto_outside hc hx ha hv
    · obtain ⟨act, hx, ha⟩ := exec_jal_eq (o := o) hc
      exact exec_goto_outside hc hx ha hv


end Sys2Proof.Machine
end

section
namespace Sys2Proof.Machine

/-! Hardware loops (R140-R142). -/

section
variable {s r : State} {h : Head} {k : Cls} {i : Instr} {uses : List Nat} {c : Ctx} {n len : Nat} {count : Word}

/-- A word that no replay captures issues outside a replay (R129). -/
theorem Clear.outside (hc : Clear s k h uses) (hk : k.rep = false) : s.ctx.rep = false := by
  have ha := hc.allowed
  rw [Ctx.legal, hk, Bool.or_false, Bool.and_eq_true, Bool.not_eq_true'] at ha
  exact ha.1

/-- A completed word ends the bodies whose last word it is (R142). -/
theorem complete_afterBody (al : Alike s r) (hc : s.curCtx < 5) (hr : s.ctx.rep = false) :
    AfterBody s.ctx (r.complete h).ctx s.ctx.pc.toNat (s.ctx.pc + 4) := by
  have hw : r.afterWord = r.ctx.nextWord.bodyEnd s.ctx.pc.toNat := by
    rw [State.afterWord, al.flow.rep, hr, if_neg Bool.false_ne_true, al.flow.pc]
  obtain ⟨w, n, he, -⟩ := marked_ctx (al.curCtx ▸ hc) r.afterWord h.sw r.instrPc
  rw [← complete_eq (al.curCtx ▸ hc), hw] at he
  have hb := afterBody_bodyEnd r.ctx.nextWord s.ctx.pc.toNat
  rw [show r.ctx.nextWord.pc = s.ctx.pc + 4 from congrArg (· + 4) al.flow.pc] at hb
  rw [he]
  exact hb.congr al.flow.lc0.symm al.flow.lc1.symm al.flow.laterLc1.symm
    (fun n => (congrArg (fun w : Word => w.getLsbD (17 + n)) al.flow.tstat).symm) rfl rfl rfl

/-- A completed word that ends no body (R105). -/
theorem complete_unlooped (hc : r.curCtx < 5) (hr : r.ctx.rep = false) (hl : r.ctx.endsBody = false) :
    let d := (r.complete h).ctx
    d.pc = r.ctx.pc + 4 ∧ (∀ m, d.lc m = r.ctx.lc m) ∧ d.laterLc1 = r.ctx.laterLc1 := by
  have hw : r.afterWord = r.ctx.nextWord := by
    rw [State.afterWord, hr, if_neg Bool.false_ne_true]
    exact bodyEnd_none r.ctx.nextWord _ hl
  obtain ⟨w, m, he, -⟩ := marked_ctx hc r.afterWord h.sw r.instrPc
  rw [← complete_eq hc, hw] at he
  intro d
  rw [show d = _ from he]
  exact ⟨rfl, fun _ => rfl, rfl⟩

theorem loopLegal_iff : c.loopLegal n len = true ↔ MayOpen c n len := by
  simp only [Ctx.loopLegal, MayOpen, Bool.and_eq_true, Bool.not_eq_true', ← Bool.not_eq_true, decide_eq_true_eq]

/-- The context behind a loop that has opened. -/
def Ctx.opened (c : Ctx) (n len : Nat) (count : Word) : Ctx :=
  { c.setLc n (lcMake true len (c.pc.toNat + 4) count.toNat) with laterLc1 := n == 1 }

theorem sameRegs_opened : SameRegs c (c.opened n len count) := (sameRegs_setLc ..).trans (by constructor <;> rfl)

theorem opened_flow : (c.opened n len count).pc = c.pc ∧ (c.opened n len count).rep = c.rep ∧
    (c.opened n len count).tstat = c.tstat := by
  simp [Ctx.opened]

theorem lc_opened (hn : n < 2) : (c.opened n len count).lc n = lcMake true len (c.pc.toNat + 4) count.toNat ∧
    (c.opened n len count).lc (1 - n) = c.lc (1 - n) := lc_setLc hn _

/-- The LOOP that opens a loop is the last word of no body: its own begins behind it, and the other one's does not end before. -/
theorem opened_not_last (hn : n < 2) (hl : 0 < len) (hm : MayOpen c n len) (h4 : c.pc.toNat % 4 = 0)
    (hp : c.pc.toNat + 4 < 0x100000) : (c.opened n len count).lastOfBody c.pc.toNat = false := by
  obtain ⟨hs, ho⟩ := lc_opened (c := c) (len := len) (count := count) hn
  have hstart : lcStart ((c.opened n len count).lc n) = c.pc.toNat + 4 := by
    rw [hs, (lcMake_fields ..).2.2.1]
    omega
  have hlive : (c.opened n len count).live (1 - n) = c.live (1 - n) := by
    simp only [Ctx.live, Ctx.suspended, ho, opened_flow]
  have hown : ¬EndsAt (c.opened n len count) n c.pc.toNat := fun he => by
    have := he.2
    rw [lcLast, hstart] at this
    omega
  have hoth : ¬EndsAt (c.opened n len count) (1 - n) c.pc.toNat := fun he => by
    obtain ⟨h1, h2⟩ := he
    rw [hlive] at h1
    rw [ho] at h2
    exact hm.2 ⟨h1, by omega⟩
  rw [endsAt_iff, Bool.not_eq_true] at hown hoth
  unfold Ctx.lastOfBody
  rw [Bool.or_eq_false_iff]
  obtain rfl | rfl : n = 0 ∨ n = 1 := by omega
  · exact ⟨hown, hoth⟩
  · exact ⟨hoth, hown⟩

theorem openLoop_charge (hc : s.curCtx < 5) (h0 : count ≠ 0) (hlt : count.toNat < 2 ^ 32) :
    (s.setCtx s.ctx.charge).openLoop n len count = .done (s.setCtx (s.ctx.charge.opened n len count)) := by
  unfold State.openLoop
  dsimp only
  rw [if_neg (by omega), if_neg h0, ctx_setCtx_same s _ hc, setCtx_setCtx]
  rfl

/-- LOOP and LOOPI with a count open their loop behind themselves (R140, R141). -/
theorem loop_opens (hc : s.curCtx < 5) (hr : s.ctx.rep = false) (hn : n < 2) (hl : 0 < len) (hl' : len < 4096) (hm : MayOpen s.ctx n len)
    (h0 : count ≠ 0) (hlt : count.toNat < 2 ^ 32) :
    let t := ((s.setCtx s.ctx.charge).openLoop n len count).finish h
    Frame { sr := [0x010] } s t ∧ Inside s t ∧
    (s.ctx.pc.toNat % 4 = 0 → s.ctx.pc.toNat + 4 < 0x100000 →
      t.ctx.pc = s.ctx.pc + 4 ∧ lcAct (t.ctx.lc n) = true ∧ lcLen (t.ctx.lc n) = len ∧ lcStart (t.ctx.lc n) = s.ctx.pc.toNat + 4 ∧
      lcCount (t.ctx.lc n) = count.toNat ∧ t.ctx.lc (1 - n) = s.ctx.lc (1 - n) ∧ (t.ctx.laterLc1 = true ↔ n = 1)) := by
  obtain ⟨hpc, hrep, hst⟩ := opened_flow (c := s.ctx.charge) (n := n) (len := len) (count := count)
  have hlc (m : Nat) : s.ctx.charge.lc m = s.ctx.lc m := by simp [Ctx.lc]
  rw [charge_pc] at hpc
  obtain ⟨hs, ho⟩ := lc_opened (c := s.ctx.charge) (len := len) (count := count) hn
  have hlast := opened_not_last (c := s.ctx.charge) (count := count) hn hl
    (by simpa only [MayOpen, Ctx.live, Ctx.suspended, hlc, charge_pc, charge_tstat] using hm)
  rw [openLoop_charge hc h0 hlt]
  generalize hy : s.ctx.charge.opened n len count = y at *
  have he : (s.setCtx y).settle.ctx = y := ctx_setCtx_same s y hc
  have hf : Frame { sr := [0x010] } s (s.setCtx y).settle := frame_settle (setCtx_frame_loops hc
    ((sameRegs_charge _).trans (hy ▸ sameRegs_opened)) (hst.trans (by simp)))
  obtain ⟨f, i, -⟩ := complete_frame (s.setCtx y).settle h hc
  refine ⟨hf.trans_loops (f.widen _) (by decide) fun _ => ?_, (inside_settle (inside_setCtx y)).trans i, fun h4 hp => ?_⟩
  · rw [he, hrep]
    simpa using hr
  · rw [charge_pc] at hlast
    obtain ⟨hpc', hlcy, hlater⟩ := complete_unlooped (r := (s.setCtx y).settle) (h := h) hc (by rw [he, hrep]; simpa using hr)
      (by rw [he, Ctx.endsBody, hpc]; exact hlast h4 hp)
    rw [he] at hpc' hlcy hlater
    obtain ⟨fa, fl, fs, fk⟩ := lcMake_fields true len (s.ctx.charge.pc.toNat + 4) count.toNat
    refine ⟨hpc'.trans (congrArg (· + 4) hpc), ?_, ?_, ?_, ?_, ?_, ?_⟩
    · exact (congrArg lcAct ((hlcy n).trans hs)).trans fa
    · exact (congrArg lcLen ((hlcy n).trans hs)).trans (fl.trans (by omega))
    · refine (congrArg lcStart ((hlcy n).trans hs)).trans (fs.trans ?_)
      rw [charge_pc]
      omega
    · exact (congrArg lcCount ((hlcy n).trans hs)).trans (fk.trans (by omega))
    · exact (hlcy (1 - n)).trans (ho.trans (hlc _))
    · refine (Bool.eq_iff_iff.1 hlater).trans ?_
      rw [← hy]
      simp [Ctx.opened]

/-- A body that is skipped (R140, R142). -/
def Ctx.skipped (c : Ctx) (t : Word) : Ctx := { c with pc := t, wait := .none }.bodyEnd (t.toNat - 4)

/-- With the count 0 the body is skipped, and the skip ends an enclosing body (R140, R142). -/
theorem loop_skips (hc : s.curCtx < 5) (hr : s.ctx.rep = false) (hl : len < 4096) :
    let t := ((s.setCtx s.ctx.charge).openLoop n len 0).finish h
    Frame { sr := [0x010] } s t ∧ Inside s t ∧ (s.ctx.pc.toNat + 4 < 0x100000 →
      AfterBody s.ctx t.ctx (s.ctx.pc.toNat + 4 * len) (s.ctx.pc + BitVec.ofNat 64 (4 * (len + 1)))) := by
  intro t
  let v : Word := s.ctx.pc + BitVec.ofNat 64 (4 * (len + 1))
  let u := (s.setCtx s.ctx.charge).settle
  have hu : u.ctx = s.ctx.charge := ctx_setCtx_same s _ hc
  have ht : t = if h.sw then (u.setCtx (s.ctx.charge.skipped v)).marker s.ctx.pc.toNat else u.setCtx (s.ctx.charge.skipped v) := by
    show ((s.setCtx s.ctx.charge).openLoop n len 0).finish h = _
    have ho : (s.setCtx s.ctx.charge).openLoop n len 0 = .skip v (s.setCtx s.ctx.charge) := by
      unfold State.openLoop
      dsimp only
      rw [if_neg (by decide), if_pos rfl, ctx_setCtx_same s _ hc, charge_pc]
    rw [ho]
    show (if h.sw then (u.setCtx (u.ctx.skipped v)).marker u.ctx.pc.toNat else u.setCtx (u.ctx.skipped v)) = _
    rw [hu, charge_pc]
  have hs : SameRegs s.ctx.charge (s.ctx.charge.skipped v) := SameRegs.trans (by constructor <;> rfl) (sameRegs_bodyEnd _ _)
  have hst : (s.ctx.charge.skipped v).tstat = s.ctx.charge.tstat := tstat_bodyEnd _ _
  have fj : Frame { sr := [0x010] } u (u.setCtx (s.ctx.charge.skipped v)) := setCtx_frame_loops hc (hu ▸ hs) (hu ▸ hst)
  have ej := ctx_setCtx_same u (s.ctx.charge.skipped v) hc
  obtain ⟨fm, im, hp, hst', h0, h1⟩ := marker_ok (u.setCtx (s.ctx.charge.skipped v)) h.sw s.ctx.pc.toNat hc t ht
  rw [ej] at hp h0 h1
  refine ⟨((frame_settle ((setCtx_frame_charge hc).widen _)).trans_loops fj (by decide) fun _ => ?_).andThen fm hst' (by rw [h0, ej])
    (by rw [h1, ej]), ((inside_settle (inside_setCtx _)).trans (inside_setCtx _)).trans im, fun hlt => ?_⟩
  · show u.ctx.rep = false
    rw [hu]
    simpa using hr
  · have hv : v.toNat - 4 = s.ctx.pc.toNat + 4 * len := by
      show (s.ctx.pc + BitVec.ofNat 64 (4 * (len + 1))).toNat - 4 = _
      rw [BitVec.toNat_add, BitVec.toNat_ofNat]
      omega
    have hb := afterBody_bodyEnd { s.ctx.charge with pc := v, wait := .none } (v.toNat - 4)
    rw [hv] at hb
    rw [Ctx.skipped, hv] at hp h0 h1
    exact hb.congr (by simp) (by simp) (by simp) (fun n => by simp [Ctx.suspended]) hp h0 h1

/-- A count of 2^32 or more is no count (R140). -/
theorem loop_overflow (hlt : 2 ^ 32 ≤ count.toNat) :
    ((s.setCtx s.ctx.charge).openLoop n len count).finish h = (s.setCtx s.ctx.charge).settle.trap 0x0B count := by
  unfold State.openLoop
  dsimp only
  rw [if_pos hlt]
  rfl

end

/-! NOP (R143). -/

theorem exec_nop {s : State} {h : Head} (hc : Clear s clsPlain h []) :
    exec (.nop h) s = .next ((Eff.done (s.setCtx s.ctx.charge)).finish h) :=
  congrArg Host.Outcome.next (run_clear hc _ true rfl _)

theorem exec_nop_off {s : State} {h : Head} (hs : s.ctx.spent = false) (hp : s.ctx.pfx = none) (hl : s.ctx.legal clsPlain = true)
    (hg : s.ctx.guard h.g = false) : exec (.nop h) s = .next ((s.setCtx s.ctx.charge).complete h) :=
  congrArg Host.Outcome.next (run_of_off hs (pre_off (.inl hp) (by simp [hl]) hg))

/-- Settles O5: the loops opened, skipped and refused, the end of a body, and the loops that a transfer leaves. -/
theorem loopResults : Obligations.LoopResults := by
  refine ⟨fun s h l len hlen hm => ?opens, fun s h l len hs hp hm => ?illegal, fun i h k uses s he hr => ?ends, fun s h => ⟨fun i c e hc ht hv => ?branch,
    fun o => ?rel, fun d a j hc hv h4 => ?jalr⟩⟩
  case opens =>
    intro opens skips
    have hl : 0 < len.toNat := Nat.pos_of_ne_zero fun h0 => hlen (BitVec.eq_of_toNat_eq h0)
    have hleg := loopLegal_iff.2 hm
    have hrx (a : Reg) (hc : s.curCtx < 5) : (s.setCtx s.ctx.charge).ctx.rx a = s.ctx.rx a := by rw [ctx_setCtx_same s _ hc, charge_rx]
    have hloop (a : Reg) (hc : Clear s clsPlain h [ux a]) : exec (.loop h l a len) s =
        .next (((s.setCtx s.ctx.charge).openLoop l.toNat len.toNat (s.ctx.rx a)).finish h) := by
      rw [← hrx a hc.here]
      exact congrArg Host.Outcome.next (run_clear hc _ _ hleg _)
    have hloopi (j : BitVec 9) (hc : Clear s clsPlain h []) : exec (.loopi h l j len) s =
        .next (((s.setCtx s.ctx.charge).openLoop l.toNat len.toNat (j.setWidth 64)).finish h) :=
      congrArg Host.Outcome.next (run_clear hc _ _ hleg _)
    have hopens {uses : List Nat} {count : Word} (hc : Clear s clsPlain h uses) (h0 : count ≠ 0) (hlt : count.toNat < 2 ^ 32) :
        opens (((s.setCtx s.ctx.charge).openLoop l.toNat len.toNat count).finish h) count.toNat := by
      obtain ⟨f, i, rest⟩ := loop_opens (h := h) hc.here (hc.outside rfl) l.isLt hl len.isLt hm h0 hlt
      refine ⟨f, i, fun h4 hp => ?_⟩
      obtain ⟨h1, h2, h3, h5, h6, h7, h8⟩ := rest h4 hp
      exact ⟨h1, h2, h3, h5, h6, h7, h8.trans (BitVec.toNat_inj (y := 1#1))⟩
    have hskips {uses : List Nat} (hc : Clear s clsPlain h uses) :
        skips (((s.setCtx s.ctx.charge).openLoop l.toNat len.toNat 0).finish h) := loop_skips hc.here (hc.outside rfl) len.isLt
    refine ⟨fun a hc h0 hlt => ⟨_, hloop a hc, hopens hc h0 hlt⟩, fun a hc h0 => ⟨_, hloop a hc, ?_⟩, fun a hc hlt => ?_,
      fun j hc h0 => ⟨_, hloopi j hc, ?_⟩, fun j hc h0 => ⟨_, hloopi j hc, ?_⟩⟩
    · rw [h0]
      exact hskips hc
    · rw [hloop a hc, loop_overflow hlt]
    · have hj : (j.setWidth 64).toNat = j.toNat := BitVec.toNat_setWidth_of_le (by decide)
      have hz : (j.setWidth 64 : Word) ≠ 0 := fun hz => h0 (by
        rw [← BitVec.toNat_inj, ← hj, hz]
        rfl)
      rw [← hj]
      exact hopens hc hz (by omega)
    · rw [h0]
      exact hskips hc
  case illegal =>
    have hl : (s.ctx.legal clsPlain && s.ctx.loopLegal l.toNat len.toNat) = false := by
      rw [Bool.and_eq_false_iff, ← Bool.not_eq_true (s.ctx.loopLegal _ _), loopLegal_iff]
      exact .inr hm
    exact ⟨fun a => congrArg Host.Outcome.next (run_of_trap hs hp (pre_illegal hp hl)),
      fun j => congrArg Host.Outcome.next (run_of_trap hs hp (pre_illegal hp hl))⟩
  case ends =>
    obtain he | ⟨rfl, rfl, rfl⟩ := he
    · obtain ⟨hf, -⟩ := exec_checkedCase he
      refine ⟨fun hc hn => ?_, fun h5 hs hl hp hg => ⟨_, exec_off he hs (hp.resolve_right (by simp [hf])) hl hg,
        complete_afterBody (alike_charge h5) h5 hr⟩⟩
      obtain ⟨r, hx, al, -⟩ := exec_clear he hc hn
      exact ⟨_, hx, complete_afterBody al hc.here hr⟩
    · exact ⟨fun hc _ => ⟨_, exec_nop hc, complete_afterBody ((alike_charge hc.here).trans (alike_settle _)) hc.here hr⟩,
        fun h5 hs hl hp hg => ⟨_, exec_nop_off hs (hp.resolve_right (by decide)) hl hg, complete_afterBody (alike_charge h5) h5 hr⟩⟩
  case branch =>
    obtain ⟨t, h, -, -, -, hcut⟩ := branch_taken e hc ht hv
    exact ⟨t, h, hcut⟩
  case rel =>
    intro target hv
    refine ⟨fun hc => ?_, fun hc => ?_⟩
    · obtain ⟨t, h, -, -, -, hcut⟩ := j_inside hc hv
      exact ⟨t, h, hcut⟩
    · obtain ⟨t, h, -, -, -, -, hcut⟩ := jal_inside hc hv
      exact ⟨t, h, hcut⟩
  case jalr =>
    obtain ⟨t, h, -, -, -, -, hcut⟩ := jalr_inside hc hv h4
    exact ⟨t, h, hcut⟩

end Sys2Proof.Machine
end

section
namespace Sys2Proof.Machine

/-! What an instruction's effect may change without a trace in the registers, in other contexts and in the units (R105). -/

/-- What a frame sees of a core beside its contexts. -/
structure CoreStill (c d : CoreSt) : Prop where
  ctxs : d.ctxs = c.ctxs := by rfl
  ports : d.ports = c.ports := by rfl
  tvec : d.tvec = c.tvec := by rfl
  xb : d.xb = c.xb := by rfl
  rtree : d.rtree = c.rtree := by rfl

/-- The same context issues, and all that a frame sees stands as it stood. -/
structure Still (s t : State) : Prop where
  cur : t.cur = s.cur
  curCtx : t.curCtx = s.curCtx
  preempted : t.preempted = s.preempted
  tick : t.tick = s.tick
  pkg : t.pkg = s.pkg
  quads : t.quads = s.quads
  units : t.units = s.units
  bars : t.bars = s.bars
  cores : ∀ n, CoreStill (s.core n) (t.core n)

section
variable {s t u r : State} {h : Head} {w : Writes}

theorem CoreStill.trans {a b c : CoreSt} (p : CoreStill a b) (q : CoreStill b c) : CoreStill a c :=
  ⟨q.ctxs.trans p.ctxs, q.ports.trans p.ports, q.tvec.trans p.tvec, q.xb.trans p.xb, q.rtree.trans p.rtree⟩

theorem Still.trans (p : Still s t) (q : Still t u) : Still s u where
  cur := q.cur.trans p.cur
  curCtx := q.curCtx.trans p.curCtx
  preempted := q.preempted.trans p.preempted
  tick := q.tick.trans p.tick
  pkg := q.pkg.trans p.pkg
  quads := q.quads.trans p.quads
  units := q.units.trans p.units
  bars := q.bars.trans p.bars
  cores n := (p.cores n).trans (q.cores n)

theorem preempted_of_slots (h : t.slots = s.slots) : t.preempted = s.preempted := by
  funext n
  rw [State.preempted, State.slot, h]
  rfl

/-- A change of other parts of the state. -/
theorem still_of_cores (hc : t.cores = s.cores := by rfl) (h1 : t.cur = s.cur := by rfl) (h2 : t.curCtx = s.curCtx := by rfl)
    (h3 : t.seat = s.seat := by rfl) (h4 : t.quads = s.quads := by rfl) (h5 : t.units = s.units := by rfl)
    (h6 : t.bars = s.bars := by rfl) : Still s t where
  cur := h1
  curCtx := h2
  preempted := preempted_of_slots (congrArg Prod.fst h3)
  tick := congrArg (fun x => x.2.1) h3
  pkg := congrArg (fun x => x.2.2) h3
  quads := h4
  units := h5
  bars := h6
  cores n := by
    rw [State.core, State.core, hc]
    exact {}

theorem Still.refl (s : State) : Still s s := still_of_cores

theorem setCore_still {n : Nat} {c : CoreSt} (h : CoreStill (s.core n) c) : Still s (s.setCore n c) := by
  refine ⟨rfl, rfl, rfl, rfl, rfl, rfl, rfl, rfl, fun m => ?_⟩
  rw [core_setCore]
  split
  · next e => exact e ▸ h
  · exact {}

theorem setMe_still {c : CoreSt} (h : CoreStill s.me c) : Still s (s.setMe c) := setCore_still h

theorem ite_still {c : Prop} [Decidable c] (h : Still s t) (h' : Still s u) : Still s (if c then t else u) := by
  split <;> assumption

@[simp] theorem bump_still (off : Nat) : Still s (s.bump off) := still_of_cores
@[simp] theorem settle_still : Still s s.settle := still_of_cores

theorem Still.ctxOf (q : Still s t) (n i : Nat) : t.ctxOf n i = s.ctxOf n i := by
  rw [State.ctxOf, CoreSt.ctx, (q.cores n).ctxs]
  rfl

theorem Still.ctx (q : Still s t) : t.ctx = s.ctx := by
  rw [State.ctx, q.cur, q.curCtx, q.ctxOf]
  rfl

theorem Still.me (q : Still s t) : CoreStill s.me t.me := by
  rw [State.me, State.me, q.cur]
  exact q.cores _

/-- Where all stands still, nothing is written. -/
theorem Still.frame (q : Still s t) : Frame {} s t := by
  have e := q.ctx
  refine ⟨⟨q.cur, q.curCtx⟩, fun r _ => by rw [e], fun r _ => by rw [e], fun n _ => by rw [e], fun n _ => by rw [e], fun n hn _ => ?_,
    fun _ => by rw [e]; exact ⟨rfl, fun _ => rfl⟩, fun _ _ _ => by rw [e]; exact ⟨rfl, rfl⟩, fun n i _ => q.ctxOf n i,
    fun n _ => by rw [CoreSt.port, CoreSt.port, q.me.ports], q.quads, q.units, q.bars⟩
  have hg (x : Quad) : t.gangWaits x = s.gangWaits x := by
    rw [State.gangWaits, State.gangRequest, q.preempted, q.pkg]
    rfl
  simp only [keptStatus, List.mem_cons, List.not_mem_nil, or_false] at hn
  rcases hn with rfl | rfl | rfl | rfl | rfl | rfl | rfl | rfl | rfl | rfl | rfl | rfl | rfl | rfl | rfl | rfl | rfl | rfl | rfl | rfl | rfl
  all_goals simp [State.readStatus, State.quad, hg, e, q.cur, q.pkg, q.tick, q.quads, q.me.tvec, q.me.xb, q.me.rtree]

/-- Two frames in a row, the first of a step that leaves tstat, the loops and the replay. -/
theorem Frame.precede (p : Frame {} s t) (q : Frame w t u) (hs : t.ctx.tstat = s.ctx.tstat) (hr : t.ctx.rep = s.ctx.rep)
    (he : t.ctx.endsBody = s.ctx.endsBody) (h0 : t.ctx.lc0 = s.ctx.lc0) (h1 : t.ctx.lc1 = s.ctx.lc1) : Frame w s u where
  issuing := ⟨q.issuing.1.trans p.issuing.1, q.issuing.2.trans p.issuing.2⟩
  x r h := (q.x r h).trans (p.x r List.not_mem_nil)
  v r h := (q.v r h).trans (p.v r List.not_mem_nil)
  p n h := (q.p n h).trans (p.p n List.not_mem_nil)
  k n h := (q.k n h).trans (p.k n List.not_mem_nil)
  status n hn h := (q.status n hn h).trans (p.status n hn List.not_mem_nil)
  tstat h := by rw [← hs, ← hr]; exact q.tstat h
  loops h e e' := by
    rw [← h0, ← h1]
    exact q.loops h (hr.trans e) (he.trans e')
  contexts n i h := (q.contexts n i (by rwa [p.issuing.1, p.issuing.2])).trans (p.contexts n i h)
  ports n h := (q.ports n h).trans (p.ports n List.not_mem_nil)
  units := ⟨q.units.1.trans p.units.1, q.units.2.1.trans p.units.2.1, q.units.2.2.trans p.units.2.2⟩

/-- What is written behind the count of a handler's instruction is all that is written. -/
theorem frame_charged (hc : s.curCtx < 5) (q : Frame w (s.setCtx s.ctx.charge) t) : Frame w s t := by
  have e := ctx_setCtx_same s s.ctx.charge hc
  exact (setCtx_frame_charge hc).precede q (by rw [e]; simp) (by rw [e]; simp) (by rw [e, charge_endsBody]) (by rw [e]; simp)
    (by rw [e]; simp)

/-- An effect that completes: what it wrote, and beyond it nothing but what the completion does in the core. -/
theorem done_writes (h : Head) (hc : s.curCtx < 5) (f : Frame w s r) (hp : r.ctx.pc = s.ctx.pc) (hr : r.ctx.rep = s.ctx.rep)
    (he : s.ctx.rep = false → r.ctx.endsBody = s.ctx.endsBody) : let t := (Eff.done r).finish h
    Frame w s t ∧ Inside r t ∧ Advanced s t := by
  have hc' : r.curCtx < 5 := f.issuing.2 ▸ hc
  obtain ⟨f', i', a⟩ := complete_frame r.settle h hc'
  exact ⟨(frame_settle f).trans f' (fun q => hr.trans q) (fun q q' => (he q).trans q'), (inside_settle (Inside.refl r)).trans i',
    fun q q' => (a (hr.trans q) ((he q).trans q')).trans (congrArg (· + 4) hp)⟩

/-- An effect that writes no register completes and only advances. -/
theorem done_still (h : Head) (hc : s.curCtx < 5) (q : Still (s.setCtx s.ctx.charge) r) : let t := (Eff.done r).finish h
    Frame {} s t ∧ Inside r t ∧ Advanced s t := by
  have e : r.ctx = s.ctx.charge := q.ctx.trans (ctx_setCtx_same s _ hc)
  exact done_writes h hc (frame_charged hc q.frame) (by rw [e]; simp) (by rw [e]; simp) fun _ => by rw [e, charge_endsBody]

theorem memKept_of_eq (hm : t.mem = s.mem) : MemKept s t 0 0 := fun a _ => by rw [hm]

theorem Inside.memKept (i : Inside r t) (hm : r.mem = s.mem) : MemKept s t 0 0 := fun a ha => (i.memory a ha).trans (by rw [hm])

end

/-! NOP, SETC and YIELD (R143, R145). -/

section
variable {s : State} {h : Head}

/-- A context of another colour. -/
def Ctx.coloured (c : Ctx) (n : Nat) : Ctx := { c with tstat := Word.putField c.tstat 3 1 n }

theorem exec_setc {n : BitVec 5} (hc : Clear s clsPlain h []) :
    exec (.setc h n) s = .next ((Eff.done (s.setCtx (s.ctx.charge.coloured n.toNat))).finish h) := by
  refine congrArg Host.Outcome.next ((run_clear hc _ true rfl _).trans ?_)
  rw [ctx_setCtx_same s _ hc.here, setCtx_setCtx]
  rfl

theorem endsBody_coloured (c : Ctx) (n : Nat) : (c.coloured n).endsBody = c.endsBody := by
  have hs (m : Nat) : (c.coloured n).suspended m = c.suspended m := by
    unfold Ctx.suspended Ctx.coloured
    by_cases hm : 17 + m < 64
    · rw [putField_getLsbD (by decide) hm, if_neg (by omega)]
    · rw [BitVec.getLsbD_of_ge _ _ (by omega), BitVec.getLsbD_of_ge _ _ (by omega)]
  simp only [Ctx.endsBody, Ctx.lastOfBody, Ctx.live, hs]
  rfl

theorem setc_effect {n : Nat} (hn : n < 8) (hc : s.curCtx < 5) (hr : s.ctx.rep = false) :
    let t := (Eff.done (s.setCtx (s.ctx.charge.coloured n))).finish h
    t.ctx.colour = n ∧ t.ctx.tstat &&& ~~~0xE#64 = s.ctx.tstat &&& ~~~0xE#64 ∧ Frame { sr := [0x000] } s t ∧ Inside s t ∧ Advanced s t := by
  have e := ctx_setCtx_same s (s.ctx.charge.coloured n) hc
  obtain ⟨f, i, a⟩ := done_frame h hc (setCtx_frame_tstat (y := s.ctx.charge.coloured n) hc
    ((sameRegs_charge _).trans (by constructor <;> rfl)) (by simp [Ctx.coloured])) (inside_setCtx _) (by rw [e]; simp [Ctx.coloured])
    (by rw [e]; simp [Ctx.coloured]) fun _ => by rw [e, endsBody_coloured, charge_endsBody]
  have hs : ((Eff.done (s.setCtx (s.ctx.charge.coloured n))).finish h).ctx.tstat = Word.putField s.ctx.tstat 3 1 n := by
    rw [((done_after (s.setCtx (s.ctx.charge.coloured n)) h hc).1.tstat List.not_mem_nil).2 (by rw [e]; simpa [Ctx.coloured] using hr), e]
    simp [Ctx.coloured]
  refine ⟨?_, ?_, f, i, a⟩
  · rw [Ctx.colour, hs]
    exact field_putField_same (by decide) (by decide) hn
  · rw [hs]
    exact putField_outside _ _ _ _ _ (by decide)

/-- A core that chooses again, and puts the context that issued last. -/
def CoreSt.yields (c : CoreSt) : CoreSt := { c with switch := true, yielded := true }

theorem exec_yield (hc : Clear s clsMisc h []) (h4 : s.curCtx < 4) (hf : s.ctx.flagged = false) : let u := s.setCtx s.ctx.charge
    exec (.yield h) s = .next ((Eff.done (u.setMe u.me.yields)).finish h) := by
  refine congrArg Host.Outcome.next ((run_clear hc _ true rfl _).trans (congrArg (Eff.finish · h) ?_))
  rw [if_neg (show (s.setCtx s.ctx.charge).curCtx ≠ 4 from Nat.ne_of_lt h4), ctx_setCtx_same s _ hc.here,
    if_neg (by simp [hf])]
  rfl

theorem exec_yield_handler (hc : Clear s clsMisc h []) (h4 : s.curCtx = 4) :
    exec (.yield h) s = .next ((Eff.done (s.setCtx s.ctx.charge)).finish h) :=
  congrArg Host.Outcome.next ((run_clear hc _ true rfl _).trans (congrArg (Eff.finish · h) (if_pos h4)))

/-- A core that is to choose again still is, behind a completion. -/
theorem complete_switch {r : State} (hc : r.curCtx < 5) (hs : r.me.switch = true) : (r.complete h).me.switch = true := by
  have hset (y : Ctx) : (r.setCtx y).me.switch = true := by
    simpa [State.me, State.setCtx, State.setCtxOf, CoreSt.setCtx] using hs
  rw [complete_eq hc]
  split
  · obtain e | e := marker_frame (r.setCtx r.afterWord) r.instrPc
    · rw [e, hset]
    · rw [e]
      have hk := hset r.afterWord
      simp only [State.park, State.me, State.setMe, State.setCtx, State.setCtxOf, CoreSt.setCtx, core_setCore_same, setCore_cur] at hk ⊢
      simp [hk]
  · exact hset _

theorem yield_effect (hc : s.curCtx < 5) : let u := s.setCtx s.ctx.charge
    let t := (Eff.done (u.setMe u.me.yields)).finish h
    t.me.switch = true ∧ t.me.yielded = true ∧ Frame {} s t ∧ MemKept s t 0 0 ∧ Advanced s t := by
  intro u t
  have hs : Still u (u.setMe u.me.yields) := setMe_still {}
  obtain ⟨f, i, a⟩ := done_still h hc hs
  refine ⟨complete_switch (r := (u.setMe u.me.yields).settle) hc ?_, ?_, f, i.memKept rfl, a⟩
  · exact congrArg CoreSt.switch (me_setMe u u.me.yields)
  · rw [show t.me = _ from i.own]
    exact congrArg CoreSt.yielded (me_setMe u u.me.yields)

end

/-- Settles O6: each of the three by its effect. -/
theorem miscResults : Obligations.MiscResults := fun _ h =>
  ⟨fun hc => ⟨_, exec_nop hc, done_nothing hc.here h⟩, fun _ hn hc => ⟨_, exec_setc hc, setc_effect hn hc.here (hc.outside rfl)⟩,
    fun hc h4 hf => ⟨_, exec_yield hc h4 hf, yield_effect hc.here⟩, fun hc h4 => ⟨_, exec_yield_handler hc h4, done_nothing hc.here h⟩⟩

end Sys2Proof.Machine
end

section
namespace Sys2Proof.Machine

/-! The status registers that a context holds (R119). -/

section
variable {s : State} {y : Ctx} {n : Nat}

/-- The status registers that stand in a context; zero for the others. -/
def Ctx.status (c : Ctx) : Nat → Word
  | 0x000 => c.tstat
  | 0x001 => c.tpc
  | 0x002 => c.tcause
  | 0x003 => c.tval
  | 0x006 => c.fpre
  | 0x010 => c.lc0
  | 0x011 => c.lc1
  | 0x020 => c.fflags
  | 0x021 => c.frm
  | 0x022 => c.fseed
  | 0x030 => c.tid
  | 0x032 => c.grp
  | 0x033 => c.exitc
  | 0x040 => c.hst
  | 0x041 => c.hbud
  | 0x050 => c.chb
  | 0x060 => c.gtol
  | 0x061 => c.gdmp
  | _ => 0

theorem me_setCtx (s : State) (y : Ctx) : (s.setCtx y).me = s.me.setCtx s.curCtx y := core_setCore_same ..

/-- What a status register is read from (R119). -/
theorem readStatus_of {t : State} (hc : t.cur = s.cur) (hq : t.quads = s.quads) (hz : t.slots = s.slots) (hp : t.pkg = s.pkg)
    (ht : t.tick = s.tick) (hy : t.cycles = s.cycles) (h : t.ctx.status n = s.ctx.status n) (h4 : n = 0x004 → t.me.tvec = s.me.tvec)
    (h5 : n = 0x005 → t.me.xb = s.me.xb) (hr : t.me.rtree = s.me.rtree) (hm : t.me.cyc = s.me.cyc) : t.readStatus n = s.readStatus n := by
  fun_cases State.readStatus s n
  case case5 => exact h4 rfl
  case case6 => exact h5 rfl
  case case20 => exact hr
  case case14 | case23 | case24 | case25 | case26 =>
    simp only [State.readStatus, State.quad, gangWaits_eq hz hp, hc, hq, hp, ht, hy, hm]
  case case27 => simp [State.readStatus]
  all_goals exact h

/-- A context replaced: a status register reads as before where the context's own does. -/
theorem readStatus_setCtx_of (hc : s.curCtx < 5) (h : y.status n = s.ctx.status n) : (s.setCtx y).readStatus n = s.readStatus n :=
  readStatus_of (s := s) (t := s.setCtx y) rfl rfl rfl rfl rfl rfl (by rw [ctx_setCtx_same s y hc, h]) (fun _ => setCtx_me_tvec s y)
    (fun _ => setCtx_me_xb s y) (setCtx_me_rtree s y) (by rw [me_setCtx]; rfl)

end

/-! Trap entry by TRAP and BRK (R143, R336, R349). -/

section
variable {s : State} {h : Head} {cause : Nat} {v : Word}

/-- What the entry of a handler leaves (R336). -/
theorem enter_frame (hc : s.curCtx < 5) : Frame { sr := [0x000, 0x001, 0x002, 0x003, 0x006] } s
    ((s.bump (0x0A90 + 8 * cause)).setCtx (s.ctx.enter s.me.tvec cause v s.ctx.pc)) := by
  have hb : Still s (s.bump (0x0A90 + 8 * cause)) := bump_still _
  refine hb.frame.precede (setCtx_frame_writes hc (fun _ _ => rfl) (fun _ _ => rfl) (fun _ _ => rfl) (fun _ _ => rfl) (fun n hn hw => ?_)
    (fun hw => absurd (by decide) hw) fun _ => ⟨rfl, rfl⟩) rfl rfl rfl rfl rfl
  refine readStatus_setCtx_of hc ?_
  simp only [keptStatus, List.mem_cons, List.not_mem_nil, or_false] at hn hw
  rcases hn with rfl | rfl | rfl | rfl | rfl | rfl | rfl | rfl | rfl | rfl | rfl | rfl | rfl | rfl | rfl | rfl | rfl | rfl | rfl | rfl | rfl
  case inl | inr.inl | inr.inr.inl | inr.inr.inr.inr.inr.inl => exact absurd (by decide) hw
  all_goals rfl

/-- An instruction that raises a cause in a task with a handler completes by entering it. -/
theorem raise_effect (hc : s.curCtx < 5) (hr : s.ctx.role = .task) (hi : s.ctx.inh = false) (ht : s.me.tvec ≠ 0) :
    let t := (s.setCtx s.ctx.charge).settle.trap cause v
    t.ctx.pc = s.me.tvec ∧ t.ctx.tpc = s.ctx.pc &&& 0x3FFFFC#64 ∧ t.ctx.tcause = BitVec.ofNat 64 cause ∧ t.ctx.tval = v ∧
      t.ctx.inh = true ∧ Frame { sr := [0x000, 0x001, 0x002, 0x003, 0x006] } s t ∧ MemKept s t 0 0 := by
  have e : (s.setCtx s.ctx.charge).settle.ctx = s.ctx.charge := ctx_setCtx_same s _ hc
  have hv : (s.setCtx s.ctx.charge).settle.me.tvec = s.me.tvec := setCtx_me_tvec s _
  have hf := frame_charged hc ((settle_still (s := s.setCtx s.ctx.charge)).frame.precede (enter_frame (cause := cause) (v := v) hc)
    rfl rfl rfl rfl rfl)
  intro t
  have hx : t = ((s.setCtx s.ctx.charge).settle.bump (0x0A90 + 8 * cause)).setCtx
      (s.ctx.charge.enter s.me.tvec cause v s.ctx.charge.pc) := by
    show (s.setCtx s.ctx.charge).settle.trap cause v = _
    rw [trap_task (by rw [e]; simpa using hr) (by rw [e]; simpa [Ctx.inh] using hi) (by rw [hv]; exact ht), e, hv]
  have ht : t.ctx = s.ctx.charge.enter s.me.tvec cause v s.ctx.charge.pc := by
    rw [hx]
    exact ctx_setCtx_same _ _ hc
  rw [e, hv, ← hx] at hf
  have hm : t.mem = s.mem := by rw [hx]; rfl
  refine ⟨by rw [ht]; rfl, ?_, by rw [ht]; rfl, by rw [ht]; rfl, by rw [ht]; exact enter_inh .., hf, memKept_of_eq hm⟩
  rw [ht, ← charge_pc s.ctx]
  rfl

theorem exec_trap_word {n : BitVec 5} (hc : Clear s clsMisc h []) :
    exec (.trap h n) s = .next ((s.setCtx s.ctx.charge).settle.trap 0x0C (n.setWidth 64)) :=
  congrArg Host.Outcome.next (run_clear hc _ true rfl _)

/-- A core that halts at a breakpoint of context `i` (R349). -/
def CoreSt.halts (c : CoreSt) (i : Nat) : CoreSt := { c with halted := true, atBrk := i :: c.atBrk.filter (· != i) }

theorem exec_brk_word {n : BitVec 5} (hc : Clear s clsMisc h []) : let u := s.setCtx s.ctx.charge
    exec (.brk h n) s = .next (if s.me.haltOnBrk then u.setMe (u.me.halts s.curCtx) else u.settle.trap 0x0D (n.setWidth 64)) := by
  have hb : (s.setCtx s.ctx.charge).me.haltOnBrk = s.me.haltOnBrk := by rw [me_setCtx]; rfl
  refine congrArg Host.Outcome.next ((run_clear hc _ true rfl _).trans ?_)
  dsimp only
  rw [← hb]
  by_cases hk : (s.setCtx s.ctx.charge).me.haltOnBrk = true
  · rw [if_pos hk, if_pos hk]
    rfl
  · rw [if_neg hk, if_neg hk]
    rfl

theorem halt_effect (hc : s.curCtx < 5) : let u := s.setCtx s.ctx.charge
    let t := u.setMe (u.me.halts s.curCtx)
    t.me.halted = true ∧ t.ctx.pc = s.ctx.pc ∧ Frame {} s t ∧ MemKept s t 0 0 := by
  intro u t
  have hs : Still u t := setMe_still {}
  refine ⟨congrArg CoreSt.halted (me_setMe u _), ?_, frame_charged hc hs.frame, memKept_of_eq rfl⟩
  rw [hs.ctx, ctx_setCtx_same s _ hc, charge_pc]

end

/-- Settles O8: the entry of the handler by TRAP and BRK, and the breakpoint that halts. -/
theorem softwareTraps : Obligations.SoftwareTraps := fun s h n hc hr hi ht => by
  refine ⟨⟨_, exec_trap_word hc, raise_effect hc.here hr hi ht⟩, fun hb => ?_, fun hb => ?_⟩
  · exact ⟨_, (exec_brk_word hc).trans (by rw [hb]; rfl), raise_effect hc.here hr hi ht⟩
  · exact ⟨_, (exec_brk_word hc).trans (by rw [hb]; rfl), halt_effect hc.here⟩

/-! IRET (R144, R337). -/

section
variable {s : State} {h : Head}

/-- What a return leaves of tstat: bits 18, 17, 16 and 0 are clear. -/
theorem iret_tstat (c : Ctx) : c.iret.inh = false ∧ c.iret.tstat &&& ~~~0x70001#64 = c.tstat &&& ~~~0x70001#64 ∧
    c.iret.tstat &&& 0x70001#64 = 0 := by
  have hbit (i : Nat) (hi : i < 64) : c.iret.tstat.getLsbD i =
      if i = 0 ∨ (16 ≤ i ∧ i ≤ 18) then false else c.tstat.getLsbD i := by
    rw [Ctx.iret]
    dsimp only
    rw [putField_getLsbD (by decide) hi, putField_getLsbD (by decide) hi, putField_getLsbD (by decide) hi]
    by_cases h0 : i = 0
    · simp [h0]
    · by_cases h16 : i = 16
      · simp [h16]
      · by_cases h17 : 17 ≤ i ∧ i ≤ 18
        · simp [h0, h17, show 16 ≤ i by omega]
        · rw [if_neg (by omega), if_neg h17, if_neg (by omega), if_neg (by omega)]
  have hmask : ∀ i, i < 64 → (0x70001#64).getLsbD i = true → i = 0 ∨ (16 ≤ i ∧ i ≤ 18) := by decide
  refine ⟨(hbit 16 (by decide)).trans rfl, ?_, BitVec.eq_of_getLsbD_eq fun i hi => ?_⟩
  · rw [Ctx.iret]
    dsimp only
    exact (putField_outside _ _ _ _ _ (by decide)).trans ((putField_outside _ _ _ _ _ (by decide)).trans
      (putField_outside _ _ _ _ _ (by decide)))
  · rw [BitVec.getLsbD_and, hbit i hi]
    by_cases hm : (0x70001#64).getLsbD i = true
    · rw [if_pos (hmask i hi hm)]
      simp
    · rw [Bool.eq_false_of_not_eq_true hm]
      simp

theorem exec_iret_word (hc : Clear s clsMisc h []) (hi : s.ctx.inh = true) : ∃ a,
    exec (.iret h) s = .next (if h.sw then (s.setCtx s.ctx.charge.iret).marker a else s.setCtx s.ctx.charge.iret) := by
  refine ⟨(s.setCtx s.ctx.charge).instrPc, congrArg Host.Outcome.next ((run_clear hc _ _ hi _).trans ?_)⟩
  rw [ctx_setCtx_same s _ hc.here, setCtx_setCtx]
  rfl

theorem iret_effect (hc : Clear s clsMisc h []) (hi : s.ctx.inh = true) :
    ∃ t, exec (.iret h) s = .next t ∧ t.ctx.pc = s.ctx.tpc ∧ t.ctx.inh = false ∧
      t.ctx.tstat &&& ~~~0x70001#64 = s.ctx.tstat &&& ~~~0x70001#64 ∧ t.ctx.tstat &&& 0x70001#64 = 0 ∧
      t.ctx.pfx = (if s.ctx.tstat.getLsbD 0 then some (s.ctx.fpre.setWidth 22) else none) ∧
      t.ctx.rep = s.ctx.tstat.getLsbD 4 ∧ t.ctx.lc0 = s.ctx.lc0 ∧ t.ctx.lc1 = s.ctx.lc1 ∧
      Frame { sr := [0x000] } s t ∧ Inside s t := by
  obtain ⟨a, hx⟩ := exec_iret_word hc hi
  refine ⟨_, hx, ?_⟩
  have e := ctx_setCtx_same s s.ctx.charge.iret hc.here
  obtain ⟨h1, h2, h3⟩ := iret_tstat s.ctx.charge
  rw [charge_tstat] at h2
  obtain ⟨w, n, ht, -⟩ := marked_ctx hc.here s.ctx.charge.iret h.sw a
  obtain ⟨fm, im, -, hst, h0', h1'⟩ := marker_ok (s.setCtx s.ctx.charge.iret) h.sw a hc.here _ rfl
  have hf : Frame { sr := [0x000] } s (s.setCtx s.ctx.charge.iret) := setCtx_frame_tstat hc.here
    ((sameRegs_charge _).trans (by constructor <;> rfl)) (by simp [Ctx.iret])
  refine ⟨?_, ?_, ?_, ?_, ?_, ?_, ?_, ?_, hf.andThen fm hst h0' h1', (inside_setCtx _).trans im⟩
  all_goals rw [ht]
  · exact charge_tpc _
  · exact h1
  · exact h2
  · exact h3
  · simp [Ctx.iret]
  · simp [Ctx.iret]
  · simp [Ctx.iret]
  · simp [Ctx.iret]

end

/-- Settles O9: the return, and its illegality outside a handler. -/
theorem iretResults : Obligations.IretResults :=
  ⟨fun _ _ hc hi => iret_effect hc hi,
    fun _ _ hs hp hi => congrArg Host.Outcome.next (run_of_trap hs hp (pre_illegal hp (by simp [hi])))⟩

end Sys2Proof.Machine
end

section
namespace Sys2Proof.Machine

/-! What MTS makes of the status registers that a context holds (R119-R121, R124, R141). -/

section
variable {s r : State} {c : Ctx} {h : Head} {n a : Nat} {v w keep bits : Word}

/-- A low field put into a word, by masks. -/
theorem putField_low {hi : Nat} {m : Word} (hm : ∀ i, i < 64 → m.getLsbD i = decide (i ≤ hi)) :
    Word.putField w hi 0 (v.toNat % 2 ^ (hi + 1)) = (w &&& ~~~m) ||| (v &&& m) := by
  refine BitVec.eq_of_getLsbD_eq fun i hi' => ?_
  rw [putField_getLsbD (Nat.zero_le _) hi', BitVec.getLsbD_or, BitVec.getLsbD_and, BitVec.getLsbD_and, BitVec.getLsbD_not, hm i hi']
  by_cases h : i ≤ hi
  · simp [h, Nat.testBit_mod_two_pow, Nat.lt_succ_of_le h, BitVec.testBit_toNat]
  · simp [h, hi']

theorem and_zero_or (x y : Word) : (x &&& 0) ||| y = y := by simp

/-- The status registers that MTS writes in a context. -/
def ctxWritten : List Nat := [0x000, 0x001, 0x002, 0x003, 0x006, 0x010, 0x011, 0x020, 0x021, 0x022, 0x060, 0x061]

/-- A status register of a context replaced. -/
def Ctx.putStatus (c : Ctx) (n : Nat) (w : Word) : Ctx :=
  match n with
  | 0x000 => { c with tstat := w }
  | 0x001 => { c with tpc := w }
  | 0x002 => { c with tcause := w }
  | 0x003 => { c with tval := w }
  | 0x006 => { c with fpre := w }
  | 0x010 => { c with lc0 := w }
  | 0x011 => { c with lc1 := w }
  | 0x020 => { c with fflags := w }
  | 0x021 => { c with frm := w }
  | 0x022 => { c with fseed := w }
  | 0x060 => { c with gtol := w }
  | 0x061 => { c with gdmp := w }
  | _ => c

/-- MTS with an operand that the register takes writes its bits and leaves the rest of the register (R120, R121, R124, R141). -/
theorem writeStatus_eq (hb : statusBits n = some (keep, bits)) (ht : statusTakes s n v) (h4 : n ≠ 0x004) (h5 : n ≠ 0x005) :
    n ∈ ctxWritten ∧ s.writeStatus n v = .done (s.setCtx (s.ctx.putStatus n ((s.ctx.status n &&& keep) ||| (v &&& bits)))) := by
  obtain ⟨-, -, h0, h1⟩ := ht
  have hmask : ∀ i, i < 64 → (0xFFFFFFFF#64).getLsbD i = decide (i ≤ 31) := by decide
  unfold statusBits at hb
  split at hb <;> cases hb
  case h_5 | h_6 => contradiction
  case h_4 | h_12 =>
    rw [and_zero_or, BitVec.and_allOnes]
    exact ⟨by decide, rfl⟩
  case h_1 =>
    refine ⟨by decide, ?_⟩
    rw [← putField_low (hi := 15) (by decide)]
    rfl
  case h_8 =>
    refine ⟨by decide, ?_⟩
    rw [← putField_low hmask, State.writeStatus, h0 rfl]
    rfl
  case h_9 =>
    refine ⟨by decide, ?_⟩
    rw [← putField_low hmask, State.writeStatus, h1 rfl]
    rfl
  all_goals
    rw [and_zero_or]
    exact ⟨by decide, rfl⟩

/-- A status register of a context reads as it was written, and the others as before. -/
theorem status_putStatus (hn : n ∈ ctxWritten) (m : Nat) : (c.putStatus n w).status m = if m = n then w else c.status m := by
  split
  · next e =>
    rw [e]
    simp only [ctxWritten, List.mem_cons, List.not_mem_nil, or_false] at hn
    rcases hn with rfl | rfl | rfl | rfl | rfl | rfl | rfl | rfl | rfl | rfl | rfl | rfl <;> rfl
  · next e =>
    revert e
    fun_cases Ctx.putStatus c n w <;> fun_cases Ctx.status c m <;> simp [Ctx.status]

/-- The count of a handler's instruction leaves every status register but hbud. -/
theorem charge_status (hn : n ≠ 0x041) : c.charge.status n = c.status n := by
  revert hn
  fun_cases Ctx.status c n <;> simp [Ctx.status]

/-- A write of a status register leaves the other registers and the place in the instruction stream. -/
theorem putStatus_kept (c : Ctx) (n : Nat) (w : Word) : let d := c.putStatus n w
    d.x = c.x ∧ d.v = c.v ∧ d.p = c.p ∧ d.k = c.k ∧ d.pc = c.pc ∧ d.rep = c.rep := by
  fun_cases Ctx.putStatus c n w <;> exact ⟨rfl, rfl, rfl, rfl, rfl, rfl⟩

/-- A status register that a context holds reads as it stands there. -/
theorem readStatus_eq_status (hn : n ∈ ctxWritten) : s.readStatus n = s.ctx.status n := by
  simp only [ctxWritten, List.mem_cons, List.not_mem_nil, or_false] at hn
  rcases hn with rfl | rfl | rfl | rfl | rfl | rfl | rfl | rfl | rfl | rfl | rfl | rfl <;> rfl

/-- The bits of a status register that say whether a loop is live stand as they stood: MTS changes none of them. -/
def KeepsLoops (c : Ctx) (n : Nat) (w : Word) : Prop :=
  (n = 0x000 → ∀ i, 17 ≤ i → w.getLsbD i = c.tstat.getLsbD i) ∧
  (n = 0x010 → lcAct w = false ∧ lcAct c.lc0 = false) ∧ (n = 0x011 → lcAct w = false ∧ lcAct c.lc1 = false)

theorem endsBody_putStatus (hn : n ∈ ctxWritten) (h : KeepsLoops c n w) : (c.putStatus n w).endsBody = c.endsBody := by
  obtain ⟨ht, h0, h1⟩ := h
  unfold Ctx.endsBody Ctx.lastOfBody
  rw [(putStatus_kept c n w).2.2.2.2.1]
  have hl (m : Nat) (hm : m ≠ n) : (c.putStatus n w).status m = c.status m := by rw [status_putStatus hn, if_neg hm]
  have hs (m : Nat) : (c.putStatus n w).suspended m = c.suspended m := by
    by_cases hn : n = 0x000
    · rw [hn]
      exact ht hn _ (by omega)
    · exact congrArg (fun w : Word => w.getLsbD (17 + m)) (hl 0x000 (Ne.symm hn))
  have hv0 : ((c.putStatus n w).live 0 && lcLast (c.putStatus n w).lc0 == c.pc.toNat) = (c.live 0 && lcLast c.lc0 == c.pc.toNat) := by
    by_cases hn : n = 0x010
    · obtain ⟨hw, hc⟩ := h0 hn
      rw [Ctx.live, Ctx.live, hn]
      simp [Ctx.lc, Ctx.putStatus, hw, hc]
    · have e : (c.putStatus n w).lc0 = c.lc0 := hl 0x010 (Ne.symm hn)
      simp only [Ctx.live, Ctx.lc, hs, e, if_true]
  have hv1 : ((c.putStatus n w).live 1 && lcLast (c.putStatus n w).lc1 == c.pc.toNat) = (c.live 1 && lcLast c.lc1 == c.pc.toNat) := by
    by_cases hn : n = 0x011
    · obtain ⟨hw, hc⟩ := h1 hn
      rw [Ctx.live, Ctx.live, hn]
      simp [Ctx.lc, Ctx.putStatus, hw, hc]
    · have e : (c.putStatus n w).lc1 = c.lc1 := hl 0x011 (Ne.symm hn)
      simp only [Ctx.live, Ctx.lc, hs, e, Nat.one_ne_zero, if_false]
  rw [hv0, hv1]

/-- What MTS writes leaves the loops live or not, as they were (R120, R141). -/
theorem keepsLoops_write (hb : statusBits n = some (keep, bits)) (ht : statusTakes s n v) :
    KeepsLoops s.ctx n ((s.ctx.status n &&& keep) ||| (v &&& bits)) := by
  obtain ⟨-, -, h0, h1⟩ := ht
  have hact (x y : Word) : lcAct ((x &&& ~~~0xFFFFFFFF#64) ||| (y &&& 0xFFFFFFFF#64)) = lcAct x := by
    rw [lcAct, BitVec.getLsbD_or, BitVec.getLsbD_and, BitVec.getLsbD_and, show (~~~0xFFFFFFFF#64).getLsbD 63 = true by decide,
      show (0xFFFFFFFF#64).getLsbD 63 = false by decide, Bool.and_true, Bool.and_false, Bool.or_false]
    rfl
  refine ⟨fun hn i hi => ?_, fun hn => ?_, fun hn => ?_⟩
  · subst hn
    cases hb
    have hm : ∀ i, 17 ≤ i → i < 64 → (0xFFFF#64).getLsbD i = false := by decide
    by_cases h64 : i < 64
    · rw [BitVec.getLsbD_or, BitVec.getLsbD_and, BitVec.getLsbD_and, BitVec.getLsbD_not, hm i hi h64]
      simp [h64, Ctx.status]
    · rw [BitVec.getLsbD_of_ge _ _ (by omega), BitVec.getLsbD_of_ge _ _ (by omega)]
  · subst hn
    cases hb
    exact ⟨(hact ..).trans (h0 rfl), h0 rfl⟩
  · subst hn
    cases hb
    exact ⟨(hact ..).trans (h1 rfl), h1 rfl⟩

/-- A loop that is not live stands at the end of a body as it stood (R142). -/
theorem lc_bodyEnd (hn : n < 2) (h : c.live n = false) (a : Nat) : (c.bodyEnd a).lc n = c.lc n := by
  have hne : ¬EndsAt c n a := fun he => by simp [he.1] at h
  by_cases ho : EndsAt c (1 - n) a
  · rw [bodyEnd_single (n := 1 - n) (by omega) ho (by rwa [show 1 - (1 - n) = n by omega])]
    obtain ⟨w, b, e⟩ := bodyStep_eq c (1 - n)
    have hl := (lc_setLc (c := c) (n := 1 - n) (by omega) w).2
    rw [show 1 - (1 - n) = n by omega] at hl
    rw [e]
    exact hl
  · rw [bodyEnd_none]
    rw [endsAt_iff, Bool.not_eq_true] at hne ho
    unfold Ctx.lastOfBody
    rw [Bool.or_eq_false_iff]
    obtain rfl | rfl : n = 0 ∨ n = 1 := by omega
    · exact ⟨hne, ho⟩
    · exact ⟨ho, hne⟩

/-- A completion leaves a loop that is not live. -/
theorem complete_lc (hc : r.curCtx < 5) (hr : r.ctx.rep = false) (hn : n < 2) (h' : r.ctx.live n = false) :
    (r.complete h).ctx.lc n = r.ctx.lc n := by
  obtain ⟨w, m, he, -⟩ := marked_ctx hc r.afterWord h.sw r.instrPc
  rw [← complete_eq hc, State.afterWord, hr, if_neg Bool.false_ne_true] at he
  rw [he]
  exact lc_bodyEnd (c := r.ctx.nextWord) hn h' _

/-- A status register that a context holds has been written, and the instruction completes. -/
theorem put_effect (hc : s.curCtx < 5) (hr : s.ctx.rep = false) (hn : n ∈ ctxWritten) (hk : KeepsLoops s.ctx.charge n w) :
    let t := (Eff.done (s.setCtx (s.ctx.charge.putStatus n w))).finish h
    t.readStatus n = w ∧ (s.ctx.endsBody = false → (n ≠ 0x010 → t.ctx.lc0 = s.ctx.lc0) ∧ (n ≠ 0x011 → t.ctx.lc1 = s.ctx.lc1)) ∧
      Frame { sr := n :: (if n = 0x011 then [0x010] else []) } s t ∧ MemKept s t 0 0 ∧ Advanced s t := by
  have hend := (endsBody_putStatus hn hk).trans (charge_endsBody s.ctx)
  have hst (m : Nat) (hm : m ≠ n) : (s.ctx.charge.putStatus n w).status m = s.ctx.charge.status m := by
    rw [status_putStatus hn, if_neg hm]
  have hself : (s.ctx.charge.putStatus n w).status n = w := by rw [status_putStatus hn, if_pos rfl]
  obtain ⟨hx, hv, hp, hkk, hpc, hrep⟩ := putStatus_kept s.ctx.charge n w
  rw [charge_pc] at hpc
  rw [charge_rep] at hrep
  generalize s.ctx.charge.putStatus n w = y at *
  have e : (s.setCtx y).ctx = y := ctx_setCtx_same s y hc
  have hrep' : (s.setCtx y).ctx.rep = false := by rw [e, hrep, hr]
  have hf : Frame { sr := n :: (if n = 0x011 then [0x010] else []) } s (s.setCtx y) := by
    refine setCtx_frame_writes hc (fun r _ => ?_) (fun r _ => ?_) (fun m _ => ?_) (fun m _ => ?_) (fun m hm hw => ?_) (fun hw => ?_)
      fun hw => ?_
    · rw [Ctx.rx, hx, ← charge_rx]
      rfl
    · rw [Ctx.rv, hv, ← charge_rv]
      rfl
    · rw [Ctx.rp, hp, ← charge_rp]
      rfl
    · rw [Ctx.rk, hkk, ← charge_rk]
      rfl
    · have hkept : ∀ m ∈ keptStatus, m ≠ 0x041 := by decide
      refine readStatus_setCtx_of hc ((hst m (List.ne_of_not_mem_cons hw)).trans ?_)
      exact charge_status (hkept m hm)
    · exact (hst 0x000 (List.ne_of_not_mem_cons hw)).trans (charge_tstat _)
    · have h11 : n ≠ 0x011 := fun h => hw (by simp [h])
      exact ⟨(hst 0x010 (List.ne_of_not_mem_cons hw)).trans (charge_lc0 _), (hst 0x011 h11.symm).trans (charge_lc1 _)⟩
  obtain ⟨f, i, a⟩ := done_writes h hc hf (by rw [e, hpc]) (by rw [e, hrep]) fun _ => by rw [e, hend]
  refine ⟨?_, fun hb => ?_, f, i.memKept rfl, a⟩
  · have hr' : (s.setCtx y).readStatus n = w := (readStatus_eq_status hn).trans (by rw [e, hself])
    obtain ⟨fr, -⟩ := done_after (s.setCtx y) h hc
    by_cases h0 : n = 0x000
    · subst h0
      exact (fr.tstat List.not_mem_nil).2 hrep' |>.trans hr'
    · by_cases h10 : n = 0x010
      · subst h10
        refine (complete_lc (r := (s.setCtx y).settle) (n := 0) hc hrep' (by decide) ?_).trans hr'
        show (s.setCtx y).ctx.live 0 = false
        have hact : lcAct y.lc0 = false := (congrArg lcAct hself).trans (hk.2.1 rfl).1
        rw [e, Ctx.live, show y.lc 0 = y.lc0 from rfl, hact, Bool.false_and]
      · by_cases h11 : n = 0x011
        · subst h11
          refine (complete_lc (r := (s.setCtx y).settle) (n := 1) hc hrep' (by decide) ?_).trans hr'
          show (s.setCtx y).ctx.live 1 = false
          have hact : lcAct y.lc1 = false := (congrArg lcAct hself).trans (hk.2.2 rfl).1
          rw [e, Ctx.live, show y.lc 1 = y.lc1 from rfl, hact, Bool.false_and]
        · have hkept : ∀ m ∈ ctxWritten, m = 0x000 ∨ m = 0x010 ∨ m = 0x011 ∨ m ∈ keptStatus := by decide
          have hm : n ∈ keptStatus := ((((hkept n hn).resolve_left h0).resolve_left h10).resolve_left h11)
          exact (fr.status n hm List.not_mem_nil).trans hr'
  · obtain ⟨-, hlc, -⟩ := complete_unlooped (r := (s.setCtx y).settle) (h := h) hc hrep' (by
      show (s.setCtx y).ctx.endsBody = false
      rw [e, hend, hb])
    have hlc' (m : Nat) : ((s.setCtx y).settle.complete h).ctx.lc m = y.lc m := (hlc m).trans (congrArg (Ctx.lc · m) e)
    exact ⟨fun h10 => (hlc' 0).trans ((hst 0x010 h10.symm).trans (charge_lc0 _)),
      fun h11 => (hlc' 1).trans ((hst 0x011 h11.symm).trans (charge_lc1 _))⟩

end

/-! tvec and xb, which the core holds (R88, R124). -/

section
variable {s : State} {h : Head} {n : Nat} {k : CoreSt}

theorem setMe_ctx (hx : k.ctxs = s.me.ctxs) : (s.setMe k).ctx = s.ctx := by
  rw [State.ctx, State.ctxOf, CoreSt.ctx, show ((s.setMe k).core (s.setMe k).cur).ctxs = s.me.ctxs from
    (congrArg CoreSt.ctxs (me_setMe s k)).trans hx]
  rfl

/-- The status registers after a change of the issuing core. -/
theorem readStatus_setMe (hx : k.ctxs = s.me.ctxs) (h4 : n = 0x004 → k.tvec = s.me.tvec) (h5 : n = 0x005 → k.xb = s.me.xb)
    (hr : k.rtree = s.me.rtree) (hc : k.cyc = s.me.cyc) : (s.setMe k).readStatus n = s.readStatus n := by
  have hm := me_setMe s k
  exact readStatus_of (s := s) (t := s.setMe k) rfl rfl rfl rfl rfl rfl (by rw [setMe_ctx hx]) (fun e => by rw [hm, h4 e])
    (fun e => by rw [hm, h5 e]) (by rw [hm, hr]) (by rw [hm, hc])

/-- A status register of the core has been written, and the instruction completes. -/
theorem setMe_effect (hc : s.curCtx < 5) (hr : s.ctx.rep = false) (hn : n = 0x004 ∨ n = 0x005) (hx : k.ctxs = (s.setCtx s.ctx.charge).me.ctxs)
    (hp : k.ports = (s.setCtx s.ctx.charge).me.ports)
    (hs : ∀ m, m ≠ n → ((s.setCtx s.ctx.charge).setMe k).readStatus m = (s.setCtx s.ctx.charge).readStatus m) :
    let t := (Eff.done ((s.setCtx s.ctx.charge).setMe k)).finish h
    t.readStatus n = ((s.setCtx s.ctx.charge).setMe k).readStatus n ∧
      (s.ctx.endsBody = false → t.ctx.lc0 = s.ctx.lc0 ∧ t.ctx.lc1 = s.ctx.lc1) ∧
      Frame { sr := [n] } s t ∧ MemKept s t 0 0 ∧ Advanced s t := by
  have e : ((s.setCtx s.ctx.charge).setMe k).ctx = s.ctx.charge := (setMe_ctx hx).trans (ctx_setCtx_same s _ hc)
  have he : ((s.setCtx s.ctx.charge).setMe k).ctx = (s.setCtx s.ctx.charge).ctx := setMe_ctx hx
  have hf : Frame { sr := [n] } (s.setCtx s.ctx.charge) ((s.setCtx s.ctx.charge).setMe k) := by
    refine ⟨⟨rfl, rfl⟩, fun r _ => by rw [he], fun r _ => by rw [he], fun m _ => by rw [he], fun m _ => by rw [he],
      fun m _ hw => hs m (by simpa using hw), fun _ => by rw [he]; exact ⟨rfl, fun _ => rfl⟩, fun _ _ _ => by rw [he]; exact ⟨rfl, rfl⟩,
      fun m i _ => ?_, fun m _ => ?_, rfl, rfl, rfl⟩
    · rw [State.ctxOf, CoreSt.ctx, State.setMe, core_setCore]
      split
      · next q => rw [q, hx]; rfl
      · rfl
    · rw [CoreSt.port, CoreSt.port, me_setMe, hp]
  obtain ⟨f, i, a⟩ := done_writes h hc (frame_charged hc hf) (by rw [e]; simp) (by rw [e]; simp) fun _ => by rw [e, charge_endsBody]
  have hkept : n ∈ keptStatus := by
    rcases hn with rfl | rfl <;> decide
  refine ⟨(done_after ((s.setCtx s.ctx.charge).setMe k) h hc).1.status n hkept List.not_mem_nil, fun hb => ?_, f, i.memKept rfl, a⟩
  have h00 : 0x010 ∉ [n] := by
    rcases hn with rfl | rfl <;> decide
  exact f.loops h00 hr hb

end

/-! MFS and MTS (R124). -/

section
variable {s : State} {h : Head} {a : Reg} {idx : BitVec 12} {keep bits : Word}

theorem exec_mts_eq (hc : Clear s clsPlain h [ux a]) (hl : s.ctx.mtsLegal idx.toNat = true) :
    exec (.mts h a idx) s = .next (((s.setCtx s.ctx.charge).writeStatus idx.toNat (s.ctx.rx a)).finish h) := by
  refine congrArg Host.Outcome.next ((run_clear hc _ _ hl _).trans (congrArg (Eff.finish · h) ?_))
  rw [ctx_setCtx_same s _ hc.here, charge_rx]

/-- MTS with an operand that the register takes. -/
theorem mts_writes (hc : Clear s clsPlain h [ux a]) (hl : s.ctx.mtsLegal idx.toNat = true)
    (hb : statusBits idx.toNat = some (keep, bits)) (ht : statusTakes s idx.toNat (s.ctx.rx a)) :
    ∃ t, exec (.mts h a idx) s = .next t ∧ t.readStatus idx.toNat = (s.readStatus idx.toNat &&& keep) ||| (s.ctx.rx a &&& bits) ∧
      (s.ctx.endsBody = false → (idx.toNat ≠ 0x010 → t.ctx.lc0 = s.ctx.lc0) ∧ (idx.toNat ≠ 0x011 → t.ctx.lc1 = s.ctx.lc1)) ∧
      Frame { sr := idx.toNat :: (if idx.toNat = 0x011 then [0x010] else []) } s t ∧ MemKept s t 0 0 ∧ Advanced s t := by
  have hx := exec_mts_eq hc hl
  have hr := hc.outside rfl
  have e := ctx_setCtx_same s s.ctx.charge hc.here
  generalize idx.toNat = n at *
  generalize s.ctx.rx a = v at *
  by_cases h4 : n = 0x004
  · subst h4
    cases hb
    have hw : (s.setCtx s.ctx.charge).writeStatus 0x004 v = .done ((s.setCtx s.ctx.charge).setMe
        { (s.setCtx s.ctx.charge).me with tvec := v &&& 0xFFFFFC }) := if_neg (Nat.not_le.2 (ht.1 rfl))
    obtain ⟨hs, hlc, f, m, adv⟩ := setMe_effect (h := h) (n := 0x004) hc.here hr (.inl rfl)
      (k := { (s.setCtx s.ctx.charge).me with tvec := v &&& 0xFFFFFC }) rfl rfl
      fun m hm => readStatus_setMe rfl (fun q => absurd q hm) (fun _ => rfl) rfl rfl
    refine ⟨_, hx.trans (congrArg (fun e : Eff => Host.Outcome.next (e.finish h)) hw), hs.trans ?_,
      fun hb => ⟨fun _ => (hlc hb).1, fun _ => (hlc hb).2⟩, f, m, adv⟩
    rw [and_zero_or]
    exact congrArg CoreSt.tvec (me_setMe _ _)
  · by_cases h5 : n = 0x005
    · subst h5
      cases hb
      obtain ⟨hv1, hv2, hv3⟩ := ht.2.1 rfl
      have hw : (s.setCtx s.ctx.charge).writeStatus 0x005 v = .done ((s.setCtx s.ctx.charge).setMe
          { (s.setCtx s.ctx.charge).me with xb := v }) := if_neg (by omega)
      obtain ⟨hs, hlc, f, m, adv⟩ := setMe_effect (h := h) (n := 0x005) hc.here hr (.inr rfl)
        (k := { (s.setCtx s.ctx.charge).me with xb := v }) rfl rfl
        fun m hm => readStatus_setMe rfl (fun _ => rfl) (fun q => absurd q hm) rfl rfl
      refine ⟨_, hx.trans (congrArg (fun e : Eff => Host.Outcome.next (e.finish h)) hw), hs.trans ?_,
        fun hb => ⟨fun _ => (hlc hb).1, fun _ => (hlc hb).2⟩, f, m, adv⟩
      rw [and_zero_or, BitVec.and_allOnes]
      exact congrArg CoreSt.xb (me_setMe _ _)
    · have ht' : statusTakes (s.setCtx s.ctx.charge) n v := by
        simpa only [statusTakes, e, charge_lc0, charge_lc1] using ht
      obtain ⟨hn, hw⟩ := writeStatus_eq hb ht' h4 h5
      have hk := keepsLoops_write hb ht'
      have hstat : s.ctx.charge.status n = s.readStatus n :=
        (charge_status ((by decide : ∀ m ∈ ctxWritten, m ≠ 0x041) n hn)).trans (readStatus_eq_status hn).symm
      rw [e, setCtx_setCtx, hstat] at hw
      rw [e, hstat] at hk
      exact ⟨_, hx.trans (congrArg (fun e : Eff => Host.Outcome.next (e.finish h)) hw), put_effect hc.here hr hn hk⟩

/-- What MTS does not take traps with the operand as tval. -/
theorem mts_refuses (hc : Clear s clsPlain h [ux a]) (hl : s.ctx.mtsLegal idx.toNat = true) {cause : Nat}
    (hw : (s.setCtx s.ctx.charge).writeStatus idx.toNat (s.ctx.rx a) = .trap cause (s.ctx.rx a) (s.setCtx s.ctx.charge)) :
    exec (.mts h a idx) s = .next ((s.setCtx s.ctx.charge).settle.trap cause (s.ctx.rx a)) :=
  (exec_mts_eq hc hl).trans (congrArg (fun e : Eff => Host.Outcome.next (e.finish h)) hw)

end

/-- Settles O11: MFS, then MTS that writes, that traps for its operand, and that is illegal. -/
theorem statusRegisters : Obligations.StatusRegisters := by
  refine ⟨fun s h d idx hc _ => ⟨_, ?mfs, done_wx h hc.here d _⟩, fun s h a idx keep bits hc hl hb ht => mts_writes hc hl hb ht,
    fun s h a idx hc hl => ?refused, fun s h a idx hs hp hl => congrArg Host.Outcome.next (run_of_trap hs hp (pre_illegal hp (by simp [hl])))⟩
  case mfs =>
    refine congrArg Host.Outcome.next ((run_clear hc _ true rfl _).trans ?_)
    rw [ctx_setCtx_same s _ hc.here, setCtx_setCtx]
  case refused =>
    have e := ctx_setCtx_same s s.ctx.charge hc.here
    refine ⟨fun hn hv => mts_refuses hc hl ?_, fun hn hv => mts_refuses hc hl ?_, fun hn hv => mts_refuses hc hl ?_,
      fun hn hv => mts_refuses hc hl ?_⟩
    all_goals rw [hn]
    · exact if_pos hv
    · exact if_pos hv
    · exact if_pos (by rw [e, charge_lc0]; exact hv)
    · exact if_pos (by rw [e, charge_lc1]; exact hv)

end Sys2Proof.Machine
end

section
namespace Sys2Proof.Machine

/-! An instruction that no handler runs: its context counts no budget, and issues it as the context stands. -/

section
variable {s t r : State} {h : Head} {k : Cls} {uses : List Nat}

/-- The instruction of a class that no handler runs counts no budget. -/
theorem Clear.uncharged (hc : Clear s k h uses) (hr : k.row = false) (hh : k.hinge = false) :
    s.ctx.charge = s.ctx ∧ s.ctx.uncharge = s.ctx := by
  have hl := hc.allowed
  rw [Ctx.legal, Bool.and_eq_true] at hl
  rw [Ctx.charge, Ctx.uncharge]
  split
  · next e => simp [e, hr] at hl
  · next e => simp [e, hh] at hl
  · exact ⟨rfl, rfl⟩

theorem uncharge_of_phased {c : Ctx} (hu : c.uncharge = c) (n : Nat) : ({ c with phase := n } : Ctx).uncharge = { c with phase := n } := by
  have h : ({ c with phase := n } : Ctx).uncharge = { c.uncharge with phase := n } := by
    rcases c with ⟨_ | _⟩ <;> rfl
  rw [h, hu]

theorem setCtx_ctx_core (s : State) (n : Nat) : (s.setCtx s.ctx).core n = s.core n := by
  have hv : (s.core s.cur).setCtx s.curCtx s.ctx = s.core s.cur := by
    simp only [CoreSt.setCtx, State.ctx, State.ctxOf, CoreSt.ctx]
    have : (s.core s.cur).ctxs.setIfInBounds s.curCtx ((s.core s.cur).ctxs[s.curCtx]?.getD {}) = (s.core s.cur).ctxs := by
      ext j hj
      rw [Vector.getElem_setIfInBounds]
      split
      · next e => subst e; simp [hj]
      · rfl
    rw [this]
  rw [State.setCtx, State.setCtxOf, hv, core_setCore]
  split
  · next e => rw [e]
  · rfl

/-- A state in which the issuing context is replaced by itself: all that its parts say is the same. -/
structure Same (s t : State) : Prop where
  rest : t = { s with cores := t.cores }
  core : ∀ n, t.core n = s.core n

theorem Same.ctx (q : Same s t) : t.ctx = s.ctx := by
  rw [State.ctx, State.ctxOf, q.core, q.rest]
  rfl

theorem Same.check (q : Same s t) : t.check = s.check := by
  have e := q.ctx
  obtain ⟨hr, hk⟩ := q
  generalize t.cores = cs at hr
  subst hr
  funext va align a
  simp only [State.check, State.checkFor, State.lookup, State.tlbOf, State.ownTile, State.checkPage, hk, e]
  rfl

theorem Same.msgTo (q : Same s t) : t.msgTo = s.msgTo := by
  have e := q.ctx
  obtain ⟨hr, hk⟩ := q
  generalize t.cores = cs at hr
  subst hr
  funext p b
  simp only [State.msgTo, State.issuer, State.lane, State.keyOf, e]

theorem Same.isFlagged (q : Same s t) : t.isFlagged = s.isFlagged := by rw [State.isFlagged, State.isFlagged, q.ctx]

theorem Same.still (q : Same s t) : Still s t := by
  obtain ⟨hr, hk⟩ := q
  generalize t.cores = cs at hr
  subst hr
  exact ⟨rfl, rfl, preempted_of_slots rfl, rfl, rfl, rfl, rfl, rfl, fun n => by rw [hk]; exact {}⟩

theorem Same.mem (q : Same s t) : t.mem = s.mem := by rw [q.rest]

theorem same_setCtx (s : State) : Same s (s.setCtx s.ctx) := ⟨rfl, setCtx_ctx_core s⟩

theorem Clear.same (hc : Clear s k h uses) (hr : k.row = false) (hh : k.hinge = false) : Same s (s.setCtx s.ctx.charge) := by
  rw [(hc.uncharged hr hh).1]
  exact same_setCtx s

theorem send_still (m : Msg) : Still s (s.send m) := by
  have hc : Still s (if m.body.counted then s.countSent m.iss else s) := by
    refine ite_still ?_ (Still.refl s)
    fun_cases State.countSent
    · exact setCore_still {}
    · exact Still.refl s
  have hn (u : State) : Still u (u.numberOut m) := by
    fun_cases State.numberOut
    · exact still_of_cores
    · exact Still.refl u
  exact ite_still ((hc.trans (hn _)).trans still_of_cores) ((hc.trans (hn _)).trans still_of_cores)

theorem foldl_still {α : Type} {f : State → α → State} (hf : ∀ t x, Still t (f t x)) (l : List α) (s : State) : Still s (l.foldl f s) := by
  induction l generalizing s with
  | nil => exact Still.refl s
  | cons x l ih => exact (hf s x).trans (ih _)

/-- A message on its way stays there while others leave, one for each of a list. -/
theorem foldl_keeps_onWay {α : Type} {f : State → α → Msg} {m : Msg} (l : List α) {s : State} (h : OnWay s m) :
    OnWay (l.foldl (fun s y => s.send (f s y)) s) m := by
  induction l generalizing s with
  | nil => exact h
  | cons y l ih => exact ih (onWay_send h _)

/-- Of messages that leave for each of a list, each is on its way. -/
theorem foldl_onWay {α : Type} {f : State → α → Msg} {m : Msg} (l : List α) {x : α} (hx : x ∈ l) {s : State}
    (hm : ∀ t : State, t.pkg = s.pkg → f t x = m) : OnWay (l.foldl (fun s y => s.send (f s y)) s) m := by
  induction l generalizing s with
  | nil => exact absurd hx List.not_mem_nil
  | cons y l ih =>
    obtain rfl | h := List.mem_cons.1 hx
    · exact foldl_keeps_onWay l (hm s rfl ▸ send_onWay _)
    · exact ih h fun t ht => hm t (ht.trans (pkg_of_seat (send_seat _)))

theorem parkAt_finish (hc : r.curCtx < 5) (e : r.ctx = s.ctx) (hu : s.ctx.uncharge = s.ctx) (n : Nat) (w : Wait) :
    (r.parkAt n w).finish h = (r.setCtx { s.ctx with phase := n }).park w := by
  rw [State.parkAt, Eff.finish, ctx_setCtx_same r _ hc, e, uncharge_of_phased hu, setCtx_setCtx]

/-- A context that parks after a step in which all stands still, with its phase. -/
theorem park_phase (hc : s.curCtx < 5) (hf : s.ctx.flagged = false) (q : Still s r) (hm : r.mem = s.mem) (n : Nat) (w : Wait) :
    let t := (r.setCtx { s.ctx with phase := n }).park w
    Parked s t w ∧ t.ctx.phase = n ∧ t.net = r.net ∧ t.outbox = r.outbox := by
  intro t
  have hc' : r.curCtx < 5 := q.curCtx ▸ hc
  have e : (r.setCtx { s.ctx with phase := n }).ctx = { s.ctx with phase := n } := ctx_setCtx_same r _ hc'
  have ht : t.ctx = { s.ctx with phase := n, wait := w, parkedAt := (r.setCtx { s.ctx with phase := n }).me.stamps } := by
    have hp := park_ctx (s := r.setCtx { s.ctx with phase := n }) hc' w
    rw [e] at hp
    exact hp.trans (by simp [hf])
  have hp := (setCtx_frame r { s.ctx with phase := n } hc' (by rw [q.ctx]; constructor <;> rfl) (by rw [q.ctx]; exact ⟨rfl, fun _ => rfl⟩)
    (by rw [q.ctx]; exact fun _ _ => ⟨rfl, rfl⟩)).1
  obtain ⟨f, i, -⟩ := park_frame (r.setCtx { s.ctx with phase := n }) w hc'
  have hi := i.rest
  refine ⟨⟨by rw [ht], by rw [ht], ?_, i.memKept hm⟩, by rw [ht], ?_, ?_⟩
  · exact q.frame.precede (hp.precede f (by rw [e, q.ctx]) (by rw [e, q.ctx]) (by rw [e, q.ctx]; rfl) (by rw [e, q.ctx])
      (by rw [e, q.ctx])) (by rw [q.ctx]) (by rw [q.ctx]) (by rw [q.ctx]) (by rw [q.ctx]) (by rw [q.ctx])
  · rw [show t.net = _ from congrArg State.net hi]
    rfl
  · rw [show t.outbox = _ from congrArg State.outbox hi]
    rfl

end

/-! JOIN, CANCEL and DONE (R149, R150, R146). -/

section
variable {s : State} {h : Head} {a b : Reg} {p : Spot}

/-- JOIN as it is issued first. -/
theorem exec_join (hc : Clear s clsTaskOnly h [ux a, ux b]) (hp : s.ctx.phase = 0) (hl : 0x400000 ≤ (s.ctx.rx a).toNat)
    (hk : s.check (s.ctx.rx a).toNat TlbEntry.cellAlign .anyGroup = .ok p) (ht : p.e.ctype = 6) (hf : s.ctx.flagged = false)
    (hw : (s.ctx.rx b).toNat < 2 ^ (8 * 2 ^ p.e.width)) : let u := s.setCtx s.ctx.charge
    exec (.join h a b) s = .next (if s.ctx.rx b = 0 then (Eff.done u).finish h
      else ((u.request p (.join (s.ctx.rx b).toNat) 32).setCtx { s.ctx with phase := 1 }).park .answer) := by
  have q := hc.same rfl rfl
  intro u
  refine congrArg Host.Outcome.next ((run_clear hc _ true rfl _).trans ?_)
  rw [if_neg (by rw [q.ctx, hp]; decide), if_neg (by rw [q.ctx, isLocal]; simpa using hl), q.check, q.ctx, hk, State.withSpot,
    if_neg (by simp [ht]), if_neg (by rw [q.isFlagged, State.isFlagged]; simp [hf]), apply_ite (Eff.finish · h)]
  have hs : Still u (u.request p (.join (s.ctx.rx b).toNat) 32) := send_still _
  refine if_congr Iff.rfl rfl ?_
  rw [if_neg (Nat.not_le.2 (show (s.ctx.rx b).toNat < 2 ^ (8 * cellBytes 6 p.e.width) from hw))]
  exact parkAt_finish (s := s) (r := u.request p _ 32) (hs.curCtx ▸ hc.here) (q.still.trans hs).ctx (hc.uncharged rfl rfl).2 1 .answer

/-- JOIN that has its answer (R149). -/
theorem exec_join_answered (hc : Clear s clsTaskOnly h [ux a, ux b]) (hp : s.ctx.phase = 1) (hr : s.ctx.reply = some .pass) :
    exec (.join h a b) s = .next ((Eff.done (s.setCtx s.ctx.charge)).finish h) := by
  have q := hc.same rfl rfl
  refine congrArg Host.Outcome.next ((run_clear hc _ true rfl _).trans (congrArg (Eff.finish · h) ?_))
  rw [if_pos (by rw [q.ctx, hp]), q.ctx, hr]

theorem join_parks (hc : Clear s clsTaskOnly h [ux a, ux b]) (hf : s.ctx.flagged = false) (ht : p.e.ctype = 6) (n : Nat) :
    let u := s.setCtx s.ctx.charge
    let t := ((u.request p (.join n) 32).setCtx { s.ctx with phase := 1 }).park .answer
    Parked s t .answer ∧ t.ctx.phase = 1 ∧ OnWay t (s.msgTo p (.want p.pa p.va 6 p.e.width (.join n) 32)) := by
  have q := hc.same rfl rfl
  intro u t
  have hs : Still s (u.request p (.join n) 32) := q.still.trans (send_still _)
  obtain ⟨k, hp, hn, ho⟩ := park_phase hc.here hf hs ((send_mem ..).trans q.mem) 1 .answer
  refine ⟨k, hp, onWay_of_net ?_ hn ho⟩
  rw [← q.msgTo, ← ht]
  exact send_onWay _

/-- CANCEL (R150). -/
theorem exec_cancel (hc : Clear s clsTaskOnly h [ux a]) (h0 : s.ctx.rx a ≠ 0) (hx : (s.ctx.rx a).toNat < 2 ^ 48) :
    exec (.cancel h a) s = .next ((Eff.done ((s.setCtx s.ctx.charge).sendCancel (s.ctx.rx a).toNat s.ctx.slot)).finish h) := by
  have q := hc.same rfl rfl
  refine congrArg Host.Outcome.next ((run_clear hc _ true rfl _).trans (congrArg (Eff.finish · h) ?_))
  dsimp only
  rw [q.ctx, if_neg (not_or.2 ⟨h0, Nat.not_le.2 hx⟩)]

/-- A command that keeps its phase leaves all that a frame sees. -/
theorem onCmd_still {n : Nat} {f : Cmd → Cmd} (hf : ∀ c, (f c).phase = c.phase) : Still s (s.onCmd n f) := by
  fun_cases State.onCmd
  · exact Still.refl s
  · next c e =>
    refine ⟨rfl, rfl, funext fun m => ?_, rfl, rfl, rfl, rfl, rfl, fun m => {}⟩
    obtain rfl | hm := eq_or_ne m n
    · simp [State.preempted, e, hf]
    · simp [State.preempted, slot_setSlot_ne s _ hm]

theorem cmdTiles_onCmd {n : Nat} {f : Cmd → Cmd} (hf : ∀ c, (f c).members = c.members) : (s.onCmd n f).cmdTiles n = s.cmdTiles n := by
  fun_cases State.onCmd
  · rfl
  · next c e => simp [State.cmdTiles, e, hf]

theorem cancelHere_still (i : Issuer) (e n : Nat) : Still s (s.cancelHere i e n) :=
  (onCmd_still (n := n) (f := fun c => { c with cancel := true }) fun _ => rfl).trans (foldl_still (fun _ _ => send_still _) ..)

theorem sendCancel_still (e n : Nat) : Still s (s.sendCancel e n) :=
  (cancelHere_still s.issuer e n).trans (foldl_still (fun _ _ => send_still _) ..)

theorem sendCancel_mem (e n : Nat) : (s.sendCancel e n).mem = s.mem := by
  rw [State.sendCancel, foldl_keeps State.mem (fun _ _ => send_mem ..), State.cancelHere, foldl_keeps State.mem (fun _ _ => send_mem ..)]
  exact onCmd_mem ..

theorem sendCancel_onWay (e k : Nat) {n : Nat} (hn : n ∈ s.cmdTiles k) :
    OnWay (s.sendCancel e k) (msgOf s.issuer s.pkg n 8 0 (.cancel e k n)) := by
  refine foldl_keeps_onWay _ (foldl_onWay _ (by rwa [cmdTiles_onCmd (by exact fun _ => rfl)]) fun t ht => ?_)
  rw [ht, (onCmd_still (by exact fun _ => rfl)).pkg]
  rfl

/-- What completes keeps what is on its way. -/
theorem Inside.onWay (i : Inside s t) {m : Msg} (h : OnWay s m) : OnWay t m :=
  onWay_of_net h (by rw [i.rest]) (by rw [i.rest])

theorem Same.issuer (q : Same s t) : t.issuer = s.issuer := by
  have e := q.ctx
  obtain ⟨hr, hk⟩ := q
  generalize t.cores = cs at hr
  subst hr
  simp only [State.issuer, e]

theorem cancel_effect (hc : Clear s clsTaskOnly h [ux a]) (e k : Nat) : let u := s.setCtx s.ctx.charge
    let t := (Eff.done (u.sendCancel e k)).finish h
    Frame {} s t ∧ MemKept s t 0 0 ∧ Advanced s t ∧
      ∀ n ∈ s.cmdTiles k, OnWay t (msgOf s.issuer s.pkg n 8 0 (.cancel e k n)) := by
  have q := hc.same rfl rfl
  obtain ⟨f, i, ha⟩ := done_still h hc.here (sendCancel_still (s := s.setCtx s.ctx.charge) e k)
  refine ⟨f, i.memKept (sendCancel_mem ..), ha, fun n hn => i.onWay ?_⟩
  rw [← q.issuer]
  exact sendCancel_onWay (s := s.setCtx s.ctx.charge) e k hn

/-- DONE (R146): it waits for results, traps with a faulted one, or waits for its writes. -/
theorem exec_done (hc : Clear s clsTaskOnly h []) : let u := s.setCtx s.ctx.charge
    exec (.done h) s = .next (
      if s.ctx.pending ≠ 0 then (Eff.stay .doneRegs u).finish h
      else match s.ctx.inh, s.ctx.faulted.head? with
        | false, some (n, f) => u.settle.trap f.cause (faultTval n f.va)
        | _, _ => u.park .doneWrites) := by
  have q := hc.same rfl rfl
  refine congrArg Host.Outcome.next ((run_clear (k := { clsTaskOnly with task := true }) hc _ true rfl _).trans ?_)
  dsimp only
  rw [q.ctx, apply_ite (Eff.finish · h), Ctx.firstFault]
  refine if_congr Iff.rfl rfl ?_
  rcases s.ctx.inh with _ | _ <;> rcases s.ctx.faulted with _ | ⟨⟨n, f⟩, l⟩ <;> simp [Eff.finish, tval_eq]

theorem done_parks (hc : Clear s clsTaskOnly h []) (hf : s.ctx.flagged = false) (w : Wait) : let u := s.setCtx s.ctx.charge
    Parked s (u.park w) w ∧ (Eff.stay w u).finish h = u.park w := by
  have q := hc.same rfl rfl
  obtain ⟨k, -⟩ := park_phase hc.here hf q.still q.mem s.ctx.phase w
  have hk : (s.setCtx s.ctx.charge).setCtx s.ctx = s.setCtx s.ctx.charge := by rw [setCtx_setCtx, (hc.uncharged rfl rfl).1]
  rw [hk] at k
  exact ⟨k, by rw [Eff.finish, q.ctx, (hc.uncharged rfl rfl).2, hk]⟩

end

/-- Settles O29: JOIN, CANCEL and DONE each by what they send and where they park. -/
theorem taskRequests : Obligations.TaskRequests := by
  refine fun s h a b hf => ⟨fun p hc hp hl hk ht => ⟨fun h0 => ?_, fun h0 hw => ?_⟩, fun hc hp hr => ?_, fun hc h0 hx => ?_,
    fun hc => ⟨fun hp => ?_, fun hp hn => ?_, fun n f l hp hi hl => ?_⟩⟩
  · exact ⟨_, (exec_join hc hp hl hk ht hf (by rw [show s.ctx.rx b = 0 from h0]; positivity)).trans (by rw [if_pos h0]),
      done_nothing hc.here h⟩
  · exact ⟨_, (exec_join hc hp hl hk ht hf hw).trans (by rw [if_neg h0]), join_parks hc hf ht _⟩
  · exact ⟨_, exec_join_answered hc hp hr, done_nothing hc.here h⟩
  · exact ⟨_, exec_cancel hc h0 hx, cancel_effect hc _ _⟩
  · exact ⟨_, (exec_done hc).trans (by rw [if_pos hp, (done_parks hc hf .doneRegs).2]), (done_parks hc hf .doneRegs).1⟩
  · refine ⟨_, (exec_done hc).trans ?_, (done_parks hc hf .doneWrites).1⟩
    obtain hi | hi := hn <;> simp [hp, hi]
  · exact (exec_done hc).trans (by simp [hp, hi, hl])

end Sys2Proof.Machine
end

section
namespace Sys2Proof.Machine

/-! SPAWN and FORK (R147, R148). -/

section
variable {s t : State} {h : Head} {a : Reg} {r : Rec}

/-- A sound record that its issuer may read is placed. -/
theorem spawning_sound {w : Word} {f : State → Rec → State} (hf : s.isFlagged = false) (hl : LocalOk s w.toNat 64 false)
    (hr : r = { words := bytesWords (readBytes s.mem (localPa s.cur w.toNat) 64), slot := s.ctx.slot }) (ho : r.ok = true)
    (hg : (s.me.groupSlot r.group).isSome = true) : s.spawning w f = .done (f s r) := by
  obtain ⟨-, hk, hm, hp⟩ := hl
  have hb : s.readHere w.toNat 64 = (s, readBytes s.mem (localPa s.cur w.toNat) 64) := if_neg (by simp [hp])
  have hg' : (s.me.groupSlot r.group).isNone = false := by simpa using hg
  simp only [State.spawning, hb, ← hr]
  simp [hf, hk, hm, ho, hg']

theorem localOk_charged {va n : Nat} {b : Bool} (hc : s.curCtx < 5) (hl : LocalOk s va n b) : LocalOk (s.setCtx s.ctx.charge) va n b := by
  have hr : (s.setCtx s.ctx.charge).ctx.role = s.ctx.role := by rw [ctx_setCtx_same s _ hc, charge_role]
  obtain ⟨h0, hk, hm, hp⟩ := hl
  refine ⟨h0, ?_, hm, hp⟩
  rw [State.localOk, State.frameOnly, hr, setCtx_me_xb]
  exact hk

/-- SPAWN of a sound record (R147). -/
theorem exec_spawn (hc : Clear s clsSpawn h [ux a]) (hf : s.isFlagged = false) (hl : LocalOk s (s.ctx.rx a).toNat 64 false)
    (hr : r = { words := bytesWords (readBytes s.mem (localPa s.cur (s.ctx.rx a).toNat) 64), slot := s.ctx.slot }) (ho : r.ok = true)
    (hg : (s.me.groupSlot r.group).isSome = true) : let u := s.setCtx s.ctx.charge
    exec (.spawn h a) s = .next ((Eff.done (u.pushRec s.cur u.issuer r)).finish h) := by
  have e := ctx_setCtx_same s s.ctx.charge hc.here
  refine congrArg Host.Outcome.next ((run_clear hc _ true rfl _).trans (congrArg (Eff.finish · h) ?_))
  rw [e, charge_rx]
  refine spawning_sound (by rw [State.isFlagged, e]; simpa [State.isFlagged] using hf) (localOk_charged hc.here hl) ?_ ho ?_
  · rw [e, hr, charge_slot]
    rfl
  · rw [me_setCtx]
    exact hg

/-- FORK to a target below 1 MiB (R148). -/
theorem exec_fork {o : BitVec 17} (hc : Clear s clsTaskOnly h [ux a, 10, 11, 12, 13, 14, 15]) (hf : s.isFlagged = false)
    (ht : (s.ctx.pc + BitVec.ofInt 64 (4 * o.toInt)).toNat < 0x100000) (hx : (s.ctx.rx a).toNat < 2 ^ 48) : let u := s.setCtx s.ctx.charge
    exec (.fork h a o) s = .next ((Eff.done (u.pushRec s.cur u.issuer
      (s.ctx.forkRec (s.ctx.pc + BitVec.ofInt 64 (4 * o.toInt)).toNat (s.ctx.rx a)))).finish h) := by
  have q := hc.same rfl rfl
  refine congrArg Host.Outcome.next ((run_clear hc _ true rfl _).trans (congrArg (Eff.finish · h) ?_))
  dsimp only
  rw [q.isFlagged, hf, q.ctx, rel_eq, if_neg (by decide), if_neg (by rw [inWindow, decide_eq_true (by omega)]; decide), if_neg (Nat.not_le.2 hx),
    if_neg (Nat.not_le.2 ht)]
  rfl

theorem leftIdle_still (n : Nat) : Still t (s.leftIdle n t) := ite_still (setCore_still {}) (Still.refl t)

/-- A push with room queues the record, and leaves all that a frame sees. -/
theorem pushRec_room {n : Nat} (who : Issuer) (hl : (s.core n).queued.length + ((s.core n).saved.map (·.deque.length)).getD 0 < 1280) :
    Still s (s.pushRec n who r) ∧ (s.pushRec n who r).mem = s.mem ∧ ((s.pushRec n who r).core n).queued = r :: (s.core n).queued := by
  have hn : ¬1280 ≤ (s.core n).deque.length + (s.core n).overflow.length + ((s.core n).saved.map (·.deque.length)).getD 0 := by
    rwa [CoreSt.queued, List.length_append, ← Nat.not_le] at hl
  unfold State.pushRec
  dsimp only
  rw [if_neg hn]
  generalize hb : (if 256 ≤ (s.core n).deque.length then s.bump 0xCA0 else s) = t
  have ht : Still s t := hb ▸ ite_still (bump_still _) (Still.refl s)
  have hk : t.core n = s.core n := by
    rw [← hb]
    split <;> rfl
  have hm : t.mem = s.mem := by
    rw [← hb]
    split <;> rfl
  have hp : CoreStill (t.core n) ((s.core n).pushed r) := by
    obtain ⟨a, b, e⟩ := pushed_eq (r := r) (s.core n)
    rw [hk, e]
    exact {}
  refine ⟨(ht.trans (setCore_still hp)).trans (leftIdle_still n), (leftIdle_keeps State.mem rfl s).trans hm, ?_⟩
  obtain ⟨b, hd⟩ := leftIdle_core (n := n) (s := t.setCore n ((s.core n).pushed r)) s
  rw [hd, core_setCore_same]
  exact pushed_queued _

/-- What a completion leaves queued. -/
theorem Inside.queued (i : Inside s t) : t.me.queued = s.me.queued := by
  rw [i.own]
  rfl

theorem push_effect (h : Head) (hc : s.curCtx < 5) (hl : s.me.queued.length + (s.me.saved.map (·.deque.length)).getD 0 < 1280) (who : Issuer) :
    let t := (Eff.done ((s.setCtx s.ctx.charge).pushRec s.cur who r)).finish h
    t.me.queued = r :: s.me.queued ∧ Frame {} s t ∧ MemKept s t 0 0 ∧ Advanced s t := by
  have hk : (s.setCtx s.ctx.charge).core s.cur = s.me.setCtx s.curCtx s.ctx.charge := me_setCtx ..
  obtain ⟨q, hm, hq⟩ := pushRec_room (s := s.setCtx s.ctx.charge) (n := s.cur) (r := r) who (by rw [hk]; exact hl)
  obtain ⟨f, i, ha⟩ := done_still h hc q
  refine ⟨i.queued.trans ?_, f, i.memKept hm, ha⟩
  rw [State.me, q.cur]
  refine hq.trans ?_
  rw [hk]
  rfl

end

/-! SPAWNAT (R147, R79). -/

section
variable {s t : State} {h : Head} {a : Reg} {r : Rec}

/-- Where the record of SPAWNAT goes. -/
def State.placed (s : State) (r : Rec) : State :=
  if s.arbitrates s.cur 2 && !s.walkHeld s.cur s.issuer r then s.walkAt s.cur s.issuer s.ctx.group r
  else s.send (s.walkMsg s.cur s.issuer s.ctx.group r)

theorem exec_spawnat (hc : Clear s clsTaskOnly h [ux a]) (hf : s.ctx.flagged = false) (hl : LocalOk s (s.ctx.rx a).toNat 64 false)
    (hr : r = { words := bytesWords (readBytes s.mem (localPa s.cur (s.ctx.rx a).toNat) 64), slot := s.ctx.slot }) (ho : r.ok = true)
    (hg : (s.me.groupSlot r.group).isSome = true) :
    exec (.spawnat h a) s = .next ((Eff.done ((s.setCtx s.ctx.charge).placed r)).finish h) := by
  have q := hc.same rfl rfl
  refine congrArg Host.Outcome.next ((run_clear hc _ true rfl _).trans (congrArg (Eff.finish · h) ?_))
  rw [q.ctx]
  refine spawning_sound (by rw [q.isFlagged]; simp [State.isFlagged, hf]) (localOk_charged hc.here hl) ?_ ho ?_
  · rw [q.ctx, hr]
    rfl
  · rw [me_setCtx]
    exact hg

theorem Same.me (q : Same s t) : t.me = s.me := by
  rw [State.me, q.still.cur, q.core]
  rfl

theorem Same.advanced {u : State} (q : Same s t) (h : Advanced t u) : Advanced s u := fun hr he =>
  (h (by rw [q.ctx, hr]) (by rw [q.ctx, he])).trans (by rw [q.ctx])

/-- What the walk of a record asks at its first tile. -/
theorem Same.walk (q : Same s t) : t.arbitrates = s.arbitrates ∧ t.walkHeld = s.walkHeld ∧ t.walkEligible = s.walkEligible ∧
    t.mayChoose = s.mayChoose ∧ t.hintTile = s.hintTile := by
  obtain ⟨hr, hk⟩ := q
  generalize t.cores = cs at hr
  subst hr
  have hw : State.walkEligible { s with cores := cs } = s.walkEligible := by
    funext n f r
    simp only [State.walkEligible, State.takesGroup, State.held, hk]
    rfl
  refine ⟨?_, ?_, hw, rfl, rfl⟩
  · funext n k
    simp only [State.arbitrates, hk]
  · funext n w r
    simp only [State.walkHeld, State.takesGroup, hw, hk]
    rfl

theorem issuer_task (hr : s.ctx.role = .task) : s.issuer.task.core = s.cur := by
  rw [State.issuer, hr]

/-- A record that stays or goes on leaves as a message. -/
theorem send_walk_effect {n : Nat} (hc : Clear s clsTaskOnly h [ux a]) : let u := s.setCtx s.ctx.charge
    let t := (Eff.done (u.send (u.walkMsg n u.issuer u.ctx.group r))).finish h
    t.net = s.net ++ [msgOf s.issuer s.pkg n 8 s.ctx.group (.walk r n)] ∧ Frame {} s t ∧ MemKept s t 0 0 ∧ Advanced s t := by
  have q := hc.same rfl rfl
  intro u t
  obtain ⟨f, i, ha⟩ := done_still (r := u.send (u.walkMsg n u.issuer u.ctx.group r)) h hc.here (send_still _)
  refine ⟨?_, f, i.memKept (send_mem ..), ha⟩
  have hn : t.net = _ := (congrArg State.net i.rest).trans (send_net_here rfl rfl)
  rw [hn, q.issuer, q.ctx]
  rfl

/-- The record stays at its tile. -/
theorem placed_waits (hn : ¬(s.arbitrates s.cur 2 = true ∧ s.walkHeld s.cur s.issuer r = false)) :
    s.placed r = s.send (s.walkMsg s.cur s.issuer s.ctx.group r) := by
  refine if_neg ?_
  simpa using hn

/-- The record goes on towards its hint. -/
theorem placed_passes (hn : s.arbitrates s.cur 2 = true ∧ s.walkHeld s.cur s.issuer r = false) (hr : s.ctx.role = .task)
    (he : s.walkEligible s.cur s.cur r = false) (hh : s.hintTile r s.cur ≠ s.cur) :
    s.placed r = s.send (s.walkMsg (towards s.cur (s.hintTile r s.cur)) s.issuer s.ctx.group r) := by
  refine (if_pos (by simpa using hn)).trans ?_
  rw [State.walkAt, issuer_task hr, he]
  exact if_neg hh.symm

/-- The record starts at its tile. -/
theorem placed_starts {i : Nat} (hn : s.arbitrates s.cur 2 = true ∧ s.walkHeld s.cur s.issuer r = false) (hr : s.ctx.role = .task)
    (he : s.walkEligible s.cur s.cur r = true) (hm : s.mayChoose r.slot s.cur 2 0 = true) (hf : s.me.freeCtx = some i) :
    s.placed r = ((s.chose r.slot s.cur 2 0).arbitrated s.cur 2).startOn s.cur i r := by
  refine (if_pos (by simpa using hn)).trans ?_
  have h0 : manhattan s.cur s.cur = 0 := by simp [manhattan]
  rw [State.walkAt, issuer_task hr, h0, he, hm, show (s.core s.cur).freeCtx = some i from hf]
  rfl

theorem freeCtx_role {c : CoreSt} {i : Nat} (h : c.freeCtx = some i) : (c.ctx i).role = .free := by
  simpa using List.find?_some h

theorem Frame.regs {w : Writes} (f : Frame w s t) : Regs w s t := ⟨f.issuing, f.x, f.v, f.p, f.k, f.status⟩

theorem Regs.trans {u : State} (p : Regs {} s t) (q : Regs {} t u) : Regs {} s u where
  issuing := ⟨q.issuing.1.trans p.issuing.1, q.issuing.2.trans p.issuing.2⟩
  x r h := (q.x r h).trans (p.x r h)
  v r h := (q.v r h).trans (p.v r h)
  p n h := (q.p n h).trans (p.p n h)
  k n h := (q.k n h).trans (p.k n h)
  status n hn h := (q.status n hn h).trans (p.status n hn h)

/-- A task that starts on another context of the issuing core leaves the one that issues. -/
theorem startOn_regs {i : Nat} (hi : s.curCtx ≠ i) : let v := s.startOn s.cur i r
    v.ctx = s.ctx ∧ Regs {} s v := by
  intro v
  obtain ⟨b, hk⟩ := startOn_core (s := s) (n := s.cur) (i := i) r
  have hc : v.cur = s.cur := leftIdle_keeps State.cur rfl s
  have hi' : v.curCtx = s.curCtx := leftIdle_keeps State.curCtx rfl s
  have hm := (show v.me = (s.startOn s.cur i r).core s.cur by rw [State.me, hc]).trans hk
  have e : v.ctx = s.ctx := by
    rw [State.ctx, hi', State.ctxOf, hc, hk, ctx_setCtx_ne _ _ hi]
    rfl
  have hz : v.seat = s.seat := startOn_seat ..
  refine ⟨e, ⟨hc, hi'⟩, fun _ _ => by rw [e], fun _ _ => by rw [e], fun _ _ => by rw [e], fun _ _ => by rw [e], fun n hn _ => ?_⟩
  exact readStatus_of hc (leftIdle_keeps State.quads rfl s) (slots_of_seat hz) (pkg_of_seat hz) (congrArg (fun x => x.2.1) hz)
    (leftIdle_keeps State.cycles rfl s) (by rw [e]) (fun _ => by rw [hm]; rfl) (fun _ => by rw [hm]; rfl) (by rw [hm]; rfl)
    (by rw [hm]; rfl)

/-- A choice of a scheduling point that the arbiter of the issuing core takes leaves all that a frame sees. -/
theorem chose_arbitrated_still (slot tile kind choice rank n : Nat) : Still s ((s.chose slot tile kind choice).arbitrated n rank) := by
  obtain ⟨m, l, hx⟩ := chose_eq (s := s) slot tile kind choice
  rw [hx]
  have h : Still s { s with mem := m, schedLog := l } := still_of_cores
  exact h.trans (setCore_still {})

/-- What completes after a step that leaves the issuing context. -/
theorem done_regs (h : Head) (hc : s.curCtx < 5) (e : t.ctx = s.ctx) (q : Regs {} s t) : let u := (Eff.done t).finish h
    Regs {} s u ∧ Advanced s u ∧ ∀ i, i ≠ s.curCtx → u.ctxOf s.cur i = t.ctxOf s.cur i := by
  have hc' : t.curCtx < 5 := q.issuing.2 ▸ hc
  have ha := (complete_frame t.settle h hc').2.2
  have f := (done_after t h hc').1
  refine ⟨q.trans f.regs, fun hr he => ?_, fun i hi => f.contexts _ _ ?_⟩
  · have hx : t.settle.ctx = s.ctx := e
    exact (ha (by rw [hx]; exact hr) (by rw [hx]; exact he)).trans (by rw [hx])
  · rw [q.issuing.2]
    exact fun x => hi x.2

/-- SPAWNAT of a record that starts at once. -/
theorem start_effect {i : Nat} (hc : s.curCtx < 5) (hr : s.ctx.role = .task) (hf : s.me.freeCtx = some i) :
    let t := (Eff.done (((s.chose r.slot s.cur 2 0).arbitrated s.cur 2).startOn s.cur i r)).finish h
    (t.ctxOf s.cur i).role = .task ∧ (t.ctxOf s.cur i).pc = BitVec.ofNat 64 r.entry ∧ (t.ctxOf s.cur i).rx 10 = wordAt r.words 2 ∧
      (t.ctxOf s.cur i).rx 15 = wordAt r.words 7 ∧ Regs {} s t ∧ Advanced s t := by
  have hi : s.curCtx ≠ i := by
    rintro rfl
    have hx := freeCtx_role hf
    rw [show s.me.ctx s.curCtx = s.ctx from rfl, hr] at hx
    contradiction
  have q : Still s ((s.chose r.slot s.cur 2 0).arbitrated s.cur 2) := chose_arbitrated_still ..
  obtain ⟨e, hg⟩ := startOn_regs (s := (s.chose r.slot s.cur 2 0).arbitrated s.cur 2) (r := r) (i := i) (by rw [q.curCtx]; exact hi)
  rw [q.cur] at e hg
  obtain ⟨g, ha, hx⟩ := done_regs h hc (e.trans q.ctx) (q.frame.regs.trans hg)
  intro t
  obtain ⟨h0, hp, -, -, hw, -⟩ := freshTask_registers (s := (s.chose r.slot s.cur 2 0).arbitrated s.cur 2) (n := s.cur) (i := i) (r := r)
    ((((s.chose r.slot s.cur 2 0).arbitrated s.cur 2).core s.cur).serial + 1)
  rw [show t.ctxOf s.cur i = _ from hx i hi.symm, startOn_ctxOf r ((freeCtx_eq_some hf).trans (by decide))]
  exact ⟨h0, hp, hw 0 (by decide), hw 5 (by decide), g, ha⟩

end

/-- Settles O28: a push at the owner end, or the first step of the record's walk. -/
theorem spawnResults : Obligations.SpawnResults := by
  refine ⟨fun s h a hf hq => ⟨fun r hc hl hr ho hg => ?_, fun o hc ht hx => ?_⟩, fun s h a r hc ht hf hl hm hr ho hg => ?_⟩
  · exact ⟨_, exec_spawn hc hf hl hr ho hg, push_effect h hc.here hq _⟩
  · exact ⟨_, exec_fork hc hf ht hx, push_effect h hc.here hq _⟩
  · have q := hc.same rfl rfl
    obtain ⟨wa, wh, we, wm, wt⟩ := q.walk
    have hu : (s.setCtx s.ctx.charge).ctx.role = .task := by rw [q.ctx, ht]
    have hx := exec_spawnat hc hf hl hr ho hg
    have hs : r.slot = s.ctx.slot := by rw [hr]
    refine ⟨fun i hn he hi => ⟨_, hx, ?_⟩, fun hn => ⟨_, hx, ?_⟩, fun hn he hh => ⟨_, hx, ?_⟩⟩
    · have hi' : (s.setCtx s.ctx.charge).me.freeCtx = some i := by rw [q.me, hi]
      rw [placed_starts (by rw [wa, wh, q.issuer]; exact hn) hu (by rw [we]; exact he) (by rw [wm, hs]; exact hm) hi']
      obtain ⟨h0, hp, h1, h2, hg, ha⟩ := start_effect (h := h) (r := r) (show (s.setCtx s.ctx.charge).curCtx < 5 from hc.here) hu hi'
      exact ⟨h0, hp, h1, h2, q.still.frame.regs.trans hg, q.advanced ha⟩
    · rw [placed_waits (by rw [wa, wh, q.issuer]; exact hn)]
      exact send_walk_effect hc
    · rw [placed_passes (by rw [wa, wh, q.issuer]; exact hn) hu (by rw [we]; exact he) (by rw [wt]; exact hh), wt]
      exact send_walk_effect hc

end Sys2Proof.Machine
end

section
namespace Sys2Proof.Machine

/-! What an answer does at its waiter (R126, R195, R206). -/

section
variable {c : Ctx} {d : Dest} {reg : Nat}

theorem clearPending_getLsbD (n : Nat) : (c.clearPending n).pending.getLsbD n = false := by
  by_cases h : n < 64
  · simp [Ctx.clearPending, h]
  · exact BitVec.getLsbD_of_ge _ _ (by omega)

@[simp] theorem clearPending_rx (n : Nat) (q : Reg) : (c.clearPending n).rx q = c.rx q := rfl

theorem rx_zero (c : Ctx) : c.rx 0 = 0 := rfl

/-- A value that reaches an x register (R126). -/
theorem landX_rx (w : Word) (q : Reg) :
    (c.landX reg w).rx q = if q = 0 then 0 else if q = BitVec.ofNat 5 reg then w else c.rx q := by
  unfold Ctx.landX
  split
  · next h0 =>
    rw [clearPending_rx, h0]
    by_cases hq : q = 0
    · rw [if_pos hq, hq, rx_zero]
    · rw [if_neg hq]
      exact (if_neg hq).symm
  · rw [clearPending_rx, rx_wx]

theorem landX_pending (w : Word) : (c.landX reg w).pending.getLsbD reg = false := by
  unfold Ctx.landX
  split
  · next h0 => rw [h0, clearPending_getLsbD]
  · exact clearPending_getLsbD _

theorem landX_v (w : Word) : (c.landX reg w).v = c.v := by
  unfold Ctx.landX
  split
  · rfl
  · exact wx_v ..

/-- A fault that reaches an x register (R195). -/
theorem landFault_x (cause va : Nat) : let y := c.landFault false reg cause va
    y.rx (BitVec.ofNat 5 reg) = 0 ∧ y.pending.getLsbD reg = false ∧
      look { cause := 0, va := 0 } y.faulted reg = { cause := cause, va := va } := by
  refine ⟨?_, clearPending_getLsbD _, look_setAt_same ..⟩
  refine (rx_wx c (BitVec.ofNat 5 reg) (BitVec.ofNat 5 reg) 0).trans ?_
  rw [if_pos rfl, ite_self]

/-- What landing says of registers, marks and faults. -/
theorem land_registers (c : Ctx) (d : Dest) : let r : Reg := BitVec.ofNat 5 d.reg
    (∀ w, (c.land d (.word w)).rx r = (if r = 0 then 0 else w) ∧ (c.land d (.word w)).pending.getLsbD d.reg = false ∧
      (∀ q, q ≠ r → (c.land d (.word w)).rx q = c.rx q) ∧ (c.land d (.word w)).v = c.v) ∧
    (∀ v, (c.land d (.vec v)).rv r = v ∧ (c.land d (.vec v)).pending.getLsbD (32 + d.reg) = false ∧
      (∀ q, q ≠ r → (c.land d (.vec v)).rv q = c.rv q) ∧ (c.land d (.vec v)).x = c.x) ∧
    (∀ cause va, d.isV = false → (c.land d (.fault cause va 64)).rx r = 0 ∧
      (c.land d (.fault cause va 64)).pending.getLsbD d.reg = false ∧
      look { cause := 0, va := 0 } (c.land d (.fault cause va 64)).faulted d.reg = { cause := cause, va := va }) := by
  refine ⟨fun w => ⟨?_, landX_pending w, fun q hq => ?_, landX_v w⟩, fun v => ⟨?_, clearPending_getLsbD _, fun q hq => ?_, rfl⟩,
    fun cause va hv => ?_⟩
  · exact (landX_rx w _).trans (by rw [if_pos rfl])
  · refine (landX_rx w q).trans ?_
    rw [if_neg hq]
    split
    · next h0 => rw [h0, rx_zero]
    · rfl
  · exact (rv_wv ..).trans (if_pos rfl)
  · exact (rv_wv ..).trans (if_neg hq)
  · rw [show c.land d (.fault cause va 64) = c.landFault false d.reg cause va by simp [Ctx.land, hv]]
    exact landFault_x cause va

end

/-! The task that an answer reaches. -/

section
variable {s t : State} {T : TaskId} {f g : Ctx → Ctx}

/-- What a context says of its task. -/
def Ctx.who (c : Ctx) : Role × Nat × Nat := (c.role, c.serial, c.slot)

theorem sameTask_of_who (h : ∀ c, (f c).who = c.who) : SameTask f where
  role x := congrArg Prod.fst (h x)
  serial x := congrArg (fun w => w.2.1) (h x)
  slot x := congrArg (fun w => w.2.2) (h x)

theorem wx_who (c : Ctx) (r : Reg) (w : Word) : (c.wx r w).who = c.who := by simp [Ctx.who]

theorem landX_who (c : Ctx) (reg : Nat) (w : Word) : (c.landX reg w).who = c.who := by
  unfold Ctx.landX
  split
  · rfl
  · exact wx_who ..

theorem landFault_who (c : Ctx) (isV : Bool) (reg cause va : Nat) : (c.landFault isV reg cause va).who = c.who := by
  cases isV
  · exact wx_who c ..
  · rfl

theorem landGather_who (c : Ctx) (g : Gather) : (c.landGather g).who = c.who := by
  unfold Ctx.landGather
  split
  · rfl
  · dsimp only
    split
    · exact landFault_who ..
    · rfl

theorem landLane_who (c : Ctx) (reg : Nat) (f : Gather → Gather) : (c.landLane reg f).who = c.who := by
  unfold Ctx.landLane
  split
  · rfl
  · exact landGather_who ..

theorem land_who (c : Ctx) (d : Dest) (a : Answer) : (c.land d a).who = c.who := by
  unfold Ctx.land
  split
  case h_1 => exact landX_who ..
  case h_3 => exact landLane_who ..
  case h_4 =>
    split
    · exact landLane_who ..
    · exact landFault_who ..
  all_goals rfl

theorem deliverWord_who (c : Ctx) (q : Nat) (w : Word) : (c.deliverWord q w).1.who = c.who := by
  unfold Ctx.deliverWord
  split
  · rfl
  · dsimp only
    split <;> rfl

/-- Marks on the spilled tasks of a core leave the tasks. -/
theorem taskAt_marks (c : CoreSt) (k : Nat) {g : Spilled → Spilled} (hg : ∀ p, (g p).num = p.num ∧ (g p).ctx = p.ctx) :
    CoreSt.taskAt { c with stamps := k, spilled := c.spilled.map g } T = c.taskAt T := by
  have hs : CoreSt.spilledAt { c with stamps := k, spilled := c.spilled.map g } T = c.spilledAt T := by
    simp only [CoreSt.spilledAt, List.findIdx?_map, Function.comp_def, hg]
  have hi (i : Nat) : ((c.spilled.map g)[i]?).map (·.ctx) = (c.spilled[i]?).map (·.ctx) := by
    simp only [List.getElem?_map, Option.map_map, Function.comp_def, hg]
  simp only [CoreSt.taskAt, hs, hi]
  rfl

theorem stir_taskCtx (n : Nat) : (s.stir n).taskCtx T = s.taskCtx T := by
  unfold State.stir
  dsimp only
  split
  · rfl
  · rw [taskCtx_eq, taskCtx_eq]
    refine if_congr Iff.rfl rfl ?_
    show (State.core (s.setCore n _) T.core).taskAt T = _
    rw [core_setCore]
    split
    · next e =>
      rw [e]
      refine taskAt_marks _ _ fun p => ?_
      split <;> exact ⟨rfl, rfl⟩
    · rfl

theorem leftIdle_taskCtx (n : Nat) : (s.leftIdle n t).taskCtx T = t.taskCtx T := by
  unfold State.leftIdle
  split
  · rw [taskCtx_eq, taskCtx_eq]
    refine if_congr Iff.rfl rfl ?_
    rw [core_setCore]
    split
    · next e =>
      rw [e]
      rfl
    · rfl
  · rfl

/-- A task takes an answer, wherever it is held. -/
theorem wakeTask_told (hf : SameTask f) : Told s (s.wakeTask T f) T f := by
  intro x hx
  obtain ⟨u, hu, hc⟩ := onTask_told hf hx
  rw [State.wakeTask, hu]
  exact leftIdle_taskCtx _ |>.trans ((stir_taskCtx _).trans hc)

theorem Told.mono (h : Told s t T f) (hfg : ∀ c, f c = g c) : Told s t T g := fun x hx => (h x hx).trans (congrArg some (hfg x))

theorem ackHere_told (a : Answer) : Told s (s.ackHere T a) T fun c => c.acked a := by
  intro x hx
  obtain ⟨u, hu, hc⟩ := onTask_told (f := fun c => c.acked a) (sameTask_of_who fun c => by unfold Ctx.acked; split <;> rfl) hx
  rw [State.ackHere, hu]
  exact hc

theorem landed_told (m : Msg) (d : Dest) (a : Answer) : Told s (s.wakeTask T (s.landed m d a)) T (s.landed m d a) := by
  refine wakeTask_told (sameTask_of_who fun c => ?_)
  unfold State.landed
  dsimp only
  split <;> exact land_who ..

/-- A change that is made to a known state of a task. -/
theorem onTask_const {x : Ctx} (hx : s.taskCtx T = some x) : s.onTask T (fun _ => f x) = s.onTask T f := by
  rw [onTask_eq, onTask_eq]
  rw [taskCtx_eq] at hx
  by_cases hp : T.pkg ≠ s.pkg
  · rw [if_pos hp, if_pos hp]
  · rw [if_neg hp] at hx
    rw [if_neg hp, if_neg hp]
    congr 1
    unfold CoreSt.taskAt at hx
    unfold CoreSt.onTaskAt
    split at hx
    · next h => rw [if_pos h, if_pos h, Option.some.inj hx]
    · next h =>
      rw [if_neg h, if_neg h]
      split at hx
      · rw [Option.some.inj hx]
      · obtain ⟨i, hi, hx⟩ := Option.bind_eq_some_iff.1 hx
        obtain ⟨p, hp, rfl⟩ := Option.map_eq_some_iff.1 hx
        rw [hi, Option.bind_some, Option.bind_some, hp]
        rfl

theorem send_taskCtx (m : Msg) : (s.send m).taskCtx T = s.taskCtx T := by
  obtain ⟨k, hk⟩ := send_core (s := s) m T.core
  rw [taskCtx_eq, taskCtx_eq, hk, pkg_of_seat (send_seat m)]
  rfl

/-- An element delivered to a queue of a task that is held. -/
theorem deliverWord_told (i : Issuer) (q : Nat) (w : Word) : Told s (s.deliverWord i q w) i.task fun c => (c.deliverWord q w).1 := by
  intro x hx
  have hf : SameTask fun c => (c.deliverWord q w).1 := sameTask_of_who fun c => deliverWord_who c q w
  obtain ⟨u, hu, hc⟩ := onTask_told hf hx
  have hk : s.onTask i.task (fun _ => (x.deliverWord q w).1) = some u := (onTask_const (f := fun c => (c.deliverWord q w).1) hx).trans hu
  simp only [State.deliverWord, hx, hk, Option.getD_some]
  split
  · exact hc
  · exact (send_taskCtx _).trans hc

/-- The reply of a near-bank run that stands for q5 (R281). -/
theorem landQ5_told (i : Issuer) (w : Word) :
    Told s (s.landQ5 i (.word w)) i.task fun c => ({ c with q5res := c.q5res - 1 }.deliverWord 5 w).1 := by
  intro x hx
  obtain ⟨u, hu, hc⟩ := onTask_told (f := fun c => { c with q5res := c.q5res - 1 }) (sameTask_of_who fun _ => rfl) hx
  rw [State.landQ5, hu]
  exact deliverWord_told i 5 w _ hc

end

/-! Answers that arrive. -/

section
variable {s : State} {n : Nat} {m : Msg} {d : Dest} {a : Answer}

theorem exec_resultArrival (hj : s.due n = some m) (hb : m.body = .result d a) : let u := s.take n m
    exec (.resultArrival n) s = .next (if d.engine then u.landEngine m.cmd d.reg a else if d.reg = 32 then u.landQ5 m.iss a
      else u.land m d a) := by
  change execResultArrival n s = _
  simp only [execResultArrival, hj, hb]

theorem onRun_running {u : State} {core run : Nat} (f : Ctx → Ctx) (h : (u.ctxOf core 4).isRun run = true) :
    u.onRun core run f = u.setCtxOf core 4 (f (u.ctxOf core 4)) := if_pos h

theorem resultArrival_effect (u : State) (m : Msg) (d : Dest) (a : Answer) :
    let mark := fun (c : Ctx) => if u.moreX0 m d then { c with pending := c.pending ||| 1 } else c
    let t := if d.engine then u.landEngine m.cmd d.reg a else if d.reg = 32 then u.landQ5 m.iss a else u.land m d a
    (d.reg < 32 → d.handler = none → Told u t m.iss.task fun c => mark (c.land d a)) ∧
    (∀ p core run, d.reg < 32 → d.handler = some (p, core, run) → (u.ctxOf core 4).isRun run = true →
      t.ctxOf core 4 = mark ((u.ctxOf core 4).land d a)) ∧
    (∀ w, d.reg = 32 → a = .word w → Told u t m.iss.task fun c => ({ c with q5res := c.q5res - 1 }.deliverWord 5 w).1) ∧
    (64 ≤ d.reg → ∀ b, (m.cmd, d.reg, b) ∈ u.fetched → (m.cmd, d.reg, some a) ∈ t.fetched) := by
  intro mark t
  have hx (h : d.reg < 32) : t = u.land m d a := by
    simp only [t, Dest.engine, if_neg (show ¬d.reg = 32 by omega), decide_eq_true_eq, if_neg (show ¬64 ≤ d.reg by omega)]
  refine ⟨fun h hn => ?_, fun p core run h hn hr => ?_, fun w h hw => ?_, fun h b hb => ?_⟩
  · rw [hx h, State.land, hn]
    exact landed_told m d a
  · rw [hx h, State.land, hn]
    show (u.onRun core run (u.landed m d a)).ctxOf core 4 = _
    rw [onRun_running _ hr, core_setCtxOf_ctx _ _ _ _ _ _ (by decide), if_pos ⟨rfl, rfl⟩]
    rfl
  · have ht : t = u.landQ5 m.iss a := by simp [t, Dest.engine, h]
    rw [ht, hw]
    exact landQ5_told m.iss w
  · have ht : t = u.landEngine m.cmd d.reg a := by simp [t, Dest.engine, h]
    rw [ht]
    exact List.mem_map.2 ⟨_, hb, if_pos ⟨rfl, rfl⟩⟩

/-- A parked JOIN has its reply; a register takes what WAKE brings, a fault as a fault of the whole register (R206). -/
def Ctx.woken (d : Dest) (a : Answer) (c : Ctx) : Ctx :=
  if d.reg = 32 then c.replied a
  else match a with
    | .fault cause va _ => c.landFault false d.reg cause va
    | _ => c.land d a

theorem woken_who (c : Ctx) (d : Dest) (a : Answer) : (c.woken d a).who = c.who := by
  unfold Ctx.woken
  split
  · rfl
  · split
    · exact landFault_who ..
    · exact land_who ..

theorem exec_wake (hj : s.due n = some m) (hb : m.body = .wake d a) :
    exec (.wake n) s = .next ((s.take n m).wakeTask m.iss.task (Ctx.woken d a)) := by
  change execWake n s = _
  simp only [execWake, hj, hb] <;> rfl

theorem wake_effect (u : State) (T : TaskId) (d : Dest) (a : Answer) : let t := u.wakeTask T (Ctx.woken d a)
    (∀ w, d.reg < 32 → a = .word w → Told u t T fun c => c.land d a) ∧
    (∀ cause va lane, d.reg < 32 → a = .fault cause va lane → Told u t T fun c => c.landFault false d.reg cause va) ∧
    (d.reg = 32 → Told u t T fun c => { c with reply := some a }) := by
  have h := wakeTask_told (s := u) (T := T) (sameTask_of_who fun c => woken_who c d a)
  refine ⟨fun w hd hw => h.mono fun c => ?_, fun cause va lane hd hw => h.mono fun c => ?_, fun hd => h.mono fun c => if_pos hd⟩
  · rw [hw]
    exact if_neg (by omega)
  · rw [hw]
    exact if_neg (by omega)

theorem exec_mailboxReply (hj : s.due n = some m) (hb : m.body = .mreply a) :
    exec (.mailboxReply n) s = .next ((s.take n m).wakeTask m.iss.task fun c => c.replied a) := by
  change execMailboxReply n s = _
  simp only [execMailboxReply, hj, hb]

theorem exec_boltAck (hj : s.due n = some m) (hb : m.body = .boltAck) :
    exec (.boltAck n) s = .next ((s.take n m).ackHere m.iss.task .pass) := by
  change execBoltAck n s = _
  simp only [execBoltAck, hj, hb]

theorem exec_twinDigest {pa va crc : Nat} {p : Spot} (hj : s.due n = some m) (hb : m.body = .digest pa va crc)
    (hp : (s.take n m).spotOf m.iss.task.slot va = some p) : let u := s.take n m
    exec (.twinDigest n) s = .next (if (s.block pa).bolted = false then s else if u.digest pa p.e.ctype p.e.width = crc then u
      else u.report m.iss 0x2A 8 (BitVec.ofNat 64 va)) := by
  change execTwinDigest n s = _
  simp only [execTwinDigest, hj, hb, hp]
  cases (s.block pa).bolted with
  | false => rfl
  | true => exact (apply_ite Host.Outcome.next ..).symm

end

end Sys2Proof.Machine
end

section
namespace Sys2Proof.Machine

/-! Loads at their home (R192). -/

section
variable {s u : State} {n : Nat} {m : Msg}

theorem bytesNat_lt (l : List Byte) : bytesNat l < 2 ^ (8 * l.length) := by
  induction l with
  | nil => exact Nat.one_pos
  | cons b r ih =>
    have hb := b.isLt
    rw [bytesNat, List.length_cons, Nat.mul_succ, Nat.pow_add]
    omega

/-- A number below 256^n, extended from its byte count to a word: by sign as the two's complement value. -/
theorem extended_eq_bytesValue (sg : Bool) {k v : Nat} (hv : v < 2 ^ (8 * k)) : extended sg k v = bytesValue sg k v := by
  cases sg
  · rfl
  · have hm : (BitVec.ofNat (8 * k) v).msb = v.testBit (8 * k - 1) := by
      rw [BitVec.msb_eq_getLsbD_last, BitVec.getLsbD_ofNat]
      by_cases hk : k = 0
      · subst hk
        simp_all
      · rw [decide_eq_true (by omega), Bool.true_and]
    rw [extended, bytesValue, if_pos rfl, BitVec.toInt_eq_msb_cond, hm, Bool.true_and, BitVec.toNat_ofNat, Nat.mod_eq_of_lt hv]
    split
    · refine BitVec.eq_of_toNat_eq ?_
      rw [BitVec.toNat_ofNat, BitVec.toNat_ofInt]
      by_cases hk : k ≤ 8
      · interval_cases k <;> omega
      · obtain ⟨j, rfl⟩ : ∃ j, k = 8 + j := ⟨k - 8, by omega⟩
        rw [show 8 * (8 + j) = 64 + 8 * j by ring, Nat.pow_add]
        have hp : 0 < 2 ^ (8 * j) := by positivity
        push_cast
        omega
    · exact (BitVec.ofInt_natCast ..).symm

/-- What a home answers to a load that meets no poison. -/
def State.loadReply (s : State) (pa va ty size : Nat) (ch : Chain) (sg : Bool) (d : Dest) (lane : Nat) : Answer :=
  match s.loadAt pa ty size ch with
  | .error cause => .fault cause va lane
  | .ok bytes => loadAnswer size sg d lane bytes

variable {pa va ty size lane : Nat} {ch : Chain} {sg : Bool} {d : Dest}

theorem exec_loadServe (hj : s.due n = some m) (hb : m.body = .load pa va ty size ch sg d lane)
    (hp : (s.take n m).poisoned pa size = false) :
    exec (.loadServe n) s = .next ((s.take n m).replyTo m d ((s.take n m).loadReply pa va ty size ch sg d lane)) := by
  change execLoadServe n s = _
  simp only [execLoadServe, hj, hb, hp, State.loadReply, Bool.and_false, Bool.false_eq_true, if_false]
  cases (s.take n m).loadAt pa ty size ch with
  | error cause => rfl
  | ok bytes => rfl

/-- A load may read: private memory, a constant page, a bolted block, or the written part of a buffer. -/
def State.readable (s : State) (pa ty size : Nat) (ch : Chain) : Prop :=
  ty = 0 ∨ ty = 0xC ∨ (ty ≠ 0xB ∧ (s.block pa).bolted = true) ∨ (ty = 0xB ∧ s.bufReads ch pa size = true)

theorem readCells_plain (h7 : ty ≠ 7) (h8 : ty ≠ 8) (w k : Nat) : s.readCells pa ty w k = readBytes s.mem pa k :=
  if_neg (not_or.2 ⟨h7, h8⟩)

theorem loadAt_readable (h : s.readable pa ty size ch) : s.loadAt pa ty size ch = .ok (s.readCells pa ty ch.width size) := by
  unfold State.loadAt
  dsimp only
  split
  · next h0 => rw [readCells_plain (by omega) (by omega)]
  · next h0 =>
    obtain h | h | ⟨h, hb⟩ | ⟨h, hb⟩ := h
    · exact absurd (.inl h) h0
    · exact absurd (.inr h) h0
    · rw [if_neg h, if_pos hb]
    · rw [if_pos h, if_pos hb, readCells_plain (by omega) (by omega)]

theorem loadAt_not_readable (h : ¬s.readable pa ty size ch) : s.loadAt pa ty size ch = .error (if ty = 0xB then 0x10 else 0x06) := by
  simp only [State.readable, not_or, not_and] at h
  obtain ⟨h0, hc, hb, hr⟩ := h
  unfold State.loadAt
  dsimp only
  rw [if_neg (not_or.2 ⟨h0, hc⟩)]
  split
  · next e => rw [if_neg (hr e)]
  · next e => rw [if_neg (hb e)]

theorem readCells_length (pa ty w k : Nat) : (s.readCells pa ty w k).length = k := by
  unfold State.readCells
  split
  · rw [List.length_map, List.length_range]
  · exact readBytes_length ..

/-- Where the answer to a load goes. -/
def Msg.backTo (m : Msg) (d : Dest) : Nat × Nat :=
  match d.handler with
  | some (p, c, _) => (p, c)
  | none => (m.iss.task.pkg, m.iss.task.core)

theorem replyTo_eq (s : State) (m : Msg) (d : Dest) (a : Answer) :
    s.replyTo m d a = s.send (m.toward (m.backTo d).1 (m.backTo d).2 (.result d a)) := by
  unfold State.replyTo Msg.backTo
  cases d.handler with
  | none => rfl
  | some x => rfl

/-- A home's answer to a load. -/
theorem load_effect (u : State) (m : Msg) (pa va ty size : Nat) (ch : Chain) (sg : Bool) (d : Dest) (lane : Nat) :
    let bytes := u.readCells pa ty ch.width size
    let t := u.replyTo m d (u.loadReply pa va ty size ch sg d lane)
    let back := fun (a : Answer) => OnWay t (m.toward (m.backTo d).1 (m.backTo d).2 (.result d a))
    t.mem = u.mem ∧
      (u.readable pa ty size ch → back (if lane < 64 then .lane lane (bytesNat bytes) else if d.isV then .vec (bytesVec bytes)
        else .word (bytesValue sg size (bytesNat bytes)))) ∧
      (¬u.readable pa ty size ch → back (.fault (if ty = 0xB then 0x10 else 0x06) va lane)) := by
  intro bytes t back
  have hs : back (u.loadReply pa va ty size ch sg d lane) := by
    show OnWay t _
    rw [show t = _ from replyTo_eq ..]
    exact send_onWay _
  refine ⟨?_, fun h => ?_, fun h => ?_⟩
  · rw [show t = _ from replyTo_eq ..]
    exact send_mem ..
  · have hl : bytesNat bytes < 2 ^ (8 * size) := by
      have := bytesNat_lt bytes
      rwa [readCells_length] at this
    rw [← extended_eq_bytesValue sg hl]
    rwa [State.loadReply, loadAt_readable h] at hs
  · rwa [State.loadReply, loadAt_not_readable h] at hs

end
end Sys2Proof.Machine
end

section
namespace Sys2Proof.Machine

/-! Requests at their home (R149, R201, R204, R205). -/

section
variable {s u : State} {n : Nat} {m : Msg} {l : Latch}

theorem onTask_latches {T : TaskId} {f : Ctx → Ctx} {t : State} (h : s.onTask T f = some t) : t.latches = s.latches := by
  revert h
  fun_cases State.onTask <;> rintro ⟨⟩ <;> rfl

@[simp] theorem report_latches (i : Issuer) (cause colour : Nat) (w : Word) : (s.report i cause colour w).latches = s.latches := by
  fun_cases State.report
  · rfl
  · next h =>
    have hl := onTask_latches h
    exact hl
  · rfl
  · obtain ⟨z, hz⟩ := onTally_eq (s := s.bump (0x0A90 + 8 * cause)) i.task.slot i.task.core
      fun y => { y with faults := y.faults.add cause colour w }
    rw [hz]
    rfl

/-- A message that leaves changes no more than what cores count, its lane and the messages on their way. -/
theorem send_eq (s : State) (m : Msg) : ∃ c o k b, s.send m = { s with cores := c, seqOut := o, net := k, outbox := b } := by
  have hc : ∃ c, (if m.body.counted then s.countSent m.iss else s) = { s with cores := c } := by
    split
    · fun_cases State.countSent
      · exact ⟨_, rfl⟩
      · exact ⟨_, rfl⟩
    · exact ⟨_, rfl⟩
  obtain ⟨c, hc⟩ := hc
  have hn : ∃ o, State.numberOut { s with cores := c } m = { s with cores := c, seqOut := o } := by
    fun_cases State.numberOut
    · exact ⟨_, rfl⟩
    · exact ⟨_, rfl⟩
  obtain ⟨o, hn⟩ := hn
  rw [State.send, hc, hn]
  split
  · exact ⟨_, _, _, _, rfl⟩
  · exact ⟨_, _, _, _, rfl⟩

@[simp] theorem send_latches (m : Msg) : (s.send m).latches = s.latches := by
  obtain ⟨c, o, k, b, h⟩ := send_eq s m
  rw [h]

/-- A latch that is made stands last, at the place that its home has (R205). -/
theorem addLatch_effect (l : Latch) : (s.addLatch l).mem = s.mem ∧ (s.addLatch l).latches = s.latches ++ [{ l with place := s.latchPlace l.home }] := by
  generalize hp : s.latchPlace l.home = place
  have h1 (t : State) : (if place = 1 then t.bump 0xCA8 else t).mem = t.mem ∧ (if place = 1 then t.bump 0xCA8 else t).latches = t.latches := by
    split <;> exact ⟨rfl, rfl⟩
  unfold State.addLatch
  dsimp only
  rw [hp]
  split
  · refine ⟨(report_mem ..).trans ?_, (report_latches ..).trans ?_⟩
    · exact (h1 _).1
    · exact (h1 _).2
  · exact h1 _

/-- The answer to a request leaves for its waiter, as a wake or as a mailbox reply. -/
theorem wakeWaiter_effect (l : Latch) (a : Answer) : let t := s.wakeWaiter l a
    t.mem = s.mem ∧ t.latches = s.latches ∧ OnWay t (msgOf l.iss l.iss.task.pkg l.iss.task.core 8 l.group
      (if l.want.mailbox then .mreply a else .wake { isV := false, reg := l.reg } a)) :=
  ⟨send_mem .., send_latches _, send_onWay _⟩

theorem serve_answered {v : State} {a : Answer} (h : s.decideAt l = (v, some a)) (hw : l.want ≠ .grcv) : s.serve l = v.wakeWaiter l a := by
  rw [State.serve, h]
  exact if_neg (by simp [hw])

theorem serve_latched {v : State} (h : s.decideAt l = (v, none)) : s.serve l = v.addLatch l := by
  rw [State.serve, h]

/-- A request that its cell does not allow yet: answered where the block is bolted, else none. -/
def State.notYet (s : State) (l : Latch) : Option Answer := if (s.block l.pa).bolted then some (.fault 0x09 l.va 0) else none

/-- The cell of a request meets no poison. -/
def State.sound (s : State) (l : Latch) : Prop := s.poisoned (cellBase l.ty l.width l.pa) (cellBytes l.ty l.width) = false

theorem decideAt_get {size : Nat} (hq : s.sound l) (hw : l.want = .get size) : let once := s.onceAt (cellBase l.ty l.width l.pa)
    s.decideAt l = (s, if once = 2 then some (.fault 0x13 l.va 0)
      else if once = 1 then some (.word (BitVec.ofNat 64 (readNat s.mem l.pa size))) else s.notYet l) := by
  unfold State.decideAt
  simp only [hw, show s.poisoned _ _ = false from hq, Bool.false_eq_true, if_false]
  split
  · rfl
  · split <;> rfl

theorem decideAt_thr {ts : List Nat} (hq : s.sound l) (hw : l.want = .thr ts)
    (h7 : l.ty ≠ 7 ∨ s.onceAt (cellBase l.ty l.width l.pa) ≠ 2) :
    s.decideAt l = (s, match ts.findIdx? fun t => s.cellPasses l.ty l.width (cellBase l.ty l.width l.pa) t with
      | some i => some (.word (BitVec.ofNat 64 i))
      | none => s.notYet l) := by
  unfold State.decideAt
  simp only [hw, show s.poisoned _ _ = false from hq, Bool.false_eq_true, if_false]
  rw [if_neg (by tauto)]
  cases ts.findIdx? fun t => s.cellPasses l.ty l.width (cellBase l.ty l.width l.pa) t with
  | none => rfl
  | some i => rfl

theorem decideAt_join {c : Nat} (hq : s.sound l) (hw : l.want = .join c) :
    s.decideAt l = (s, if s.cellPasses l.ty l.width (cellBase l.ty l.width l.pa) c then some .pass else s.notYet l) := by
  unfold State.decideAt
  simp only [hw, show s.poisoned _ _ = false from hq, Bool.false_eq_true, if_false]
  split <;> rfl

/-- The waiter has its answer on its way, and nothing at the home has changed. -/
def Woken (u t : State) (l : Latch) (a : Answer) : Prop :=
  t.mem = u.mem ∧ t.latches = u.latches ∧
    OnWay t (msgOf l.iss l.iss.task.pkg l.iss.task.core 8 l.group (.wake { isV := false, reg := l.reg } a))

/-- The request waits as a latch, or is answered where its block is bolted. -/
def Waiting (u t : State) (l : Latch) : Prop :=
  t.mem = u.mem ∧ if (u.block l.pa).bolted then Woken u t l (.fault 0x09 l.va 0) else
    ∃ k : Latch, t.latches = u.latches ++ [k] ∧ k.iss = l.iss ∧ k.home = l.home ∧ k.pa = l.pa ∧ k.va = l.va ∧ k.ty = l.ty ∧
      k.width = l.width ∧ k.want = l.want ∧ k.reg = l.reg ∧ k.place = u.latchPlace l.home

theorem not_grcv_of_not_mailbox (hm : l.want.mailbox = false) : l.want ≠ .grcv := by
  intro h
  rw [h] at hm
  contradiction

theorem serve_woken {a : Answer} (h : u.decideAt l = (u, some a)) (hm : l.want.mailbox = false) : Woken u (u.serve l) l a := by
  rw [serve_answered h (not_grcv_of_not_mailbox hm)]
  have hk := wakeWaiter_effect (s := u) l a
  rw [hm] at hk
  exact hk

theorem serve_waiting (h : u.decideAt l = (u, u.notYet l)) (hm : l.want.mailbox = false) : Waiting u (u.serve l) l := by
  unfold Waiting
  rw [State.notYet] at h
  split
  · next hb =>
    rw [if_pos hb] at h
    have hw := serve_woken h hm
    exact ⟨hw.1, hw⟩
  · next hb =>
    rw [if_neg hb] at h
    rw [serve_latched h]
    obtain ⟨hk, hl⟩ := addLatch_effect (s := u) l
    exact ⟨hk, _, hl, rfl, rfl, rfl, rfl, rfl, rfl, rfl, rfl, rfl⟩

/-- GET at its home (R201). -/
theorem serve_get {size : Nat} (hq : u.sound l) (hw : l.want = .get size) : let once := u.onceAt (cellBase l.ty l.width l.pa)
    (once = 1 → Woken u (u.serve l) l (.word (BitVec.ofNat 64 (readNat u.mem l.pa size)))) ∧
    (once = 2 → Woken u (u.serve l) l (.fault 0x13 l.va 0)) ∧ (once = 0 → Waiting u (u.serve l) l) := by
  have hm : l.want.mailbox = false := by rw [hw]; rfl
  have hd := decideAt_get hq hw
  refine ⟨fun h => serve_woken (hd.trans ?_) hm, fun h => serve_woken (hd.trans ?_) hm, fun h => serve_waiting (hd.trans ?_) hm⟩
  · simp [h]
  · simp [h]
  · simp [h]

/-- The first threshold that passes. -/
theorem findIdx_first {p : Nat → Bool} {ts : List Nat} {i x : Nat} (hi : ts[i]? = some x) (hx : p x = true)
    (hb : ∀ j y, j < i → ts[j]? = some y → p y = false) : ts.findIdx? p = some i := by
  obtain ⟨hl, rfl⟩ := List.getElem?_eq_some_iff.1 hi
  rw [List.findIdx?_eq_some_iff_getElem]
  exact ⟨hl, hx, fun j hj => by simp [hb j _ hj (List.getElem?_eq_getElem (by omega))]⟩

/-- THR at its home (R204). -/
theorem serve_thr {ts : List Nat} (hq : u.sound l) (hw : l.want = .thr ts)
    (h7 : l.ty ≠ 7 ∨ u.onceAt (cellBase l.ty l.width l.pa) ≠ 2) : let passes := u.cellPasses l.ty l.width (cellBase l.ty l.width l.pa)
    (∀ i x, ts[i]? = some x → passes x = true → (∀ j y, j < i → ts[j]? = some y → passes y = false) →
      Woken u (u.serve l) l (.word (BitVec.ofNat 64 i))) ∧ ((∀ x ∈ ts, passes x = false) → Waiting u (u.serve l) l) := by
  have hm : l.want.mailbox = false := by rw [hw]; rfl
  have hd := decideAt_thr hq hw h7
  refine ⟨fun i x hi hx hb => serve_woken (hd.trans ?_) hm, fun hn => serve_waiting (hd.trans ?_) hm⟩
  · rw [findIdx_first hi hx hb]
  · rw [List.findIdx?_eq_none_iff.2 hn]

/-- JOIN at its home (R149). -/
theorem serve_join {c : Nat} (hq : u.sound l) (hw : l.want = .join c) : let passes := u.cellPasses l.ty l.width (cellBase l.ty l.width l.pa)
    (passes c = true → Woken u (u.serve l) l .pass) ∧ (passes c = false → Waiting u (u.serve l) l) := by
  have hm : l.want.mailbox = false := by rw [hw]; rfl
  have hd := decideAt_join hq hw
  refine ⟨fun h => serve_woken (hd.trans ?_) hm, fun h => serve_waiting (hd.trans ?_) hm⟩
  · rw [if_pos h]
  · rw [if_neg (by simp [h])]

variable {pa va ty width reg : Nat} {w : Want}

/-- A request of a task that waits for no answer any more goes. -/
theorem serveWant_dead (hj : s.due n = some m) (hb : m.body = .want pa va ty width w reg) (hd : (s.take n m).wantDead m.iss = true)
    (p : Want → Bool) : s.serveWant n p = s.take n m ∨ s.serveWant n p = s := by
  simp only [State.serveWant, hj, hb, hd, if_true]
  split
  · exact .inl rfl
  · exact .inr rfl

theorem serveWant_live (hj : s.due n = some m) (hb : m.body = .want pa va ty width w reg) (hd : (s.take n m).wantDead m.iss = false)
    (hq : (s.take n m).poisoned (cellBase ty width pa) (cellBytes ty width) = false) {p : Want → Bool} (hp : p w = true) :
    s.serveWant n p = (s.take n m).serve (m.latch (s.take n m).pkg pa va ty width w reg) := by
  simp [State.serveWant, hj, hb, hp, hd, hq]

end
end Sys2Proof.Machine
end

section
namespace Sys2Proof.Machine

/-! Mailbox requests at their home (R328-R331). -/

section
variable {s t u v : State} {n : Nat} {m : Msg} {l : Latch}

/-- What a home keeps of its cells beside their bytes. -/
def State.cellTables (s : State) : Sparse Nat × Sparse MboxCtr := (s.once, s.mboxes)

theorem receivedAll_cellTables (m : Msg) : (s.receivedAll m).cellTables = s.cellTables := by
  have h (u : State) (i : Issuer) : (u.received i).cellTables = u.cellTables := by
    fun_cases State.received <;> rfl
  fun_cases State.receivedAll
  · rw [foldl_keeps State.cellTables fun _ _ => h .., h]
  · rfl

/-- A block seen by another key changes its bytes alone (R38). -/
theorem seen_eq (s : State) (key : Option Word) (pa : Nat) : ∃ a b, s.seen key pa = { s with mem := a, enc := b } := by
  unfold State.seen
  dsimp only
  split
  · exact ⟨_, _, rfl⟩
  · exact ⟨_, _, rfl⟩

theorem seenBy_cellTables (m : Msg) : (s.seenBy m).cellTables = s.cellTables := by
  have h (key : Option Word) (pa : Nat) : (s.seen key pa).cellTables = s.cellTables := by
    obtain ⟨a, b, e⟩ := seen_eq s key pa
    rw [e]
    rfl
  fun_cases State.seenBy
  case case12 => rfl
  all_goals exact h ..

theorem take_cellTables (n : Nat) (m : Msg) : (s.take n m).cellTables = s.cellTables := by
  have hc : (if m.body.atHome then s.chose m.iss.task.slot (logTile m.home) 6 m.place else s).cellTables = s.cellTables := by
    obtain ⟨a, b, h⟩ := chose_eq (s := s) m.iss.task.slot (logTile m.home) 6 m.place
    exact ite_keeps State.cellTables (by rw [h]; rfl) rfl
  have hn (u : State) : (u.numberIn m).cellTables = u.cellTables := by
    fun_cases State.numberIn <;> rfl
  fun_cases State.take
  · exact hc
  · exact (hn _).trans hc
  · exact (seenBy_cellTables m).trans hc
  · exact (seenBy_cellTables m).trans ((receivedAll_cellTables m).trans ((hn _).trans hc))

theorem formOk_tables (h : s.formOk = true) : s.memOk = true ∧ wfFrom 0 0 s.once = true ∧ wfFrom {} 0 s.mboxes = true := by
  simp only [State.formOk, Bool.and_eq_true] at h
  tauto

theorem take_tables (h : s.formOk = true) (n : Nat) (m : Msg) :
    (s.take n m).memOk = true ∧ wfFrom 0 0 (s.take n m).once = true ∧ wfFrom {} 0 (s.take n m).mboxes = true := by
  have ht := take_cellTables (s := s) n m
  obtain ⟨hm, ho, hb⟩ := formOk_tables h
  exact ⟨take_memOk hm, (congrArg (wfFrom 0 0) (congrArg Prod.fst ht)).trans ho, (congrArg (wfFrom {} 0) (congrArg Prod.snd ht)).trans hb⟩

/-! Latches that no decision names. -/

theorem decideAll_idle {p : Latch → Bool} (ls : List Latch) (h : ∀ l ∈ ls, p l = false) : s.decideAll p ls = (s, ls) := by
  induction ls with
  | nil => rfl
  | cons l r ih =>
    rw [State.decideAll, h l List.mem_cons_self, Bool.false_and, if_neg (by decide), ih fun l hl => h l (List.mem_cons_of_mem _ hl)]

/-- No latch is named, and no reservation waits: the latches may move up. -/
theorem redecide_idle (pa : Nat) {p : Latch → Bool} (h : ∀ l ∈ s.latches, p l = false) (hg : ∀ l ∈ s.latches, l.want ≠ .gsnd) :
    ∃ l', s.redecide pa p = { s with latches := l' } := by
  obtain ⟨l', hl⟩ := refill_eq (s := s) (homeOf pa) s.latches.length
  refine ⟨l', ?_⟩
  unfold State.redecide
  rw [decideAll_idle _ h]
  dsimp only
  rw [decideAll_idle s.latches fun l hl => by simp [hg l hl]]
  exact hl

/-! Bytes that have been written. -/

theorem readBytes_of_bytes {mem : List Host.Cell} (bs : List Byte) : ∀ a, (∀ i, i < bs.length → readByte mem (a + i) = bs.getD i 0) →
    readBytes mem a bs.length = bs := by
  induction bs with
  | nil => exact fun _ _ => rfl
  | cons b r ih =>
    intro a h
    rw [List.length_cons, readBytes, ih (a + 1) fun i hi => ?_, show readByte mem a = b from h 0 (by simp)]
    rw [Nat.add_assoc, Nat.add_comm 1 i]
    exact h (i + 1) (by simpa using hi)

theorem readBytes_writeBytes {mem : List Host.Cell} (hm : Memory.wf mem = true) (a : Nat) (bs : List Byte) :
    readBytes (writeBytes mem a bs) a bs.length = bs := by
  refine readBytes_of_bytes bs a fun i hi => ?_
  rw [readByte_writeBytes bs mem a _ hm, if_pos (by omega), Nat.add_sub_cancel_left]

theorem memKept_write (hm : s.memOk = true) {a : Nat} {bs : List Byte} (h : t.mem = writeBytes s.mem a bs) : MemKept s t a bs.length := by
  intro x hx
  rw [h, readByte_writeBytes bs s.mem a x (Bool.and_eq_true_iff.1 hm).1, if_neg hx]

/-! Reservations, deliveries and damping (R329-R331). -/

variable {hd : MboxHead}

theorem decideAt_mailbox (hq : s.sound l) (hh : s.mboxHead l.pa = some hd) : (l.want = .gsnd → s.decideAt l = s.reserve l hd) ∧
    (l.want = .grcv → s.decideAt l = s.deliverSlot l hd) ∧ (l.want = .gdmp → s.decideAt l = (s, some (.damp hd.damp))) := by
  have hs : s.poisoned (cellBase l.ty l.width l.pa) (cellBytes l.ty l.width) = false := hq
  refine ⟨fun hw => ?_, fun hw => ?_, fun hw => ?_⟩ <;> simp only [State.decideAt, hs, hw, hh, Bool.false_eq_true, if_false]

/-- A mailbox reply leaves for its waiter. -/
theorem wakeWaiter_reply (hm : l.want.mailbox = true) (a : Answer) : let t := s.wakeWaiter l a
    OnWay t (msgOf l.iss l.iss.task.pkg l.iss.task.core 8 l.group (.mreply a)) ∧ t.mem = s.mem ∧ t.mboxes = s.mboxes ∧ t.once = s.once := by
  obtain ⟨c, o, k, b, he⟩ : ∃ c o k b, s.wakeWaiter l a = { s with cores := c, seqOut := o, net := k, outbox := b } := send_eq ..
  have hx := (wakeWaiter_effect (s := s) l a).2.2
  rw [hm] at hx
  exact ⟨hx, by rw [he], by rw [he], by rw [he]⟩

/-- GDMP at its home (R331). -/
theorem serve_gdmp (hq : u.sound l) (hh : u.mboxHead l.pa = some hd) (hw : l.want = .gdmp) : let t := u.serve l
    OnWay t (msgOf l.iss l.iss.task.pkg l.iss.task.core 8 l.group (.mreply (.damp hd.damp))) ∧ t.mem = u.mem := by
  have hm : l.want.mailbox = true := by rw [hw]; rfl
  rw [serve_answered ((decideAt_mailbox hq hh).2.2 hw) (by rw [hw]; decide)]
  have hr := wakeWaiter_reply (s := u) hm (.damp hd.damp)
  exact ⟨hr.1, hr.2.1⟩

/-- GSND at a mailbox with a free slot (R329). -/
theorem serve_gsnd (hf : wfFrom {} 0 u.mboxes = true) (hq : u.sound l) (hh : u.mboxHead l.pa = some hd) (hw : l.want = .gsnd)
    (hb : (u.block l.pa).bolted = false) : let t := u.serve l
    let k := look {} u.mboxes l.pa
    (k.pv + 2 ^ 32 - k.cv) % 2 ^ 32 < hd.depth →
    OnWay t (msgOf l.iss l.iss.task.pkg l.iss.task.core 8 l.group (.mreply (.version k.pv hd.dim hd.depth))) ∧
      look {} t.mboxes l.pa = { k with pv := (k.pv + 1) % 2 ^ 32 } ∧ t.mem = u.mem := by
  intro t k hk
  have hm : l.want.mailbox = true := by rw [hw]; rfl
  have hd' : u.decideAt l = ({ u with mboxes := put {} u.mboxes l.pa { k with pv := (k.pv + 1) % 2 ^ 32 } },
      some (.version k.pv hd.dim hd.depth)) := by
    rw [(decideAt_mailbox hq hh).1 hw, State.reserve, if_neg (by simp [hb]), if_pos hk]
  obtain ⟨hx, hmem, hbox, -⟩ := wakeWaiter_reply (s := { u with mboxes := put {} u.mboxes l.pa { k with pv := (k.pv + 1) % 2 ^ 32 } }) hm
    (.version k.pv hd.dim hd.depth)
  have ht : t = _ := serve_answered hd' (by rw [hw]; decide)
  rw [ht]
  exact ⟨hx, by rw [hbox, look_put hf, if_pos rfl], hmem⟩

/-- The mailbox of a delivered slot: the slot holds `bs` and is empty again, and the consumer version has moved on. -/
def State.slotTaken (s : State) (pa slot : Nat) (bs : List Byte) : State :=
  { s with
    mem := writeBytes s.mem slot bs
    poison := s.poison.filter fun u => !covers slot bs.length u
    once := put 0 s.once slot 0
    mboxes := put {} s.mboxes pa { look {} s.mboxes pa with cv := ((look {} s.mboxes pa).cv + 1) % 2 ^ 32 } }

/-- The next slot of a mailbox. -/
def State.nextSlot (s : State) (pa : Nat) (hd : MboxHead) : Nat := pa + 128 * (1 + (look {} s.mboxes pa).cv % hd.depth)

/-- A slot is delivered (R330). -/
theorem deliverSlot_full (hb : (u.block l.pa).bolted = false) (h1 : u.onceAt (u.nextSlot l.pa hd) = 1)
    (hp : u.poisoned (u.nextSlot l.pa hd) 128 = false)
    (hv : Word.field (BitVec.ofNat 64 (readNat u.mem (u.nextSlot l.pa hd) 8)) 63 32 = (look {} u.mboxes l.pa).cv)
    (hdim : Word.field (BitVec.ofNat 64 (readNat u.mem (u.nextSlot l.pa hd) 8)) 2 0 = hd.dim) :
    u.deliverSlot l hd = (u.slotTaken l.pa (u.nextSlot l.pa hd) (List.replicate 128 0),
      some (.slot (readBytes u.mem (u.nextSlot l.pa hd) 128))) := by
  unfold State.nextSlot at *
  rw [State.deliverSlot, if_neg (by simp [hb]), if_neg (by rw [h1]; decide), if_neg (by rw [h1]; decide), if_neg (by simp [hp]),
    if_neg (not_or.2 ⟨not_not.2 hv, not_not.2 hdim⟩)]
  generalize List.replicate 128 (0 : Byte) = bs
  rfl

/-- The answer to GRCV leaves, and no reservation waits for the slot. -/
theorem serve_delivered {bs data : List Byte} {slot : Nat} (ho : wfFrom 0 0 u.once = true) (hf : wfFrom {} 0 u.mboxes = true)
    (hg : ∀ l ∈ u.latches, l.want ≠ .gsnd) (hw : l.want = .grcv) (hd : u.decideAt l = (u.slotTaken l.pa slot bs, some (.slot data))) :
    let t := u.serve l
    OnWay t (msgOf l.iss l.iss.task.pkg l.iss.task.core 8 l.group (.mreply (.slot data))) ∧
      look {} t.mboxes l.pa = { look {} u.mboxes l.pa with cv := ((look {} u.mboxes l.pa).cv + 1) % 2 ^ 32 } ∧ t.onceAt slot = 0 ∧
      t.mem = writeBytes u.mem slot bs := by
  intro t
  have hmb : l.want.mailbox = true := by rw [hw]; rfl
  obtain ⟨hx, hmem, hbox, honce⟩ := wakeWaiter_reply (s := u.slotTaken l.pa slot bs) hmb (.slot data)
  have hl := (wakeWaiter_effect (s := u.slotTaken l.pa slot bs) l (.slot data)).2.1
  obtain ⟨l', hr⟩ := redecide_idle (s := (u.slotTaken l.pa slot bs).wakeWaiter l (.slot data)) l.pa
    (p := fun _ => false) (fun _ _ => rfl) (by rw [hl]; exact hg)
  have ht : t = { (u.slotTaken l.pa slot bs).wakeWaiter l (.slot data) with latches := l' } := by
    rw [show t = u.serve l from rfl, State.serve, hd]
    exact (if_pos (by simp [hw])).trans hr
  refine ⟨by rw [ht]; exact hx, ?_, ?_, by rw [ht]; exact hmem⟩
  · rw [ht]
    refine (congrArg (look {} · l.pa) hbox).trans ?_
    exact (look_put hf ..).trans (if_pos rfl)
  · rw [ht]
    refine (congrArg (look 0 · slot) honce).trans ?_
    exact (look_put ho slot slot 0).trans (if_pos rfl)

/-- GRCV at a mailbox whose next slot is full (R330). -/
theorem serve_grcv (hm : u.memOk = true) (ho : wfFrom 0 0 u.once = true) (hf : wfFrom {} 0 u.mboxes = true) (hq : u.sound l)
    (hh : u.mboxHead l.pa = some hd) (hg : ∀ l ∈ u.latches, l.want ≠ .gsnd) (hw : l.want = .grcv) (hb : (u.block l.pa).bolted = false) :
    let t := u.serve l
    let k := look {} u.mboxes l.pa
    let slot := l.pa + 128 * (1 + k.cv % hd.depth)
    u.onceAt slot = 1 → u.poisoned slot 128 = false → Word.field (BitVec.ofNat 64 (readNat u.mem slot 8)) 63 32 = k.cv →
    Word.field (BitVec.ofNat 64 (readNat u.mem slot 8)) 2 0 = hd.dim →
    OnWay t (msgOf l.iss l.iss.task.pkg l.iss.task.core 8 l.group (.mreply (.slot (readBytes u.mem slot 128)))) ∧
      look {} t.mboxes l.pa = { k with cv := (k.cv + 1) % 2 ^ 32 } ∧ t.onceAt slot = 0 ∧
      readBytes t.mem slot 128 = List.replicate 128 0 ∧ MemKept u t slot 128 := by
  intro t k slot h1 hp hv hdim
  have hd' := ((decideAt_mailbox hq hh).2.1 hw).trans (deliverSlot_full hb h1 hp hv hdim)
  have hn : (List.replicate 128 (0 : Byte)).length = 128 := List.length_replicate
  generalize List.replicate 128 (0 : Byte) = bs at hn hd' ⊢
  obtain ⟨hx, hbox, honce, hmem⟩ := serve_delivered ho hf hg hw hd'
  have hz := readBytes_writeBytes (Bool.and_eq_true_iff.1 hm).1 slot bs
  have hy := memKept_write hm hmem
  rw [hn] at hz hy
  exact ⟨hx, hbox, honce, (congrArg (readBytes · slot 128) hmem).trans hz, hy⟩

end
end Sys2Proof.Machine
end

section
namespace Sys2Proof.Machine

/-! Joins at their home, and what they let pass (R199, R206). -/

section
variable {s t u v w : State} {n : Nat} {m : Msg} {l : Latch} {p : Latch → Bool}

/-- Nothing but messages have left. -/
structure OnlySent (v w : State) : Prop where
  rest : w = { v with cores := w.cores, seqOut := w.seqOut, net := w.net, outbox := w.outbox }
  onWay : ∀ m, OnWay v m → OnWay w m

theorem OnlySent.refl (v : State) : OnlySent v v := ⟨rfl, fun _ h => h⟩

theorem OnlySent.trans (q : OnlySent u v) (r : OnlySent v w) : OnlySent u w :=
  ⟨by rw [r.rest, q.rest], fun m h => r.onWay m (q.onWay m h)⟩

theorem send_sent (s : State) (m : Msg) : OnlySent s (s.send m) := by
  obtain ⟨c, o, k, b, h⟩ := send_eq s m
  exact ⟨by rw [h], fun _ hk => onWay_send hk m⟩

/-- What a home says to a request that is none of a mailbox: an answer, or none while it waits. -/
def State.verdict (s : State) (l : Latch) : Option Answer :=
  let cell := cellBase l.ty l.width l.pa
  if s.poisoned cell (cellBytes l.ty l.width) then s.notYet l
  else match l.want with
  | .get size =>
    if s.onceAt cell = 2 then some (.fault 0x13 l.va 0)
    else if s.onceAt cell = 1 then some (.word (BitVec.ofNat 64 (readNat s.mem l.pa size))) else s.notYet l
  | .thr ts =>
    if l.ty = 7 ∧ s.onceAt cell = 2 then some (.fault 0x13 l.va 0)
    else match ts.findIdx? fun t => s.cellPasses l.ty l.width cell t with
      | some i => some (.word (BitVec.ofNat 64 i))
      | none => s.notYet l
  | .join c => if s.cellPasses l.ty l.width cell c then some .pass else s.notYet l
  | _ => none

/-- A request that is none of a mailbox is decided without a change of the home. -/
theorem decideAt_request (hm : l.want.mailbox = false) : s.decideAt l = (s, s.verdict l) := by
  by_cases hq : s.poisoned (cellBase l.ty l.width l.pa) (cellBytes l.ty l.width) = true
  · simp only [State.decideAt, State.verdict, State.notYet, hq, if_true]
  · have hq' : s.sound l := by simpa [State.sound] using hq
    cases hw : l.want with
    | get size =>
      rw [decideAt_get hq' hw, State.verdict, if_neg hq, hw]
    | thr ts =>
      by_cases h7 : l.ty = 7 ∧ s.onceAt (cellBase l.ty l.width l.pa) = 2
      · simp only [State.decideAt, State.verdict, hw, if_neg hq, if_pos h7]
      · rw [decideAt_thr hq' hw (by tauto), State.verdict, if_neg hq, hw]
        simp only [if_neg h7] <;> rfl
    | join c => rw [decideAt_join hq' hw, State.verdict, if_neg hq, hw]
    | gsnd => simp [hw, Want.mailbox] at hm
    | grcv => simp [hw, Want.mailbox] at hm
    | gdmp => simp [hw, Want.mailbox] at hm

theorem OnlySent.verdict (q : OnlySent v w) : w.verdict l = v.verdict l := by
  rw [q.rest]
  rfl

/-- The message that brings a waiter's answer. -/
def Latch.wakes (l : Latch) (a : Answer) : Msg :=
  msgOf l.iss l.iss.task.pkg l.iss.task.core 8 l.group (.wake { isV := false, reg := l.reg } a)

theorem wakeWaiter_sent (hm : l.want.mailbox = false) (a : Answer) : OnlySent s (s.wakeWaiter l a) ∧ OnWay (s.wakeWaiter l a) (l.wakes a) := by
  have h := (wakeWaiter_effect (s := s) l a).2.2
  rw [hm] at h
  exact ⟨send_sent .., h⟩

/-- Requests decided in turn: all answers are on their way, and nothing else has changed. -/
theorem decideAll_requests (ls : List Latch) (hm : ∀ l ∈ ls, l.want.mailbox = false) {v : State} : let q := v.decideAll p ls
    OnlySent v q.1 ∧ (∀ l ∈ ls, p l = true → l.place ≠ 2 → ∀ a, v.verdict l = some a → OnWay q.1 (l.wakes a)) ∧ ∀ k ∈ q.2, k ∈ ls := by
  induction ls generalizing v with
  | nil => exact ⟨OnlySent.refl v, fun _ h => absurd h List.not_mem_nil, fun _ h => h⟩
  | cons l r ih =>
    have hl := hm l List.mem_cons_self
    have hr : ∀ l ∈ r, l.want.mailbox = false := fun k hk => hm k (List.mem_cons_of_mem _ hk)
    rw [State.decideAll]
    by_cases hp : (p l && l.place ≠ 2) = true
    · rw [if_pos hp, decideAt_request hl]
      cases hv : v.verdict l with
      | some a =>
        obtain ⟨hs, hk⟩ := wakeWaiter_sent (s := v) hl a
        obtain ⟨ho, hd, hmem⟩ := ih hr (v := v.wakeWaiter l a)
        refine ⟨hs.trans ho, fun k hk' hpk hpl b hb => ?_, fun k hk' => List.mem_cons_of_mem _ (hmem k hk')⟩
        obtain rfl | hk' := List.mem_cons.1 hk'
        · rw [hv] at hb
          obtain rfl := Option.some.inj hb
          exact ho.onWay _ hk
        · exact hd k hk' hpk hpl b (hs.verdict.trans hb)
      | none =>
        obtain ⟨ho, hd, hmem⟩ := ih hr (v := v)
        refine ⟨ho, fun k hk' hpk hpl b hb => ?_, fun k hk' => ?_⟩
        · obtain rfl | hk' := List.mem_cons.1 hk'
          · rw [hv] at hb
            contradiction
          · exact hd k hk' hpk hpl b hb
        · exact (List.mem_cons.1 hk').elim (fun e => e ▸ List.mem_cons_self) fun h => List.mem_cons_of_mem _ (hmem k h)
    · rw [if_neg hp]
      obtain ⟨ho, hd, hmem⟩ := ih hr (v := v)
      refine ⟨ho, fun k hk' hpk hpl b hb => ?_, fun k hk' => ?_⟩
      · obtain rfl | hk' := List.mem_cons.1 hk'
        · exact absurd (by simp [hpk, hpl]) hp
        · exact hd k hk' hpk hpl b hb
      · exact (List.mem_cons.1 hk').elim (fun e => e ▸ List.mem_cons_self) fun h => List.mem_cons_of_mem _ (hmem k h)

/-- Latches none of which is a mailbox request, decided again. -/
theorem redecide_requests (pa : Nat) (hm : ∀ l ∈ v.latches, l.want.mailbox = false) : ∃ w l', v.redecide pa p = { w with latches := l' } ∧
    OnlySent v w ∧ ∀ l ∈ v.latches, p l = true → l.place ≠ 2 → ∀ a, v.verdict l = some a → OnWay w (l.wakes a) := by
  obtain ⟨ho, hd, hk⟩ := decideAll_requests (p := p) v.latches hm (v := v)
  have hg : ∀ l ∈ (v.decideAll p v.latches).2, (decide (l.want = .gsnd) && l.pa / 4096 == pa / 4096) = false := fun l hl => by
    have h := hm l (hk l hl)
    rw [decide_eq_false (fun e => by simp [e, Want.mailbox] at h), Bool.false_and]
  generalize hq : v.decideAll p v.latches = q at ho hd hg
  obtain ⟨l', hl⟩ := refill_eq (s := { q.1 with latches := q.2 }) (homeOf pa) q.2.length
  refine ⟨q.1, l', ?_, ho, hd⟩
  unfold State.redecide
  dsimp only
  rw [hq, decideAll_idle q.2 hg]
  exact hl

/-- A scalar join into a cell without poison writes the cell and reports nothing. -/
theorem joinCell_scalar {pa ty width : Nat} {data : List Byte} (ht : ty ∈ [1, 2, 3, 4, 5, 6, 9])
    (hq : u.poisoned (cellBase ty width pa) (cellBytes ty width) = false) :
    ∃ bs, u.joinCell pa ty width data = (u.poke (cellBase ty width pa) bs, none) := by
  simp only [List.mem_cons, List.not_mem_nil, or_false] at ht
  unfold State.joinCell
  dsimp only
  rw [if_neg (by rw [hq]; decide)]
  rcases ht with rfl | rfl | rfl | rfl | rfl | rfl | rfl <;> exact ⟨_, rfl⟩

theorem poisoned_poke {pa k a : Nat} {bs : List Byte} (h : u.poisoned a k = false) : (u.poke pa bs).poisoned a k = false := by
  simp only [State.poisoned, State.poke, List.any_eq_false, List.mem_filter] at h ⊢
  exact fun x hx => h x hx.1

/-- A scalar join that is applied: what it lets pass is on its way to its waiter. -/
theorem applyJoin_wakes {pa va ty width : Nat} {data : List Byte} {ts : List Nat} {i x : Nat} (ht : ty ∈ [1, 2, 3, 4, 5, 6, 9])
    (hb : (u.block pa).bolted = false) (hq : u.poisoned (cellBase ty width pa) (cellBytes ty width) = false)
    (hm : ∀ l ∈ u.latches, l.want.mailbox = false) (hl : l ∈ u.latches) (hp : l.place ≠ 2) (hty : l.ty = ty) (hwd : l.width = width)
    (hc : cellBase ty width l.pa = cellBase ty width pa) (hw : l.want = .thr ts) : let t := u.applyJoin m pa va ty width data
    ts[i]? = some x → t.cellPasses ty width (cellBase ty width pa) x = true →
      (∀ j y, j < i → ts[j]? = some y → t.cellPasses ty width (cellBase ty width pa) y = false) →
      OnWay t (l.wakes (.word (BitVec.ofNat 64 i))) := by
  intro t hi hx hn
  obtain ⟨bs, hj⟩ := joinCell_scalar (data := data) ht hq
  have hx' : t = (u.poke (cellBase ty width pa) bs).redecide pa fun l => l.touches (cellBase ty width pa) := by
    show u.applyJoin m pa va ty width data = _
    rw [State.applyJoin, if_neg (by rw [hb]; decide), hj]
  obtain ⟨w, l', hr, ho, hd⟩ := redecide_requests (p := fun l => l.touches (cellBase ty width pa)) (v := u.poke (cellBase ty width pa) bs) pa hm
  have hpass : t.cellPasses ty width (cellBase ty width pa) = (u.poke (cellBase ty width pa) bs).cellPasses ty width (cellBase ty width pa) := by
    rw [hx', hr, ho.rest]
    rfl
  rw [hpass] at hx hn
  have hs : (u.poke (cellBase ty width pa) bs).sound l := by
    rw [State.sound, hty, hwd, hc]
    exact poisoned_poke hq
  have hv : (u.poke (cellBase ty width pa) bs).verdict l = some (.word (BitVec.ofNat 64 i)) := by
    have h := decideAt_thr hs hw (.inl (by rw [hty]; simp only [List.mem_cons, List.not_mem_nil, or_false] at ht; omega))
    rw [decideAt_request (hm l hl)] at h
    refine (congrArg Prod.snd h).trans ?_
    rw [hty, hwd, hc, findIdx_first hi hx hn]
  rw [hx', hr]
  exact hd l hl (by simp [Latch.touches, hm l hl, hty, hwd, hc]) hp _ hv

end
end Sys2Proof.Machine
end

section
namespace Sys2Proof.Machine

/-! Latches that are tried again (R205). -/

section
variable {s t : State} {n : Nat} {l : Latch} {c : Nat}

/-- A JOIN held for want of space that its cell allows is answered. -/
theorem latchRetry_passes (hl : s.latches[n]? = some l) (hp : l.place = 2) (hw : l.want = .join c) (hq : (s.seen l.key l.pa).sound l)
    (hc : (s.seen l.key l.pa).cellPasses l.ty l.width (cellBase l.ty l.width l.pa) c = true) :
    ∃ t, exec (.latchRetry n) s = .next t ∧ t.latches = removeAt s.latches n ∧ OnWay t (l.wakes .pass) := by
  have hm : l.want.mailbox = false := by rw [hw]; rfl
  have hd := decideAt_join hq hw
  rw [if_pos hc] at hd
  obtain ⟨a, b, hs⟩ := seen_eq s l.key l.pa
  obtain ⟨-, hk, hx⟩ := wakeWaiter_effect (s := { s.seen l.key l.pa with latches := removeAt (s.seen l.key l.pa).latches n }) l .pass
  rw [hm] at hx
  refine ⟨_, ?_, hk.trans (by rw [hs]), hx⟩
  change execLatchRetry n s = _
  simp only [execLatchRetry, hl, hp, hd, hw] <;> rfl

/-- A latch that goes to the overflow list is counted (R205). -/
def State.overflowed (s : State) (place : Nat) : State := if place = 1 then s.bump 0xCA8 else s

theorem overflowed_latches (place : Nat) : (s.overflowed place).latches = s.latches := by
  unfold State.overflowed
  split <;> rfl

/-- One that its cell does not allow yet is latched when there is room. -/
theorem latchRetry_latches (hl : s.latches[n]? = some l) (hp : l.place = 2) (hw : l.want = .join c) (hq : (s.seen l.key l.pa).sound l)
    (hc : (s.seen l.key l.pa).cellPasses l.ty l.width (cellBase l.ty l.width l.pa) c = false)
    (hb : ((s.seen l.key l.pa).block l.pa).bolted = false) (hr : s.latchPlace l.home ≠ 2) :
    ∃ t, exec (.latchRetry n) s = .next t ∧ t.latches = removeAt s.latches n ++ [{ l with place := s.latchPlace l.home }] := by
  have hd := decideAt_join hq hw
  rw [if_neg (by simp [hc]), State.notYet, if_neg (by simp [hb])] at hd
  obtain ⟨a, b, hs⟩ := seen_eq s l.key l.pa
  have hh : (s.seen l.key l.pa).latchPlace l.home = s.latchPlace l.home := by rw [hs]; rfl
  have hv : ((s.seen l.key l.pa).overflowed (s.latchPlace l.home)).latches = s.latches := by rw [overflowed_latches, hs]
  refine ⟨{ (s.seen l.key l.pa).overflowed (s.latchPlace l.home) with
    latches := removeAt ((s.seen l.key l.pa).overflowed (s.latchPlace l.home)).latches n ++ [{ l with place := s.latchPlace l.home }] }, ?_, ?_⟩
  · change execLatchRetry n s = _
    simp only [execLatchRetry, hl, hp, hd, hh, if_neg hr] <;> rfl
  · rw [hv]

end

/-! Walks that end (R41). -/

section
variable {s t : State} {n : Nat} {w : Walk} {e : TlbEntry} {a : Asker}

theorem cachePointers_eq (die slot va : Nat) : ∃ x, s.cachePointers die slot va = { s with pointers := x } := by
  rw [State.cachePointers]
  generalize List.filter _ _ = new
  split
  · exact ⟨_, rfl⟩
  · exact ⟨_, rfl⟩

theorem mem_fillTlb (l : List TlbEntry) {cap : Nat} (h : 0 < cap) : e ∈ fillTlb cap l e := by
  obtain ⟨k, rfl⟩ := Nat.exists_eq_succ_of_ne_zero h.ne'
  exact List.mem_cons_self

theorem tlbOf_setTlb (q k p : Nat) (l : List TlbEntry) :
    (s.setCore q { s.core q with tlb := l }).tlbOf k p = if k = 0 ∧ p = q then l else s.tlbOf k p := by
  unfold State.tlbOf
  rw [core_setCore]
  by_cases hp : p = q
  · subst hp
    by_cases h0 : k = 0
    · simp [h0]
    · simp only [h0, false_and, if_true, if_false]
      rfl
  · simp only [hp, and_false, if_false]
    rfl

theorem tlbOf_setCopyTlb (q k p : Nat) (l : List TlbEntry) :
    (s.setCore q { s.core q with copyTlb := l }).tlbOf k p = if k = 1 ∧ p = q then l else s.tlbOf k p := by
  unfold State.tlbOf
  rw [core_setCore]
  by_cases hp : p = q
  · subst hp
    by_cases h1 : k = 1
    · simp [h1]
    · simp only [h1, false_and, if_true, if_false]
      rfl
  · simp only [hp, and_false, if_false]
    rfl

theorem tlbOf_setQuad (q k p : Nat) (l : List TlbEntry) :
    (s.setQuad q { s.quad q with tlb := l }).tlbOf k p = if (k ≠ 0 ∧ k ≠ 1) ∧ p = q then l else s.tlbOf k p := by
  unfold State.tlbOf
  by_cases h0 : k = 0
  · simp only [h0, ne_eq, not_true, false_and, if_true, if_false]
    rfl
  · by_cases h1 : k = 1
    · simp only [h1, ne_eq, not_true, and_false, false_and, one_ne_zero, if_true, if_false]
      rfl
    · by_cases hp : p = q
      · rw [hp, quad_setQuad_same, if_neg h0, if_neg h1, if_pos ⟨⟨h0, h1⟩, rfl⟩]
      · rw [quad_setQuad_ne _ _ hp, if_neg h0, if_neg h1, if_neg fun x => hp x.2, if_neg h0, if_neg h1]

/-- A fill takes its entry into the TLB that the requester's kind names. -/
theorem fill_tlbOf (k p : Nat) : (s.fill a e).tlbOf k p = s.tlbOf k p ∨ e ∈ (s.fill a e).tlbOf k p := by
  have hi {c : Prop} [Decidable c] {x y : List TlbEntry} (hx : e ∈ x) : (if c then x else y) = y ∨ e ∈ (if c then x else y) := by
    split
    · exact .inr hx
    · exact .inl rfl
  unfold State.fill
  dsimp only
  split_ifs
  · exact .inl rfl
  · rw [tlbOf_setTlb]
    exact hi (mem_fillTlb _ (by decide))
  · rw [tlbOf_setCopyTlb]
    exact hi (mem_fillTlb _ (by decide))
  · rw [tlbOf_setQuad]
    exact hi (mem_fillTlb _ (by decide))

theorem fill_keeps {k p : Nat} (h : e ∈ s.tlbOf k p) : e ∈ (s.fill a e).tlbOf k p :=
  (fill_tlbOf k p).elim (fun q => q.symm ▸ h) id

theorem fill_mem : e ∈ (s.fill a e).tlbOf a.kind a.place := by
  unfold State.fill
  dsimp only
  split_ifs with hc h0 h1
  · exact List.contains_iff_mem.1 hc
  · rw [tlbOf_setTlb, if_pos ⟨h0, rfl⟩]
    exact mem_fillTlb _ (by decide)
  · rw [tlbOf_setCopyTlb, if_pos ⟨h1, rfl⟩]
    exact mem_fillTlb _ (by decide)
  · rw [tlbOf_setQuad, if_pos ⟨⟨h0, h1⟩, rfl⟩]
    exact mem_fillTlb _ (by decide)

/-- Every requester of a walk has its entry. -/
theorem fills_mem (l : List Asker) (ha : a ∈ l) : e ∈ (l.foldl (fun s a => s.fill a e) s).tlbOf a.kind a.place := by
  have hk (l : List Asker) (s : State) (k p : Nat) (h : e ∈ s.tlbOf k p) : e ∈ (l.foldl (fun s a => s.fill a e) s).tlbOf k p := by
    induction l generalizing s with
    | nil => exact h
    | cons b l ih => exact ih _ (fill_keeps h)
  induction l generalizing s with
  | nil => exact absurd ha List.not_mem_nil
  | cons b l ih =>
    obtain rfl | h := List.mem_cons.1 ha
    · exact hk l _ _ _ fill_mem
    · exact ih h

/-- The walks in progress and those that have failed. -/
def State.walkLists (s : State) : List Walk × List WalkFail := (s.walks, s.walkFails)

theorem fill_walkLists (a : Asker) (e : TlbEntry) : (s.fill a e).walkLists = s.walkLists := by
  fun_cases State.fill <;> rfl

/-- A walk that succeeds (R41). -/
theorem endWalk_ok (hw : s.walkBy w.die w.slot w.va = .ok e) : (s.endWalk n w).walkLists = (removeAt s.walks n, s.walkFails) ∧
    ∀ a ∈ w.askers, e ∈ (s.endWalk n w).tlbOf a.kind a.place := by
  obtain ⟨x, hx⟩ := cachePointers_eq (s := { s with walks := removeAt s.walks n }) w.die w.slot w.va
  have h : s.endWalk n w = w.askers.foldl (fun s a => s.fill a e) { s with walks := removeAt s.walks n, pointers := x } := by
    simp only [State.endWalk, hw, hx]
  rw [h]
  exact ⟨foldl_keeps State.walkLists (fun _ _ => fill_walkLists ..) .., fun a ha => fills_mem w.askers ha⟩

/-- A walk that fails (R41). -/
theorem endWalk_error {r : Nat} (hw : s.walkBy w.die w.slot w.va = .error r) : let t := s.endWalk n w
    t.walks = removeAt s.walks n ∧ t.cores = s.cores ∧ t.quads = s.quads ∧
      ∀ a ∈ w.askers, (a.kind = 0 → (s.ctxOf a.place a.ctx).slot = w.slot ∧ (s.ctxOf a.place a.ctx).wait = .xlate w.va) →
        { asker := a, slot := w.slot, va := w.va, reason := r } ∈ t.walkFails := by
  obtain ⟨x, hx⟩ := cachePointers_eq (s := { s with walks := removeAt s.walks n }) w.die w.slot w.va
  intro t
  have h : t = { s with
      walks := removeAt s.walks n
      pointers := x
      walkFails := s.walkFails ++ (w.askers.filter (s.awaits w)).map fun a => { asker := a, slot := w.slot, va := w.va, reason := r } } := by
    show s.endWalk n w = _
    simp only [State.endWalk, hw, hx] <;> rfl
  rw [h]
  refine ⟨rfl, rfl, rfl, fun a ha hk => List.mem_append_right _ (List.mem_map.2 ⟨a, List.mem_filter.2 ⟨ha, ?_⟩, rfl⟩)⟩
  by_cases h0 : a.kind = 0
  · obtain ⟨h1, h2⟩ := hk h0
    simp [State.awaits, h1, h2]
  · simp [State.awaits, h0]

theorem exec_walkComplete (hw : s.walks[n]? = some w) (hr : s.walkRuns n w = true) : exec (.walkComplete n) s = .next (s.endWalk n w) := by
  change execWalkComplete n s = _
  simp only [execWalkComplete, hw, hr, if_true]

end
end Sys2Proof.Machine
end

section
namespace Sys2Proof.Machine

/-! What homes answer, and what answers do (R126, R192-R211, R329-R331, R357). -/

section
variable {s : State} {n : Nat} {m : Msg} {pa va ty width reg : Nat} {w : Want}

theorem exec_joinApply {data : List Byte} {e : Bool} (hj : s.due n = some m) (hb : m.body = .join pa va ty width data e) :
    exec (.joinApply n) s = .next (((s.unmerged n m).take n m).applyJoin m pa va ty width data) := by
  change execJoinApply n s = _
  simp only [execJoinApply, hj, hb]

/-- A request that is served: by GET_SERVE, THR_SERVE or MAILBOX_SERVE, as its kind asks. -/
theorem exec_serves (hj : s.due n = some m) (hb : m.body = .want pa va ty width w reg) (hd : (s.take n m).wantDead m.iss = false)
    (hq : (s.take n m).poisoned (cellBase ty width pa) (cellBytes ty width) = false) : let u := s.take n m
    let t := u.serve (m.latch u.pkg pa va ty width w reg)
    (∀ size, w = .get size → exec (.getServe n) s = .next t) ∧ (∀ ts, w = .thr ts → exec (.thrServe n) s = .next t) ∧
      (∀ c, w = .join c → exec (.thrServe n) s = .next t) ∧ (w.mailbox = true → exec (.mailboxServe n) s = .next t) := by
  refine ⟨fun size hw => ?_, fun ts hw => ?_, fun c hw => ?_, fun hw => ?_⟩
  · change execGetServe n s = _
    exact congrArg Host.Outcome.next (serveWant_live hj hb hd hq (by rw [hw]))
  · change execThrServe n s = _
    exact congrArg Host.Outcome.next (serveWant_live hj hb hd hq (by rw [hw]))
  · change execThrServe n s = _
    exact congrArg Host.Outcome.next (serveWant_live hj hb hd hq (by rw [hw]))
  · change execMailboxServe n s = _
    exact congrArg Host.Outcome.next (serveWant_live hj hb hd hq hw)

theorem exec_serve_dead (hj : s.due n = some m) (hb : m.body = .want pa va ty width w reg) (hd : (s.take n m).wantDead m.iss = true) :
    ∀ i ∈ [Instr.getServe n, .thrServe n, .mailboxServe n], exec i s = .next (s.take n m) ∨ exec i s = .next s := by
  have h (p : Want → Bool) : (Host.Outcome.next (s.serveWant n p) : Out) = .next (s.take n m) ∨
      (Host.Outcome.next (s.serveWant n p) : Out) = .next s :=
    (serveWant_dead hj hb hd p).imp (congrArg _) (congrArg _)
  intro i hi
  simp only [List.mem_cons, List.not_mem_nil, or_false] at hi
  obtain rfl | rfl | rfl := hi
  · change execGetServe n s = _ ∨ execGetServe n s = _
    exact h _
  · change execThrServe n s = _ ∨ execThrServe n s = _
    exact h _
  · change execMailboxServe n s = _ ∨ execMailboxServe n s = _
    exact h _

end

/-- Settles O42: the homes' answers, the landing of answers, the latches that are tried again, and the walks that end. -/
theorem answersHold : Obligations.Answers := by
  refine ⟨fun s n m hj hf => ⟨?load, ?dead, ?want, ?join, ?result, ?wake, ?reply, ?ack, ?digest⟩, fun c d _ => land_registers c d, ?retry, ?walk⟩
  case load =>
    exact fun pa va ty size ch sg d lane hb hp => ⟨_, exec_loadServe hj hb hp, load_effect (s.take n m) m pa va ty size ch sg d lane⟩
  case dead => exact fun pa va ty width w reg hb hd => exec_serve_dead hj hb hd
  case want =>
    intro pa va ty width w reg hb hd hq
    obtain ⟨xg, xt, xj, xm⟩ := exec_serves hj hb hd hq
    obtain ⟨hm, ho, hx⟩ := take_tables hf n m
    have hs : (s.take n m).sound (m.latch (s.take n m).pkg pa va ty width w reg) := hq
    refine ⟨fun size hw => ⟨_, xg size hw, serve_get hs hw⟩, fun ts hw h7 => ⟨_, xt ts hw, serve_thr hs hw h7⟩,
      fun c hw => ⟨_, xj c hw, serve_join hs hw⟩, fun hd hh hg => ⟨fun hw hb hk => ?_, fun hw hb h1 hp hv hdim => ?_, fun hw => ?_⟩⟩
    · exact ⟨_, xm (by rw [hw]; rfl), serve_gsnd hx hs hh hw hb hk⟩
    · exact ⟨_, xm (by rw [hw]; rfl), serve_grcv hm ho hx hs hh hg hw hb h1 hp hv hdim⟩
    · exact ⟨_, xm (by rw [hw]; rfl), serve_gdmp hs hh hw⟩
  case join =>
    intro pa va ty width data e l ts i x hb ht u hbolt hq hm hl hp hty hwd hc hw
    exact ⟨_, exec_joinApply hj hb, applyJoin_wakes ht hbolt hq hm hl hp hty hwd hc hw⟩
  case result => exact fun d a hb => ⟨_, exec_resultArrival hj hb, resultArrival_effect (s.take n m) m d a⟩
  case wake => exact fun d a hb => ⟨_, exec_wake hj hb, wake_effect (s.take n m) m.iss.task d a⟩
  case reply => exact fun a hb => ⟨_, exec_mailboxReply hj hb, wakeTask_told (sameTask_of_who fun _ => rfl)⟩
  case ack => exact fun hb => ⟨_, exec_boltAck hj hb, ackHere_told .pass⟩
  case digest =>
    intro pa va crc p hb hp
    have hx := exec_twinDigest hj hb hp
    refine ⟨fun h => hx.trans (by rw [if_pos h]), fun h hc => hx.trans (by rw [if_neg (by simp [h]), if_pos hc]), fun h hc => ?_⟩
    exact ⟨_, hx.trans (by rw [if_neg (by simp [h]), if_neg hc]), report_told m.iss 0x2A 8 _⟩
  case retry =>
    intro s n l hl hp u c cell hw hcell hq
    subst hcell
    exact ⟨latchRetry_passes hl hp hw hq, latchRetry_latches hl hp hw hq⟩
  case walk =>
    intro s n w hw hr
    refine ⟨_, exec_walkComplete hw hr, ?_, fun e he => ?_, fun r he => (endWalk_error he).2⟩
    · cases hk : s.walkBy w.die w.slot w.va with
      | ok e => exact congrArg Prod.fst (endWalk_ok hk).1
      | error r => exact (endWalk_error hk).1
    · obtain ⟨hk, hm⟩ := endWalk_ok (n := n) he
      refine ⟨congrArg Prod.snd hk, fun a ha => ⟨fun h => ?_, fun h => ?_, fun h => ?_⟩⟩
      · have := hm a ha
        rwa [h] at this
      · have := hm a ha
        rwa [h] at this
      · have := hm a ha
        rwa [h] at this

end Sys2Proof.Machine
end
